-- ==== Sys2Proof/Word.lean ====
section
/-!
DEFINITION. The word types of the package: a byte, and the parcel and stack entry of the stroke sequencer (R165, R168).
-/
namespace Sys2Proof

/-- One byte, the unit of every address of the package (spec/00: memory is little-endian). -/
abbrev Byte := BitVec 8

/-- A parcel of stroke-sequencer code (R166). -/
abbrev Parcel := BitVec 16

/-- An entry of a strand's operand stack (R168). -/
abbrev Cell := BitVec 64

end Sys2Proof
end

