-- ==== Sys2Proof/Syntax.lean ====
section
/-!
DEFINITION. The commands the package takes: one constructor for each row of spec/opcode_table.json, with the operands of the row.
A command is a write or a read of a register, a message, an event on a pin or a link, a timer that expires, or an indivisible step of a
sequencer or engine. An operand that names a physical finding (an ECC result, a sensor reading) is what the hardware observes at that step.
-/
namespace Sys2Proof

/-- A requester that reads or writes registers (R48): the PF, VF n, cox core c of I-die i, or the debug port. -/
inductive Req where
  | pf
  | vf (n : Nat)
  | cox (i c : Nat)
  | debug
deriving DecidableEq, Repr

/-- The number that keys what the package keeps per requester. -/
def Req.id : Req → Nat
  | .pf => 0
  | .vf n => n
  | .cox i c => 128 + 8 * i + c
  | .debug => 200

/-- A register page (R44, R64 to R66, R71). `i` is the I-die, 0 or 1; a tile's instance is 128r + 16c + t and a cluster's 8r + c (R43).
`mbx n` is the mailbox page that VF n sees at VF BAR0 offset 0x2_0000 (R71, R503); `msix f` is function f's MSI-X table (R68, R71). -/
inductive Page where
  | tile (die inst : Nat)
  | clu (die inst : Nat)
  | rgn (die r : Nat)
  | tdie (die : Nat)
  | rope (die s : Nat)
  | hbmc (die s : Nat)
  | d2d (die e : Nat)
  | pcie (i : Nat)
  | eth (i port : Nat)
  | gft (i : Nat)
  | prs (i : Nat)
  | cls (i : Nat)
  | pme (i : Nat)
  | tmg (i : Nat)
  | cvu (i h : Nat)
  | cph (i : Nat)
  | kvt (i : Nat)
  | nvr (i : Nat)
  | cox (i c : Nat)
  | ddr (i ch : Nat)
  | pkg
  | bly
  | tel
  | vf (n : Nat)
  | mbx (n : Nat)
  | msix (f : Nat)
deriving DecidableEq, Repr

/-- The slot of an I-die page (R65). -/
def Page.slotBase (i k : Nat) : Nat := 0x10000000 + i * 0x2000000 + k * 0x8000

/-- The offset of a page in PF BAR0 (R63 to R66). The mailbox pages and MSI-X tables lie in other BARs; here they stand above BAR0. -/
def Page.base : Page → Nat
  | .tile d t => d * 0x2000000 + (t / 128) * 0x100000 + (t / 16 % 8) * 0x20000 + (t % 16) * 0x2000
  | .clu d c => d * 0x2000000 + 0x1040000 + c * 0x2000
  | .rgn d r => d * 0x2000000 + 0x1000000 + r * 0x2000
  | .tdie d => d * 0x2000000 + 0x1800000
  | .rope d s => d * 0x2000000 + 0x1800000 + (1 + s) * 0x8000
  | .hbmc d s => d * 0x2000000 + 0x1800000 + (4 + s) * 0x8000
  | .d2d d e => d * 0x2000000 + 0x1800000 + (7 + e) * 0x8000
  | .pcie i => Page.slotBase i 0
  | .eth i p => Page.slotBase i (1 + p)
  | .gft i => Page.slotBase i 5
  | .prs i => Page.slotBase i 6
  | .cls i => Page.slotBase i 7
  | .pme i => Page.slotBase i 8
  | .tmg i => Page.slotBase i 9
  | .cvu i h => Page.slotBase i (10 + h)
  | .cph i => Page.slotBase i 12
  | .kvt i => Page.slotBase i 13
  | .nvr i => Page.slotBase i 14
  | .cox i c => Page.slotBase i (15 + c)
  | .ddr i ch => Page.slotBase i (23 + ch)
  | .pkg => 0x14000000
  | .bly => 0x14001000
  | .tel => 0x14002000
  | .vf n => 0x14010000 + n * 0x1000
  | .mbx n => 0x20000000 + n * 0x1000
  | .msix f => 0x21000000 + f * 0x8000

/-- What the error code finds in the words an operation reads (R135, R141): byte addresses in the indirect space of R156, each with whether the
error is uncorrectable. -/
abbrev Ecc := List (Nat × Bool)

/-- How a completion for a host read ends (R477). -/
inductive CplResult where
  | success | unsupported | abort
deriving DecidableEq, Repr

/-- A source of wake events (R491). -/
inductive WakeSource where
  | mgmt | link | alarm | crew
deriving DecidableEq, Repr

/-- A setting in a function's configuration space that the device acts on and that has no command of its own (R469, R470, R487, R491, R494). -/
inductive CfgField where
  | maxPayload | maxReadRequest | pmeEnable | pmeStatus | atomicEnable | l0pEnable | l1Enable | functionMask
deriving DecidableEq, Repr

/-- What a register write reaches: `width` bits at an offset of a page, or a configuration setting of a function. -/
inductive RegTarget where
  | page (p : Page) (off width : Nat)
  | cfg (func : Nat) (c : CfgField)
deriving DecidableEq, Repr

/-- What training finds on a DDR5 channel (R298): I-die and channel, how many DIMMs, whether they are MRDIMMs, the capacity of each in GiB, and the
lowest rate in MT/s for which one of them is rated. -/
structure Dimm where
  i : Nat
  ch : Nat
  count : Nat
  mrdimm : Bool
  sizeGib : Nat
  rated : Nat
deriving DecidableEq, Repr

/-- The parameters of CREATE_QUEUE (R508). -/
structure QueueArgs where
  typ : Nat
  base : Nat
  size : Nat
  cq : Nat
  vector : Nat
  part : Nat
  member : Nat
  modCount : Nat
  modUs : Nat
deriving DecidableEq, Repr

/-- The parameters of REGISTER_MEMORY (R331, R506): address, length, permissions and allowed peer, and for a re-registration the key. -/
structure KeyArgs where
  addr : Nat
  len : Nat
  perm : Nat
  allow : Nat
  key : Option Nat
deriving DecidableEq, Repr

/-- A path of a connection at its creation (R323): its port (4 x I-die + port), UDP source port, remote address and station address. -/
structure PathArgs where
  port : Nat
  udp : Nat
  ip : Nat
  mac : Nat
deriving DecidableEq, Repr

/-- The parameters of CREATE_CONN (R319, R322, R323, R506), with what both ends must agree on: peer package, its number of the connection, class, order,
nonce, addressing, VLAN and DSCP, key slots (transmit, receive), REINJECT, token target (die, tile, channel), paths, and the first PSN of each side. -/
structure ConnArgs where
  peer : Nat
  rconn : Nat
  cls : Nat
  strict : Bool
  nonce : Nat
  v6 : Bool
  ip : Nat
  vlan : Option Nat
  dscp : Nat
  enc : Option (Nat × Nat)
  reinject : Bool
  tok : Option (Nat × Nat × Nat)
  paths : List PathArgs
  psn : Nat
  peerPsn : Nat
deriving DecidableEq, Repr

/-- A request of R506 as its parameters give it, with the number that firmware chooses for a new object: the queue's number and the place of the
function's device-resident queue memory, the memory key's index, the connection. -/
inductive MbxReq where
  | createQueue (a : QueueArgs) (q mem : Nat)
  | destroyQueue (q : Nat)
  | attachPartition (tag : Nat)
  | detachPartition (tag : Nat)
  | setMac (port addr : Nat)
  | registerMemory (a : KeyArgs) (idx : Nat)
  | deregisterMemory (key : Nat)
  | createConn (a : ConnArgs) (id : Nat)
  | destroyConn (id : Nat)
deriving DecidableEq, Repr

/-- A member of a crew as CREW_FORM names it (R36, R38, R553): its index, package ID, designated partner, and the area there for its belay store. -/
structure MemberArgs where
  index : Nat
  pkg : Nat
  partner : Option Nat
  addr : Nat
  len : Nat
deriving DecidableEq, Repr

/-- The word that a belay store writes for an increment (R556, R559): the pitch it acknowledges, RESEND, or a refusal for want of room. -/
inductive AckWord where
  | pitch (p : Nat)
  | resend
  | refused
deriving DecidableEq, Repr

/-- What of a region's logic faults (R21, R163): a cluster's rope tap or router, the region controller, or the region's clock or supply. -/
inductive RegionPart where
  | tap
  | router
  | controller
  | supply
deriving DecidableEq, Repr


/-- The commands of the package, one for each row of spec/opcode_table.json. -/
inductive Instr where
  /-- REGISTER_WRITE (R41): A write to a register that has no row of its own stores the field under its access type, or is refused as R41 gives. -/
  | registerWrite (r : Req) (t : RegTarget) (value : Nat)
  /-- CTRL_HALT (R50): A write of CTRL.HALT asks the block to halt at its next item boundary, or resumes it when written 0. -/
  | ctrlHalt (r : Req) (p : Page) (v : Nat)
  /-- HALT_AT_BOUNDARY (R202): The block reaches its item boundary with CTRL.HALT set and sets STATUS.HALTED. -/
  | haltAtBoundary (p : Page)
  /-- CNT_RESET (R49): A write of CTRL.CNT_RESET sets every counter of the page to zero at one instant. -/
  | cntReset (r : Req) (p : Page)
  /-- COMMIT_GO (R52): A write of COMMIT.GO copies the shadow group into a pending copy, sets BUSY and assigns COMMIT.TARGET, or sets COMMIT_OVERLAP when BUSY is 1. -/
  | commitGo (r : Req) (p : Page)
  /-- COMMIT_CHECK (R53): The block checks the pending copy against its consistency rules and reports COMMIT_ERR on a failure. -/
  | commitCheck (p : Page)
  /-- COMMIT_APPLY (R54): At the next boundary a checked, unarmed pending copy takes effect and GEN.APPLIED becomes TARGET. -/
  | commitApply (p : Page)
  /-- GENERATION_DRAINED (R55): The last item of GEN.OLDEST leaves the block, OLDEST becomes APPLIED, and a held commit may then apply. -/
  | generationDrained (p : Page)
  /-- ERR_STAT_CLEAR (R45): A W1C write to ERR_STAT clears bits, and ERR_FIRST clears when ERR_STAT becomes all zero. -/
  | errStatClear (r : Req) (p : Page) (mask : Nat)
  /-- IRQ_STAT_CLEAR (R46): A W1C write to IRQ_STAT clears interrupt causes and may release MGMT_INT#. -/
  | irqStatClear (r : Req) (p : Page) (mask : Nat)
  /-- RC_READ (R6): A read of an RC register returns its value and clears it. -/
  | rcRead (r : Req) (p : Page) (off : Nat)
  /-- COUNTER_LOW_READ (R48): A 32-bit read of a counter's low word latches its high word for that requester. -/
  | counterLowRead (r : Req) (p : Page) (idx : Nat) (withReset : Bool)
  /-- LEASE_OWNER_WRITE (R58): A write of LEASE_OWNER with the current epoch takes or releases the lease, or sets LEASE_STALE on a wrong epoch. -/
  | leaseOwnerWrite (r : Req) (p : Page) (idx word : Nat)
  /-- LEASE_BREAK (R60): A write of LEASE_BREAK with the current epoch on an ORPHAN lease enters BREAKING and starts quiescing the resource. -/
  | leaseBreak (r : Req) (p : Page) (idx word : Nat)
  /-- LEASE_BREAK_DONE (R60): The resource has quiesced; the agent becomes owner, EPOCH increments and the lease is HELD. -/
  | leaseBreakDone (p : Page) (idx : Nat)
  /-- MEMBER_WINDOW_ACCESS (R67): An access to a member window is proxied over the fabric in class 1 to the member's selected slice. -/
  | memberWindowAccess (write : Bool) (m off value : Nat)
  /-- MEMBER_WINDOW_TIMEOUT (R67): A proxied access unanswered after 1 ms completes with all ones or is discarded and sets MBR_TIMEOUT. -/
  | memberWindowTimeout (k : Nat)
  /-- BAR4_ACCESS (R69): A BAR4 access is mapped through its window to device memory, or refused and BAR4_UNMAPPED set. -/
  | bar4Access (write : Bool) (off : Nat) (data : List Byte) (len : Nat) (finds : List (Nat × Nat))
  /-- DOORBELL_WRITE (R68): A doorbell write sets a queue's new tail or head index, or puts the queue into ERROR on a bad index. -/
  | doorbellWrite (f q value : Nat)
  /-- QUEUE_ENTRY_FETCH (R508): The device fetches a submission entry from a queue and hands it to its block. -/
  | queueEntryFetch (f q : Nat)
  /-- WAVE_GO (R90): A write of PKG_WAVE.GO starts a package commit wave and sends DISTRIBUTE to every island holding an armed page. -/
  | waveGo (r : Req)
  /-- WAVE_ACCEPT (R90): An armed page, once checked and holding one generation, installs its copy under E+1 and answers ACCEPT or FAIL. -/
  | waveAccept (p : Page)
  /-- WAVE_TIMEOUT (R90): An answer still missing 100 ms after GO aborts the wave with TIMEOUT. -/
  | waveTimeout
  /-- WAVE_EPOCH_DRAINED (R90): No item tagged E remains at an armed page, so GEN.OLDEST becomes GEN.APPLIED. -/
  | waveEpochDrained (p : Page)
  /-- PLL_RESTART (R73): An island's PLL restarts, its counter continues and it writes STAMP_RESUME. -/
  | pllRestart (isl : Nat)
  /-- REGION_CLOCK_CHANGE (R619): A region's clock changes at a cycle boundary after its voltage settles and a VF_CHANGE cairn entry is written. -/
  | regionClockChange (n r : Nat)
  /-- CORR_BEACON (R75): The beacon period expires, the package-global island sends a beacon to every island and increments PKG_CORR_SEQ. -/
  | corrBeacon
  /-- CORR_ECHO (R75): An island's echo arrives, is stamped, and a correlation record is written. -/
  | corrEcho (isl seq arrival : Nat)
  /-- CORR_ECHO_TIMEOUT (R76): An island that has not echoed within 100 µs is recorded with echo stamp 0. -/
  | corrEchoTimeout (seq : Nat)
  /-- D2D_FLIT_REPLAY (R79): A D2D flit fails its CRC and the link replays it by link-level retry. -/
  | d2dFlitReplay (n e : Nat)
  /-- D2D_LANE_FAIL (R16): A D2D lane fails, its module runs at half width or is disabled, and the counters and cairn record it. -/
  | d2dLaneFail (n e m lane : Nat)
  /-- D2D_LINK_DOWN (R18): A D2D link loses all its modules; firmware raises a belay stop, rewrites routes and replays affected pitches. -/
  | d2dLinkDown (n e : Nat)
  /-- REGION_REINIT (R22): Firmware re-initialises a region, zeroing anchor stores and clearing buffers, strands, token hold and counters. -/
  | regionReinit (n r : Nat)
  /-- REGION_READMIT (R23): Firmware re-admits a fenced region after its self-test passes. -/
  | regionReadmit (n r : Nat) (passed : Bool) (test : Nat)
  /-- TILE_FAULT (R153): A tile faults: it stops issue, records the fault, its region is fenced and a belay stop is raised. -/
  | tileFault (die inst code : Nat) (strand : Option Nat)
  /-- CBUF_UE (R162): An uncorrectable cluster-buffer error is a fault of its region. -/
  | cbufUe (die c addr : Nat)
  /-- HBM_STACK_LOSS (R25): A fault removes an HBM stack or a T-die's supply or clock, and recovery treats it as loss of the package. -/
  | hbmStackLoss (n : Nat) (stack : Option Nat)
  /-- PITCH_REPLAY (R272): Firmware replays a pitch from its start, on the same or fallback placement, within 1.5 ms. -/
  | pitchReplay (part : Nat) (blocks : List (Nat × List Byte))
  /-- MM_EXECUTE (R124): The array begins and performs an MM descriptor in its loop order. -/
  | mmExecute (die inst : Nat) (ecc : Ecc) (parity : Bool)
  /-- VEC_EXECUTE (R127): The vector unit begins and performs a VEC descriptor with the function that VFN selects. -/
  | vecExecute (die inst : Nat) (ecc : Ecc)
  /-- MOVE_EXECUTE (R144): The move unit begins and copies M rows in the direction that MOVE_DIR selects. -/
  | moveExecute (die inst : Nat) (ecc : Ecc) (finds : List (Nat × Nat))
  /-- TSUM_EXECUTE (R144): The vector unit performs one addition of the partial-sum tree. -/
  | tsumExecute (die inst : Nat) (ecc : Ecc)
  /-- TMASK_EXECUTE (R279): The vector unit applies a sweep tree-mask to attention scores. -/
  | tmaskExecute (die inst : Nat) (ecc : Ecc)
  /-- MESH_WRITE_ARRIVE (R147): A mesh write arrives at a tile and is performed or refused with REFUSED_WRITE. -/
  | meshWriteArrive (k : Nat) (ecc : Ecc)
  /-- TOKEN_WRITE_ARRIVE (R189): A token write arrives and is applied, held in the token hold, or discarded as stale. -/
  | tokenWriteArrive (k : Nat)
  /-- TOKEN_DELIVER (R186): Once the strand's earlier writes are acknowledged, the tokens of a SIGNAL or SIGNALR are delivered. -/
  | tokenDeliver (die inst strand : Nat)
  /-- ANCHOR_SCRUB (R136): The scrub interval expires and the tile reads and checks one anchor-store word. -/
  | anchorScrub (die inst : Nat) (ecc : Option Bool)
  /-- STALL_TIMEOUT (R151): A strand's stall timer reaches its limit and the tile faults with STALL. -/
  | stallTimeout (die inst strand : Nat)
  /-- TILE_MEM_ACCESS (R156): An access to TILE_MEM_DATA reads or writes the indirect window, correcting or reporting ECC errors. -/
  | tileMemAccess (r : Req) (die inst : Nat) (write : Bool) (width : Nat) (high : Bool) (value : Nat) (ecc : Option Bool)
  /-- TILE_DONE (R150): Every listed strand is DONE and every unit queue is empty with writes acknowledged, so the tile reports DONE. -/
  | tileDone (die inst : Nat)
  /-- TAP_DELIVERY_ARRIVE (R225): A delivery arrives at a cluster tap and is applied, held for a later pitch or attempt, or discarded. -/
  | tapDeliveryArrive (die c k : Nat)
  /-- TAP_DELIVERY_BEGIN (R159): The named landing buffer is EMPTY in every tile of the mask, so the tap begins delivering into it. -/
  | tapDeliveryBegin (die c k : Nat)
  /-- GRANULE_VALID (R226): A granule's bytes are written and its blocks have passed, so it becomes valid and waiting readers proceed. -/
  | granuleValid (die c k g : Nat)
  /-- NOP (R169): The strand retires an instruction that does nothing. -/
  | nop (die inst strand : Nat)
  /-- DUP (R169): Copies S0. -/
  | dup (die inst strand : Nat)
  /-- DROP (R169): Discards S0. -/
  | drop (die inst strand : Nat)
  /-- SWAP (R169): Exchanges S0 and S1. -/
  | swap (die inst strand : Nat)
  /-- OVER (R169): Copies S1 to the top. -/
  | overW (die inst strand : Nat)
  /-- ROT (R169): Rotates the top three entries. -/
  | rot (die inst strand : Nat)
  /-- PICK (R169): Pushes a copy of stack entry i. -/
  | pick (die inst strand : Nat)
  /-- LIT (R169): Pushes an 8-bit value zero-extended. -/
  | lit (die inst strand : Nat)
  /-- LITS (R169): Pushes an 8-bit value sign-extended. -/
  | lits (die inst strand : Nat)
  /-- ADD (R169): Adds S1 and S0 modulo 2^64. -/
  | addW (die inst strand : Nat)
  /-- SUB (R169): Subtracts S0 from S1 modulo 2^64. -/
  | subW (die inst strand : Nat)
  /-- MUL (R169): Pushes the low 64 bits of the product. -/
  | mulW (die inst strand : Nat)
  /-- AND (R169): Bitwise AND of the top two entries. -/
  | andW (die inst strand : Nat)
  /-- OR (R169): Bitwise OR of the top two entries. -/
  | orW (die inst strand : Nat)
  /-- XOR (R169): Bitwise exclusive-or of the top two entries. -/
  | xorW (die inst strand : Nat)
  /-- NOT (R169): Bitwise complement of S0. -/
  | notW (die inst strand : Nat)
  /-- SHL (R169): Logical left shift by S0 mod 64. -/
  | shl (die inst strand : Nat)
  /-- SHR (R169): Logical right shift by S0 mod 64. -/
  | shr (die inst strand : Nat)
  /-- SAR (R169): Arithmetic right shift by S0 mod 64. -/
  | sar (die inst strand : Nat)
  /-- EQ (R169): Pushes 1 when the top two entries are equal. -/
  | eqW (die inst strand : Nat)
  /-- LTU (R169): Pushes 1 when S1 < S0 unsigned. -/
  | ltu (die inst strand : Nat)
  /-- LTS (R169): Pushes 1 when S1 < S0 as two's complement. -/
  | lts (die inst strand : Nat)
  /-- SHLI (R169): Logical left shift by an immediate. -/
  | shli (die inst strand : Nat)
  /-- SHRI (R169): Logical right shift by an immediate. -/
  | shri (die inst strand : Nat)
  /-- ADDS (R169): Adds a sign-extended 8-bit immediate. -/
  | adds (die inst strand : Nat)
  /-- SKIPZ (R178): When c is 0, passes over the next k instructions after checking their encodings. -/
  | skipz (die inst strand : Nat)
  /-- SKIPNZ (R178): When c is not 0, passes over the next k instructions after checking their encodings. -/
  | skipnz (die inst strand : Nat)
  /-- LEXIT (R176): Leaves the innermost loop. -/
  | lexit (die inst strand : Nat)
  /-- LEXITNZ (R176): Leaves the innermost loop when c is not 0. -/
  | lexitnz (die inst strand : Nat)
  /-- LCNT (R169): Pushes the LCT of a loop level. -/
  | lcnt (die inst strand : Nat)
  /-- END (R177): The strand enters DONE and its loop state is discarded. -/
  | endStrand (die inst strand : Nat)
  /-- AGLD (R184): Writes a register of an address generator. -/
  | agld (die inst strand : Nat)
  /-- AGST (R169): Pushes a register of an address generator. -/
  | agst (die inst strand : Nat)
  /-- AGMODE (R169): Sets the WRAP and BREV flags of an address generator. -/
  | agmode (die inst strand : Nat)
  /-- AGA (R181): Pushes the generator's address without advancing it. -/
  | aga (die inst strand : Nat)
  /-- AGAP (R182): Pushes the generator's address and then advances it. -/
  | agap (die inst strand : Nat)
  /-- AGADV (R182): Advances an address generator. -/
  | agadv (die inst strand : Nat)
  /-- ISSUE (R190): Checks descriptor d and copies it into its unit queue, or holds the slot when the queue is full. -/
  | issue (die inst strand : Nat)
  /-- DPATCH (R191): Writes one word of a descriptor in the table. -/
  | dpatch (die inst strand : Nat)
  /-- DPATCHD (R191): Writes two words of a descriptor in the table. -/
  | dpatchd (die inst strand : Nat)
  /-- LDW (R192): Reads a 64-bit anchor-store word through a view. -/
  | ldw (die inst strand : Nat) (ecc : Ecc)
  /-- STW (R192): Writes a 64-bit anchor-store word through a view. -/
  | stw (die inst strand : Nat) (ecc : Ecc)
  /-- LBWAIT (R194): Waits until a landing buffer is FULL. -/
  | lbwait (die inst strand : Nat)
  /-- LBREL (R194): Releases a landing buffer, or faults LB_EARLY_RELEASE when it is FILLING. -/
  | lbrel (die inst strand : Nat)
  /-- BRCLD (R169): Writes BRC. -/
  | brcld (die inst strand : Nat)
  /-- BRCST (R169): Pushes BRC. -/
  | brcst (die inst strand : Nat)
  /-- SID (R169): Pushes the strand number. -/
  | sid (die inst strand : Nat)
  /-- PITCH (R169): Pushes TILE_PITCH_NUM.PITCH. -/
  | pitchNum (die inst strand : Nat)
  /-- LIT16 (R169): Pushes a 16-bit immediate zero-extended. -/
  | lit16 (die inst strand : Nat)
  /-- LITS16 (R169): Pushes a 16-bit immediate sign-extended. -/
  | lits16 (die inst strand : Nat)
  /-- LITH (R169): Shifts S0 left 16 and ORs in the immediate. -/
  | lith (die inst strand : Nat)
  /-- ADDI (R169): Adds a sign-extended 16-bit immediate. -/
  | addi (die inst strand : Nat)
  /-- LOOP (R173): Enters a hardware loop whose count is taken from S0. -/
  | loopN (die inst strand : Nat)
  /-- LOOPI (R173): Enters a hardware loop whose count is the immediate. -/
  | loopi (die inst strand : Nat)
  /-- SCOPY (R196): Copies one element between generator addresses, or starts a counted run. -/
  | scopy (die inst strand : Nat) (ecc : Ecc)
  /-- SSPLAT (R196): Stores the low bytes of S0 at the GB address, or starts a counted run. -/
  | ssplat (die inst strand : Nat) (ecc : Ecc)
  /-- SMATCH (R196): Compares the elements at GA and GB, or starts a counted run that ends at a difference. -/
  | smatch (die inst strand : Nat) (ecc : Ecc)
  /-- STRING_RUN_ELEMENT (R198): A strand with a string run holds the slot and performs one more element, decrementing BRC. -/
  | stringRunElement (die inst strand : Nat) (ecc : Ecc)
  /-- WAIT (R185): Consumes tokens from a channel or enters WAIT_TOKEN. -/
  | wait (die inst strand : Nat)
  /-- SIGNAL (R186): Raises tokens on a channel of this tile after earlier writes are acknowledged. -/
  | signal (die inst strand : Nat)
  /-- SIGNALR (R186): Raises tokens on a channel of another tile. -/
  | signalr (die inst strand : Nat)
  /-- ISSUEI (R190): Issues the descriptor named by the immediate. -/
  | issuei (die inst strand : Nat)
  /-- ROPE_DELIVER (R216): An engine fetches a DELIVER entry, reads, checks, converts and delivers stored weights to the taps. -/
  | ropeDeliver (die st e ctx : Nat)
  /-- ROPE_STAGE (R227): An engine fetches a STAGE entry and copies whole stored blocks with new side-table entries. -/
  | ropeStage (die st e ctx : Nat)
  /-- ROPE_SELECT (R231): An engine fetches a SELECT entry and begins polling its selection record. -/
  | ropeSelect (die st e ctx : Nat)
  /-- ROPE_SELECT_POLL (R231): The poll interval expires, the engine reads the record and accepts it when TAG matches and CONSUMED is 0. -/
  | ropeSelectPoll (die st e ctx : Nat) (finds : List (Nat × Nat))
  /-- ROPE_SEL_TIMEOUT (R231): No record is accepted within ROPE_SEL_LIMIT and the engine faults. -/
  | ropeSelTimeout (die st e ctx : Nat)
  /-- ROPE_END (R210): The engine performs END and, once every write and token is acknowledged, reports LIST_DONE. -/
  | ropeEnd (die st e ctx : Nat)
  /-- ROPE_BLOCK_CHECK (R221): A stored block completes in the stage buffer and is checked, retried, read from the alternate or repaired. -/
  | ropeBlockCheck (die st e ctx : Nat) (finds : List (Nat × Nat)) (answers : List (Option (List Byte × Nat))) (transient : Bool)
  /-- ROPE_FAULT (R237): An engine faults, stops the list, records the fault and raises a belay stop. -/
  | ropeFault (die st e ctx code : Nat)
  /-- ROPE_LIST_MOVE (R238): Firmware loads a fenced engine's lists into context 1 of a partner engine and replays. -/
  | ropeListMove (die st e : Nat)
  /-- LOAD (R259): A LOAD command checks a schedule image and loads it into the partition. -/
  | load (f q : Nat)
  /-- RUN (R261): A RUN command queues pitches of the sequence for the partition, optionally resuming a FAILED one. -/
  | run (f q : Nat)
  /-- STOP (R264): A STOP command lets the running pitch commit and aborts later pending pitches. -/
  | stop (f q : Nat)
  /-- UNLOAD (R260): An UNLOAD command releases the leases and image area when no RUN is pending. -/
  | unload (f q : Nat)
  /-- PITCH_COMMIT (R266): When every condition of R265 holds, the pitch controller sends COMMIT(p, a). -/
  | pitchCommit (part : Nat)
  /-- REGION_COMMIT (R161): A region controller receives COMMIT, commits line maps, captures counters, applies staged commits and answers COMMITTED. -/
  | regionCommit (die r : Nat)
  /-- PITCH_START (R266): On every COMMITTED the pitch controller increments the pitch and sends START, and regions and engines begin it. -/
  | pitchStart (part : Nat)
  /-- HBM_READ (R292): The HBM controller performs a read, correcting or poisoning the line as its code requires. -/
  | hbmRead (addr len : Nat) (move : Bool) (finds : List (Nat × Nat))
  /-- HBM_WRITE (R293): The HBM controller performs a write, clearing poison on a whole-line write or dropping a partial one. -/
  | hbmWrite (addr : Nat) (data : List Byte)
  /-- HBM_SCRUB (R296): The scrub period schedules the next line and the controller reads and checks it. -/
  | hbmScrub (die stack syms : Nat)
  /-- DDR_READ (R301): A DDR5 channel performs a read with its ECC, poison and encryption rules. -/
  | ddrRead (addr len : Nat) (move : Bool) (finds : List (Nat × Nat))
  /-- DDR_WRITE (R301): A DDR5 channel performs a write with its ECC, poison and encryption rules. -/
  | ddrWrite (addr : Nat) (data : List Byte)
  /-- DDR_SCRUB (R301): The DDR5 scrub period schedules the next line and the channel reads and checks it. -/
  | ddrScrub (die ch syms : Nat)
  /-- DDR_XTS_WRITE (R303): A write of DDR_XTS sets encryption and slot, or is refused on a part without cipher engines. -/
  | ddrXtsWrite (r : Req) (die ch value : Nat)
  /-- DDR_XTS_RESUME (R304): A write of DDR_XTS_RESUME.GO checks the slot's key against DDR_XTS_KCV and clears KEY_LOST on a match. -/
  | ddrXtsResume (r : Req) (die ch : Nat)
  /-- PORT_UP (R348): An Ethernet link comes up and PORT_UP is raised. -/
  | portUp (die p : Nat)
  /-- PORT_DOWN (R312): A lane loses lock or codewords exceed the limit, the port goes down and unacknowledged packets on its paths are lost. -/
  | portDown (die p cause lanes : Nat)
  /-- PORT_NARROWED (R312): The port retrains at a narrower mode without failed lanes. -/
  | portNarrowed (die p : Nat)
  /-- FEC_WINDOW (R312): A 1 ms FEC window ends and its counts may raise FEC_DEGRADE or take the port down. -/
  | fecWindow (die p corrected uncorrectable : Nat)
  /-- GFT_WRITE (R335): A GFT queue WRITE request is accepted and split into packets. -/
  | gftWrite (f q : Nat)
  /-- GFT_READ (R335): A GFT queue READ request is accepted and a READ_REQ sent. -/
  | gftRead (f q : Nat)
  /-- GFT_SEND (R335): A GFT queue SEND request is accepted and split into packets. -/
  | gftSend (f q : Nat)
  /-- GFT_FETCH_ADD (R335): A GFT queue FETCH_ADD request is accepted and sent. -/
  | gftFetchAdd (f q : Nat)
  /-- GFT_CMP_SWAP (R335): A GFT queue CMP_SWAP request is accepted and sent. -/
  | gftCmpSwap (f q : Nat)
  /-- GFT_REDUCE (R335): A GFT queue REDUCE request is accepted and its contributions sent. -/
  | gftReduce (f q : Nat)
  /-- GFT_POST_RECV (R335): A receive buffer is posted on the connection and completes at once. -/
  | gftPostRecv (f q : Nat)
  /-- GFT_PACKET_SEND (R347): The connection's window and pacing allow a packet, which is sealed, given an ICV and sent on a path. -/
  | gftPacketSend (conn : Nat)
  /-- RX_WRITE (R340): A WRITE packet is checked and placed, or a summit held until CUM_PSN reaches it. -/
  | rxWrite (die : Nat)
  /-- RX_READ_REQ (R335): A READ_REQ packet is checked and the target sends response packets. -/
  | rxReadReq (die : Nat)
  /-- RX_READ_RESP (R335): A READ_RESP packet is checked and its data placed at the requester. -/
  | rxReadResp (die : Nat)
  /-- RX_SEND (R337): A SEND packet lands in the head receive buffer, or enters the pipeline on a REINJECT connection. -/
  | rxSend (die : Nat)
  /-- RX_FETCH_ADD (R336): A FETCH_ADD packet is executed once at the target and its old value kept. -/
  | rxFetchAdd (die : Nat)
  /-- RX_CMP_SWAP (R336): A CMP_SWAP packet is executed once at the target and its old value kept. -/
  | rxCmpSwap (die : Nat)
  /-- RX_ATOMIC_RESP (R335): An ATOMIC_RESP packet places the old value at the requester and completes the atomic. -/
  | rxAtomicResp (die : Nat)
  /-- RX_REDUCE (R343): A REDUCE packet is applied, staged, acknowledged as duplicate or answered NAK by round and rank. -/
  | rxReduce (die : Nat)
  /-- RX_APPLIED (R344): An APPLIED packet completes the requester's REDUCE for its group, round and rank. -/
  | rxApplied (die : Nat)
  /-- RX_ACK (R329): An ACK advances acknowledgement, updates RTT and the congestion window. -/
  | rxAck (die : Nat)
  /-- RX_NAK (R328): A NAK makes the requester fail or resend the request by its code. -/
  | rxNak (die : Nat)
  /-- RX_PROBE (R324): A PROBE arrives and a PROBE_REPLY is sent on the same path index. -/
  | rxProbe (die : Nat)
  /-- RX_PROBE_REPLY (R324): A PROBE_REPLY returns a SUSPECT or DOWN path toward GOOD. -/
  | rxProbeReply (die : Nat)
  /-- ACK_DELAY_EXPIRY (R329): ACK_DELAY_NS passes since the first unacknowledged placement and an ACK is sent. -/
  | ackDelayExpiry (conn : Nat)
  /-- RTO_EXPIRY (R330): The RTO expires, the packet is declared lost and retransmitted, or the connection enters ERROR. -/
  | rtoExpiry (conn psn : Nat)
  /-- RNR_DELAY_EXPIRY (R328): RNR_DELAY_US passes after an RNR or BUSY NAK and the packet is resent with its PSN. -/
  | rnrDelayExpiry (conn psn : Nat)
  /-- BUSY_LIMIT_EXPIRY (R328): 100 ms of continuous BUSY fails the request with REMOTE_BUSY and the connection enters ERROR. -/
  | busyLimitExpiry (conn psn : Nat)
  /-- PROBE_TIMEOUT (R324): No PROBE_REPLY arrives within TIMEOUT_US and a SUSPECT path becomes DOWN. -/
  | probeTimeout (conn path : Nat)
  /-- PROBE_INTERVAL (R324): The probe interval of a DOWN path expires and a PROBE is sent. -/
  | probeInterval (conn path : Nat)
  /-- CONTEXT_FETCH_DONE (R320): A connection context arrives from the bivouac and packets held in the miss buffer proceed. -/
  | contextFetchDone (die conn : Nat)
  /-- CONN_MOVE (R325): Firmware moves ownership of a connection with no usable path to the other I-die. -/
  | connMove (conn : Nat) (ports : List (Nat × Nat)) (slots : Option (Nat × Nat))
  /-- FRAME_RECEIVE (R354): A receive MAC takes a frame, checks FCS, stamps and tags it, and puts it in its input FIFO or drops it. -/
  | frameReceive (die p : Nat) (bytes : List Byte) (bad : Nat)
  /-- FRAME_DISPATCH (R354): The dispatcher hands one whole frame to the next idle parse engine. -/
  | frameDispatch (die : Nat)
  /-- FRAME_PARSE (R355): A parse engine parses the headers, drops malformed frames, picks slow-path causes and builds the key. -/
  | frameParse (die engine : Nat)
  /-- FRAME_LOOKUP (R362): The frame is looked up in up to four table groups. -/
  | frameLookup (die input seq : Nat)
  /-- REORDER_RELEASE (R359): The reorder stage releases an input's frames in sequence order. -/
  | reorderRelease (die input : Nat)
  /-- REORDER_TIMEOUT (R359): A missing sequence number times out and is skipped. -/
  | reorderTimeout (die input : Nat)
  /-- FRAME_EDIT (R371): Policers, counters and edits are applied to the frame. -/
  | frameEdit (die : Nat)
  /-- PME_SCAN (R377): The pattern matcher scans the frame's payload for its flow and applies the rule's action. -/
  | pmeScan (die : Nat)
  /-- FRAME_DISPOSITION (R372): The frame is enqueued, delivered, placed, tunnelled, dropped or punted as its entry says. -/
  | frameDisposition (die : Nat) (scanned : Bool)
  /-- PLACEMENT_HEADER_WRITE (R373): After the slot data is acknowledged the I-die writes the slot header, increments P and raises the token. -/
  | placementHeaderWrite (die k : Nat)
  /-- CLS_TBL_WRITE (R367): A write of CLS_TBL_DATA stores a word, and a word-3 write commits, clears or refuses the entry. -/
  | clsTblWrite (r : Req) (die width value : Nat)
  /-- CLS_TBL_READ (R366): A read of CLS_TBL_DATA returns the selected word and may advance WORD. -/
  | clsTblRead (r : Req) (die width : Nat)
  /-- CLS_FCNT_READ (R383): A read of CLS_FCNT_PKTS returns frames and latches the bytes. -/
  | clsFcntRead (r : Req) (die : Nat)
  /-- TM_ENQUEUE (R388): A frame reaches an egress queue and is admitted, marked, refused or dropped. -/
  | tmEnqueue (die : Nat)
  /-- TM_ADMIT_RETRY (R388): Room returns and a waiting host or transport frame is admitted. -/
  | tmAdmitRetry (die p q : Nat)
  /-- TM_TRANSMIT (R390): The port can take a frame and the traffic manager chooses and starts the next frame. -/
  | tmTransmit (die p : Nat) (blocked : List Nat)
  /-- GATE_ENTRY_CHANGE (R395): PTP time reaches the next gate-list entry and the gates change. -/
  | gateEntryChange (die p : Nat)
  /-- GATE_LIST_TAKEOVER (R397): A pending gate list takes over at its first cycle start. -/
  | gateListTakeover (die p : Nat)
  /-- PTP_STEP (R398): The port's PTP clock steps by more than 1 µs and the gate position is recomputed. -/
  | ptpStep (die p : Nat) (delta : Int)
  /-- TM_SAMPLE (R403): The sampling interval expires and every queue's depth is recorded. -/
  | tmSample (die : Nat)
  /-- TMG_SAMP_DATA_READ (R404): A read of TMG_SAMP_DATA latches the whole selected ring entry. -/
  | tmgSampDataRead (r : Req) (die : Nat)
  /-- ETH_TX (R509): An Ethernet TX entry sends a frame to a traffic-manager queue and completes. -/
  | ethTx (f q : Nat)
  /-- SSD_UP (R412): An SSD becomes ready and SSD_UP is raised. -/
  | ssdUp (p lanes gen : Nat)
  /-- SSD_LINK_DOWN (R412): A root-port link goes down and is retrained once, or SSD_LOST is raised. -/
  | ssdLinkDown (p : Nat) (retrained : Option (Nat × Nat))
  /-- SSD_MEMORY_REQUEST (R413): An SSD memory request is served in its stage slots or refused with Unsupported Request. -/
  | ssdMemoryRequest (p : Nat) (write : Bool) (slot off len : Nat) (data : List Byte)
  /-- BLOCK_READ (R423): A block READ command issues NVMe reads into reserved stage slots. -/
  | blockRead (f q : Nat)
  /-- BLOCK_WRITE (R424): A block WRITE command reads, guards, encrypts and writes blocks to the SSDs. -/
  | blockWrite (f q : Nat)
  /-- BLOCK_FLUSH (R424): A FLUSH sends Flush to every backing namespace. -/
  | blockFlush (f q : Nat)
  /-- BLOCK_DEALLOCATE (R424): A DEALLOCATE deallocates the mapped ranges. -/
  | blockDeallocate (f q : Nat)
  /-- BLOCK_STAGE_ARRIVE (R423): An SSD delivers a block to its slot, the guard is checked and the block written or retried. -/
  | blockStageArrive (c k : Nat) (data : Option (List Byte))
  /-- NVME_TIMEOUT (R422): An NVMe command exceeds NVR_TIMEOUT.MS and its block command completes TIMEOUT. -/
  | nvmeTimeout (c : Nat)
  /-- CVU_JOB (R430): A write of CVU_JOB_CTL.GO starts a software check-value job. -/
  | cvuJob (r : Req) (die h u : Nat) (start final : Bool)
  /-- CVU_JOB_DONE (R430): A check-value job finishes, stores its result and compares it when CMP is set. -/
  | cvuJobDone (die h u : Nat)
  /-- IMPORT_KW (R444): Unwraps a key under a KEK and loads the slot. -/
  | importKw (r : Req) (die session : Nat)
  /-- IMPORT_KEM (R444): Decapsulates an ML-KEM ciphertext and loads the slot with a derived key. -/
  | importKem (r : Req) (die session : Nat)
  /-- ERASE (R444): Zeroes a slot, sets it EMPTY and withdraws it from the engines. -/
  | erase (r : Req) (die session : Nat)
  /-- GET_PUBLIC (R444): Returns the identity and KEM public keys and the vendor certificate. -/
  | getPublic (r : Req) (die session : Nat)
  /-- ATTEST (R464): Returns a signed attestation report. -/
  | attest (r : Req) (die session : Nat)
  /-- MIGRATE (R448): Moves a slot to the other I-die's vault with its counter. -/
  | migrate (r : Req) (die session : Nat) (answers : Bool)
  /-- ZEROIZE (R444): Erases every slot of both vaults and the DRBG state, then re-instantiates the DRBG. -/
  | zeroize (r : Req) (die session : Nat)
  /-- RANDOM (R444): Writes DRBG output to the response. -/
  | random (r : Req) (die session : Nat)
  /-- EXTEND (R464): Extends a measurement register with the payload. -/
  | extend (r : Req) (die session : Nat)
  /-- VENDOR_CMD (R444): Verifies a signed fuse command to revoke a key, raise the SVN or change the lifecycle. -/
  | vendorCmd (r : Req) (die session : Nat)
  /-- ATTACH_VNS (R506): A VF attaches a virtual namespace allotted by the PF. -/
  | attachVns (vns : Nat)
  /-- KEY_SESSION (R506): A VF's session request is performed by firmware with OWNER set to the VF. -/
  | keySession (die : Nat) (answers : Bool)
  /-- VAULT_ALARM (R457): A sensor latches an alarm cause and the vault withdraws and erases every key and secret. -/
  | vaultAlarm (die cause : Nat)
  /-- ALARM_CLEAR (R458): A W1C write to KVT_ALARM clears causes whose condition is gone. -/
  | alarmClear (r : Req) (die mask present : Nat)
  /-- VAULT_REINIT (R458): With every alarm bit clear the vault reruns its tests, derives its secrets and becomes READY. -/
  | vaultReinit (die failedTest : Nat)
  /-- DRBG_RESEED (R453): The reseed count or 10 s interval expires and the DRBG reseeds. -/
  | drbgReseed (die : Nat)
  /-- ENTROPY_FAIL (R453): A health test fails, DRBG_OK clears and randomness-drawing commands are refused. -/
  | entropyFail (die : Nat)
  /-- DRBG_RETRY (R453): Every 1 s the vault tries to instantiate the DRBG again and restores DRBG_OK on success. -/
  | drbgRetry (die : Nat) (ok : Bool)
  /-- CPH_JOB (R452): A write of CPH_JOB_CTL.GO starts a GCM encrypt or decrypt job. -/
  | cphJob (r : Req) (die j : Nat)
  /-- CPH_JOB_DONE (R452): A cipher job ends and reports its tag, counter and result. -/
  | cphJobDone (die j : Nat) (finds : List (Nat × Nat))
  /-- DEBUG_CHALLENGE_READ (R462): The debug port reads the challenge, which is renewed at each read. -/
  | debugChallengeRead (die : Nat)
  /-- DEBUG_RESPONSE (R462): The debug port writes a signed response; on success the vaults erase and debug opens. -/
  | debugResponse (die keyIdx : Nat) (pubkey signature : List Nat)
  /-- DEBUG_PORT_ACCESS (R462): Any other debug-port access in SECURE raises a DEBUG alarm. -/
  | debugPortAccess (die : Nat)
  /-- FUNDAMENTAL_RESET (R479): PERST# is deasserted after power-up; straps are sampled, the link trains and the boot ROM self-tests. -/
  | fundamentalReset (crewRole idSrc idie1Mode pinsId gen width : Nat) (flit : Bool) (failed : List (Nat × Nat))
  /-- PERST_ASSERT (R606): PERST# is asserted and the package enters reset, turning any warm reset into a fundamental one. -/
  | perstAssert
  /-- HOT_RESET (R480): A hot reset or DL_Down is received and the package performs a warm reset. -/
  | hotReset (gen width : Nat) (flit : Bool) (failed : List (Nat × Nat))
  /-- PF_FLR (R515): A function-level reset of the PF ends the work of the PF and every VF. -/
  | pfFlr
  /-- VF_FLR (R515): A function-level reset of a VF fences, drains and ends its work. -/
  | vfFlr (n : Nat)
  /-- FLR_DRAIN_LIMIT (R515): VF_DRAIN_LIMIT expires and pitches still running are belay-cut and abandoned. -/
  | flrDrainLimit (f : Nat)
  /-- BUS_MASTER_DISABLE (R483): Host software clears Bus Master Enable; new requests stop, posted writes are discarded and the hold starts. -/
  | busMasterDisable (f : Nat)
  /-- BUS_MASTER_ENABLE (R484): Bus Master Enable is set again; stalled queues restart and held messages are sent. -/
  | busMasterEnable (f : Nat)
  /-- BME_HOLD_EXPIRY (R485): The hold expires with Bus Master Enable clear; stalled transfers fail BME_LOST and host loss starts. -/
  | bmeHoldExpiry (f : Nat)
  /-- HOST_COMPLETION (R475): A completion for a host read arrives and is reassembled, delivered or failed. -/
  | hostCompletion (tag : Nat) (data : List Byte) (result : CplResult) (poisoned : Bool)
  /-- COMPLETION_TIMEOUT (R475): A host read's completion timeout expires and its transfer fails HOST_TIMEOUT. -/
  | completionTimeout (tag : Nat)
  /-- D3HOT_ENTRY (R490): The PF is written to D3hot and firmware parks the package as for host loss. -/
  | d3hotEntry
  /-- D0_ENTRY (R490): The PF is written to D0; clocks and memory are restored and parked RUNs resume. -/
  | d0Entry
  /-- WAKE_EVENT (R491): An enabled wake source fires and the device signals PME or asserts WAKE#. -/
  | wakeEvent (source : WakeSource)
  /-- L0P_NARROW (R493): Traffic stays low through the window and the link narrows by one step. -/
  | l0pNarrow
  /-- L1_ENTRY (R494): The link is idle for L1_IDLE_US and the device requests L1. -/
  | l1Entry
  /-- PME_TURN_OFF (R494): PME_Turn_Off arrives; the device answers PME_TO_Ack and enters L2/L3 Ready. -/
  | pmeTurnOff
  /-- CREW_RESET (R482): A member receives a crew reset and performs a warm reset. -/
  | crewReset (failed : List (Nat × Nat))
  /-- BME_CLEAR (R486): A member receives BME_CLEAR and fences the function's host-directed traffic. -/
  | bmeClear (f : Nat)
  /-- BME_RESTORE (R486): A member receives BME_RESTORE and restarts its stalled queues. -/
  | bmeRestore (f : Nat)
  /-- HOST_LOST (R542): A member receives HOST_LOST and applies the host-loss procedure. -/
  | hostLost (cause : Nat)
  /-- HOST_ADOPT (R542): A member receives HOST_ADOPT and adopts its held state. -/
  | hostAdopt
  /-- CREW_DSTATE (R492): A member receives a D-state change and parks or resumes. -/
  | crewDstate (d3hot : Bool)
  /-- DOORBELL_FORWARD (R496): A member receives a forwarded doorbell write for one of its queues. -/
  | doorbellForward (f q value : Nat)
  /-- MEMBER_FW_DELIVERY (R495): A member receives firmware from the stroke package, verifies it and performs the handshake. -/
  | memberFwDelivery (image : List Byte) (drvVer : Nat)
  /-- MAILBOX_GO (R504): A write of VF_MBX_CTL.GO submits the VF's request and interrupts the PF. -/
  | mailboxGo (n : Nat)
  /-- VF_DENY (R505): A write of VF_DENY refuses the pending request with a status and clears BUSY. -/
  | vfDeny (r : Req) (n status : Nat)
  /-- MBX_TIMEOUT (R505): VF_MBX_LIMIT expires with BUSY set and the response carries MBX_TIMEOUT. -/
  | mbxTimeout (n : Nat)
  /-- VF_TEL_FREEZE (R518): A write of VF_TEL_FREEZE requests or releases a freeze of the partition. -/
  | vfTelFreeze (n part : Nat) (freeze : Bool)
  /-- BLY_PF_FREEZE (R577): A write of BLY_PF_FREEZE requests or releases PF freezes of partitions. -/
  | blyPfFreeze (value : Nat)
  /-- IDENTIFY (R536): Writes 4 KiB of identity data to DATA_ADDR. -/
  | identify
  /-- CREATE_QUEUE (R508): Creates a queue of the function with the given type, ring and parameters. -/
  | createQueue (a : QueueArgs) (q mem : Nat)
  /-- DESTROY_QUEUE (R536): Destroys an idle queue of the function. -/
  | destroyQueue (q : Nat)
  /-- CREATE_PARTITION (R512): Creates a partition of quarters with its memory grants. -/
  | createPartition (tag qmask : Nat) (grants : List (Nat × Nat)) (store : Nat × Nat)
  /-- DESTROY_PARTITION (R536): Destroys a partition that holds no image and is attached to the PF. -/
  | destroyPartition (tag : Nat)
  /-- ATTACH_PARTITION (R512): Attaches a partition to a function. -/
  | attachPartition (tag : Nat)
  /-- DETACH_PARTITION (R514): Returns a partition that holds no image to the PF. -/
  | detachPartition (tag : Nat)
  /-- FORWARD (R505): Firmware performs a VF's pending mailbox request as the VF and writes the response. -/
  | forward (q : MbxReq)
  /-- SET_MAC (R536): Writes and commits a port's ETH_MAC_ADDR. -/
  | setMac (port addr : Nat)
  /-- REGISTER_MEMORY (R331): Registers a memory key entry, or re-registers it with a new generation. -/
  | registerMemory (a : KeyArgs) (idx : Nat)
  /-- DEREGISTER_MEMORY (R332): Invalidates a memory key. -/
  | deregisterMemory (key : Nat)
  /-- CREATE_CONN (R319): Creates a GFT connection with its class, order, paths and options. -/
  | createConn (a : ConnArgs) (id : Nat)
  /-- DESTROY_CONN (R319): Destroys a GFT connection. -/
  | destroyConn (id : Nat)
  /-- SET_VNS_TABLE (R417): Copies a new virtual-namespace table and commits its base. -/
  | setVnsTable (count dest : Nat)
  /-- SET_BIVOUAC (R320): Places the bivouac in host memory or the DDR5 tier. -/
  | setBivouac (die addr count : Nat)
  /-- SET_PKG_ID (R610): Sets the package ID once when PKG_ID_SRC selects software. -/
  | setPkgId (id : Nat)
  /-- CREW_FORM (R349): Forms a crew with its members and partners and creates the crew connections. -/
  | crewForm (members : List MemberArgs) (own verified : Nat) (conns : List (Nat × ConnArgs))
  /-- CQ_MODERATION_TIMER (R510): MOD_US passes after an unsignalled completion and the MSI-X message is sent. -/
  | cqModerationTimer (f q : Nat)
  /-- CQ_SPACE_RETURN (R510): A completion slot frees and held completions are posted and fetching resumes. -/
  | cqSpaceReturn (f q : Nat)
  /-- EVENT_OVERFLOW (R511): Space returns to a full event queue and EVENT_OVERFLOW is written with the number dropped. -/
  | eventOverflow (f q : Nat)
  /-- FW_LOAD_GO (R521): A write of PKG_FW_CTL.GO makes the boot ROMs load, verify and start the firmware. -/
  | fwLoadGo (r : Req) (value : Nat)
  /-- TRAINING_COMPLETE (R611): The last of the parallel training steps ends and firmware publishes the attribute map and sets READY. -/
  | trainingComplete (links : List (Nat × Nat × Nat × Nat)) (fenced : List (Nat × Nat × Nat)) (failedStacks : List (Nat × Nat)) (dimms : List Dimm) (unsupported : List (Nat × Nat × Nat × Nat))
  /-- COX_WATCHDOG_EXPIRY (R527): A cox core's watchdog elapses without a kick and the core crashes. -/
  | coxWatchdogExpiry (die c pc : Nat)
  /-- COX_WDT_KICK (R527): A write of COX_WDT_KICK by the core itself restarts its watchdog. -/
  | coxWdtKick (r : Req) (die c : Nat)
  /-- COX_PANIC (R527): A write of COX_PANIC crashes the core with cause PANIC. -/
  | coxPanic (r : Req) (die c pc : Nat)
  /-- TCM_UE (R527): An uncorrectable TCM error crashes the core. -/
  | tcmUe (die c pc : Nat)
  /-- DOUBLE_TRAP (R527): A trap inside a trap handler crashes the core. -/
  | doubleTrap (die c pc : Nat)
  /-- COX_POISON_LOAD (R528): A Tiller load meets poison and the command that made it fails with its poison status. -/
  | coxPoisonLoad (die c f q : Nat)
  /-- COX_JRNL_APPEND (R533): A write of COX_JRNL_APPEND appends a record to the core's journal. -/
  | coxJrnlAppend (r : Req) (die c : Nat) (record : List Byte)
  /-- HOST_PULSE (R537): A write of PKG_HOST_PULSE restarts the host-loss timeout. -/
  | hostPulse (r : Req) (value : Nat)
  /-- HOST_PULSE_TIMEOUT (R537): No pulse arrives for TIMEOUT_MS and host loss is detected. -/
  | hostPulseTimeout
  /-- DETACH_HOLD_EXPIRY (R539): DETACH_HOLD expires before a driver attaches and the package performs a warm reset. -/
  | detachHoldExpiry (failed : List (Nat × Nat))
  /-- PKG_ATTACH (R540): A write of PKG_ATTACH adopts the held state or performs a warm reset. -/
  | pkgAttach (r : Req) (value : Nat) (failed : List (Nat × Nat))
  /-- BELAY_INCREMENT_SEND (R555): After a commit the copy engine sends the partition's increment in chunks and a summit write. -/
  | belayIncrementSend (n q : Nat)
  /-- BELAY_INCREMENT_CHECK (R556): The partner checks every chunk of an increment and writes an acknowledgement or RESEND. -/
  | belayIncrementCheck (die member q n pkg pitch count : Nat) (fresh base : Bool) (chunks : List (List Byte))
  /-- COPY_ACKED (R556): The acknowledgement word arrives and the member records COPY_ACKED or resends the increment. -/
  | copyAcked (n q : Nat) (word : AckWord)
  /-- BELAY_ACK_TIMEOUT (R559): No acknowledgement arrives within 10 ms and the copy becomes UNPROTECTED. -/
  | belayAckTimeout (n q : Nat)
  /-- BELAY_SEED (R560): Firmware runs a seed pass, and a small enough pass makes the copy PROTECTED. -/
  | belaySeed (q : Nat)
  /-- COPY_ACKED_REPORT (R561): A coupled-set member's COPY_ACKED report arrives and may open the START gate. -/
  | copyAckedReport (member model pitch : Nat) (prot : Bool)
  /-- STATE_RESTORE (R563): Firmware restores lost committed state from the belay store and replays. -/
  | stateRestore (q : Nat) (acked : Nat) (lines : List (Nat × List Byte))
  /-- CREW_PULSE (R564): Every 1 ms a member sends a pulse to the stroke package and its partner. -/
  | crewPulse
  /-- CREW_LOSS_TIMEOUT (R565): No pulse arrives for LOSS_MS and the stroke package declares the member lost. -/
  | crewLossTimeout (member : Nat) (connections : Bool)
  /-- FATAL_MESSAGE (R565): A FATAL message from a member makes the stroke package declare it lost. -/
  | fatalMessage (member : Nat)
  /-- MEMBER_LOST (R565): A member receives MEMBER_LOST and destroys its connections to the lost member. -/
  | memberLost (member cause : Nat)
  /-- RECOVERY_PITCH (R566): A survivor receives r, abandons its pitch, steps back where needed and completes RUNs CREW_RECOVERY. -/
  | recoveryPitch (lost r : Nat)
  /-- DEVICE_FATAL (R570): The package stops every partition, sends FATAL, fences host DMA and enters FATAL. -/
  | deviceFatal (cause die : Nat)
  /-- HOLD_RAISE (R578): A slot's ACTIVE bit is set and the package-global island sends HOLD to every participant. -/
  | holdRaise (r : Req) (slot kind scope part : Nat) (discard : Bool)
  /-- HOLD_MESSAGE (R578): A participant takes HOLD at its next item boundary, snapshots counters and sends markers. -/
  | holdMessage (isl : Nat) (channels : List Nat)
  /-- MARKER_ARRIVE (R579): A channel's marker arrives, ending its log, and the participant reports CUT_DONE when all have arrived. -/
  | markerArrive (isl chan logged : Nat) (smeared : Bool)
  /-- CUT_DONE (R578): Every participant has reported and the slot's DONE and STAMP are set. -/
  | cutDone (member : Option Nat)
  /-- HOLD_RELEASE (R585): A slot's ACTIVE bit is cleared and a release wave recomputes each participant's state. -/
  | holdRelease (r : Req) (slot : Nat)
  /-- RELEASE_MESSAGE (R585): A participant performs or discards its logged items and returns to its new state. -/
  | releaseMessage (isl : Nat)
  /-- CREW_HOLD (R586): A crew-scope hold arrives from the stroke package and is raised in slot 4. -/
  | crewHold (raise : Bool) (kind : Nat) (discard : Bool)
  /-- BELAY_IN_EDGE (R588): A rising edge on BELAY_IN raises slot 1. -/
  | belayInEdge (ns : Nat)
  /-- CAIRN_ENTRY_READ (R591): A 64-bit read of bytes 0-7 of a cairn entry latches bytes 8-15. -/
  | cairnEntryRead (r : Req) (p : Page) (idx : Nat)
  /-- COX_TRIGGER_HALT (R593): A debug trigger fires and halts the cox core, with the action COX_DBG_CFG selects. -/
  | coxTriggerHalt (die c : Nat)
  /-- COX_DEBUG_RESUME (R593): The debug port resumes a halted core. -/
  | coxDebugResume (die c : Nat)
  /-- TEL_WALK (R599): The walk interval expires and the block reads the page list and sends telemetry records. -/
  | telWalk (cut : Bool)
  /-- RAIL_GROUP_UP (R605): A supply group rises above 95 % and the next may begin. -/
  | railGroupUp (group : Nat)
  /-- PWROK_LOSS (R607): PKG_PWROK falls while PERST# is deasserted and every island stops. -/
  | pwrokLoss
  /-- PKG_WARM (R615): A write of PKG_WARM.GO by the PF starts a warm reset. -/
  | pkgWarm (r : Req) (value : Nat) (failed : List (Nat × Nat))
  /-- POWER_LIMITER_TICK (R621): Every 10 µs the limiter computes power and lowers or raises the power cap. -/
  | powerLimiterTick (avg1ms avg100ms : Nat)
  /-- THERMAL_CAP_TICK (R625): A region's thermal cap falls or rises with its sensor reading. -/
  | thermalCapTick (isl : Nat) (temp : Int)
  /-- THERMAL_TRIP (R626): A trip threshold is reached; THERMTRIP# asserts and clocks stop. -/
  | thermalTrip (isl : Nat) (temp : Int)
  /-- REGION_GATE (R623): A region's quarter stays out of partitions for GATE_IDLE_MS and the region is powered off. -/
  | regionGate (n quarter : Nat)
  /-- AVS_CURRENT_READ (R604): Every 100 µs the package reads each VDD_T regulator's current. -/
  | avsCurrentRead (n amps : Nat)
  /-- GET_STATE (R632): A management message returns firmware, power, reset and thermal state. -/
  | getState
  /-- WAKE (R632): A management message performs the MGMT wake. -/
  | wake
  /-- MGMT_SET_PKG_ID (R610): A management message sets the package ID when PKG_ID_SRC selects management. -/
  | mgmtSetPkgId (id : Nat)
  /-- MGMT_WARM_RESET (R615): A management message starts a warm reset. -/
  | mgmtWarmReset (failed : List (Nat × Nat))
  /-- CLEAR_TRIP (R632): A management message clears PKG_THERM_READ.TRIPPED. -/
  | clearTrip
  /-- VF_ENABLE_WRITE (R550): Host software sets or clears VF Enable in the PF's SR-IOV capability, creating the VFs or removing them and firing the lease watchdog of every function lease they own. -/
  | vfEnableWrite (enable : Bool) (count : Nat)
  /-- MSIX_FUNCTION_MASK_CLEAR (R487): Host software clears a function's MSI-X Function Mask and the device sends every message held as a pending bit. -/
  | msixFunctionMaskClear (f : Nat)
  /-- MAIN_RAILS_REMOVED (R606): The board removes the main rails, leaving only the wake logic on VAUX (D3cold), or removes VAUX as well, which clears TRIPPED and loses the cairn rings. -/
  | mainRailsRemoved (aux : Bool)
  /-- PWROK_ASSERT (R605): The board asserts PKG_PWROK once every rail is up and the clocks have been stable for 100 µs, after which PERST# may be deasserted. -/
  | pwrokAssert
  /-- SRAM_WRITE (R522): A cox core writes to the firmware SRAM, the write is refused and the core crashes with cause SRAM_WRITE. -/
  | sramWrite (die c pc : Nat)
  /-- NVME_COMPLETION (R414): An SSD posts an NVMe completion for a Write, Flush, Dataset Management or failed Read, and the block command advances or completes with SUCCESS, MEDIA or UNWRITTEN. -/
  | nvmeCompletion (c result k : Nat)
  /-- IDIE_FAULT (R26): An I-die faults in a way that cuts the path a recovery needs, and recovery runs through the other I-die, or, on the GRC-2248, the package is lost with IDIE_LOST. -/
  | idieFault (die : Nat)
  /-- REGION_FAULT (R23): A fault of a cluster's rope tap or router, of a region controller, or of a region's clock or supply fences the region, and recovery replays or restores the partition. -/
  | regionFault (n : Nat) (faults : List (Nat × RegionPart))
  /-- ROPE_ENGINE_READMIT (R238): Firmware re-admits a fenced rope engine after its self-test passes, and the engine leaves FENCED. -/
  | ropeEngineReadmit (die st e : Nat)
  /-- DEBUG_LEASE_IDLE (R550): The debug port holds a lease and makes no access for 1 s, so the lease watchdog fires and the lease becomes ORPHAN. -/
  | debugLeaseIdle
  /-- L0P_WIDEN (R493): The link partner widens the link, or a request waits to be sent, and the link returns to full width within 1 µs. -/
  | l0pWiden
deriving DecidableEq, Repr

end Sys2Proof
end

