-- ==== Sys2Proof/Config.lean ====
section
/-!
DEFINITION. What the implementation fixes and the free values: constants without a body, so that nothing can be proved of their value. Each
is named in a row of notes/assumptions.
-/
namespace Sys2Proof.Config

/-- A value that the spec leaves open, by the free-value counter (log entry 2). -/
opaque freeValue : Nat → Nat

/-- The ERR_FIRST and cairn code of a header error bit 0 to 3 (R45 names the code, no rule gives its number; log entry 8). -/
opaque headerErrCode : Nat → Nat

/-- The block-specific error's code where the block's chapter gives it a bit of ERR_STAT and no cairn code (log entry 8). -/
opaque blockErrCode : Nat → Nat → Nat

/-- VER of a block type (R42: per block; log entry 9). -/
opaque version : Nat → Nat

/-- CAP0 bits [31:1] and CAP1 of a block type (R42: per block; log entry 9). -/
opaque cap0 : Nat → Nat
/-- CAP1 of a block type. -/
opaque cap1 : Nat → Nat

/-- An island's deviation from its nominal clock, any value; Machine/Ops.lean reduces it to the 100 ppm of R74. -/
opaque clockDrift : Nat → Nat

/-- A byte of a DDR5 channel whose contents a change of its cipher setting left undefined (R303), by the change and the address. -/
opaque undefByte : Nat → Nat → Nat

/-- The records of an INIT section (R248): R248 names their contents and gives no layout. For the section's bytes, each record as die, instance,
bank-0 offset, and the place and length of its bytes in the section (log entry 15). -/
opaque initIndex : List Nat → List (Nat × Nat × Nat × Nat × Nat)

/-- The sub-records of a fallback body (R255): R255 gives no mark that tells one kind from another, nor the layout of a TAKEOVER. For the body's
bytes, each as kind (0 TILE, 1 ROPE, 2 ROPE_TABLES, 3 TAKEOVER), place in the body, and a TAKEOVER's four numbers (log entry 15). -/
opaque fallbackIndex : List Nat → List (Nat × Nat × Nat × Nat × Nat × Nat)

/-- SHAKE256 of bytes, to a length in bytes: the standard that the spec names and does not restate (log entry 16). -/
opaque shake256 : List Nat → Nat → List Nat

/-- The fused 16-byte serial, as a number (R464). -/
opaque serial : Nat

/-- The fused hash of a vendor key slot (R461). -/
opaque vendorKeyHash : Nat → List Nat

/-- AES-KW unwrapping of a payload under a key (SP 800-38F, R444); none where the integrity check fails (log entry 16). -/
opaque aesKwUnwrap : List Nat → List Nat → Option (List Nat)

/-- ML-KEM-1024 decapsulation with the device's key (R444, R459); none where it rejects the ciphertext (log entry 16). -/
opaque kemDecaps : List Nat → Option (List Nat)

/-- The identity public key, the ML-KEM encapsulation key and the vendor certificate (R444, R459). -/
opaque identityKey : List Nat
/-- The ML-KEM-1024 encapsulation key. -/
opaque kemKey : List Nat
/-- The vendor certificate of the identity key, whose length R444 does not give. -/
opaque vendorCert : List Nat

/-- A Falcon-1024 signature with the identity key over a message, by the randomness drawn (log entry 16). -/
opaque falconSign : List Nat → Nat → List Nat

/-- Falcon-1024 verification of a signature over a message with a public key (log entry 16). -/
opaque falconVerify : List Nat → List Nat → List Nat → Bool

/-- What a VENDOR_CMD payload asks for: none where its signature or form is refused, else (0, key slot) to revoke, (1, SVN) to raise, (2, lifecycle) to
change. R444 gives no layout of it (log entry 16). -/
opaque vendorCmd : List Nat → Option (Nat × Nat)

/-- AES-256-GCM: the data encrypted or decrypted with a key and an IV, by byte, and the tag over the AAD and the ciphertext (log entry 16). -/
opaque gcmByte : List Nat → List Nat → Nat → Nat
/-- The tag. -/
opaque gcmTag : List Nat → List Nat → List Nat → List Nat → Nat

/-- The key check value of an XTS key pair (R304; log entry 16). -/
opaque xtsKcv : List Nat → Nat

/-- AES-256-XTS of one data unit (IEEE 1619, R420): by key, tweak, whether it encrypts, and the unit's bytes (log entry 16). -/
opaque xtsCrypt : List Nat → Nat → Bool → List Nat → List Nat

/-- The interface versions of a firmware image: MIN_MAJOR, MAX_MAJOR and MINOR (R523; log entry 25). -/
opaque fwRange : List Nat → Nat × Nat × Nat

end Sys2Proof.Config
end

