-- ==== Sys2Proof/Machine/Field.lean ====
section
/-!
DEFINITION. What a row of a register table says of a field (R6, R7, R40).
-/
namespace Sys2Proof.Machine

/-- The class of a field (R7). -/
inductive Cls where
  | none | c | l | s | h
deriving DecidableEq, Repr

/-- The access type of a field (R6). -/
inductive Acc where
  | rw | ro | w1c | w1s | wo | rc
deriving DecidableEq, Repr

/-- A register field: the offset of its 32-bit register, its lowest bit there, its width, class, access type and reset value. An array of
registers repeats every `stride` bytes `count` times, and the whole array every `stride2` bytes `count2` times. -/
structure Field where
  off : Nat
  lo : Nat
  width : Nat
  cls : Cls
  acc : Acc
  reset : Nat
  stride : Nat
  count : Nat
  stride2 : Nat
  count2 : Nat
deriving DecidableEq, Repr

end Sys2Proof.Machine
end

