-- ==== Sys2Proof/Machine/Fields.lean ====
section
/-!
DEFINITION. The fields of every register page, transcribed from the register tables of spec/ (one constant per row; bit positions,
class, access type and reset value are the table's own columns). A reset that the table gives "per part", "per strap", "per block" or
by index is 0 here and is computed by Machine/Registers.lean.
-/
namespace Sys2Proof.Machine

/-- D2D_STATE.UP (R20). -/
def Fld.D2D_STATE_UP : Field := ⟨0x100, 0, 1, .none, .ro, 0, 0, 1, 0, 1⟩
/-- D2D_STATE.MODULES (R20). -/
def Fld.D2D_STATE_MODULES : Field := ⟨0x100, 4, 4, .none, .ro, 0, 0, 1, 0, 1⟩
/-- D2D_STATE.HALF (R20). -/
def Fld.D2D_STATE_HALF : Field := ⟨0x100, 8, 4, .none, .ro, 0, 0, 1, 0, 1⟩
/-- D2D_STATE.POWERED_DOWN (R20). -/
def Fld.D2D_STATE_POWERED_DOWN : Field := ⟨0x100, 12, 1, .none, .ro, 0, 0, 1, 0, 1⟩
/-- D2D_LANE_FAIL.LANES (R20). -/
def Fld.D2D_LANE_FAIL_LANES : Field := ⟨0x108, 0, 64, .none, .ro, 0, 8, 4, 0, 1⟩
/-- D2D_PEER.DIE (R20). -/
def Fld.D2D_PEER_DIE : Field := ⟨0x128, 0, 4, .c, .ro, 0, 0, 1, 0, 1⟩

/-- The fields of a D2D page. -/
def Fld.tabD2D : List Field :=
  [Fld.D2D_STATE_UP, Fld.D2D_STATE_MODULES, Fld.D2D_STATE_HALF, Fld.D2D_STATE_POWERED_DOWN, Fld.D2D_LANE_FAIL_LANES, Fld.D2D_PEER_DIE]

/-- ID.INSTANCE (R43). -/
def Fld.ID_INSTANCE : Field := ⟨0x0, 0, 16, .c, .ro, 0, 0, 1, 0, 1⟩
/-- ID.DIE (R43). -/
def Fld.ID_DIE : Field := ⟨0x0, 20, 4, .c, .ro, 0, 0, 1, 0, 1⟩
/-- ID.TYPE (R43). -/
def Fld.ID_TYPE : Field := ⟨0x0, 24, 8, .c, .ro, 0, 0, 1, 0, 1⟩
/-- VER (R42). -/
def Fld.VER : Field := ⟨0x4, 0, 32, .c, .ro, 0, 0, 1, 0, 1⟩
/-- CAP0 (R42). -/
def Fld.CAP0 : Field := ⟨0x8, 0, 32, .c, .ro, 0, 0, 1, 0, 1⟩
/-- CAP1 (R42). -/
def Fld.CAP1 : Field := ⟨0xC, 0, 32, .c, .ro, 0, 0, 1, 0, 1⟩
/-- CTRL.HALT (R43). -/
def Fld.CTRL_HALT : Field := ⟨0x10, 0, 1, .l, .rw, 0, 0, 1, 0, 1⟩
/-- CTRL.VIEW (R43). -/
def Fld.CTRL_VIEW : Field := ⟨0x10, 1, 1, .l, .rw, 0, 0, 1, 0, 1⟩
/-- CTRL.CNT_RESET (R43). -/
def Fld.CTRL_CNT_RESET : Field := ⟨0x10, 2, 1, .l, .w1s, 0, 0, 1, 0, 1⟩
/-- STATUS.HALTED (R43). -/
def Fld.STATUS_HALTED : Field := ⟨0x14, 0, 1, .none, .ro, 0, 0, 1, 0, 1⟩
/-- STATUS.COINCIDENT (R43). -/
def Fld.STATUS_COINCIDENT : Field := ⟨0x14, 1, 1, .none, .rc, 0, 0, 1, 0, 1⟩
/-- STATUS.FENCED (R43). -/
def Fld.STATUS_FENCED : Field := ⟨0x14, 2, 1, .none, .ro, 0, 0, 1, 0, 1⟩
/-- GEN.APPLIED (R43). -/
def Fld.GEN_APPLIED : Field := ⟨0x18, 0, 16, .none, .ro, 0, 0, 1, 0, 1⟩
/-- GEN.OLDEST (R43). -/
def Fld.GEN_OLDEST : Field := ⟨0x18, 16, 16, .none, .ro, 0, 0, 1, 0, 1⟩
/-- COMMIT.GO (R43). -/
def Fld.COMMIT_GO : Field := ⟨0x1C, 0, 1, .l, .wo, 0, 0, 1, 0, 1⟩
/-- COMMIT.BUSY (R43). -/
def Fld.COMMIT_BUSY : Field := ⟨0x1C, 1, 1, .none, .ro, 0, 0, 1, 0, 1⟩
/-- COMMIT.RESULT (R43). -/
def Fld.COMMIT_RESULT : Field := ⟨0x1C, 2, 2, .none, .ro, 0, 0, 1, 0, 1⟩
/-- COMMIT.ARMED (R43). -/
def Fld.COMMIT_ARMED : Field := ⟨0x1C, 4, 1, .l, .rw, 0, 0, 1, 0, 1⟩
/-- COMMIT.RULE (R43). -/
def Fld.COMMIT_RULE : Field := ⟨0x1C, 8, 8, .none, .ro, 0, 0, 1, 0, 1⟩
/-- COMMIT.TARGET (R43). -/
def Fld.COMMIT_TARGET : Field := ⟨0x1C, 16, 16, .none, .ro, 0, 0, 1, 0, 1⟩
/-- ERR_STAT.H_WRITE (R43). -/
def Fld.ERR_STAT_H_WRITE : Field := ⟨0x20, 0, 1, .none, .w1c, 0, 0, 1, 0, 1⟩
/-- ERR_STAT.ACCESS (R43). -/
def Fld.ERR_STAT_ACCESS : Field := ⟨0x20, 1, 1, .none, .w1c, 0, 0, 1, 0, 1⟩
/-- ERR_STAT.COMMIT_OVERLAP (R43). -/
def Fld.ERR_STAT_COMMIT_OVERLAP : Field := ⟨0x20, 2, 1, .none, .w1c, 0, 0, 1, 0, 1⟩
/-- ERR_STAT.LEASE_STALE (R43). -/
def Fld.ERR_STAT_LEASE_STALE : Field := ⟨0x20, 3, 1, .none, .w1c, 0, 0, 1, 0, 1⟩
/-- ERR_STAT.BLOCK (R43). -/
def Fld.ERR_STAT_BLOCK : Field := ⟨0x20, 16, 16, .none, .w1c, 0, 0, 1, 0, 1⟩
/-- ERR_MASK (R42). -/
def Fld.ERR_MASK : Field := ⟨0x24, 0, 32, .l, .rw, 0, 0, 1, 0, 1⟩
/-- ERR_FIRST.CODE (R43). -/
def Fld.ERR_FIRST_CODE : Field := ⟨0x28, 0, 16, .none, .ro, 0, 0, 1, 0, 1⟩
/-- ERR_FIRST.ISLAND (R43). -/
def Fld.ERR_FIRST_ISLAND : Field := ⟨0x28, 16, 12, .none, .ro, 0, 0, 1, 0, 1⟩
/-- ERR_FIRST.VALID (R43). -/
def Fld.ERR_FIRST_VALID : Field := ⟨0x28, 31, 1, .none, .ro, 0, 0, 1, 0, 1⟩
/-- ERR_CNT (R42). -/
def Fld.ERR_CNT : Field := ⟨0x2C, 0, 32, .none, .rc, 0, 0, 1, 0, 1⟩
/-- IRQ_STAT.ERR (R43). -/
def Fld.IRQ_STAT_ERR : Field := ⟨0x30, 0, 1, .none, .w1c, 0, 0, 1, 0, 1⟩
/-- IRQ_STAT.COMMIT_DONE (R43). -/
def Fld.IRQ_STAT_COMMIT_DONE : Field := ⟨0x30, 1, 1, .none, .w1c, 0, 0, 1, 0, 1⟩
/-- IRQ_STAT.LEASE_ORPHAN (R43). -/
def Fld.IRQ_STAT_LEASE_ORPHAN : Field := ⟨0x30, 2, 1, .none, .w1c, 0, 0, 1, 0, 1⟩
/-- IRQ_STAT.BLOCK (R43). -/
def Fld.IRQ_STAT_BLOCK : Field := ⟨0x30, 16, 16, .none, .w1c, 0, 0, 1, 0, 1⟩
/-- IRQ_EN (R42). -/
def Fld.IRQ_EN : Field := ⟨0x34, 0, 32, .l, .rw, 0, 0, 1, 0, 1⟩
/-- IRQ_VEC.VECTOR (R43). -/
def Fld.IRQ_VEC_VECTOR : Field := ⟨0x38, 0, 11, .l, .rw, 0, 0, 1, 0, 1⟩
/-- IRQ_VEC.FUNC (R43). -/
def Fld.IRQ_VEC_FUNC : Field := ⟨0x38, 16, 7, .l, .rw, 0, 0, 1, 0, 1⟩
/-- IRQ_VEC.MGMT (R43). -/
def Fld.IRQ_VEC_MGMT : Field := ⟨0x38, 31, 1, .l, .rw, 0, 0, 1, 0, 1⟩

/-- The fields of a HDR page. -/
def Fld.tabHDR : List Field :=
  [Fld.ID_INSTANCE, Fld.ID_DIE, Fld.ID_TYPE, Fld.VER, Fld.CAP0, Fld.CAP1, Fld.CTRL_HALT, Fld.CTRL_VIEW, Fld.CTRL_CNT_RESET, Fld.STATUS_HALTED, Fld.STATUS_COINCIDENT, Fld.STATUS_FENCED] ++
  [Fld.GEN_APPLIED, Fld.GEN_OLDEST, Fld.COMMIT_GO, Fld.COMMIT_BUSY, Fld.COMMIT_RESULT, Fld.COMMIT_ARMED, Fld.COMMIT_RULE, Fld.COMMIT_TARGET, Fld.ERR_STAT_H_WRITE, Fld.ERR_STAT_ACCESS, Fld.ERR_STAT_COMMIT_OVERLAP, Fld.ERR_STAT_LEASE_STALE] ++
  [Fld.ERR_STAT_BLOCK, Fld.ERR_MASK, Fld.ERR_FIRST_CODE, Fld.ERR_FIRST_ISLAND, Fld.ERR_FIRST_VALID, Fld.ERR_CNT, Fld.IRQ_STAT_ERR, Fld.IRQ_STAT_COMMIT_DONE, Fld.IRQ_STAT_LEASE_ORPHAN, Fld.IRQ_STAT_BLOCK, Fld.IRQ_EN, Fld.IRQ_VEC_VECTOR] ++
  [Fld.IRQ_VEC_FUNC, Fld.IRQ_VEC_MGMT]

/-- LEASE_OWNER.OWNER (R57). -/
def Fld.LEASE_OWNER_OWNER : Field := ⟨0xF00, 0, 16, .l, .rw, 0, 16, 16, 0, 1⟩
/-- LEASE_OWNER.EPOCH (R57). -/
def Fld.LEASE_OWNER_EPOCH : Field := ⟨0xF00, 16, 16, .none, .ro, 0, 16, 16, 0, 1⟩
/-- LEASE_STATE.STATE (R57). -/
def Fld.LEASE_STATE_STATE : Field := ⟨0xF04, 0, 2, .none, .ro, 0, 16, 16, 0, 1⟩
/-- LEASE_STATE.BOUND (R57). -/
def Fld.LEASE_STATE_BOUND : Field := ⟨0xF04, 16, 16, .c, .ro, 0, 16, 16, 0, 1⟩
/-- LEASE_BREAK.AGENT (R57). -/
def Fld.LEASE_BREAK_AGENT : Field := ⟨0xF08, 0, 16, .none, .wo, 0, 16, 16, 0, 1⟩
/-- LEASE_BREAK.EPOCH (R57). -/
def Fld.LEASE_BREAK_EPOCH : Field := ⟨0xF08, 16, 16, .none, .wo, 0, 16, 16, 0, 1⟩

/-- The fields of a LEASE page. -/
def Fld.tabLEASE : List Field :=
  [Fld.LEASE_OWNER_OWNER, Fld.LEASE_OWNER_EPOCH, Fld.LEASE_STATE_STATE, Fld.LEASE_STATE_BOUND, Fld.LEASE_BREAK_AGENT, Fld.LEASE_BREAK_EPOCH]

/-- PKG_CAP0.TDIE_MASK (R62). -/
def Fld.PKG_CAP0_TDIE_MASK : Field := ⟨0x8, 0, 8, .c, .ro, 0, 0, 1, 0, 1⟩
/-- PKG_CAP0.IDIE_MASK (R62). -/
def Fld.PKG_CAP0_IDIE_MASK : Field := ⟨0x8, 8, 2, .c, .ro, 0, 0, 1, 0, 1⟩
/-- PKG_CAP0.DDR_TIER (R62). -/
def Fld.PKG_CAP0_DDR_TIER : Field := ⟨0x8, 10, 1, .c, .ro, 0, 0, 1, 0, 1⟩
/-- PKG_CAP0.PME (R62). -/
def Fld.PKG_CAP0_PME : Field := ⟨0x8, 11, 1, .c, .ro, 0, 0, 1, 0, 1⟩
/-- PKG_CAP0.CIPHER (R62). -/
def Fld.PKG_CAP0_CIPHER : Field := ⟨0x8, 12, 1, .c, .ro, 0, 0, 1, 0, 1⟩
/-- PKG_CAP0.ROOT_PORTS (R62). -/
def Fld.PKG_CAP0_ROOT_PORTS : Field := ⟨0x8, 13, 1, .c, .ro, 0, 0, 1, 0, 1⟩
/-- PKG_CAP0.CREW_ROLE (R62). -/
def Fld.PKG_CAP0_CREW_ROLE : Field := ⟨0x8, 14, 2, .c, .ro, 0, 0, 1, 0, 1⟩
/-- PKG_CAP0.HBM64 (R62). -/
def Fld.PKG_CAP0_HBM64 : Field := ⟨0x8, 16, 1, .c, .ro, 0, 0, 1, 0, 1⟩
/-- PKG_CAP1.MAX_VF (R62). -/
def Fld.PKG_CAP1_MAX_VF : Field := ⟨0xC, 0, 7, .c, .ro, 127, 0, 1, 0, 1⟩
/-- PKG_CAP1.MAX_PART (R62). -/
def Fld.PKG_CAP1_MAX_PART : Field := ⟨0xC, 7, 6, .c, .ro, 0, 0, 1, 0, 1⟩
/-- PKG_FW_STATE.STATE (R543). -/
def Fld.PKG_FW_STATE_STATE : Field := ⟨0x100, 0, 4, .none, .ro, 0, 0, 1, 0, 1⟩
/-- PKG_FW_STATE.DETAIL (R543). -/
def Fld.PKG_FW_STATE_DETAIL : Field := ⟨0x100, 8, 8, .none, .ro, 0, 0, 1, 0, 1⟩
/-- PKG_FW_CTL.GO (R543). -/
def Fld.PKG_FW_CTL_GO : Field := ⟨0x104, 0, 1, .l, .w1s, 0, 0, 1, 0, 1⟩
/-- PKG_FW_ADDR.ADDR (R543). -/
def Fld.PKG_FW_ADDR_ADDR : Field := ⟨0x108, 12, 40, .l, .rw, 0, 0, 1, 0, 1⟩
/-- PKG_FW_LEN.BYTES (R543). -/
def Fld.PKG_FW_LEN_BYTES : Field := ⟨0x110, 0, 25, .l, .rw, 0, 0, 1, 0, 1⟩
/-- PKG_DRV_VER.MINOR (R543). -/
def Fld.PKG_DRV_VER_MINOR : Field := ⟨0x114, 0, 8, .l, .rw, 0, 0, 1, 0, 1⟩
/-- PKG_DRV_VER.MAJOR (R543). -/
def Fld.PKG_DRV_VER_MAJOR : Field := ⟨0x114, 8, 8, .l, .rw, 0, 0, 1, 0, 1⟩
/-- PKG_FW_VER.MIN_MAJOR (R543). -/
def Fld.PKG_FW_VER_MIN_MAJOR : Field := ⟨0x118, 0, 8, .none, .ro, 0, 0, 1, 0, 1⟩
/-- PKG_FW_VER.MAX_MAJOR (R543). -/
def Fld.PKG_FW_VER_MAX_MAJOR : Field := ⟨0x118, 8, 8, .none, .ro, 0, 0, 1, 0, 1⟩
/-- PKG_FW_VER.MINOR (R543). -/
def Fld.PKG_FW_VER_MINOR : Field := ⟨0x118, 16, 8, .none, .ro, 0, 0, 1, 0, 1⟩
/-- PKG_FW_VER.AGREED (R543). -/
def Fld.PKG_FW_VER_AGREED : Field := ⟨0x118, 24, 8, .none, .ro, 0, 0, 1, 0, 1⟩
/-- PKG_HOST_PULSE.VALUE (R543). -/
def Fld.PKG_HOST_PULSE_VALUE : Field := ⟨0x120, 0, 32, .l, .rw, 0, 0, 1, 0, 1⟩
/-- PKG_HOST_CFG.TIMEOUT_MS (R543). -/
def Fld.PKG_HOST_CFG_TIMEOUT_MS : Field := ⟨0x124, 0, 14, .l, .rw, 1000, 0, 1, 0, 1⟩
/-- PKG_HOST_CFG.DETACH_S (R543). -/
def Fld.PKG_HOST_CFG_DETACH_S : Field := ⟨0x124, 16, 12, .l, .rw, 60, 0, 1, 0, 1⟩
/-- PKG_HOST_STATE.CAUSE (R543). -/
def Fld.PKG_HOST_STATE_CAUSE : Field := ⟨0x128, 0, 3, .none, .ro, 0, 0, 1, 0, 1⟩
/-- PKG_HOST_STATE.DETACHED (R543). -/
def Fld.PKG_HOST_STATE_DETACHED : Field := ⟨0x128, 3, 1, .none, .ro, 0, 0, 1, 0, 1⟩
/-- PKG_HOST_STATE.REMAIN_S (R543). -/
def Fld.PKG_HOST_STATE_REMAIN_S : Field := ⟨0x128, 16, 12, .none, .ro, 0, 0, 1, 0, 1⟩
/-- PKG_ATTACH.ATTACH (R543). -/
def Fld.PKG_ATTACH_ATTACH : Field := ⟨0x12C, 0, 1, .l, .wo, 0, 0, 1, 0, 1⟩
/-- PKG_ATTACH.ADOPT (R543). -/
def Fld.PKG_ATTACH_ADOPT : Field := ⟨0x12C, 1, 1, .l, .wo, 0, 0, 1, 0, 1⟩
/-- PKG_ADMIN_SQ.ADDR (R543). -/
def Fld.PKG_ADMIN_SQ_ADDR : Field := ⟨0x130, 12, 40, .h, .rw, 0, 0, 1, 0, 1⟩
/-- PKG_ADMIN_CQ.ADDR (R543). -/
def Fld.PKG_ADMIN_CQ_ADDR : Field := ⟨0x138, 12, 40, .h, .rw, 0, 0, 1, 0, 1⟩
/-- PKG_ADMIN_CFG.SQ_LOG2 (R543). -/
def Fld.PKG_ADMIN_CFG_SQ_LOG2 : Field := ⟨0x140, 0, 4, .h, .rw, 6, 0, 1, 0, 1⟩
/-- PKG_ADMIN_CFG.CQ_LOG2 (R543). -/
def Fld.PKG_ADMIN_CFG_CQ_LOG2 : Field := ⟨0x140, 8, 4, .h, .rw, 6, 0, 1, 0, 1⟩
/-- PKG_ADMIN_CFG.VECTOR (R543). -/
def Fld.PKG_ADMIN_CFG_VECTOR : Field := ⟨0x140, 16, 11, .h, .rw, 0, 0, 1, 0, 1⟩
/-- PKG_WAVE.GO (R88). -/
def Fld.PKG_WAVE_GO : Field := ⟨0x180, 0, 1, .l, .wo, 0, 0, 1, 0, 1⟩
/-- PKG_WAVE.BUSY (R88). -/
def Fld.PKG_WAVE_BUSY : Field := ⟨0x180, 1, 1, .none, .ro, 0, 0, 1, 0, 1⟩
/-- PKG_WAVE.RESULT (R88). -/
def Fld.PKG_WAVE_RESULT : Field := ⟨0x180, 2, 2, .none, .ro, 0, 0, 1, 0, 1⟩
/-- PKG_WAVE.EPOCH (R88). -/
def Fld.PKG_WAVE_EPOCH : Field := ⟨0x180, 16, 16, .none, .ro, 0, 0, 1, 0, 1⟩
/-- PKG_WAVE.FAIL_ID (R88). -/
def Fld.PKG_WAVE_FAIL_ID : Field := ⟨0x184, 0, 32, .none, .ro, 0, 0, 1, 0, 1⟩
/-- PKG_CORR_CTRL.ENABLE (R88). -/
def Fld.PKG_CORR_CTRL_ENABLE : Field := ⟨0x190, 0, 1, .l, .rw, 1, 0, 1, 0, 1⟩
/-- PKG_CORR_CTRL.PERIOD_US (R88). -/
def Fld.PKG_CORR_CTRL_PERIOD_US : Field := ⟨0x190, 4, 20, .l, .rw, 1000, 0, 1, 0, 1⟩
/-- PKG_CORR_SEQ (R88). -/
def Fld.PKG_CORR_SEQ : Field := ⟨0x194, 0, 32, .none, .ro, 0, 0, 1, 0, 1⟩
/-- PKG_CREW.SIZE (R498). -/
def Fld.PKG_CREW_SIZE : Field := ⟨0x1A0, 0, 7, .none, .ro, 0, 0, 1, 0, 1⟩
/-- PKG_CREW.INDEX (R498). -/
def Fld.PKG_CREW_INDEX : Field := ⟨0x1A0, 16, 6, .none, .ro, 0, 0, 1, 0, 1⟩
/-- PKG_CREW_MASK.MEMBERS (R498). -/
def Fld.PKG_CREW_MASK_MEMBERS : Field := ⟨0x1A8, 0, 64, .none, .ro, 0, 0, 1, 0, 1⟩
/-- PKG_CREW_CFG.LOSS_MS (R571). -/
def Fld.PKG_CREW_CFG_LOSS_MS : Field := ⟨0x1B0, 0, 7, .l, .rw, 10, 0, 1, 0, 1⟩
/-- PKG_STRAP.CREW_ROLE (R633). -/
def Fld.PKG_STRAP_CREW_ROLE : Field := ⟨0x1C0, 0, 2, .c, .ro, 0, 0, 1, 0, 1⟩
/-- PKG_STRAP.ID_SRC (R633). -/
def Fld.PKG_STRAP_ID_SRC : Field := ⟨0x1C0, 2, 2, .c, .ro, 0, 0, 1, 0, 1⟩
/-- PKG_STRAP.IDIE1_MODE (R633). -/
def Fld.PKG_STRAP_IDIE1_MODE : Field := ⟨0x1C0, 4, 1, .c, .ro, 0, 0, 1, 0, 1⟩
/-- PKG_STRAP.BAD (R633). -/
def Fld.PKG_STRAP_BAD : Field := ⟨0x1C0, 5, 1, .c, .ro, 0, 0, 1, 0, 1⟩
/-- PKG_STRAP.PINS_ID (R633). -/
def Fld.PKG_STRAP_PINS_ID : Field := ⟨0x1C0, 16, 14, .c, .ro, 0, 0, 1, 0, 1⟩
/-- PKG_ID.ID (R633). -/
def Fld.PKG_ID_ID : Field := ⟨0x1C4, 0, 14, .none, .ro, 0, 0, 1, 0, 1⟩
/-- PKG_ID.VALID (R633). -/
def Fld.PKG_ID_VALID : Field := ⟨0x1C4, 15, 1, .none, .ro, 0, 0, 1, 0, 1⟩
/-- PKG_ID.SRC (R633). -/
def Fld.PKG_ID_SRC : Field := ⟨0x1C4, 16, 2, .none, .ro, 0, 0, 1, 0, 1⟩
/-- PKG_WARM.GO (R633). -/
def Fld.PKG_WARM_GO : Field := ⟨0x1C8, 0, 1, .l, .wo, 0, 0, 1, 0, 1⟩
/-- PKG_RESET_CAUSE.LAST (R633). -/
def Fld.PKG_RESET_CAUSE_LAST : Field := ⟨0x1CC, 0, 4, .none, .ro, 0, 0, 1, 0, 1⟩
/-- PKG_RESET_CAUSE.WARM_COUNT (R633). -/
def Fld.PKG_RESET_CAUSE_WARM_COUNT : Field := ⟨0x1CC, 8, 8, .none, .ro, 0, 0, 1, 0, 1⟩
/-- PKG_TRAIN.PHASE (R633). -/
def Fld.PKG_TRAIN_PHASE : Field := ⟨0x1D0, 0, 4, .none, .ro, 0, 0, 1, 0, 1⟩
/-- PKG_TRAIN.PRESERVED (R633). -/
def Fld.PKG_TRAIN_PRESERVED : Field := ⟨0x1D0, 4, 1, .none, .ro, 0, 0, 1, 0, 1⟩
/-- PKG_TRAIN.FENCED (R633). -/
def Fld.PKG_TRAIN_FENCED : Field := ⟨0x1D0, 8, 8, .none, .ro, 0, 0, 1, 0, 1⟩
/-- PKG_TRAIN.D2D_DEGRADED (R633). -/
def Fld.PKG_TRAIN_D2D_DEGRADED : Field := ⟨0x1D0, 16, 8, .none, .ro, 0, 0, 1, 0, 1⟩
/-- PKG_TRAIN.FAILED (R633). -/
def Fld.PKG_TRAIN_FAILED : Field := ⟨0x1D0, 31, 1, .none, .ro, 0, 0, 1, 0, 1⟩
/-- PKG_CLK.TARGET_MHZ (R633). -/
def Fld.PKG_CLK_TARGET_MHZ : Field := ⟨0x1D8, 0, 11, .l, .rw, 1450, 0, 1, 0, 1⟩
/-- PKG_CLK_CAP.POWER_MHZ (R633). -/
def Fld.PKG_CLK_CAP_POWER_MHZ : Field := ⟨0x1DC, 0, 11, .none, .ro, 0, 0, 1, 0, 1⟩
/-- PKG_CLK_CAP.MIN_REGION_MHZ (R633). -/
def Fld.PKG_CLK_CAP_MIN_REGION_MHZ : Field := ⟨0x1DC, 16, 11, .none, .ro, 0, 0, 1, 0, 1⟩
/-- PKG_POWER.LIMIT_W (R633). -/
def Fld.PKG_POWER_LIMIT_W : Field := ⟨0x1E0, 0, 13, .l, .rw, 0, 0, 1, 0, 1⟩
/-- PKG_POWER_READ.AVG1MS_W (R633). -/
def Fld.PKG_POWER_READ_AVG1MS_W : Field := ⟨0x1E4, 0, 13, .none, .ro, 0, 0, 1, 0, 1⟩
/-- PKG_POWER_READ.AVG100MS_W (R633). -/
def Fld.PKG_POWER_READ_AVG100MS_W : Field := ⟨0x1E4, 16, 13, .none, .ro, 0, 0, 1, 0, 1⟩
/-- PKG_THERM.THROTTLE_C (R633). -/
def Fld.PKG_THERM_THROTTLE_C : Field := ⟨0x1E8, 0, 7, .l, .rw, 100, 0, 1, 0, 1⟩
/-- PKG_THERM.GATE_IDLE_MS (R633). -/
def Fld.PKG_THERM_GATE_IDLE_MS : Field := ⟨0x1E8, 8, 8, .l, .rw, 10, 0, 1, 0, 1⟩
/-- PKG_THERM_READ.MAX_C (R633). -/
def Fld.PKG_THERM_READ_MAX_C : Field := ⟨0x1EC, 0, 8, .none, .ro, 0, 0, 1, 0, 1⟩
/-- PKG_THERM_READ.MAX_ISLAND (R633). -/
def Fld.PKG_THERM_READ_MAX_ISLAND : Field := ⟨0x1EC, 8, 12, .none, .ro, 0, 0, 1, 0, 1⟩
/-- PKG_THERM_READ.THROTTLING (R633). -/
def Fld.PKG_THERM_READ_THROTTLING : Field := ⟨0x1EC, 20, 1, .none, .ro, 0, 0, 1, 0, 1⟩
/-- PKG_THERM_READ.TRIPPED (R633). -/
def Fld.PKG_THERM_READ_TRIPPED : Field := ⟨0x1EC, 21, 1, .none, .ro, 0, 0, 1, 0, 1⟩
/-- PKG_MBR_SEL.SLICE (R67). -/
def Fld.PKG_MBR_SEL_SLICE : Field := ⟨0x200, 0, 8, .l, .rw, 0, 4, 64, 0, 1⟩
/-- PKG_BAR4_WIN.ENABLE (R69). -/
def Fld.PKG_BAR4_WIN_ENABLE : Field := ⟨0x300, 0, 1, .l, .rw, 0, 8, 16, 0, 1⟩
/-- PKG_BAR4_WIN.BASE (R69). -/
def Fld.PKG_BAR4_WIN_BASE : Field := ⟨0x300, 21, 31, .l, .rw, 0, 8, 16, 0, 1⟩
/-- PKG_DDR_TIER.CHANNELS (R299). -/
def Fld.PKG_DDR_TIER_CHANNELS : Field := ⟨0x380, 0, 5, .c, .ro, 0, 0, 1, 0, 1⟩
/-- PKG_DDR_TIER.SIZE_GIB (R299). -/
def Fld.PKG_DDR_TIER_SIZE_GIB : Field := ⟨0x380, 8, 24, .c, .ro, 0, 0, 1, 0, 1⟩
/-- PKG_PART_STATE.STATE (R277). -/
def Fld.PKG_PART_STATE_STATE : Field := ⟨0x400, 0, 4, .none, .ro, 0, 32, 32, 0, 1⟩
/-- PKG_PART_STATE.ATTEMPT (R277). -/
def Fld.PKG_PART_STATE_ATTEMPT : Field := ⟨0x400, 8, 8, .none, .ro, 0, 32, 32, 0, 1⟩
/-- PKG_PART_STATE.TEMPLATE (R277). -/
def Fld.PKG_PART_STATE_TEMPLATE : Field := ⟨0x400, 16, 12, .none, .ro, 0, 32, 32, 0, 1⟩
/-- PKG_PART_PITCH (R277). -/
def Fld.PKG_PART_PITCH : Field := ⟨0x404, 0, 32, .none, .ro, 0, 32, 32, 0, 1⟩
/-- PKG_PART_SEQ (R277). -/
def Fld.PKG_PART_SEQ : Field := ⟨0x408, 0, 32, .none, .ro, 0, 32, 32, 0, 1⟩
/-- PKG_PART_HANDLE (R277). -/
def Fld.PKG_PART_HANDLE : Field := ⟨0x40C, 0, 32, .none, .ro, 0, 32, 32, 0, 1⟩
/-- PKG_PART_QMASK (R277). -/
def Fld.PKG_PART_QMASK : Field := ⟨0x410, 0, 32, .none, .ro, 0, 32, 32, 0, 1⟩
/-- PKG_PART_FALLBACK.REGION (R277). -/
def Fld.PKG_PART_FALLBACK_REGION : Field := ⟨0x414, 0, 7, .none, .ro, 0, 32, 32, 0, 1⟩
/-- PKG_PART_FALLBACK.ACTIVE (R277). -/
def Fld.PKG_PART_FALLBACK_ACTIVE : Field := ⟨0x414, 7, 1, .none, .ro, 0, 32, 32, 0, 1⟩
/-- PKG_PART_BOUNDARY (R277). -/
def Fld.PKG_PART_BOUNDARY : Field := ⟨0x418, 0, 32, .none, .ro, 0, 32, 32, 0, 1⟩
/-- PKG_PART_COMMITS (R277). -/
def Fld.PKG_PART_COMMITS : Field := ⟨0x41C, 0, 32, .none, .ro, 0, 32, 32, 0, 1⟩

/-- The fields of a PKG page. -/
def Fld.tabPKG : List Field :=
  [Fld.PKG_CAP0_TDIE_MASK, Fld.PKG_CAP0_IDIE_MASK, Fld.PKG_CAP0_DDR_TIER, Fld.PKG_CAP0_PME, Fld.PKG_CAP0_CIPHER, Fld.PKG_CAP0_ROOT_PORTS, Fld.PKG_CAP0_CREW_ROLE, Fld.PKG_CAP0_HBM64, Fld.PKG_CAP1_MAX_VF, Fld.PKG_CAP1_MAX_PART, Fld.PKG_FW_STATE_STATE, Fld.PKG_FW_STATE_DETAIL] ++
  [Fld.PKG_FW_CTL_GO, Fld.PKG_FW_ADDR_ADDR, Fld.PKG_FW_LEN_BYTES, Fld.PKG_DRV_VER_MINOR, Fld.PKG_DRV_VER_MAJOR, Fld.PKG_FW_VER_MIN_MAJOR, Fld.PKG_FW_VER_MAX_MAJOR, Fld.PKG_FW_VER_MINOR, Fld.PKG_FW_VER_AGREED, Fld.PKG_HOST_PULSE_VALUE, Fld.PKG_HOST_CFG_TIMEOUT_MS, Fld.PKG_HOST_CFG_DETACH_S] ++
  [Fld.PKG_HOST_STATE_CAUSE, Fld.PKG_HOST_STATE_DETACHED, Fld.PKG_HOST_STATE_REMAIN_S, Fld.PKG_ATTACH_ATTACH, Fld.PKG_ATTACH_ADOPT, Fld.PKG_ADMIN_SQ_ADDR, Fld.PKG_ADMIN_CQ_ADDR, Fld.PKG_ADMIN_CFG_SQ_LOG2, Fld.PKG_ADMIN_CFG_CQ_LOG2, Fld.PKG_ADMIN_CFG_VECTOR, Fld.PKG_WAVE_GO, Fld.PKG_WAVE_BUSY] ++
  [Fld.PKG_WAVE_RESULT, Fld.PKG_WAVE_EPOCH, Fld.PKG_WAVE_FAIL_ID, Fld.PKG_CORR_CTRL_ENABLE, Fld.PKG_CORR_CTRL_PERIOD_US, Fld.PKG_CORR_SEQ, Fld.PKG_CREW_SIZE, Fld.PKG_CREW_INDEX, Fld.PKG_CREW_MASK_MEMBERS, Fld.PKG_CREW_CFG_LOSS_MS, Fld.PKG_STRAP_CREW_ROLE, Fld.PKG_STRAP_ID_SRC] ++
  [Fld.PKG_STRAP_IDIE1_MODE, Fld.PKG_STRAP_BAD, Fld.PKG_STRAP_PINS_ID, Fld.PKG_ID_ID, Fld.PKG_ID_VALID, Fld.PKG_ID_SRC, Fld.PKG_WARM_GO, Fld.PKG_RESET_CAUSE_LAST, Fld.PKG_RESET_CAUSE_WARM_COUNT, Fld.PKG_TRAIN_PHASE, Fld.PKG_TRAIN_PRESERVED, Fld.PKG_TRAIN_FENCED] ++
  [Fld.PKG_TRAIN_D2D_DEGRADED, Fld.PKG_TRAIN_FAILED, Fld.PKG_CLK_TARGET_MHZ, Fld.PKG_CLK_CAP_POWER_MHZ, Fld.PKG_CLK_CAP_MIN_REGION_MHZ, Fld.PKG_POWER_LIMIT_W, Fld.PKG_POWER_READ_AVG1MS_W, Fld.PKG_POWER_READ_AVG100MS_W, Fld.PKG_THERM_THROTTLE_C, Fld.PKG_THERM_GATE_IDLE_MS, Fld.PKG_THERM_READ_MAX_C, Fld.PKG_THERM_READ_MAX_ISLAND] ++
  [Fld.PKG_THERM_READ_THROTTLING, Fld.PKG_THERM_READ_TRIPPED, Fld.PKG_MBR_SEL_SLICE, Fld.PKG_BAR4_WIN_ENABLE, Fld.PKG_BAR4_WIN_BASE, Fld.PKG_DDR_TIER_CHANNELS, Fld.PKG_DDR_TIER_SIZE_GIB, Fld.PKG_PART_STATE_STATE, Fld.PKG_PART_STATE_ATTEMPT, Fld.PKG_PART_STATE_TEMPLATE, Fld.PKG_PART_PITCH, Fld.PKG_PART_SEQ] ++
  [Fld.PKG_PART_HANDLE, Fld.PKG_PART_QMASK, Fld.PKG_PART_FALLBACK_REGION, Fld.PKG_PART_FALLBACK_ACTIVE, Fld.PKG_PART_BOUNDARY, Fld.PKG_PART_COMMITS]

/-- TILE_RUN.RUNNING (R155). -/
def Fld.TILE_RUN_RUNNING : Field := ⟨0x100, 0, 1, .none, .ro, 0, 0, 1, 0, 1⟩
/-- TILE_RUN.FAULTED (R155). -/
def Fld.TILE_RUN_FAULTED : Field := ⟨0x100, 1, 1, .none, .ro, 0, 0, 1, 0, 1⟩
/-- TILE_RUN.DONE (R155). -/
def Fld.TILE_RUN_DONE : Field := ⟨0x100, 3, 1, .none, .ro, 0, 0, 1, 0, 1⟩
/-- TILE_RUN.READY (R155). -/
def Fld.TILE_RUN_READY : Field := ⟨0x100, 16, 9, .none, .ro, 0, 0, 1, 0, 1⟩
/-- TILE_FAULT.CODE (R155). -/
def Fld.TILE_FAULT_CODE : Field := ⟨0x104, 0, 16, .none, .ro, 0, 0, 1, 0, 1⟩
/-- TILE_FAULT.STRAND (R155). -/
def Fld.TILE_FAULT_STRAND : Field := ⟨0x104, 16, 8, .none, .ro, 0, 0, 1, 0, 1⟩
/-- TILE_FAULT.NOSTRAND (R155). -/
def Fld.TILE_FAULT_NOSTRAND : Field := ⟨0x104, 24, 1, .none, .ro, 0, 0, 1, 0, 1⟩
/-- TILE_FAULT.VALID (R155). -/
def Fld.TILE_FAULT_VALID : Field := ⟨0x104, 31, 1, .none, .ro, 0, 0, 1, 0, 1⟩
/-- TILE_FAULT_PC.PC (R155). -/
def Fld.TILE_FAULT_PC_PC : Field := ⟨0x108, 0, 15, .none, .ro, 0, 0, 1, 0, 1⟩
/-- TILE_LB.LB0_STATE (R155). -/
def Fld.TILE_LB_LB0_STATE : Field := ⟨0x10C, 0, 2, .none, .ro, 0, 0, 1, 0, 1⟩
/-- TILE_LB.LB0_GRAN (R155). -/
def Fld.TILE_LB_LB0_GRAN : Field := ⟨0x10C, 8, 8, .none, .ro, 0, 0, 1, 0, 1⟩
/-- TILE_LB.LB1_STATE (R155). -/
def Fld.TILE_LB_LB1_STATE : Field := ⟨0x10C, 16, 2, .none, .ro, 0, 0, 1, 0, 1⟩
/-- TILE_LB.LB1_GRAN (R155). -/
def Fld.TILE_LB_LB1_GRAN : Field := ⟨0x10C, 24, 8, .none, .ro, 0, 0, 1, 0, 1⟩
/-- TILE_ANCHOR_SPLIT.PAIR_8K (R155). -/
def Fld.TILE_ANCHOR_SPLIT_PAIR_8K : Field := ⟨0x110, 0, 5, .h, .rw, 12, 0, 1, 0, 1⟩
/-- TILE_SCRUB.ENABLE (R155). -/
def Fld.TILE_SCRUB_ENABLE : Field := ⟨0x114, 0, 1, .l, .rw, 1, 0, 1, 0, 1⟩
/-- TILE_SCRUB.INTERVAL (R155). -/
def Fld.TILE_SCRUB_INTERVAL : Field := ⟨0x114, 8, 8, .l, .rw, 16, 0, 1, 0, 1⟩
/-- TILE_PITCH_NUM.PITCH (R155). -/
def Fld.TILE_PITCH_NUM_PITCH : Field := ⟨0x118, 0, 32, .none, .ro, 0, 0, 1, 0, 1⟩
/-- TILE_PART.TAG (R155). -/
def Fld.TILE_PART_TAG : Field := ⟨0x11C, 0, 6, .none, .ro, 0, 0, 1, 0, 1⟩
/-- TILE_PART.VALID (R155). -/
def Fld.TILE_PART_VALID : Field := ⟨0x11C, 7, 1, .none, .ro, 0, 0, 1, 0, 1⟩
/-- TILE_CAIRN_HEAD.NEXT (R155). -/
def Fld.TILE_CAIRN_HEAD_NEXT : Field := ⟨0x120, 0, 5, .none, .ro, 0, 0, 1, 0, 1⟩
/-- TILE_CAIRN_HEAD.WRITTEN (R155). -/
def Fld.TILE_CAIRN_HEAD_WRITTEN : Field := ⟨0x120, 8, 24, .none, .ro, 0, 0, 1, 0, 1⟩
/-- TILE_CAIRN_EN.CE (R155). -/
def Fld.TILE_CAIRN_EN_CE : Field := ⟨0x124, 0, 1, .l, .rw, 1, 0, 1, 0, 1⟩
/-- TILE_CAIRN_EN.NUMERIC (R155). -/
def Fld.TILE_CAIRN_EN_NUMERIC : Field := ⟨0x124, 1, 1, .l, .rw, 1, 0, 1, 0, 1⟩
/-- TILE_CAIRN_EN.COMMIT (R155). -/
def Fld.TILE_CAIRN_EN_COMMIT : Field := ⟨0x124, 2, 1, .l, .rw, 1, 0, 1, 0, 1⟩
/-- TILE_CAIRN_EN.REFUSED (R155). -/
def Fld.TILE_CAIRN_EN_REFUSED : Field := ⟨0x124, 3, 1, .l, .rw, 1, 0, 1, 0, 1⟩
/-- TILE_MEM_ADDR.WORD (R155). -/
def Fld.TILE_MEM_ADDR_WORD : Field := ⟨0x130, 3, 17, .h, .rw, 0, 0, 1, 0, 1⟩
/-- TILE_MEM_ADDR.AUTO_INC (R155). -/
def Fld.TILE_MEM_ADDR_AUTO_INC : Field := ⟨0x130, 31, 1, .h, .rw, 0, 0, 1, 0, 1⟩
/-- TILE_MEM_DATA (R155). -/
def Fld.TILE_MEM_DATA : Field := ⟨0x138, 0, 64, .h, .rw, 0, 0, 1, 0, 1⟩
/-- TILE_STALL_LIMIT.LIMIT (R155). -/
def Fld.TILE_STALL_LIMIT_LIMIT : Field := ⟨0x800, 0, 16, .s, .rw, 256, 0, 1, 0, 1⟩
/-- TILE_SR_KEY.KEY (R155). -/
def Fld.TILE_SR_KEY_KEY : Field := ⟨0x808, 0, 64, .s, .rw, 0, 0, 1, 0, 1⟩

/-- The fields of a TILE page. -/
def Fld.tabTILE : List Field :=
  [Fld.TILE_RUN_RUNNING, Fld.TILE_RUN_FAULTED, Fld.TILE_RUN_DONE, Fld.TILE_RUN_READY, Fld.TILE_FAULT_CODE, Fld.TILE_FAULT_STRAND, Fld.TILE_FAULT_NOSTRAND, Fld.TILE_FAULT_VALID, Fld.TILE_FAULT_PC_PC, Fld.TILE_LB_LB0_STATE, Fld.TILE_LB_LB0_GRAN, Fld.TILE_LB_LB1_STATE] ++
  [Fld.TILE_LB_LB1_GRAN, Fld.TILE_ANCHOR_SPLIT_PAIR_8K, Fld.TILE_SCRUB_ENABLE, Fld.TILE_SCRUB_INTERVAL, Fld.TILE_PITCH_NUM_PITCH, Fld.TILE_PART_TAG, Fld.TILE_PART_VALID, Fld.TILE_CAIRN_HEAD_NEXT, Fld.TILE_CAIRN_HEAD_WRITTEN, Fld.TILE_CAIRN_EN_CE, Fld.TILE_CAIRN_EN_NUMERIC, Fld.TILE_CAIRN_EN_COMMIT] ++
  [Fld.TILE_CAIRN_EN_REFUSED, Fld.TILE_MEM_ADDR_WORD, Fld.TILE_MEM_ADDR_AUTO_INC, Fld.TILE_MEM_DATA, Fld.TILE_STALL_LIMIT_LIMIT, Fld.TILE_SR_KEY_KEY]

/-- CLU_STATE.TAP (R162). -/
def Fld.CLU_STATE_TAP : Field := ⟨0x100, 0, 2, .none, .ro, 0, 0, 1, 0, 1⟩
/-- CLU_STATE.LB (R162). -/
def Fld.CLU_STATE_LB : Field := ⟨0x100, 2, 1, .none, .ro, 0, 0, 1, 0, 1⟩
/-- CLU_CBUF_USE.PARTIAL (R162). -/
def Fld.CLU_CBUF_USE_PARTIAL : Field := ⟨0x104, 0, 9, .none, .ro, 0, 0, 1, 0, 1⟩

/-- The fields of a CLU page. -/
def Fld.tabCLU : List Field :=
  [Fld.CLU_STATE_TAP, Fld.CLU_STATE_LB, Fld.CLU_CBUF_USE_PARTIAL]

/-- RGN_STATE.STATE (R163). -/
def Fld.RGN_STATE_STATE : Field := ⟨0x100, 0, 3, .none, .ro, 0, 0, 1, 0, 1⟩
/-- RGN_STATE.PVALID (R163). -/
def Fld.RGN_STATE_PVALID : Field := ⟨0x100, 8, 1, .none, .ro, 0, 0, 1, 0, 1⟩
/-- RGN_STATE.PTAG (R163). -/
def Fld.RGN_STATE_PTAG : Field := ⟨0x100, 9, 5, .none, .ro, 0, 0, 1, 0, 1⟩
/-- RGN_STATE.QUARTER (R163). -/
def Fld.RGN_STATE_QUARTER : Field := ⟨0x100, 14, 2, .c, .ro, 0, 0, 1, 0, 1⟩
/-- RGN_STATE.FAULT_TILE (R163). -/
def Fld.RGN_STATE_FAULT_TILE : Field := ⟨0x100, 16, 8, .none, .ro, 0, 0, 1, 0, 1⟩
/-- RGN_CLK.MHZ (R163). -/
def Fld.RGN_CLK_MHZ : Field := ⟨0x104, 0, 11, .none, .ro, 0, 0, 1, 0, 1⟩
/-- RGN_CLK.MV (R163). -/
def Fld.RGN_CLK_MV : Field := ⟨0x104, 16, 10, .none, .ro, 0, 0, 1, 0, 1⟩
/-- RGN_PITCH.PITCH (R163). -/
def Fld.RGN_PITCH_PITCH : Field := ⟨0x108, 0, 32, .none, .ro, 0, 0, 1, 0, 1⟩
/-- RGN_HOLD.ATTEMPT (R163). -/
def Fld.RGN_HOLD_ATTEMPT : Field := ⟨0x10C, 0, 8, .none, .ro, 0, 0, 1, 0, 1⟩
/-- RGN_HOLD.USED (R163). -/
def Fld.RGN_HOLD_USED : Field := ⟨0x10C, 8, 7, .none, .ro, 0, 0, 1, 0, 1⟩

/-- The fields of a RGN page. -/
def Fld.tabRGN : List Field :=
  [Fld.RGN_STATE_STATE, Fld.RGN_STATE_PVALID, Fld.RGN_STATE_PTAG, Fld.RGN_STATE_QUARTER, Fld.RGN_STATE_FAULT_TILE, Fld.RGN_CLK_MHZ, Fld.RGN_CLK_MV, Fld.RGN_PITCH_PITCH, Fld.RGN_HOLD_ATTEMPT, Fld.RGN_HOLD_USED]

/-- ROPE_ENG_EN.MASK (R239). -/
def Fld.ROPE_ENG_EN_MASK : Field := ⟨0x100, 0, 16, .h, .rw, 65535, 0, 1, 0, 1⟩
/-- ROPE_ENG_STATE.E0 (R239). -/
def Fld.ROPE_ENG_STATE_E0 : Field := ⟨0x104, 0, 2, .none, .ro, 0, 0, 1, 0, 1⟩
/-- ROPE_ENG_STATE.E1 (R239). -/
def Fld.ROPE_ENG_STATE_E1 : Field := ⟨0x104, 2, 2, .none, .ro, 0, 0, 1, 0, 1⟩
/-- ROPE_ENG_STATE.E2 (R239). -/
def Fld.ROPE_ENG_STATE_E2 : Field := ⟨0x104, 4, 2, .none, .ro, 0, 0, 1, 0, 1⟩
/-- ROPE_ENG_STATE.E3 (R239). -/
def Fld.ROPE_ENG_STATE_E3 : Field := ⟨0x104, 6, 2, .none, .ro, 0, 0, 1, 0, 1⟩
/-- ROPE_ENG_STATE.E4 (R239). -/
def Fld.ROPE_ENG_STATE_E4 : Field := ⟨0x104, 8, 2, .none, .ro, 0, 0, 1, 0, 1⟩
/-- ROPE_ENG_STATE.E5 (R239). -/
def Fld.ROPE_ENG_STATE_E5 : Field := ⟨0x104, 10, 2, .none, .ro, 0, 0, 1, 0, 1⟩
/-- ROPE_ENG_STATE.E6 (R239). -/
def Fld.ROPE_ENG_STATE_E6 : Field := ⟨0x104, 12, 2, .none, .ro, 0, 0, 1, 0, 1⟩
/-- ROPE_ENG_STATE.E7 (R239). -/
def Fld.ROPE_ENG_STATE_E7 : Field := ⟨0x104, 14, 2, .none, .ro, 0, 0, 1, 0, 1⟩
/-- ROPE_ENG_STATE.E8 (R239). -/
def Fld.ROPE_ENG_STATE_E8 : Field := ⟨0x104, 16, 2, .none, .ro, 0, 0, 1, 0, 1⟩
/-- ROPE_ENG_STATE.E9 (R239). -/
def Fld.ROPE_ENG_STATE_E9 : Field := ⟨0x104, 18, 2, .none, .ro, 0, 0, 1, 0, 1⟩
/-- ROPE_ENG_STATE.E10 (R239). -/
def Fld.ROPE_ENG_STATE_E10 : Field := ⟨0x104, 20, 2, .none, .ro, 0, 0, 1, 0, 1⟩
/-- ROPE_ENG_STATE.E11 (R239). -/
def Fld.ROPE_ENG_STATE_E11 : Field := ⟨0x104, 22, 2, .none, .ro, 0, 0, 1, 0, 1⟩
/-- ROPE_ENG_STATE.E12 (R239). -/
def Fld.ROPE_ENG_STATE_E12 : Field := ⟨0x104, 24, 2, .none, .ro, 0, 0, 1, 0, 1⟩
/-- ROPE_ENG_STATE.E13 (R239). -/
def Fld.ROPE_ENG_STATE_E13 : Field := ⟨0x104, 26, 2, .none, .ro, 0, 0, 1, 0, 1⟩
/-- ROPE_ENG_STATE.E14 (R239). -/
def Fld.ROPE_ENG_STATE_E14 : Field := ⟨0x104, 28, 2, .none, .ro, 0, 0, 1, 0, 1⟩
/-- ROPE_ENG_STATE.E15 (R239). -/
def Fld.ROPE_ENG_STATE_E15 : Field := ⟨0x104, 30, 2, .none, .ro, 0, 0, 1, 0, 1⟩
/-- ROPE_CTX1.MASK (R239). -/
def Fld.ROPE_CTX1_MASK : Field := ⟨0x108, 0, 16, .none, .ro, 0, 0, 1, 0, 1⟩
/-- ROPE_FAULT.CODE (R239). -/
def Fld.ROPE_FAULT_CODE : Field := ⟨0x10C, 0, 16, .none, .ro, 0, 0, 1, 0, 1⟩
/-- ROPE_FAULT.ENGINE (R239). -/
def Fld.ROPE_FAULT_ENGINE : Field := ⟨0x10C, 16, 4, .none, .ro, 0, 0, 1, 0, 1⟩
/-- ROPE_FAULT.CTX (R239). -/
def Fld.ROPE_FAULT_CTX : Field := ⟨0x10C, 20, 1, .none, .ro, 0, 0, 1, 0, 1⟩
/-- ROPE_FAULT.VALID (R239). -/
def Fld.ROPE_FAULT_VALID : Field := ⟨0x10C, 31, 1, .none, .ro, 0, 0, 1, 0, 1⟩
/-- ROPE_FAULT_ENTRY.INDEX (R239). -/
def Fld.ROPE_FAULT_ENTRY_INDEX : Field := ⟨0x110, 0, 24, .none, .ro, 0, 0, 1, 0, 1⟩
/-- ROPE_CTRL.REPAIR (R239). -/
def Fld.ROPE_CTRL_REPAIR : Field := ⟨0x114, 0, 1, .l, .rw, 1, 0, 1, 0, 1⟩
/-- ROPE_MCAST.REGION (R239). -/
def Fld.ROPE_MCAST_REGION : Field := ⟨0x800, 0, 16, .s, .rw, 0, 8, 128, 0, 1⟩
/-- ROPE_MCAST.CLUSTER (R239). -/
def Fld.ROPE_MCAST_CLUSTER : Field := ⟨0x800, 16, 8, .s, .rw, 0, 8, 128, 0, 1⟩
/-- ROPE_MCAST.TILE (R239). -/
def Fld.ROPE_MCAST_TILE : Field := ⟨0x800, 24, 16, .s, .rw, 0, 8, 128, 0, 1⟩
/-- ROPE_MCAST.VALID (R239). -/
def Fld.ROPE_MCAST_VALID : Field := ⟨0x804, 31, 1, .s, .rw, 0, 8, 128, 0, 1⟩
/-- ROPE_RSRC.PKG (R239). -/
def Fld.ROPE_RSRC_PKG : Field := ⟨0xC00, 0, 14, .s, .rw, 0, 8, 64, 0, 1⟩
/-- ROPE_RSRC.VALID (R239). -/
def Fld.ROPE_RSRC_VALID : Field := ⟨0xC00, 31, 1, .s, .rw, 0, 8, 64, 0, 1⟩
/-- ROPE_RSRC.KEY (R239). -/
def Fld.ROPE_RSRC_KEY : Field := ⟨0xC04, 0, 32, .s, .rw, 0, 8, 64, 0, 1⟩
/-- ROPE_POLL.NS (R239). -/
def Fld.ROPE_POLL_NS : Field := ⟨0xE00, 0, 16, .s, .rw, 200, 0, 1, 0, 1⟩
/-- ROPE_SEL_LIMIT.US (R239). -/
def Fld.ROPE_SEL_LIMIT_US : Field := ⟨0xE04, 0, 16, .s, .rw, 2000, 0, 1, 0, 1⟩

/-- The fields of a ROPE page. -/
def Fld.tabROPE : List Field :=
  [Fld.ROPE_ENG_EN_MASK, Fld.ROPE_ENG_STATE_E0, Fld.ROPE_ENG_STATE_E1, Fld.ROPE_ENG_STATE_E2, Fld.ROPE_ENG_STATE_E3, Fld.ROPE_ENG_STATE_E4, Fld.ROPE_ENG_STATE_E5, Fld.ROPE_ENG_STATE_E6, Fld.ROPE_ENG_STATE_E7, Fld.ROPE_ENG_STATE_E8, Fld.ROPE_ENG_STATE_E9, Fld.ROPE_ENG_STATE_E10] ++
  [Fld.ROPE_ENG_STATE_E11, Fld.ROPE_ENG_STATE_E12, Fld.ROPE_ENG_STATE_E13, Fld.ROPE_ENG_STATE_E14, Fld.ROPE_ENG_STATE_E15, Fld.ROPE_CTX1_MASK, Fld.ROPE_FAULT_CODE, Fld.ROPE_FAULT_ENGINE, Fld.ROPE_FAULT_CTX, Fld.ROPE_FAULT_VALID, Fld.ROPE_FAULT_ENTRY_INDEX, Fld.ROPE_CTRL_REPAIR] ++
  [Fld.ROPE_MCAST_REGION, Fld.ROPE_MCAST_CLUSTER, Fld.ROPE_MCAST_TILE, Fld.ROPE_MCAST_VALID, Fld.ROPE_RSRC_PKG, Fld.ROPE_RSRC_VALID, Fld.ROPE_RSRC_KEY, Fld.ROPE_POLL_NS, Fld.ROPE_SEL_LIMIT_US]

/-- LAST_CNT (R270). -/
def Fld.LAST_CNT : Field := ⟨0x700, 0, 64, .none, .ro, 0, 8, 24, 0, 1⟩
/-- LAST_PITCH.PITCH (R270). -/
def Fld.LAST_PITCH_PITCH : Field := ⟨0x7C0, 0, 32, .none, .ro, 0, 0, 1, 0, 1⟩
/-- LAST_INFO.ATTEMPTS (R270). -/
def Fld.LAST_INFO_ATTEMPTS : Field := ⟨0x7C4, 0, 8, .none, .ro, 0, 0, 1, 0, 1⟩
/-- LAST_INFO.VALID (R270). -/
def Fld.LAST_INFO_VALID : Field := ⟨0x7C4, 31, 1, .none, .ro, 0, 0, 1, 0, 1⟩

/-- The fields of a LAST page. -/
def Fld.tabLAST : List Field :=
  [Fld.LAST_CNT, Fld.LAST_PITCH_PITCH, Fld.LAST_INFO_ATTEMPTS, Fld.LAST_INFO_VALID]

/-- HBMC_CFG.PC (R306). -/
def Fld.HBMC_CFG_PC : Field := ⟨0x100, 0, 7, .c, .ro, 64, 0, 1, 0, 1⟩
/-- HBMC_CFG.SIZE_GIB (R306). -/
def Fld.HBMC_CFG_SIZE_GIB : Field := ⟨0x100, 8, 8, .c, .ro, 0, 0, 1, 0, 1⟩
/-- HBMC_STATE.TRAINED (R306). -/
def Fld.HBMC_STATE_TRAINED : Field := ⟨0x104, 0, 1, .none, .ro, 0, 0, 1, 0, 1⟩
/-- HBMC_STATE.SELF_REFRESH (R306). -/
def Fld.HBMC_STATE_SELF_REFRESH : Field := ⟨0x104, 1, 1, .none, .ro, 0, 0, 1, 0, 1⟩
/-- HBMC_STATE.FAILED (R306). -/
def Fld.HBMC_STATE_FAILED : Field := ⟨0x104, 2, 1, .none, .ro, 0, 0, 1, 0, 1⟩
/-- HBMC_SCRUB.ENABLE (R306). -/
def Fld.HBMC_SCRUB_ENABLE : Field := ⟨0x108, 0, 1, .l, .rw, 1, 0, 1, 0, 1⟩
/-- HBMC_SCRUB.PERIOD_H (R306). -/
def Fld.HBMC_SCRUB_PERIOD_H : Field := ⟨0x108, 8, 8, .l, .rw, 24, 0, 1, 0, 1⟩
/-- HBMC_CE_THRESH.COUNT (R306). -/
def Fld.HBMC_CE_THRESH_COUNT : Field := ⟨0x110, 0, 16, .l, .rw, 1000, 0, 1, 0, 1⟩
/-- HBMC_CE_THRESH.WINDOW_S (R306). -/
def Fld.HBMC_CE_THRESH_WINDOW_S : Field := ⟨0x110, 16, 8, .l, .rw, 60, 0, 1, 0, 1⟩
/-- HBMC_POISON_ADDR.VALID (R306). -/
def Fld.HBMC_POISON_ADDR_VALID : Field := ⟨0x118, 0, 1, .none, .ro, 0, 0, 1, 0, 1⟩
/-- HBMC_POISON_ADDR.LINE (R306). -/
def Fld.HBMC_POISON_ADDR_LINE : Field := ⟨0x118, 8, 44, .none, .ro, 0, 0, 1, 0, 1⟩
/-- HBMC_INJECT.MODE (R306). -/
def Fld.HBMC_INJECT_MODE : Field := ⟨0x120, 0, 2, .h, .rw, 0, 0, 1, 0, 1⟩
/-- HBMC_INJECT.LINE (R306). -/
def Fld.HBMC_INJECT_LINE : Field := ⟨0x120, 8, 44, .h, .rw, 0, 0, 1, 0, 1⟩
/-- HBMC_SCRUB_POS.LINE (R306). -/
def Fld.HBMC_SCRUB_POS_LINE : Field := ⟨0x128, 0, 34, .none, .ro, 0, 0, 1, 0, 1⟩

/-- The fields of a HBMC page. -/
def Fld.tabHBMC : List Field :=
  [Fld.HBMC_CFG_PC, Fld.HBMC_CFG_SIZE_GIB, Fld.HBMC_STATE_TRAINED, Fld.HBMC_STATE_SELF_REFRESH, Fld.HBMC_STATE_FAILED, Fld.HBMC_SCRUB_ENABLE, Fld.HBMC_SCRUB_PERIOD_H, Fld.HBMC_CE_THRESH_COUNT, Fld.HBMC_CE_THRESH_WINDOW_S, Fld.HBMC_POISON_ADDR_VALID, Fld.HBMC_POISON_ADDR_LINE, Fld.HBMC_INJECT_MODE] ++
  [Fld.HBMC_INJECT_LINE, Fld.HBMC_SCRUB_POS_LINE]

/-- DDR_CFG.DIMMS (R307). -/
def Fld.DDR_CFG_DIMMS : Field := ⟨0x100, 0, 2, .none, .ro, 0, 0, 1, 0, 1⟩
/-- DDR_CFG.MRDIMM (R307). -/
def Fld.DDR_CFG_MRDIMM : Field := ⟨0x100, 2, 1, .none, .ro, 0, 0, 1, 0, 1⟩
/-- DDR_CFG.SIZE_GIB (R307). -/
def Fld.DDR_CFG_SIZE_GIB : Field := ⟨0x100, 8, 10, .none, .ro, 0, 0, 1, 0, 1⟩
/-- DDR_CFG.RATE (R307). -/
def Fld.DDR_CFG_RATE : Field := ⟨0x100, 18, 8, .none, .ro, 0, 0, 1, 0, 1⟩
/-- DDR_STATE.TRAINED (R307). -/
def Fld.DDR_STATE_TRAINED : Field := ⟨0x104, 0, 1, .none, .ro, 0, 0, 1, 0, 1⟩
/-- DDR_STATE.USED (R307). -/
def Fld.DDR_STATE_USED : Field := ⟨0x104, 1, 1, .none, .ro, 0, 0, 1, 0, 1⟩
/-- DDR_STATE.UNUSED (R307). -/
def Fld.DDR_STATE_UNUSED : Field := ⟨0x104, 2, 1, .none, .ro, 0, 0, 1, 0, 1⟩
/-- DDR_STATE.KEY_LOST (R307). -/
def Fld.DDR_STATE_KEY_LOST : Field := ⟨0x104, 3, 1, .none, .ro, 0, 0, 1, 0, 1⟩
/-- DDR_STATE.SELF_REFRESH (R307). -/
def Fld.DDR_STATE_SELF_REFRESH : Field := ⟨0x104, 4, 1, .none, .ro, 0, 0, 1, 0, 1⟩
/-- DDR_XTS.ENABLE (R307). -/
def Fld.DDR_XTS_ENABLE : Field := ⟨0x130, 0, 1, .h, .rw, 0, 0, 1, 0, 1⟩
/-- DDR_XTS.SLOT (R307). -/
def Fld.DDR_XTS_SLOT : Field := ⟨0x130, 16, 12, .h, .rw, 0, 0, 1, 0, 1⟩
/-- DDR_XTS_RESUME.GO (R307). -/
def Fld.DDR_XTS_RESUME_GO : Field := ⟨0x134, 0, 1, .l, .wo, 0, 0, 1, 0, 1⟩
/-- DDR_XTS_KCV.KCV (R307). -/
def Fld.DDR_XTS_KCV_KCV : Field := ⟨0x138, 0, 64, .none, .ro, 0, 0, 1, 0, 1⟩

/-- The fields of a DDR page. -/
def Fld.tabDDR : List Field :=
  [Fld.DDR_CFG_DIMMS, Fld.DDR_CFG_MRDIMM, Fld.DDR_CFG_SIZE_GIB, Fld.DDR_CFG_RATE, Fld.DDR_STATE_TRAINED, Fld.DDR_STATE_USED, Fld.DDR_STATE_UNUSED, Fld.DDR_STATE_KEY_LOST, Fld.DDR_STATE_SELF_REFRESH, Fld.DDR_XTS_ENABLE, Fld.DDR_XTS_SLOT, Fld.DDR_XTS_RESUME_GO] ++
  [Fld.DDR_XTS_KCV_KCV]

/-- ETH_MODE.SPEED (R313). -/
def Fld.ETH_MODE_SPEED : Field := ⟨0x100, 0, 2, .h, .rw, 0, 0, 1, 0, 1⟩
/-- ETH_MODE.GROUP (R313). -/
def Fld.ETH_MODE_GROUP : Field := ⟨0x100, 4, 3, .h, .rw, 0, 0, 1, 0, 1⟩
/-- ETH_MODE.AUTO_NARROW (R313). -/
def Fld.ETH_MODE_AUTO_NARROW : Field := ⟨0x100, 8, 1, .h, .rw, 1, 0, 1, 0, 1⟩
/-- ETH_STATE.UP (R313). -/
def Fld.ETH_STATE_UP : Field := ⟨0x104, 0, 1, .none, .ro, 0, 0, 1, 0, 1⟩
/-- ETH_STATE.SPEED (R313). -/
def Fld.ETH_STATE_SPEED : Field := ⟨0x104, 1, 2, .none, .ro, 0, 0, 1, 0, 1⟩
/-- ETH_STATE.GROUP (R313). -/
def Fld.ETH_STATE_GROUP : Field := ⟨0x104, 4, 3, .none, .ro, 0, 0, 1, 0, 1⟩
/-- ETH_STATE.FAILED (R313). -/
def Fld.ETH_STATE_FAILED : Field := ⟨0x104, 8, 8, .none, .ro, 0, 0, 1, 0, 1⟩
/-- ETH_FEC_THRESH.CE_PER_MS (R313). -/
def Fld.ETH_FEC_THRESH_CE_PER_MS : Field := ⟨0x108, 0, 16, .l, .rw, 4000, 0, 1, 0, 1⟩
/-- ETH_FEC_THRESH.UCW_PER_MS (R313). -/
def Fld.ETH_FEC_THRESH_UCW_PER_MS : Field := ⟨0x108, 16, 8, .l, .rw, 10, 0, 1, 0, 1⟩
/-- ETH_MAC_ADDR.ADDR (R313). -/
def Fld.ETH_MAC_ADDR_ADDR : Field := ⟨0x800, 0, 48, .s, .rw, 0, 0, 1, 0, 1⟩

/-- The fields of a ETH page. -/
def Fld.tabETH : List Field :=
  [Fld.ETH_MODE_SPEED, Fld.ETH_MODE_GROUP, Fld.ETH_MODE_AUTO_NARROW, Fld.ETH_STATE_UP, Fld.ETH_STATE_SPEED, Fld.ETH_STATE_GROUP, Fld.ETH_STATE_FAILED, Fld.ETH_FEC_THRESH_CE_PER_MS, Fld.ETH_FEC_THRESH_UCW_PER_MS, Fld.ETH_MAC_ADDR_ADDR]

/-- GFT_CFG.UDP_PORT (R350). -/
def Fld.GFT_CFG_UDP_PORT : Field := ⟨0x100, 0, 16, .h, .rw, 47031, 0, 1, 0, 1⟩
/-- GFT_CFG.MAX_PAYLOAD (R350). -/
def Fld.GFT_CFG_MAX_PAYLOAD : Field := ⟨0x100, 16, 2, .h, .rw, 2, 0, 1, 0, 1⟩
/-- GFT_STATE.CACHED (R350). -/
def Fld.GFT_STATE_CACHED : Field := ⟨0x104, 0, 17, .none, .ro, 0, 0, 1, 0, 1⟩
/-- GFT_STATE.PINNED (R350). -/
def Fld.GFT_STATE_PINNED : Field := ⟨0x104, 17, 15, .none, .ro, 0, 0, 1, 0, 1⟩
/-- GFT_BIVOUAC.ENABLE (R350). -/
def Fld.GFT_BIVOUAC_ENABLE : Field := ⟨0x108, 0, 1, .h, .rw, 0, 0, 1, 0, 1⟩
/-- GFT_BIVOUAC.ADDR (R350). -/
def Fld.GFT_BIVOUAC_ADDR : Field := ⟨0x108, 12, 40, .h, .rw, 0, 0, 1, 0, 1⟩
/-- GFT_BIVOUAC_SIZE.COUNT (R350). -/
def Fld.GFT_BIVOUAC_SIZE_COUNT : Field := ⟨0x110, 0, 23, .h, .rw, 0, 0, 1, 0, 1⟩
/-- GFT_SUMMIT.IN_USE (R350). -/
def Fld.GFT_SUMMIT_IN_USE : Field := ⟨0x114, 0, 13, .none, .ro, 0, 0, 1, 0, 1⟩
/-- GFT_SUMMIT.HIGH (R350). -/
def Fld.GFT_SUMMIT_HIGH : Field := ⟨0x114, 16, 13, .none, .ro, 0, 0, 1, 0, 1⟩
/-- GFT_OUTSTANDING.REQ (R350). -/
def Fld.GFT_OUTSTANDING_REQ : Field := ⟨0x118, 0, 17, .none, .ro, 0, 0, 1, 0, 1⟩
/-- GFT_RTO.RTO_MIN_US (R350). -/
def Fld.GFT_RTO_RTO_MIN_US : Field := ⟨0x800, 0, 10, .s, .rw, 16, 0, 1, 0, 1⟩
/-- GFT_RTO.RTO_MAX_US (R350). -/
def Fld.GFT_RTO_RTO_MAX_US : Field := ⟨0x800, 16, 14, .s, .rw, 1000, 0, 1, 0, 1⟩
/-- GFT_RETRY.RETRY_MAX (R350). -/
def Fld.GFT_RETRY_RETRY_MAX : Field := ⟨0x804, 0, 4, .s, .rw, 7, 0, 1, 0, 1⟩
/-- GFT_RETRY.RNR_MAX (R350). -/
def Fld.GFT_RETRY_RNR_MAX : Field := ⟨0x804, 4, 4, .s, .rw, 7, 0, 1, 0, 1⟩
/-- GFT_RETRY.RNR_DELAY_US (R350). -/
def Fld.GFT_RETRY_RNR_DELAY_US : Field := ⟨0x804, 8, 10, .s, .rw, 10, 0, 1, 0, 1⟩
/-- GFT_ACK.ACK_EVERY (R350). -/
def Fld.GFT_ACK_ACK_EVERY : Field := ⟨0x808, 0, 7, .s, .rw, 16, 0, 1, 0, 1⟩
/-- GFT_ACK.ACK_DELAY_NS (R350). -/
def Fld.GFT_ACK_ACK_DELAY_NS : Field := ⟨0x808, 16, 14, .s, .rw, 500, 0, 1, 0, 1⟩
/-- GFT_PROBE.TIMEOUT_US (R350). -/
def Fld.GFT_PROBE_TIMEOUT_US : Field := ⟨0x80C, 0, 8, .s, .rw, 20, 0, 1, 0, 1⟩
/-- GFT_PROBE.INTERVAL_US (R350). -/
def Fld.GFT_PROBE_INTERVAL_US : Field := ⟨0x80C, 16, 14, .s, .rw, 100, 0, 1, 0, 1⟩
/-- GFT_CC.TARGET_RTT_US (R350). -/
def Fld.GFT_CC_TARGET_RTT_US : Field := ⟨0x810, 0, 8, .s, .rw, 10, 0, 1, 0, 1⟩
/-- GFT_CC.INIT_PKTS (R350). -/
def Fld.GFT_CC_INIT_PKTS : Field := ⟨0x810, 8, 12, .s, .rw, 128, 0, 1, 0, 1⟩
/-- GFT_WIN_BASE.VALID (R350). -/
def Fld.GFT_WIN_BASE_VALID : Field := ⟨0x818, 0, 1, .s, .rw, 0, 0, 1, 0, 1⟩
/-- GFT_WIN_BASE.ADDR (R350). -/
def Fld.GFT_WIN_BASE_ADDR : Field := ⟨0x818, 12, 40, .s, .rw, 0, 0, 1, 0, 1⟩
/-- GFT_KEY_BASE.VALID (R350). -/
def Fld.GFT_KEY_BASE_VALID : Field := ⟨0x820, 0, 1, .s, .rw, 0, 0, 1, 0, 1⟩
/-- GFT_KEY_BASE.ADDR (R350). -/
def Fld.GFT_KEY_BASE_ADDR : Field := ⟨0x820, 12, 40, .s, .rw, 0, 0, 1, 0, 1⟩
/-- GFT_KEY_COUNT.COUNT (R350). -/
def Fld.GFT_KEY_COUNT_COUNT : Field := ⟨0x828, 0, 25, .s, .rw, 0, 0, 1, 0, 1⟩
/-- GFT_GROUP_BASE.VALID (R350). -/
def Fld.GFT_GROUP_BASE_VALID : Field := ⟨0x830, 0, 1, .s, .rw, 0, 0, 1, 0, 1⟩
/-- GFT_GROUP_BASE.ADDR (R350). -/
def Fld.GFT_GROUP_BASE_ADDR : Field := ⟨0x830, 12, 40, .s, .rw, 0, 0, 1, 0, 1⟩

/-- The fields of a GFT page. -/
def Fld.tabGFT : List Field :=
  [Fld.GFT_CFG_UDP_PORT, Fld.GFT_CFG_MAX_PAYLOAD, Fld.GFT_STATE_CACHED, Fld.GFT_STATE_PINNED, Fld.GFT_BIVOUAC_ENABLE, Fld.GFT_BIVOUAC_ADDR, Fld.GFT_BIVOUAC_SIZE_COUNT, Fld.GFT_SUMMIT_IN_USE, Fld.GFT_SUMMIT_HIGH, Fld.GFT_OUTSTANDING_REQ, Fld.GFT_RTO_RTO_MIN_US, Fld.GFT_RTO_RTO_MAX_US] ++
  [Fld.GFT_RETRY_RETRY_MAX, Fld.GFT_RETRY_RNR_MAX, Fld.GFT_RETRY_RNR_DELAY_US, Fld.GFT_ACK_ACK_EVERY, Fld.GFT_ACK_ACK_DELAY_NS, Fld.GFT_PROBE_TIMEOUT_US, Fld.GFT_PROBE_INTERVAL_US, Fld.GFT_CC_TARGET_RTT_US, Fld.GFT_CC_INIT_PKTS, Fld.GFT_WIN_BASE_VALID, Fld.GFT_WIN_BASE_ADDR, Fld.GFT_KEY_BASE_VALID] ++
  [Fld.GFT_KEY_BASE_ADDR, Fld.GFT_KEY_COUNT_COUNT, Fld.GFT_GROUP_BASE_VALID, Fld.GFT_GROUP_BASE_ADDR]

/-- PRS_STATE.REORDER (R382). -/
def Fld.PRS_STATE_REORDER : Field := ⟨0x100, 0, 15, .none, .ro, 0, 0, 1, 0, 1⟩
/-- PRS_STATE.SLOW (R382). -/
def Fld.PRS_STATE_SLOW : Field := ⟨0x100, 16, 13, .none, .ro, 0, 0, 1, 0, 1⟩
/-- PRS_REORDER.TIMEOUT_US (R382). -/
def Fld.PRS_REORDER_TIMEOUT_US : Field := ⟨0x104, 0, 10, .l, .rw, 50, 0, 1, 0, 1⟩
/-- PRS_PORT_CFG.FIRST_GROUP (R382). -/
def Fld.PRS_PORT_CFG_FIRST_GROUP : Field := ⟨0x800, 0, 2, .s, .rw, 0, 4, 5, 0, 1⟩
/-- PRS_PORT_CFG.GFT_CLASSIFY (R382). -/
def Fld.PRS_PORT_CFG_GFT_CLASSIFY : Field := ⟨0x800, 2, 1, .s, .rw, 0, 4, 5, 0, 1⟩
/-- PRS_PORT_CFG.MPLS_INNER (R382). -/
def Fld.PRS_PORT_CFG_MPLS_INNER : Field := ⟨0x800, 3, 1, .s, .rw, 0, 4, 5, 0, 1⟩
/-- PRS_TPID.EXTRA (R382). -/
def Fld.PRS_TPID_EXTRA : Field := ⟨0x820, 0, 16, .s, .rw, 37120, 0, 1, 0, 1⟩
/-- PRS_ETYPE.ETYPE (R382). -/
def Fld.PRS_ETYPE_ETYPE : Field := ⟨0x830, 0, 16, .s, .rw, 0, 4, 8, 0, 1⟩
/-- PRS_ETYPE.VALID (R382). -/
def Fld.PRS_ETYPE_VALID : Field := ⟨0x830, 31, 1, .s, .rw, 0, 4, 8, 0, 1⟩
/-- PRS_SLOW.HOST_MASK (R382). -/
def Fld.PRS_SLOW_HOST_MASK : Field := ⟨0x850, 0, 9, .s, .rw, 0, 0, 1, 0, 1⟩
/-- PRS_SLOW.FUNC (R382). -/
def Fld.PRS_SLOW_FUNC : Field := ⟨0x850, 9, 7, .s, .rw, 0, 0, 1, 0, 1⟩
/-- PRS_SLOW.RXQ (R382). -/
def Fld.PRS_SLOW_RXQ : Field := ⟨0x850, 16, 14, .s, .rw, 0, 0, 1, 0, 1⟩

/-- The fields of a PRS page. -/
def Fld.tabPRS : List Field :=
  [Fld.PRS_STATE_REORDER, Fld.PRS_STATE_SLOW, Fld.PRS_REORDER_TIMEOUT_US, Fld.PRS_PORT_CFG_FIRST_GROUP, Fld.PRS_PORT_CFG_GFT_CLASSIFY, Fld.PRS_PORT_CFG_MPLS_INNER, Fld.PRS_TPID_EXTRA, Fld.PRS_ETYPE_ETYPE, Fld.PRS_ETYPE_VALID, Fld.PRS_SLOW_HOST_MASK, Fld.PRS_SLOW_FUNC, Fld.PRS_SLOW_RXQ]

/-- CLS_TBL_SEL.SLOT (R383). -/
def Fld.CLS_TBL_SEL_SLOT : Field := ⟨0x100, 0, 19, .l, .rw, 0, 0, 1, 0, 1⟩
/-- CLS_TBL_SEL.STASH (R383). -/
def Fld.CLS_TBL_SEL_STASH : Field := ⟨0x100, 19, 1, .l, .rw, 0, 0, 1, 0, 1⟩
/-- CLS_TBL_SEL.GROUP (R383). -/
def Fld.CLS_TBL_SEL_GROUP : Field := ⟨0x100, 20, 2, .l, .rw, 0, 0, 1, 0, 1⟩
/-- CLS_TBL_SEL.WORD (R383). -/
def Fld.CLS_TBL_SEL_WORD : Field := ⟨0x100, 22, 4, .l, .rw, 0, 0, 1, 0, 1⟩
/-- CLS_TBL_SEL.AUTO_INC (R383). -/
def Fld.CLS_TBL_SEL_AUTO_INC : Field := ⟨0x100, 31, 1, .l, .rw, 0, 0, 1, 0, 1⟩
/-- CLS_TBL_STAT.RESULT (R383). -/
def Fld.CLS_TBL_STAT_RESULT : Field := ⟨0x104, 0, 3, .none, .ro, 0, 0, 1, 0, 1⟩
/-- CLS_TBL_DATA (R383). -/
def Fld.CLS_TBL_DATA : Field := ⟨0x108, 0, 64, .l, .rw, 0, 0, 1, 0, 1⟩
/-- CLS_FCNT_SEL.INDEX (R383). -/
def Fld.CLS_FCNT_SEL_INDEX : Field := ⟨0x110, 0, 14, .l, .rw, 0, 0, 1, 0, 1⟩
/-- CLS_FCNT_PKTS (R383). -/
def Fld.CLS_FCNT_PKTS : Field := ⟨0x118, 0, 64, .none, .ro, 0, 0, 1, 0, 1⟩
/-- CLS_FCNT_BYTES (R383). -/
def Fld.CLS_FCNT_BYTES : Field := ⟨0x120, 0, 64, .none, .ro, 0, 0, 1, 0, 1⟩
/-- CLS_GRP_STAT.VALID (R383). -/
def Fld.CLS_GRP_STAT_VALID : Field := ⟨0x130, 0, 20, .none, .ro, 0, 4, 4, 0, 1⟩
/-- CLS_GRP_STAT.STASH (R383). -/
def Fld.CLS_GRP_STAT_STASH : Field := ⟨0x130, 20, 7, .none, .ro, 0, 4, 4, 0, 1⟩
/-- CLS_GRP_CFG.BUCKETS_LOG2 (R383). -/
def Fld.CLS_GRP_CFG_BUCKETS_LOG2 : Field := ⟨0x800, 0, 5, .s, .rw, 0, 128, 4, 0, 1⟩
/-- CLS_GRP_CFG.BASE_BUCKET (R383). -/
def Fld.CLS_GRP_CFG_BASE_BUCKET : Field := ⟨0x800, 5, 17, .s, .rw, 0, 128, 4, 0, 1⟩
/-- CLS_GRP_CFG.KEY_WIDTH (R383). -/
def Fld.CLS_GRP_CFG_KEY_WIDTH : Field := ⟨0x800, 22, 2, .s, .rw, 0, 128, 4, 0, 1⟩
/-- CLS_GRP_SEED0 (R383). -/
def Fld.CLS_GRP_SEED0 : Field := ⟨0x804, 0, 32, .s, .rw, 0, 128, 4, 0, 1⟩
/-- CLS_GRP_SEED1 (R383). -/
def Fld.CLS_GRP_SEED1 : Field := ⟨0x808, 0, 32, .s, .rw, 0, 128, 4, 0, 1⟩
/-- CLS_GRP_MISS (R383). -/
def Fld.CLS_GRP_MISS : Field := ⟨0x810, 0, 256, .s, .rw, 0, 128, 4, 0, 1⟩
/-- CLS_KEYSEL.OFFSET (R383). -/
def Fld.CLS_KEYSEL_OFFSET : Field := ⟨0x830, 0, 8, .s, .rw, 0, 4, 12, 128, 4⟩
/-- CLS_KEYSEL.LENGTH (R383). -/
def Fld.CLS_KEYSEL_LENGTH : Field := ⟨0x830, 8, 5, .s, .rw, 0, 4, 12, 128, 4⟩
/-- CLS_KEYSEL.BASE (R383). -/
def Fld.CLS_KEYSEL_BASE : Field := ⟨0x830, 13, 3, .s, .rw, 0, 4, 12, 128, 4⟩
/-- CLS_EDIT_BASE.VALID (R383). -/
def Fld.CLS_EDIT_BASE_VALID : Field := ⟨0xA00, 0, 1, .s, .rw, 0, 0, 1, 0, 1⟩
/-- CLS_EDIT_BASE.ADDR (R383). -/
def Fld.CLS_EDIT_BASE_ADDR : Field := ⟨0xA00, 12, 40, .s, .rw, 0, 0, 1, 0, 1⟩
/-- CLS_PLACE_BASE.VALID (R383). -/
def Fld.CLS_PLACE_BASE_VALID : Field := ⟨0xA08, 0, 1, .s, .rw, 0, 0, 1, 0, 1⟩
/-- CLS_PLACE_BASE.ADDR (R383). -/
def Fld.CLS_PLACE_BASE_ADDR : Field := ⟨0xA08, 12, 40, .s, .rw, 0, 0, 1, 0, 1⟩
/-- CLS_MIRROR.KIND (R383). -/
def Fld.CLS_MIRROR_KIND : Field := ⟨0xA10, 0, 2, .s, .rw, 0, 4, 16, 0, 1⟩
/-- CLS_MIRROR.PORT (R383). -/
def Fld.CLS_MIRROR_PORT : Field := ⟨0xA10, 2, 2, .s, .rw, 0, 4, 16, 0, 1⟩
/-- CLS_MIRROR.QUEUE (R383). -/
def Fld.CLS_MIRROR_QUEUE : Field := ⟨0xA10, 4, 5, .s, .rw, 0, 4, 16, 0, 1⟩
/-- CLS_MIRROR.FUNC (R383). -/
def Fld.CLS_MIRROR_FUNC : Field := ⟨0xA10, 9, 7, .s, .rw, 0, 4, 16, 0, 1⟩
/-- CLS_MIRROR.RXQ (R383). -/
def Fld.CLS_MIRROR_RXQ : Field := ⟨0xA10, 16, 14, .s, .rw, 0, 4, 16, 0, 1⟩
/-- CLS_MIRROR.TRUNC (R383). -/
def Fld.CLS_MIRROR_TRUNC : Field := ⟨0xA10, 30, 2, .s, .rw, 0, 4, 16, 0, 1⟩

/-- The fields of a CLS page. -/
def Fld.tabCLS : List Field :=
  [Fld.CLS_TBL_SEL_SLOT, Fld.CLS_TBL_SEL_STASH, Fld.CLS_TBL_SEL_GROUP, Fld.CLS_TBL_SEL_WORD, Fld.CLS_TBL_SEL_AUTO_INC, Fld.CLS_TBL_STAT_RESULT, Fld.CLS_TBL_DATA, Fld.CLS_FCNT_SEL_INDEX, Fld.CLS_FCNT_PKTS, Fld.CLS_FCNT_BYTES, Fld.CLS_GRP_STAT_VALID, Fld.CLS_GRP_STAT_STASH] ++
  [Fld.CLS_GRP_CFG_BUCKETS_LOG2, Fld.CLS_GRP_CFG_BASE_BUCKET, Fld.CLS_GRP_CFG_KEY_WIDTH, Fld.CLS_GRP_SEED0, Fld.CLS_GRP_SEED1, Fld.CLS_GRP_MISS, Fld.CLS_KEYSEL_OFFSET, Fld.CLS_KEYSEL_LENGTH, Fld.CLS_KEYSEL_BASE, Fld.CLS_EDIT_BASE_VALID, Fld.CLS_EDIT_BASE_ADDR, Fld.CLS_PLACE_BASE_VALID] ++
  [Fld.CLS_PLACE_BASE_ADDR, Fld.CLS_MIRROR_KIND, Fld.CLS_MIRROR_PORT, Fld.CLS_MIRROR_QUEUE, Fld.CLS_MIRROR_FUNC, Fld.CLS_MIRROR_RXQ, Fld.CLS_MIRROR_TRUNC]

/-- PME_STATE.FLOWS (R384). -/
def Fld.PME_STATE_FLOWS : Field := ⟨0x100, 0, 17, .none, .ro, 0, 0, 1, 0, 1⟩
/-- PME_STATE.BUF_KIB (R384). -/
def Fld.PME_STATE_BUF_KIB : Field := ⟨0x100, 17, 11, .none, .ro, 0, 0, 1, 0, 1⟩
/-- PME_PAT_BASE.VALID (R384). -/
def Fld.PME_PAT_BASE_VALID : Field := ⟨0x800, 0, 1, .s, .rw, 0, 0, 1, 0, 1⟩
/-- PME_PAT_BASE.ADDR (R384). -/
def Fld.PME_PAT_BASE_ADDR : Field := ⟨0x800, 12, 40, .s, .rw, 0, 0, 1, 0, 1⟩
/-- PME_PAT_COUNT.COUNT (R384). -/
def Fld.PME_PAT_COUNT_COUNT : Field := ⟨0x808, 0, 15, .s, .rw, 0, 0, 1, 0, 1⟩
/-- PME_RULE_BASE.VALID (R384). -/
def Fld.PME_RULE_BASE_VALID : Field := ⟨0x810, 0, 1, .s, .rw, 0, 0, 1, 0, 1⟩
/-- PME_RULE_BASE.ADDR (R384). -/
def Fld.PME_RULE_BASE_ADDR : Field := ⟨0x810, 12, 40, .s, .rw, 0, 0, 1, 0, 1⟩

/-- The fields of a PME page. -/
def Fld.tabPME : List Field :=
  [Fld.PME_STATE_FLOWS, Fld.PME_STATE_BUF_KIB, Fld.PME_PAT_BASE_VALID, Fld.PME_PAT_BASE_ADDR, Fld.PME_PAT_COUNT_COUNT, Fld.PME_RULE_BASE_VALID, Fld.PME_RULE_BASE_ADDR]

/-- TMG_STATE.CELLS (R408). -/
def Fld.TMG_STATE_CELLS : Field := ⟨0x100, 0, 18, .none, .ro, 0, 0, 1, 0, 1⟩
/-- TMG_SAMP_SEL.PORT (R408). -/
def Fld.TMG_SAMP_SEL_PORT : Field := ⟨0x104, 0, 2, .l, .rw, 0, 0, 1, 0, 1⟩
/-- TMG_SAMP_SEL.QUEUE (R408). -/
def Fld.TMG_SAMP_SEL_QUEUE : Field := ⟨0x104, 2, 5, .l, .rw, 0, 0, 1, 0, 1⟩
/-- TMG_SAMP_SEL.ENTRY (R408). -/
def Fld.TMG_SAMP_SEL_ENTRY : Field := ⟨0x104, 7, 6, .l, .rw, 0, 0, 1, 0, 1⟩
/-- TMG_SAMP_DATA (R407). -/
def Fld.TMG_SAMP_DATA : Field := ⟨0x108, 0, 128, .none, .ro, 0, 0, 1, 0, 1⟩
/-- TMG_SAMP_HEAD.NEXT (R408). -/
def Fld.TMG_SAMP_HEAD_NEXT : Field := ⟨0x118, 0, 6, .none, .ro, 0, 0, 1, 0, 1⟩
/-- TMG_SAMP_HEAD.WRITTEN (R408). -/
def Fld.TMG_SAMP_HEAD_WRITTEN : Field := ⟨0x118, 8, 24, .none, .ro, 0, 0, 1, 0, 1⟩
/-- TMG_QCNT_SEL.KIND (R408). -/
def Fld.TMG_QCNT_SEL_KIND : Field := ⟨0x120, 0, 1, .l, .rw, 0, 0, 1, 0, 1⟩
/-- TMG_QCNT_SEL.INDEX (R408). -/
def Fld.TMG_QCNT_SEL_INDEX : Field := ⟨0x120, 1, 12, .l, .rw, 0, 0, 1, 0, 1⟩
/-- TMG_QCNT_SEL.COUNTER (R408). -/
def Fld.TMG_QCNT_SEL_COUNTER : Field := ⟨0x120, 13, 3, .l, .rw, 0, 0, 1, 0, 1⟩
/-- TMG_QCNT_DATA (R407). -/
def Fld.TMG_QCNT_DATA : Field := ⟨0x128, 0, 64, .none, .ro, 0, 0, 1, 0, 1⟩
/-- TMG_GATE_STAT.ENTRY (R408). -/
def Fld.TMG_GATE_STAT_ENTRY : Field := ⟨0x130, 0, 8, .none, .ro, 0, 4, 4, 0, 1⟩
/-- TMG_GATE_STAT.ACTIVE (R408). -/
def Fld.TMG_GATE_STAT_ACTIVE : Field := ⟨0x130, 8, 1, .none, .ro, 0, 4, 4, 0, 1⟩
/-- TMG_GATE_STAT.PENDING (R408). -/
def Fld.TMG_GATE_STAT_PENDING : Field := ⟨0x130, 9, 1, .none, .ro, 0, 4, 4, 0, 1⟩
/-- TMG_CLASS_MAP0.QBASE (R408). -/
def Fld.TMG_CLASS_MAP0_QBASE : Field := ⟨0x800, 0, 5, .s, .rw, 0, 0, 1, 0, 1⟩
/-- TMG_CLASS_MAP0.QCOUNT (R408). -/
def Fld.TMG_CLASS_MAP0_QCOUNT : Field := ⟨0x800, 5, 6, .s, .rw, 1, 0, 1, 0, 1⟩
/-- TMG_CLASS_MAP0.PCP (R408). -/
def Fld.TMG_CLASS_MAP0_PCP : Field := ⟨0x800, 12, 3, .s, .rw, 7, 0, 1, 0, 1⟩
/-- TMG_CLASS_MAP1.QBASE (R408). -/
def Fld.TMG_CLASS_MAP1_QBASE : Field := ⟨0x804, 0, 5, .s, .rw, 1, 0, 1, 0, 1⟩
/-- TMG_CLASS_MAP1.QCOUNT (R408). -/
def Fld.TMG_CLASS_MAP1_QCOUNT : Field := ⟨0x804, 5, 6, .s, .rw, 1, 0, 1, 0, 1⟩
/-- TMG_CLASS_MAP1.PCP (R408). -/
def Fld.TMG_CLASS_MAP1_PCP : Field := ⟨0x804, 12, 3, .s, .rw, 6, 0, 1, 0, 1⟩
/-- TMG_CLASS_MAP2.QBASE (R408). -/
def Fld.TMG_CLASS_MAP2_QBASE : Field := ⟨0x808, 0, 5, .s, .rw, 2, 0, 1, 0, 1⟩
/-- TMG_CLASS_MAP2.QCOUNT (R408). -/
def Fld.TMG_CLASS_MAP2_QCOUNT : Field := ⟨0x808, 5, 6, .s, .rw, 1, 0, 1, 0, 1⟩
/-- TMG_CLASS_MAP2.PCP (R408). -/
def Fld.TMG_CLASS_MAP2_PCP : Field := ⟨0x808, 12, 3, .s, .rw, 5, 0, 1, 0, 1⟩
/-- TMG_CLASS_MAP3.QBASE (R408). -/
def Fld.TMG_CLASS_MAP3_QBASE : Field := ⟨0x80C, 0, 5, .s, .rw, 4, 0, 1, 0, 1⟩
/-- TMG_CLASS_MAP3.QCOUNT (R408). -/
def Fld.TMG_CLASS_MAP3_QCOUNT : Field := ⟨0x80C, 5, 6, .s, .rw, 24, 0, 1, 0, 1⟩
/-- TMG_CLASS_MAP3.PCP (R408). -/
def Fld.TMG_CLASS_MAP3_PCP : Field := ⟨0x80C, 12, 3, .s, .rw, 1, 0, 1, 0, 1⟩
/-- TMG_CLASS_MAP4.QBASE (R408). -/
def Fld.TMG_CLASS_MAP4_QBASE : Field := ⟨0x810, 0, 5, .s, .rw, 28, 0, 1, 0, 1⟩
/-- TMG_CLASS_MAP4.QCOUNT (R408). -/
def Fld.TMG_CLASS_MAP4_QCOUNT : Field := ⟨0x810, 5, 6, .s, .rw, 4, 0, 1, 0, 1⟩
/-- TMG_CLASS_MAP4.PCP (R408). -/
def Fld.TMG_CLASS_MAP4_PCP : Field := ⟨0x810, 12, 3, .s, .rw, 0, 0, 1, 0, 1⟩
/-- TMG_QTAB_BASE.VALID (R408). -/
def Fld.TMG_QTAB_BASE_VALID : Field := ⟨0x820, 0, 1, .s, .rw, 0, 0, 1, 0, 1⟩
/-- TMG_QTAB_BASE.ADDR (R408). -/
def Fld.TMG_QTAB_BASE_ADDR : Field := ⟨0x820, 12, 40, .s, .rw, 0, 0, 1, 0, 1⟩
/-- TMG_POL_BASE.VALID (R408). -/
def Fld.TMG_POL_BASE_VALID : Field := ⟨0x828, 0, 1, .s, .rw, 0, 0, 1, 0, 1⟩
/-- TMG_POL_BASE.ADDR (R408). -/
def Fld.TMG_POL_BASE_ADDR : Field := ⟨0x828, 12, 40, .s, .rw, 0, 0, 1, 0, 1⟩
/-- TMG_SAMPLE.INTERVAL_US (R408). -/
def Fld.TMG_SAMPLE_INTERVAL_US : Field := ⟨0x830, 0, 16, .s, .rw, 100, 0, 1, 0, 1⟩
/-- TMG_SAMPLE.ENABLE (R408). -/
def Fld.TMG_SAMPLE_ENABLE : Field := ⟨0x830, 16, 1, .s, .rw, 1, 0, 1, 0, 1⟩
/-- TMG_GATE.CTRL.ENABLE (R408). -/
def Fld.TMG_GATE_CTRL_ENABLE : Field := ⟨0x840, 0, 1, .s, .rw, 0, 32, 4, 0, 1⟩
/-- TMG_GATE.CTRL.GUARD_MODE (R408). -/
def Fld.TMG_GATE_CTRL_GUARD_MODE : Field := ⟨0x840, 1, 1, .s, .rw, 0, 32, 4, 0, 1⟩
/-- TMG_GATE.CTRL.LEN (R408). -/
def Fld.TMG_GATE_CTRL_LEN : Field := ⟨0x840, 2, 9, .s, .rw, 0, 32, 4, 0, 1⟩
/-- TMG_GATE.GUARD.GUARD_NS (R408). -/
def Fld.TMG_GATE_GUARD_GUARD_NS : Field := ⟨0x844, 0, 16, .s, .rw, 0, 32, 4, 0, 1⟩
/-- TMG_GATE.LIST_ADDR.ADDR (R408). -/
def Fld.TMG_GATE_LIST_ADDR_ADDR : Field := ⟨0x848, 12, 40, .s, .rw, 0, 32, 4, 0, 1⟩
/-- TMG_GATE.BASE_TIME_NS.TIME (R408). -/
def Fld.TMG_GATE_BASE_TIME_NS_TIME : Field := ⟨0x850, 0, 64, .s, .rw, 0, 32, 4, 0, 1⟩

/-- The fields of a TMG page. -/
def Fld.tabTMG : List Field :=
  [Fld.TMG_STATE_CELLS, Fld.TMG_SAMP_SEL_PORT, Fld.TMG_SAMP_SEL_QUEUE, Fld.TMG_SAMP_SEL_ENTRY, Fld.TMG_SAMP_DATA, Fld.TMG_SAMP_HEAD_NEXT, Fld.TMG_SAMP_HEAD_WRITTEN, Fld.TMG_QCNT_SEL_KIND, Fld.TMG_QCNT_SEL_INDEX, Fld.TMG_QCNT_SEL_COUNTER, Fld.TMG_QCNT_DATA, Fld.TMG_GATE_STAT_ENTRY] ++
  [Fld.TMG_GATE_STAT_ACTIVE, Fld.TMG_GATE_STAT_PENDING, Fld.TMG_CLASS_MAP0_QBASE, Fld.TMG_CLASS_MAP0_QCOUNT, Fld.TMG_CLASS_MAP0_PCP, Fld.TMG_CLASS_MAP1_QBASE, Fld.TMG_CLASS_MAP1_QCOUNT, Fld.TMG_CLASS_MAP1_PCP, Fld.TMG_CLASS_MAP2_QBASE, Fld.TMG_CLASS_MAP2_QCOUNT, Fld.TMG_CLASS_MAP2_PCP, Fld.TMG_CLASS_MAP3_QBASE] ++
  [Fld.TMG_CLASS_MAP3_QCOUNT, Fld.TMG_CLASS_MAP3_PCP, Fld.TMG_CLASS_MAP4_QBASE, Fld.TMG_CLASS_MAP4_QCOUNT, Fld.TMG_CLASS_MAP4_PCP, Fld.TMG_QTAB_BASE_VALID, Fld.TMG_QTAB_BASE_ADDR, Fld.TMG_POL_BASE_VALID, Fld.TMG_POL_BASE_ADDR, Fld.TMG_SAMPLE_INTERVAL_US, Fld.TMG_SAMPLE_ENABLE, Fld.TMG_GATE_CTRL_ENABLE] ++
  [Fld.TMG_GATE_CTRL_GUARD_MODE, Fld.TMG_GATE_CTRL_LEN, Fld.TMG_GATE_GUARD_GUARD_NS, Fld.TMG_GATE_LIST_ADDR_ADDR, Fld.TMG_GATE_BASE_TIME_NS_TIME]

/-- NVR_CFG.WIDTH (R433). -/
def Fld.NVR_CFG_WIDTH : Field := ⟨0x100, 0, 1, .h, .rw, 0, 0, 1, 0, 1⟩
/-- NVR_TIMEOUT.MS (R433). -/
def Fld.NVR_TIMEOUT_MS : Field := ⟨0x104, 0, 16, .l, .rw, 1000, 0, 1, 0, 1⟩
/-- NVR_PORT_STATE.UP (R433). -/
def Fld.NVR_PORT_STATE_UP : Field := ⟨0x110, 0, 1, .none, .ro, 0, 4, 8, 0, 1⟩
/-- NVR_PORT_STATE.LANES (R433). -/
def Fld.NVR_PORT_STATE_LANES : Field := ⟨0x110, 1, 3, .none, .ro, 0, 4, 8, 0, 1⟩
/-- NVR_PORT_STATE.GEN (R433). -/
def Fld.NVR_PORT_STATE_GEN : Field := ⟨0x110, 4, 4, .none, .ro, 0, 4, 8, 0, 1⟩
/-- NVR_PORT_STATE.READY (R433). -/
def Fld.NVR_PORT_STATE_READY : Field := ⟨0x110, 8, 1, .none, .ro, 0, 4, 8, 0, 1⟩
/-- NVR_PORT_STATE.FAILED (R433). -/
def Fld.NVR_PORT_STATE_FAILED : Field := ⟨0x110, 9, 1, .none, .ro, 0, 4, 8, 0, 1⟩
/-- NVR_VNS_BASE.VALID (R433). -/
def Fld.NVR_VNS_BASE_VALID : Field := ⟨0x800, 0, 1, .s, .rw, 0, 0, 1, 0, 1⟩
/-- NVR_VNS_BASE.ADDR (R433). -/
def Fld.NVR_VNS_BASE_ADDR : Field := ⟨0x800, 12, 40, .s, .rw, 0, 0, 1, 0, 1⟩
/-- NVR_VNS_COUNT.COUNT (R433). -/
def Fld.NVR_VNS_COUNT_COUNT : Field := ⟨0x808, 0, 11, .s, .rw, 0, 0, 1, 0, 1⟩

/-- The fields of a NVR page. -/
def Fld.tabNVR : List Field :=
  [Fld.NVR_CFG_WIDTH, Fld.NVR_TIMEOUT_MS, Fld.NVR_PORT_STATE_UP, Fld.NVR_PORT_STATE_LANES, Fld.NVR_PORT_STATE_GEN, Fld.NVR_PORT_STATE_READY, Fld.NVR_PORT_STATE_FAILED, Fld.NVR_VNS_BASE_VALID, Fld.NVR_VNS_BASE_ADDR, Fld.NVR_VNS_COUNT_COUNT]

/-- CVU_CFG.ALG (R434). -/
def Fld.CVU_CFG_ALG : Field := ⟨0x100, 0, 2, .l, .rw, 0, 64, 16, 0, 1⟩
/-- CVU_CFG.FOLD (R434). -/
def Fld.CVU_CFG_FOLD : Field := ⟨0x100, 2, 2, .l, .rw, 0, 64, 16, 0, 1⟩
/-- CVU_CFG.FOLD_LEN (R434). -/
def Fld.CVU_CFG_FOLD_LEN : Field := ⟨0x100, 4, 5, .l, .rw, 0, 64, 16, 0, 1⟩
/-- CVU_CFG.CMP (R434). -/
def Fld.CVU_CFG_CMP : Field := ⟨0x100, 9, 1, .l, .rw, 0, 64, 16, 0, 1⟩
/-- CVU_FOLD0 (R434). -/
def Fld.CVU_FOLD0 : Field := ⟨0x108, 0, 64, .l, .rw, 0, 64, 16, 0, 1⟩
/-- CVU_FOLD1 (R434). -/
def Fld.CVU_FOLD1 : Field := ⟨0x110, 0, 64, .l, .rw, 0, 64, 16, 0, 1⟩
/-- CVU_RUN (R434). -/
def Fld.CVU_RUN : Field := ⟨0x118, 0, 64, .l, .rw, 0, 64, 16, 0, 1⟩
/-- CVU_EXPECT (R434). -/
def Fld.CVU_EXPECT : Field := ⟨0x120, 0, 64, .l, .rw, 0, 64, 16, 0, 1⟩
/-- CVU_JOB_ADDR (R434). -/
def Fld.CVU_JOB_ADDR : Field := ⟨0x128, 0, 64, .l, .rw, 0, 64, 16, 0, 1⟩
/-- CVU_JOB_LEN (R434). -/
def Fld.CVU_JOB_LEN : Field := ⟨0x130, 0, 32, .l, .rw, 0, 64, 16, 0, 1⟩
/-- CVU_JOB_CTL.GO (R434). -/
def Fld.CVU_JOB_CTL_GO : Field := ⟨0x134, 0, 1, .l, .w1s, 0, 64, 16, 0, 1⟩
/-- CVU_JOB_CTL.START (R434). -/
def Fld.CVU_JOB_CTL_START : Field := ⟨0x134, 1, 1, .l, .rw, 0, 64, 16, 0, 1⟩
/-- CVU_JOB_CTL.FINAL (R434). -/
def Fld.CVU_JOB_CTL_FINAL : Field := ⟨0x134, 2, 1, .l, .rw, 0, 64, 16, 0, 1⟩
/-- CVU_JOB_CTL.BUSY (R434). -/
def Fld.CVU_JOB_CTL_BUSY : Field := ⟨0x134, 3, 1, .none, .ro, 0, 64, 16, 0, 1⟩
/-- CVU_JOB_CTL.RESULT (R434). -/
def Fld.CVU_JOB_CTL_RESULT : Field := ⟨0x134, 4, 2, .none, .ro, 0, 64, 16, 0, 1⟩
/-- CVU_BYTES (R434). -/
def Fld.CVU_BYTES : Field := ⟨0x138, 0, 64, .none, .ro, 0, 64, 16, 0, 1⟩
/-- CVU_MISMATCH.UNIT (R434). -/
def Fld.CVU_MISMATCH_UNIT : Field := ⟨0x500, 0, 5, .none, .ro, 0, 0, 1, 0, 1⟩
/-- CVU_MISMATCH.OWNER (R434). -/
def Fld.CVU_MISMATCH_OWNER : Field := ⟨0x500, 5, 3, .none, .ro, 0, 0, 1, 0, 1⟩
/-- CVU_MISMATCH.CONTEXT (R434). -/
def Fld.CVU_MISMATCH_CONTEXT : Field := ⟨0x500, 8, 32, .none, .ro, 0, 0, 1, 0, 1⟩
/-- CVU_MISMATCH.VALID (R434). -/
def Fld.CVU_MISMATCH_VALID : Field := ⟨0x504, 31, 1, .none, .ro, 0, 0, 1, 0, 1⟩
/-- CVU_ALLOC.OWNER0 (R434). -/
def Fld.CVU_ALLOC_OWNER0 : Field := ⟨0x800, 0, 3, .s, .rw, 1, 0, 1, 0, 1⟩
/-- CVU_ALLOC.OWNER1 (R434). -/
def Fld.CVU_ALLOC_OWNER1 : Field := ⟨0x800, 4, 3, .s, .rw, 1, 0, 1, 0, 1⟩
/-- CVU_ALLOC.OWNER2 (R434). -/
def Fld.CVU_ALLOC_OWNER2 : Field := ⟨0x800, 8, 3, .s, .rw, 1, 0, 1, 0, 1⟩
/-- CVU_ALLOC.OWNER3 (R434). -/
def Fld.CVU_ALLOC_OWNER3 : Field := ⟨0x800, 12, 3, .s, .rw, 1, 0, 1, 0, 1⟩
/-- CVU_ALLOC.OWNER4 (R434). -/
def Fld.CVU_ALLOC_OWNER4 : Field := ⟨0x800, 16, 3, .s, .rw, 1, 0, 1, 0, 1⟩
/-- CVU_ALLOC.OWNER5 (R434). -/
def Fld.CVU_ALLOC_OWNER5 : Field := ⟨0x800, 20, 3, .s, .rw, 1, 0, 1, 0, 1⟩
/-- CVU_ALLOC.OWNER6 (R434). -/
def Fld.CVU_ALLOC_OWNER6 : Field := ⟨0x800, 24, 3, .s, .rw, 1, 0, 1, 0, 1⟩
/-- CVU_ALLOC.OWNER7 (R434). -/
def Fld.CVU_ALLOC_OWNER7 : Field := ⟨0x800, 28, 3, .s, .rw, 1, 0, 1, 0, 1⟩
/-- CVU_ALLOC.OWNER8 (R434). -/
def Fld.CVU_ALLOC_OWNER8 : Field := ⟨0x804, 0, 3, .s, .rw, 2, 0, 1, 0, 1⟩
/-- CVU_ALLOC.OWNER9 (R434). -/
def Fld.CVU_ALLOC_OWNER9 : Field := ⟨0x804, 4, 3, .s, .rw, 2, 0, 1, 0, 1⟩
/-- CVU_ALLOC.OWNER10 (R434). -/
def Fld.CVU_ALLOC_OWNER10 : Field := ⟨0x804, 8, 3, .s, .rw, 2, 0, 1, 0, 1⟩
/-- CVU_ALLOC.OWNER11 (R434). -/
def Fld.CVU_ALLOC_OWNER11 : Field := ⟨0x804, 12, 3, .s, .rw, 2, 0, 1, 0, 1⟩
/-- CVU_ALLOC.OWNER12 (R434). -/
def Fld.CVU_ALLOC_OWNER12 : Field := ⟨0x804, 16, 3, .s, .rw, 2, 0, 1, 0, 1⟩
/-- CVU_ALLOC.OWNER13 (R434). -/
def Fld.CVU_ALLOC_OWNER13 : Field := ⟨0x804, 20, 3, .s, .rw, 2, 0, 1, 0, 1⟩
/-- CVU_ALLOC.OWNER14 (R434). -/
def Fld.CVU_ALLOC_OWNER14 : Field := ⟨0x804, 24, 3, .s, .rw, 2, 0, 1, 0, 1⟩
/-- CVU_ALLOC.OWNER15 (R434). -/
def Fld.CVU_ALLOC_OWNER15 : Field := ⟨0x804, 28, 3, .s, .rw, 2, 0, 1, 0, 1⟩

/-- The fields of a CVU page. -/
def Fld.tabCVU : List Field :=
  [Fld.CVU_CFG_ALG, Fld.CVU_CFG_FOLD, Fld.CVU_CFG_FOLD_LEN, Fld.CVU_CFG_CMP, Fld.CVU_FOLD0, Fld.CVU_FOLD1, Fld.CVU_RUN, Fld.CVU_EXPECT, Fld.CVU_JOB_ADDR, Fld.CVU_JOB_LEN, Fld.CVU_JOB_CTL_GO, Fld.CVU_JOB_CTL_START] ++
  [Fld.CVU_JOB_CTL_FINAL, Fld.CVU_JOB_CTL_BUSY, Fld.CVU_JOB_CTL_RESULT, Fld.CVU_BYTES, Fld.CVU_MISMATCH_UNIT, Fld.CVU_MISMATCH_OWNER, Fld.CVU_MISMATCH_CONTEXT, Fld.CVU_MISMATCH_VALID, Fld.CVU_ALLOC_OWNER0, Fld.CVU_ALLOC_OWNER1, Fld.CVU_ALLOC_OWNER2, Fld.CVU_ALLOC_OWNER3] ++
  [Fld.CVU_ALLOC_OWNER4, Fld.CVU_ALLOC_OWNER5, Fld.CVU_ALLOC_OWNER6, Fld.CVU_ALLOC_OWNER7, Fld.CVU_ALLOC_OWNER8, Fld.CVU_ALLOC_OWNER9, Fld.CVU_ALLOC_OWNER10, Fld.CVU_ALLOC_OWNER11, Fld.CVU_ALLOC_OWNER12, Fld.CVU_ALLOC_OWNER13, Fld.CVU_ALLOC_OWNER14, Fld.CVU_ALLOC_OWNER15]

/-- CVUB_ALLOC.OWNER0 (R434). -/
def Fld.CVUB_ALLOC_OWNER0 : Field := ⟨0x800, 0, 3, .s, .rw, 3, 0, 1, 0, 1⟩
/-- CVUB_ALLOC.OWNER1 (R434). -/
def Fld.CVUB_ALLOC_OWNER1 : Field := ⟨0x800, 4, 3, .s, .rw, 3, 0, 1, 0, 1⟩
/-- CVUB_ALLOC.OWNER2 (R434). -/
def Fld.CVUB_ALLOC_OWNER2 : Field := ⟨0x800, 8, 3, .s, .rw, 3, 0, 1, 0, 1⟩
/-- CVUB_ALLOC.OWNER3 (R434). -/
def Fld.CVUB_ALLOC_OWNER3 : Field := ⟨0x800, 12, 3, .s, .rw, 3, 0, 1, 0, 1⟩
/-- CVUB_ALLOC.OWNER4 (R434). -/
def Fld.CVUB_ALLOC_OWNER4 : Field := ⟨0x800, 16, 3, .s, .rw, 3, 0, 1, 0, 1⟩
/-- CVUB_ALLOC.OWNER5 (R434). -/
def Fld.CVUB_ALLOC_OWNER5 : Field := ⟨0x800, 20, 3, .s, .rw, 3, 0, 1, 0, 1⟩
/-- CVUB_ALLOC.OWNER6 (R434). -/
def Fld.CVUB_ALLOC_OWNER6 : Field := ⟨0x800, 24, 3, .s, .rw, 3, 0, 1, 0, 1⟩
/-- CVUB_ALLOC.OWNER7 (R434). -/
def Fld.CVUB_ALLOC_OWNER7 : Field := ⟨0x800, 28, 3, .s, .rw, 3, 0, 1, 0, 1⟩
/-- CVUB_ALLOC.OWNER8 (R434). -/
def Fld.CVUB_ALLOC_OWNER8 : Field := ⟨0x804, 0, 3, .s, .rw, 4, 0, 1, 0, 1⟩
/-- CVUB_ALLOC.OWNER9 (R434). -/
def Fld.CVUB_ALLOC_OWNER9 : Field := ⟨0x804, 4, 3, .s, .rw, 4, 0, 1, 0, 1⟩
/-- CVUB_ALLOC.OWNER10 (R434). -/
def Fld.CVUB_ALLOC_OWNER10 : Field := ⟨0x804, 8, 3, .s, .rw, 4, 0, 1, 0, 1⟩
/-- CVUB_ALLOC.OWNER11 (R434). -/
def Fld.CVUB_ALLOC_OWNER11 : Field := ⟨0x804, 12, 3, .s, .rw, 4, 0, 1, 0, 1⟩
/-- CVUB_ALLOC.OWNER12 (R434). -/
def Fld.CVUB_ALLOC_OWNER12 : Field := ⟨0x804, 16, 3, .s, .rw, 0, 0, 1, 0, 1⟩
/-- CVUB_ALLOC.OWNER13 (R434). -/
def Fld.CVUB_ALLOC_OWNER13 : Field := ⟨0x804, 20, 3, .s, .rw, 0, 0, 1, 0, 1⟩
/-- CVUB_ALLOC.OWNER14 (R434). -/
def Fld.CVUB_ALLOC_OWNER14 : Field := ⟨0x804, 24, 3, .s, .rw, 0, 0, 1, 0, 1⟩
/-- CVUB_ALLOC.OWNER15 (R434). -/
def Fld.CVUB_ALLOC_OWNER15 : Field := ⟨0x804, 28, 3, .s, .rw, 0, 0, 1, 0, 1⟩

/-- The fields of a CVUB page. -/
def Fld.tabCVUB : List Field :=
  [Fld.CVUB_ALLOC_OWNER0, Fld.CVUB_ALLOC_OWNER1, Fld.CVUB_ALLOC_OWNER2, Fld.CVUB_ALLOC_OWNER3, Fld.CVUB_ALLOC_OWNER4, Fld.CVUB_ALLOC_OWNER5, Fld.CVUB_ALLOC_OWNER6, Fld.CVUB_ALLOC_OWNER7, Fld.CVUB_ALLOC_OWNER8, Fld.CVUB_ALLOC_OWNER9, Fld.CVUB_ALLOC_OWNER10, Fld.CVUB_ALLOC_OWNER11] ++
  [Fld.CVUB_ALLOC_OWNER12, Fld.CVUB_ALLOC_OWNER13, Fld.CVUB_ALLOC_OWNER14, Fld.CVUB_ALLOC_OWNER15]

/-- KVT_STATE.LIFECYCLE (R466). -/
def Fld.KVT_STATE_LIFECYCLE : Field := ⟨0x100, 0, 2, .none, .ro, 1, 0, 1, 0, 1⟩
/-- KVT_STATE.VAULT (R466). -/
def Fld.KVT_STATE_VAULT : Field := ⟨0x100, 4, 2, .none, .ro, 0, 0, 1, 0, 1⟩
/-- KVT_STATE.APPROVED (R466). -/
def Fld.KVT_STATE_APPROVED : Field := ⟨0x100, 8, 1, .none, .ro, 0, 0, 1, 0, 1⟩
/-- KVT_STATE.DEBUG_OPEN (R466). -/
def Fld.KVT_STATE_DEBUG_OPEN : Field := ⟨0x100, 9, 1, .none, .ro, 0, 0, 1, 0, 1⟩
/-- KVT_STATE.DRBG_OK (R466). -/
def Fld.KVT_STATE_DRBG_OK : Field := ⟨0x100, 10, 1, .none, .ro, 0, 0, 1, 0, 1⟩
/-- KVT_STATE.SLOTS_USED (R466). -/
def Fld.KVT_STATE_SLOTS_USED : Field := ⟨0x100, 16, 13, .none, .ro, 0, 0, 1, 0, 1⟩
/-- KVT_ALARM.CAUSE (R466). -/
def Fld.KVT_ALARM_CAUSE : Field := ⟨0x104, 0, 7, .none, .w1c, 0, 0, 1, 0, 1⟩
/-- KVT_SELFTEST.DONE (R466). -/
def Fld.KVT_SELFTEST_DONE : Field := ⟨0x108, 0, 1, .none, .ro, 0, 0, 1, 0, 1⟩
/-- KVT_SELFTEST.PASS (R466). -/
def Fld.KVT_SELFTEST_PASS : Field := ⟨0x108, 1, 1, .none, .ro, 0, 0, 1, 0, 1⟩
/-- KVT_SELFTEST.FAILED (R466). -/
def Fld.KVT_SELFTEST_FAILED : Field := ⟨0x108, 8, 8, .none, .ro, 0, 0, 1, 0, 1⟩
/-- KVT_SELFTEST.BOOT_FAIL (R466). -/
def Fld.KVT_SELFTEST_BOOT_FAIL : Field := ⟨0x108, 16, 4, .none, .ro, 0, 0, 1, 0, 1⟩
/-- KVT_FUSE.KEY_REVOKED (R466). -/
def Fld.KVT_FUSE_KEY_REVOKED : Field := ⟨0x10C, 0, 2, .c, .ro, 0, 0, 1, 0, 1⟩
/-- KVT_FUSE.SVN (R466). -/
def Fld.KVT_FUSE_SVN : Field := ⟨0x10C, 8, 7, .c, .ro, 0, 0, 1, 0, 1⟩
/-- KVT_SLOT_SEL.SLOT (R466). -/
def Fld.KVT_SLOT_SEL_SLOT : Field := ⟨0x110, 0, 12, .l, .rw, 0, 0, 1, 0, 1⟩
/-- KVT_SLOT_INFO.STATE (R466). -/
def Fld.KVT_SLOT_INFO_STATE : Field := ⟨0x118, 0, 2, .none, .ro, 0, 0, 1, 0, 1⟩
/-- KVT_SLOT_INFO.TYPE (R466). -/
def Fld.KVT_SLOT_INFO_TYPE : Field := ⟨0x118, 4, 4, .none, .ro, 0, 0, 1, 0, 1⟩
/-- KVT_SLOT_INFO.OWNER (R466). -/
def Fld.KVT_SLOT_INFO_OWNER : Field := ⟨0x118, 8, 7, .none, .ro, 0, 0, 1, 0, 1⟩
/-- KVT_SLOT_INFO.PKG (R466). -/
def Fld.KVT_SLOT_INFO_PKG : Field := ⟨0x118, 15, 1, .none, .ro, 0, 0, 1, 0, 1⟩
/-- KVT_SLOT_INFO.SALT (R466). -/
def Fld.KVT_SLOT_INFO_SALT : Field := ⟨0x11C, 0, 32, .none, .ro, 0, 0, 1, 0, 1⟩
/-- KVT_SLOT_CTR (R466). -/
def Fld.KVT_SLOT_CTR : Field := ⟨0x120, 0, 64, .none, .ro, 0, 0, 1, 0, 1⟩
/-- KVT_SESS.REQ_ADDR.ADDR (R466). -/
def Fld.KVT_SESS_REQ_ADDR_ADDR : Field := ⟨0x140, 14, 38, .l, .rw, 0, 16, 16, 0, 1⟩
/-- KVT_SESS.CTL.GO (R466). -/
def Fld.KVT_SESS_CTL_GO : Field := ⟨0x148, 0, 1, .l, .w1s, 0, 16, 16, 0, 1⟩
/-- KVT_SESS.CTL.BUSY (R466). -/
def Fld.KVT_SESS_CTL_BUSY : Field := ⟨0x148, 1, 1, .none, .ro, 0, 16, 16, 0, 1⟩
/-- KVT_SESS.CTL.STATUS (R466). -/
def Fld.KVT_SESS_CTL_STATUS : Field := ⟨0x148, 16, 16, .none, .ro, 0, 16, 16, 0, 1⟩
/-- KVT_DBG_CHAL (R466). -/
def Fld.KVT_DBG_CHAL : Field := ⟨0x240, 0, 384, .none, .ro, 0, 0, 1, 0, 1⟩

/-- The fields of a KVT page. -/
def Fld.tabKVT : List Field :=
  [Fld.KVT_STATE_LIFECYCLE, Fld.KVT_STATE_VAULT, Fld.KVT_STATE_APPROVED, Fld.KVT_STATE_DEBUG_OPEN, Fld.KVT_STATE_DRBG_OK, Fld.KVT_STATE_SLOTS_USED, Fld.KVT_ALARM_CAUSE, Fld.KVT_SELFTEST_DONE, Fld.KVT_SELFTEST_PASS, Fld.KVT_SELFTEST_FAILED, Fld.KVT_SELFTEST_BOOT_FAIL, Fld.KVT_FUSE_KEY_REVOKED] ++
  [Fld.KVT_FUSE_SVN, Fld.KVT_SLOT_SEL_SLOT, Fld.KVT_SLOT_INFO_STATE, Fld.KVT_SLOT_INFO_TYPE, Fld.KVT_SLOT_INFO_OWNER, Fld.KVT_SLOT_INFO_PKG, Fld.KVT_SLOT_INFO_SALT, Fld.KVT_SLOT_CTR, Fld.KVT_SESS_REQ_ADDR_ADDR, Fld.KVT_SESS_CTL_GO, Fld.KVT_SESS_CTL_BUSY, Fld.KVT_SESS_CTL_STATUS] ++
  [Fld.KVT_DBG_CHAL]

/-- CPH_JOB_SRC (R467). -/
def Fld.CPH_JOB_SRC : Field := ⟨0x100, 0, 64, .l, .rw, 0, 64, 4, 0, 1⟩
/-- CPH_JOB_DST (R467). -/
def Fld.CPH_JOB_DST : Field := ⟨0x108, 0, 64, .l, .rw, 0, 64, 4, 0, 1⟩
/-- CPH_JOB_LEN (R467). -/
def Fld.CPH_JOB_LEN : Field := ⟨0x110, 0, 32, .l, .rw, 0, 64, 4, 0, 1⟩
/-- CPH_JOB_CFG.SLOT (R467). -/
def Fld.CPH_JOB_CFG_SLOT : Field := ⟨0x114, 0, 12, .l, .rw, 0, 64, 4, 0, 1⟩
/-- CPH_JOB_CFG.DECRYPT (R467). -/
def Fld.CPH_JOB_CFG_DECRYPT : Field := ⟨0x114, 12, 1, .l, .rw, 0, 64, 4, 0, 1⟩
/-- CPH_JOB_CFG.AAD_LEN (R467). -/
def Fld.CPH_JOB_CFG_AAD_LEN : Field := ⟨0x114, 16, 16, .l, .rw, 0, 64, 4, 0, 1⟩
/-- CPH_JOB_CTR (R467). -/
def Fld.CPH_JOB_CTR : Field := ⟨0x118, 0, 64, .l, .rw, 0, 64, 4, 0, 1⟩
/-- CPH_JOB_TAG (R467). -/
def Fld.CPH_JOB_TAG : Field := ⟨0x120, 0, 128, .l, .rw, 0, 64, 4, 0, 1⟩
/-- CPH_JOB_CTL.GO (R467). -/
def Fld.CPH_JOB_CTL_GO : Field := ⟨0x130, 0, 1, .l, .w1s, 0, 64, 4, 0, 1⟩
/-- CPH_JOB_CTL.BUSY (R467). -/
def Fld.CPH_JOB_CTL_BUSY : Field := ⟨0x130, 1, 1, .none, .ro, 0, 64, 4, 0, 1⟩
/-- CPH_JOB_CTL.RESULT (R467). -/
def Fld.CPH_JOB_CTL_RESULT : Field := ⟨0x130, 2, 3, .none, .ro, 0, 64, 4, 0, 1⟩
/-- CPH_JOB_CTL.APPROVED (R467). -/
def Fld.CPH_JOB_CTL_APPROVED : Field := ⟨0x130, 15, 1, .none, .ro, 0, 64, 4, 0, 1⟩

/-- The fields of a CPH page. -/
def Fld.tabCPH : List Field :=
  [Fld.CPH_JOB_SRC, Fld.CPH_JOB_DST, Fld.CPH_JOB_LEN, Fld.CPH_JOB_CFG_SLOT, Fld.CPH_JOB_CFG_DECRYPT, Fld.CPH_JOB_CFG_AAD_LEN, Fld.CPH_JOB_CTR, Fld.CPH_JOB_TAG, Fld.CPH_JOB_CTL_GO, Fld.CPH_JOB_CTL_BUSY, Fld.CPH_JOB_CTL_RESULT, Fld.CPH_JOB_CTL_APPROVED]

/-- PCIE_LINK_STATE.GEN (R499). -/
def Fld.PCIE_LINK_STATE_GEN : Field := ⟨0x100, 0, 4, .none, .ro, 0, 0, 1, 0, 1⟩
/-- PCIE_LINK_STATE.WIDTH (R499). -/
def Fld.PCIE_LINK_STATE_WIDTH : Field := ⟨0x100, 4, 5, .none, .ro, 0, 0, 1, 0, 1⟩
/-- PCIE_LINK_STATE.FLIT (R499). -/
def Fld.PCIE_LINK_STATE_FLIT : Field := ⟨0x100, 9, 1, .none, .ro, 0, 0, 1, 0, 1⟩
/-- PCIE_LINK_STATE.ACTIVE (R499). -/
def Fld.PCIE_LINK_STATE_ACTIVE : Field := ⟨0x100, 10, 5, .none, .ro, 0, 0, 1, 0, 1⟩
/-- PCIE_LINK_STATE.L1 (R499). -/
def Fld.PCIE_LINK_STATE_L1 : Field := ⟨0x100, 16, 1, .none, .ro, 0, 0, 1, 0, 1⟩
/-- PCIE_LINK_STATE.DSTATE (R499). -/
def Fld.PCIE_LINK_STATE_DSTATE : Field := ⟨0x100, 20, 2, .none, .ro, 0, 0, 1, 0, 1⟩
/-- PCIE_LINK_CTRL.L0P_EN (R499). -/
def Fld.PCIE_LINK_CTRL_L0P_EN : Field := ⟨0x104, 0, 1, .l, .rw, 1, 0, 1, 0, 1⟩
/-- PCIE_LINK_CTRL.L1_IDLE_US (R499). -/
def Fld.PCIE_LINK_CTRL_L1_IDLE_US : Field := ⟨0x104, 8, 8, .l, .rw, 32, 0, 1, 0, 1⟩
/-- PCIE_LINK_CTRL.L0P_WIN_US (R499). -/
def Fld.PCIE_LINK_CTRL_L0P_WIN_US : Field := ⟨0x104, 16, 16, .l, .rw, 100, 0, 1, 0, 1⟩
/-- PCIE_BME_HOLD.MS (R499). -/
def Fld.PCIE_BME_HOLD_MS : Field := ⟨0x108, 0, 10, .l, .rw, 10, 0, 1, 0, 1⟩
/-- PCIE_BME_STATE.HOLDING (R499). -/
def Fld.PCIE_BME_STATE_HOLDING : Field := ⟨0x10C, 0, 1, .none, .ro, 0, 0, 1, 0, 1⟩
/-- PCIE_BME_STATE.EXPIRED (R499). -/
def Fld.PCIE_BME_STATE_EXPIRED : Field := ⟨0x10C, 1, 1, .none, .ro, 0, 0, 1, 0, 1⟩
/-- PCIE_BME_STATE.FUNC (R499). -/
def Fld.PCIE_BME_STATE_FUNC : Field := ⟨0x10C, 16, 7, .none, .ro, 0, 0, 1, 0, 1⟩
/-- PCIE_WAKE.MGMT (R499). -/
def Fld.PCIE_WAKE_MGMT : Field := ⟨0x110, 0, 1, .l, .rw, 1, 0, 1, 0, 1⟩
/-- PCIE_WAKE.LINK (R499). -/
def Fld.PCIE_WAKE_LINK : Field := ⟨0x110, 1, 1, .l, .rw, 0, 0, 1, 0, 1⟩
/-- PCIE_WAKE.ALARM (R499). -/
def Fld.PCIE_WAKE_ALARM : Field := ⟨0x110, 2, 1, .l, .rw, 0, 0, 1, 0, 1⟩
/-- PCIE_WAKE.CREW (R499). -/
def Fld.PCIE_WAKE_CREW : Field := ⟨0x110, 3, 1, .l, .rw, 0, 0, 1, 0, 1⟩
/-- PCIE_SPLIT.ROOT_LANES (R499). -/
def Fld.PCIE_SPLIT_ROOT_LANES : Field := ⟨0x114, 0, 1, .c, .ro, 0, 0, 1, 0, 1⟩
/-- PCIE_TAGS.OUTSTANDING (R499). -/
def Fld.PCIE_TAGS_OUTSTANDING : Field := ⟨0x118, 0, 13, .none, .ro, 0, 0, 1, 0, 1⟩

/-- The fields of a PCIE page. -/
def Fld.tabPCIE : List Field :=
  [Fld.PCIE_LINK_STATE_GEN, Fld.PCIE_LINK_STATE_WIDTH, Fld.PCIE_LINK_STATE_FLIT, Fld.PCIE_LINK_STATE_ACTIVE, Fld.PCIE_LINK_STATE_L1, Fld.PCIE_LINK_STATE_DSTATE, Fld.PCIE_LINK_CTRL_L0P_EN, Fld.PCIE_LINK_CTRL_L1_IDLE_US, Fld.PCIE_LINK_CTRL_L0P_WIN_US, Fld.PCIE_BME_HOLD_MS, Fld.PCIE_BME_STATE_HOLDING, Fld.PCIE_BME_STATE_EXPIRED] ++
  [Fld.PCIE_BME_STATE_FUNC, Fld.PCIE_WAKE_MGMT, Fld.PCIE_WAKE_LINK, Fld.PCIE_WAKE_ALARM, Fld.PCIE_WAKE_CREW, Fld.PCIE_SPLIT_ROOT_LANES, Fld.PCIE_TAGS_OUTSTANDING]

/-- VF_MBX_REQ (R503). -/
def Fld.VF_MBX_REQ : Field := ⟨0x0, 0, 2048, .l, .rw, 0, 0, 1, 0, 1⟩
/-- VF_MBX_RESP (R503). -/
def Fld.VF_MBX_RESP : Field := ⟨0x100, 0, 2048, .none, .ro, 0, 0, 1, 0, 1⟩
/-- VF_MBX_CTL.GO (R503). -/
def Fld.VF_MBX_CTL_GO : Field := ⟨0x200, 0, 1, .l, .w1s, 0, 0, 1, 0, 1⟩
/-- VF_MBX_CTL.BUSY (R503). -/
def Fld.VF_MBX_CTL_BUSY : Field := ⟨0x200, 1, 1, .none, .ro, 0, 0, 1, 0, 1⟩
/-- VF_MBX_CTL.VECTOR (R503). -/
def Fld.VF_MBX_CTL_VECTOR : Field := ⟨0x200, 8, 8, .l, .rw, 0, 0, 1, 0, 1⟩
/-- VF_MBX_CTL.SEQ (R503). -/
def Fld.VF_MBX_CTL_SEQ : Field := ⟨0x200, 16, 16, .none, .ro, 0, 0, 1, 0, 1⟩

/-- The fields of a MBX page. -/
def Fld.tabMBX : List Field :=
  [Fld.VF_MBX_REQ, Fld.VF_MBX_RESP, Fld.VF_MBX_CTL_GO, Fld.VF_MBX_CTL_BUSY, Fld.VF_MBX_CTL_VECTOR, Fld.VF_MBX_CTL_SEQ]

/-- The message address of an MSI-X table entry (R68, R71, R487). -/
def Fld.MSIX_ADDR : Field := ⟨0x0, 0, 64, .l, .rw, 0, 16, 2048, 0, 1⟩
/-- The message data of an MSI-X table entry (R68, R71, R487). -/
def Fld.MSIX_DATA : Field := ⟨0x8, 0, 32, .l, .rw, 0, 16, 2048, 0, 1⟩
/-- The Mask bit of an MSI-X table entry (R487). -/
def Fld.MSIX_MASK : Field := ⟨0xC, 0, 1, .l, .rw, 1, 16, 2048, 0, 1⟩

/-- The fields of an MSI-X table. -/
def Fld.tabMSIX : List Field := [Fld.MSIX_ADDR, Fld.MSIX_DATA, Fld.MSIX_MASK]

/-- VF_STATE.ENABLED (R519). -/
def Fld.VF_STATE_ENABLED : Field := ⟨0x100, 0, 1, .none, .ro, 0, 0, 1, 0, 1⟩
/-- VF_STATE.FLR (R519). -/
def Fld.VF_STATE_FLR : Field := ⟨0x100, 1, 1, .none, .ro, 0, 0, 1, 0, 1⟩
/-- VF_STATE.MBX_PENDING (R519). -/
def Fld.VF_STATE_MBX_PENDING : Field := ⟨0x100, 2, 1, .none, .ro, 0, 0, 1, 0, 1⟩
/-- VF_DENY.STATUS (R519). -/
def Fld.VF_DENY_STATUS : Field := ⟨0x104, 0, 16, .l, .wo, 0, 0, 1, 0, 1⟩
/-- VF_MBX_LIMIT.MS (R519). -/
def Fld.VF_MBX_LIMIT_MS : Field := ⟨0x108, 0, 16, .l, .rw, 1000, 0, 1, 0, 1⟩
/-- VF_DRAIN_LIMIT.MS (R519). -/
def Fld.VF_DRAIN_LIMIT_MS : Field := ⟨0x10C, 0, 7, .l, .rw, 20, 0, 1, 0, 1⟩
/-- VF_MBX_COPY (R519). -/
def Fld.VF_MBX_COPY : Field := ⟨0x200, 0, 2048, .none, .ro, 0, 0, 1, 0, 1⟩
/-- VF_QUOTA.PARTITIONS (R519). -/
def Fld.VF_QUOTA_PARTITIONS : Field := ⟨0x800, 0, 6, .s, .rw, 1, 0, 1, 0, 1⟩
/-- VF_QUOTA.QUEUES (R519). -/
def Fld.VF_QUOTA_QUEUES : Field := ⟨0x800, 6, 11, .s, .rw, 16, 0, 1, 0, 1⟩
/-- VF_QUOTA.KEYS_K (R519). -/
def Fld.VF_QUOTA_KEYS_K : Field := ⟨0x800, 17, 15, .s, .rw, 8, 0, 1, 0, 1⟩
/-- VF_QUOTA.CONNS (R519). -/
def Fld.VF_QUOTA_CONNS : Field := ⟨0x804, 0, 32, .s, .rw, 0, 0, 1, 0, 1⟩

/-- The fields of a VF page. -/
def Fld.tabVF : List Field :=
  [Fld.VF_STATE_ENABLED, Fld.VF_STATE_FLR, Fld.VF_STATE_MBX_PENDING, Fld.VF_DENY_STATUS, Fld.VF_MBX_LIMIT_MS, Fld.VF_DRAIN_LIMIT_MS, Fld.VF_MBX_COPY, Fld.VF_QUOTA_PARTITIONS, Fld.VF_QUOTA_QUEUES, Fld.VF_QUOTA_KEYS_K, Fld.VF_QUOTA_CONNS]

/-- COX_STATE.STATE (R544). -/
def Fld.COX_STATE_STATE : Field := ⟨0x100, 0, 3, .none, .ro, 0, 0, 1, 0, 1⟩
/-- COX_STATE.CRASHES (R544). -/
def Fld.COX_STATE_CRASHES : Field := ⟨0x100, 8, 8, .none, .ro, 0, 0, 1, 0, 1⟩
/-- COX_STATE.DUTY (R544). -/
def Fld.COX_STATE_DUTY : Field := ⟨0x100, 16, 7, .none, .ro, 0, 0, 1, 0, 1⟩
/-- COX_STATE.MOVED (R544). -/
def Fld.COX_STATE_MOVED : Field := ⟨0x100, 24, 1, .none, .ro, 0, 0, 1, 0, 1⟩
/-- COX_CRASH.CAUSE (R544). -/
def Fld.COX_CRASH_CAUSE : Field := ⟨0x104, 0, 4, .none, .ro, 0, 0, 1, 0, 1⟩
/-- COX_CRASH.VALID (R544). -/
def Fld.COX_CRASH_VALID : Field := ⟨0x104, 31, 1, .none, .ro, 0, 0, 1, 0, 1⟩
/-- COX_CRASH_PC (R544). -/
def Fld.COX_CRASH_PC : Field := ⟨0x108, 0, 64, .none, .ro, 0, 0, 1, 0, 1⟩
/-- COX_WDT.TIMEOUT_US (R544). -/
def Fld.COX_WDT_TIMEOUT_US : Field := ⟨0x110, 0, 17, .l, .rw, 1000, 0, 1, 0, 1⟩
/-- COX_WDT_KICK (R544). -/
def Fld.COX_WDT_KICK : Field := ⟨0x114, 0, 32, .l, .wo, 0, 0, 1, 0, 1⟩
/-- COX_PANIC.CODE (R544). -/
def Fld.COX_PANIC_CODE : Field := ⟨0x118, 0, 32, .l, .wo, 0, 0, 1, 0, 1⟩
/-- COX_JRNL.USED (R544). -/
def Fld.COX_JRNL_USED : Field := ⟨0x11C, 0, 19, .none, .ro, 0, 0, 1, 0, 1⟩
/-- COX_JRNL_APPEND (R544). -/
def Fld.COX_JRNL_APPEND : Field := ⟨0x120, 0, 32, .l, .wo, 0, 0, 1, 0, 1⟩
/-- COX_DBG_CFG.ON_HALT (R595). -/
def Fld.COX_DBG_CFG_ON_HALT : Field := ⟨0x130, 0, 2, .l, .rw, 0, 0, 1, 0, 1⟩

/-- The fields of a COX page. -/
def Fld.tabCOX : List Field :=
  [Fld.COX_STATE_STATE, Fld.COX_STATE_CRASHES, Fld.COX_STATE_DUTY, Fld.COX_STATE_MOVED, Fld.COX_CRASH_CAUSE, Fld.COX_CRASH_VALID, Fld.COX_CRASH_PC, Fld.COX_WDT_TIMEOUT_US, Fld.COX_WDT_KICK, Fld.COX_PANIC_CODE, Fld.COX_JRNL_USED, Fld.COX_JRNL_APPEND] ++
  [Fld.COX_DBG_CFG_ON_HALT]

/-- TDIE_STATE.TRAINED (R557). -/
def Fld.TDIE_STATE_TRAINED : Field := ⟨0x100, 0, 1, .none, .ro, 0, 0, 1, 0, 1⟩
/-- TDIE_STATE.EDGES_UP (R557). -/
def Fld.TDIE_STATE_EDGES_UP : Field := ⟨0x100, 1, 4, .none, .ro, 0, 0, 1, 0, 1⟩
/-- TDIE_STATE.FENCED (R557). -/
def Fld.TDIE_STATE_FENCED : Field := ⟨0x100, 16, 16, .none, .ro, 0, 0, 1, 0, 1⟩
/-- TDIE_LOG_SEL.PART (R557). -/
def Fld.TDIE_LOG_SEL_PART : Field := ⟨0x104, 0, 5, .l, .rw, 0, 0, 1, 0, 1⟩
/-- TDIE_LOG_STAT.RUNS (R557). -/
def Fld.TDIE_LOG_STAT_RUNS : Field := ⟨0x108, 0, 15, .none, .ro, 0, 0, 1, 0, 1⟩
/-- TDIE_LOG_STAT.OVF (R557). -/
def Fld.TDIE_LOG_STAT_OVF : Field := ⟨0x108, 15, 1, .none, .ro, 0, 0, 1, 0, 1⟩
/-- TDIE_COPY_STAT.BUSY (R557). -/
def Fld.TDIE_COPY_STAT_BUSY : Field := ⟨0x10C, 0, 1, .none, .ro, 0, 0, 1, 0, 1⟩
/-- TDIE_COPY_STAT.PART (R557). -/
def Fld.TDIE_COPY_STAT_PART : Field := ⟨0x10C, 1, 5, .none, .ro, 0, 0, 1, 0, 1⟩
/-- TDIE_COPY_STAT.CHUNKS (R557). -/
def Fld.TDIE_COPY_STAT_CHUNKS : Field := ⟨0x10C, 8, 24, .none, .ro, 0, 0, 1, 0, 1⟩
/-- TDIE_COPY_BYTES (R557). -/
def Fld.TDIE_COPY_BYTES : Field := ⟨0x110, 0, 64, .none, .ro, 0, 0, 1, 0, 1⟩
/-- TDIE_ROUTE.EDGE (R557). -/
def Fld.TDIE_ROUTE_EDGE : Field := ⟨0x800, 0, 10, .s, .rw, 0, 4, 10, 0, 1⟩
/-- TDIE_ROUTE.VALID (R557). -/
def Fld.TDIE_ROUTE_VALID : Field := ⟨0x800, 31, 1, .s, .rw, 0, 4, 10, 0, 1⟩

/-- The fields of a TDIE page. -/
def Fld.tabTDIE : List Field :=
  [Fld.TDIE_STATE_TRAINED, Fld.TDIE_STATE_EDGES_UP, Fld.TDIE_STATE_FENCED, Fld.TDIE_LOG_SEL_PART, Fld.TDIE_LOG_STAT_RUNS, Fld.TDIE_LOG_STAT_OVF, Fld.TDIE_COPY_STAT_BUSY, Fld.TDIE_COPY_STAT_PART, Fld.TDIE_COPY_STAT_CHUNKS, Fld.TDIE_COPY_BYTES, Fld.TDIE_ROUTE_EDGE, Fld.TDIE_ROUTE_VALID]

/-- BLY_STATE.WAVE (R601). -/
def Fld.BLY_STATE_WAVE : Field := ⟨0x100, 0, 1, .none, .ro, 0, 0, 1, 0, 1⟩
/-- BLY_STATE.STOPPED (R601). -/
def Fld.BLY_STATE_STOPPED : Field := ⟨0x100, 1, 1, .none, .ro, 0, 0, 1, 0, 1⟩
/-- BLY_STATE.FROZEN (R601). -/
def Fld.BLY_STATE_FROZEN : Field := ⟨0x100, 2, 1, .none, .ro, 0, 0, 1, 0, 1⟩
/-- BLY_STATE.DEBUG (R601). -/
def Fld.BLY_STATE_DEBUG : Field := ⟨0x100, 3, 1, .none, .ro, 0, 0, 1, 0, 1⟩
/-- BLY_STATE.PIN_IN (R601). -/
def Fld.BLY_STATE_PIN_IN : Field := ⟨0x100, 4, 1, .none, .ro, 0, 0, 1, 0, 1⟩
/-- BLY_PIN.IN_EN (R601). -/
def Fld.BLY_PIN_IN_EN : Field := ⟨0x104, 0, 1, .l, .rw, 0, 0, 1, 0, 1⟩
/-- BLY_PIN.IN_KIND (R601). -/
def Fld.BLY_PIN_IN_KIND : Field := ⟨0x104, 1, 1, .l, .rw, 0, 0, 1, 0, 1⟩
/-- BLY_PIN.OUT_MODE (R601). -/
def Fld.BLY_PIN_OUT_MODE : Field := ⟨0x104, 2, 2, .l, .rw, 0, 0, 1, 0, 1⟩
/-- BLY_RING_SEL.PAGE (R601). -/
def Fld.BLY_RING_SEL_PAGE : Field := ⟨0x108, 0, 32, .l, .rw, 0, 0, 1, 0, 1⟩
/-- BLY_RING_HEAD.NEXT (R601). -/
def Fld.BLY_RING_HEAD_NEXT : Field := ⟨0x110, 0, 10, .none, .ro, 0, 0, 1, 0, 1⟩
/-- BLY_RING_HEAD.SIZE (R601). -/
def Fld.BLY_RING_HEAD_SIZE : Field := ⟨0x110, 16, 11, .none, .ro, 0, 0, 1, 0, 1⟩
/-- BLY_RING_HEAD.WRITTEN (R601). -/
def Fld.BLY_RING_HEAD_WRITTEN : Field := ⟨0x114, 0, 24, .none, .ro, 0, 0, 1, 0, 1⟩
/-- BLY_CUT_SEL.ISLAND (R601). -/
def Fld.BLY_CUT_SEL_ISLAND : Field := ⟨0x118, 0, 12, .l, .rw, 0, 0, 1, 0, 1⟩
/-- BLY_CUT_DATA.HOLD (R601). -/
def Fld.BLY_CUT_DATA_HOLD : Field := ⟨0x120, 0, 2, .none, .ro, 0, 0, 1, 0, 1⟩
/-- BLY_CUT_DATA.SMEARED (R601). -/
def Fld.BLY_CUT_DATA_SMEARED : Field := ⟨0x120, 8, 8, .none, .ro, 0, 0, 1, 0, 1⟩
/-- BLY_CUT_DATA.LOGGED (R601). -/
def Fld.BLY_CUT_DATA_LOGGED : Field := ⟨0x120, 16, 16, .none, .ro, 0, 0, 1, 0, 1⟩
/-- BLY_CUT_DATA.CUT (R601). -/
def Fld.BLY_CUT_DATA_CUT : Field := ⟨0x124, 0, 32, .none, .ro, 0, 0, 1, 0, 1⟩
/-- BLY_PF_FREEZE (R601). -/
def Fld.BLY_PF_FREEZE : Field := ⟨0x128, 0, 32, .l, .rw, 0, 0, 1, 0, 1⟩
/-- BLY_VF_FREEZE (R601). -/
def Fld.BLY_VF_FREEZE : Field := ⟨0x12C, 0, 32, .none, .ro, 0, 0, 1, 0, 1⟩
/-- BLY_COPY_STATE.STATE (R572). -/
def Fld.BLY_COPY_STATE_STATE : Field := ⟨0x400, 0, 3, .none, .ro, 0, 16, 32, 0, 1⟩
/-- BLY_COPY_STATE.DDR (R572). -/
def Fld.BLY_COPY_STATE_DDR : Field := ⟨0x400, 3, 1, .none, .ro, 0, 16, 32, 0, 1⟩
/-- BLY_COPY_STATE.LOG_OVF (R572). -/
def Fld.BLY_COPY_STATE_LOG_OVF : Field := ⟨0x400, 4, 1, .none, .ro, 0, 16, 32, 0, 1⟩
/-- BLY_COPY_STATE.PARTNER (R572). -/
def Fld.BLY_COPY_STATE_PARTNER : Field := ⟨0x400, 8, 14, .none, .ro, 0, 16, 32, 0, 1⟩
/-- BLY_COPY_ACKED.PITCH (R572). -/
def Fld.BLY_COPY_ACKED_PITCH : Field := ⟨0x404, 0, 32, .none, .ro, 0, 16, 32, 0, 1⟩
/-- BLY_COPY_BYTES (R572). -/
def Fld.BLY_COPY_BYTES : Field := ⟨0x408, 0, 32, .none, .ro, 0, 16, 32, 0, 1⟩
/-- BLY_COPY_GATE_NS (R572). -/
def Fld.BLY_COPY_GATE_NS : Field := ⟨0x40C, 0, 32, .none, .ro, 0, 16, 32, 0, 1⟩
/-- BLY_HOLD.CTL.ACTIVE (R601). -/
def Fld.BLY_HOLD_CTL_ACTIVE : Field := ⟨0x600, 0, 1, .l, .rw, 0, 16, 16, 0, 1⟩
/-- BLY_HOLD.CTL.KIND (R601). -/
def Fld.BLY_HOLD_CTL_KIND : Field := ⟨0x600, 1, 1, .l, .rw, 0, 16, 16, 0, 1⟩
/-- BLY_HOLD.CTL.SCOPE (R601). -/
def Fld.BLY_HOLD_CTL_SCOPE : Field := ⟨0x600, 2, 2, .l, .rw, 0, 16, 16, 0, 1⟩
/-- BLY_HOLD.CTL.PART (R601). -/
def Fld.BLY_HOLD_CTL_PART : Field := ⟨0x600, 4, 5, .l, .rw, 0, 16, 16, 0, 1⟩
/-- BLY_HOLD.CTL.DISCARD (R601). -/
def Fld.BLY_HOLD_CTL_DISCARD : Field := ⟨0x600, 9, 1, .l, .rw, 0, 16, 16, 0, 1⟩
/-- BLY_HOLD.CTL.CAUSE (R601). -/
def Fld.BLY_HOLD_CTL_CAUSE : Field := ⟨0x600, 16, 8, .none, .ro, 0, 16, 16, 0, 1⟩
/-- BLY_HOLD.STAT.DONE (R601). -/
def Fld.BLY_HOLD_STAT_DONE : Field := ⟨0x604, 0, 1, .none, .ro, 0, 16, 16, 0, 1⟩
/-- BLY_HOLD.STAT.SMEARED (R601). -/
def Fld.BLY_HOLD_STAT_SMEARED : Field := ⟨0x604, 1, 1, .none, .ro, 0, 16, 16, 0, 1⟩
/-- BLY_HOLD.STAT.RELEASING (R601). -/
def Fld.BLY_HOLD_STAT_RELEASING : Field := ⟨0x604, 2, 1, .none, .ro, 0, 16, 16, 0, 1⟩
/-- BLY_HOLD.STAMP (R601). -/
def Fld.BLY_HOLD_STAMP : Field := ⟨0x608, 0, 64, .none, .ro, 0, 16, 16, 0, 1⟩

/-- The fields of a BLY page. -/
def Fld.tabBLY : List Field :=
  [Fld.BLY_STATE_WAVE, Fld.BLY_STATE_STOPPED, Fld.BLY_STATE_FROZEN, Fld.BLY_STATE_DEBUG, Fld.BLY_STATE_PIN_IN, Fld.BLY_PIN_IN_EN, Fld.BLY_PIN_IN_KIND, Fld.BLY_PIN_OUT_MODE, Fld.BLY_RING_SEL_PAGE, Fld.BLY_RING_HEAD_NEXT, Fld.BLY_RING_HEAD_SIZE, Fld.BLY_RING_HEAD_WRITTEN] ++
  [Fld.BLY_CUT_SEL_ISLAND, Fld.BLY_CUT_DATA_HOLD, Fld.BLY_CUT_DATA_SMEARED, Fld.BLY_CUT_DATA_LOGGED, Fld.BLY_CUT_DATA_CUT, Fld.BLY_PF_FREEZE, Fld.BLY_VF_FREEZE, Fld.BLY_COPY_STATE_STATE, Fld.BLY_COPY_STATE_DDR, Fld.BLY_COPY_STATE_LOG_OVF, Fld.BLY_COPY_STATE_PARTNER, Fld.BLY_COPY_ACKED_PITCH] ++
  [Fld.BLY_COPY_BYTES, Fld.BLY_COPY_GATE_NS, Fld.BLY_HOLD_CTL_ACTIVE, Fld.BLY_HOLD_CTL_KIND, Fld.BLY_HOLD_CTL_SCOPE, Fld.BLY_HOLD_CTL_PART, Fld.BLY_HOLD_CTL_DISCARD, Fld.BLY_HOLD_CTL_CAUSE, Fld.BLY_HOLD_STAT_DONE, Fld.BLY_HOLD_STAT_SMEARED, Fld.BLY_HOLD_STAT_RELEASING, Fld.BLY_HOLD_STAMP]

/-- TEL_CTRL.ENABLE (R600). -/
def Fld.TEL_CTRL_ENABLE : Field := ⟨0x100, 0, 1, .l, .rw, 0, 0, 1, 0, 1⟩
/-- TEL_CTRL.FREEZE (R600). -/
def Fld.TEL_CTRL_FREEZE : Field := ⟨0x100, 1, 1, .l, .rw, 0, 0, 1, 0, 1⟩
/-- TEL_STATE.BUF_B (R600). -/
def Fld.TEL_STATE_BUF_B : Field := ⟨0x104, 0, 19, .none, .ro, 0, 0, 1, 0, 1⟩
/-- TEL_CFG.IDIE (R600). -/
def Fld.TEL_CFG_IDIE : Field := ⟨0x800, 0, 1, .s, .rw, 0, 0, 1, 0, 1⟩
/-- TEL_CFG.PORT (R600). -/
def Fld.TEL_CFG_PORT : Field := ⟨0x800, 1, 2, .s, .rw, 0, 0, 1, 0, 1⟩
/-- TEL_CFG.IPV6 (R600). -/
def Fld.TEL_CFG_IPV6 : Field := ⟨0x800, 3, 1, .s, .rw, 0, 0, 1, 0, 1⟩
/-- TEL_CFG.MTU (R600). -/
def Fld.TEL_CFG_MTU : Field := ⟨0x800, 4, 2, .s, .rw, 0, 0, 1, 0, 1⟩
/-- TEL_CFG.QUEUE (R600). -/
def Fld.TEL_CFG_QUEUE : Field := ⟨0x800, 8, 5, .s, .rw, 28, 0, 1, 0, 1⟩
/-- TEL_CFG.KINDS (R600). -/
def Fld.TEL_CFG_KINDS : Field := ⟨0x800, 13, 3, .s, .rw, 0, 0, 1, 0, 1⟩
/-- TEL_CFG.SNAP_US (R600). -/
def Fld.TEL_CFG_SNAP_US : Field := ⟨0x800, 16, 20, .s, .rw, 1000, 0, 1, 0, 1⟩
/-- TEL_CFG.COUNT (R600). -/
def Fld.TEL_CFG_COUNT : Field := ⟨0x804, 4, 17, .s, .rw, 0, 0, 1, 0, 1⟩
/-- TEL_LIST_BASE.VALID (R600). -/
def Fld.TEL_LIST_BASE_VALID : Field := ⟨0x808, 0, 1, .s, .rw, 0, 0, 1, 0, 1⟩
/-- TEL_LIST_BASE.ADDR (R600). -/
def Fld.TEL_LIST_BASE_ADDR : Field := ⟨0x808, 12, 40, .s, .rw, 0, 0, 1, 0, 1⟩
/-- TEL_DST_MAC (R600). -/
def Fld.TEL_DST_MAC : Field := ⟨0x810, 0, 64, .s, .rw, 0, 0, 1, 0, 1⟩
/-- TEL_DST_IP (R600). -/
def Fld.TEL_DST_IP : Field := ⟨0x818, 0, 128, .s, .rw, 0, 0, 1, 0, 1⟩
/-- TEL_SRC_IP (R600). -/
def Fld.TEL_SRC_IP : Field := ⟨0x828, 0, 128, .s, .rw, 0, 0, 1, 0, 1⟩
/-- TEL_UDP.DST_PORT (R600). -/
def Fld.TEL_UDP_DST_PORT : Field := ⟨0x838, 0, 16, .s, .rw, 47032, 0, 1, 0, 1⟩
/-- TEL_UDP.SRC_PORT (R600). -/
def Fld.TEL_UDP_SRC_PORT : Field := ⟨0x838, 16, 16, .s, .rw, 47033, 0, 1, 0, 1⟩
/-- TEL_L2.VID (R600). -/
def Fld.TEL_L2_VID : Field := ⟨0x83C, 0, 12, .s, .rw, 0, 0, 1, 0, 1⟩
/-- TEL_L2.DSCP (R600). -/
def Fld.TEL_L2_DSCP : Field := ⟨0x83C, 16, 6, .s, .rw, 0, 0, 1, 0, 1⟩

/-- The fields of a TEL page. -/
def Fld.tabTEL : List Field :=
  [Fld.TEL_CTRL_ENABLE, Fld.TEL_CTRL_FREEZE, Fld.TEL_STATE_BUF_B, Fld.TEL_CFG_IDIE, Fld.TEL_CFG_PORT, Fld.TEL_CFG_IPV6, Fld.TEL_CFG_MTU, Fld.TEL_CFG_QUEUE, Fld.TEL_CFG_KINDS, Fld.TEL_CFG_SNAP_US, Fld.TEL_CFG_COUNT, Fld.TEL_LIST_BASE_VALID] ++
  [Fld.TEL_LIST_BASE_ADDR, Fld.TEL_DST_MAC, Fld.TEL_DST_IP, Fld.TEL_SRC_IP, Fld.TEL_UDP_DST_PORT, Fld.TEL_UDP_SRC_PORT, Fld.TEL_L2_VID, Fld.TEL_L2_DSCP]

end Sys2Proof.Machine
end

