-- ==== Sys2Proof/Machine/Memory.lean ====
section
/-!
DEFINITION. Byte memory in one canonical form: a list of (address, byte) pairs with strictly rising addresses and no zero byte. An
unlisted address reads zero (R22, R613, R614; for host memory and the unwritten stores of a unit, log entry 3).
-/
namespace Sys2Proof.Machine

/-- A memory: listed cells, rising addresses. -/
abbrev Memory := List Host.Cell

/-- What an unlisted address reads as. -/
def Memory.blank : Byte := 0

/-- Every listed address lies above `lo` and rises, and no listed byte is the blank byte. -/
def Memory.wfFrom : Nat → Memory → Bool
  | _, [] => true
  | lo, (a, b) :: m => decide (lo ≤ a) && decide (b ≠ Memory.blank) && Memory.wfFrom (a + 1) m

/-- The canonical form. -/
def Memory.wf (m : Memory) : Bool := Memory.wfFrom 0 m

/-- Read one byte. -/
def Memory.rdByte : Memory → Nat → Byte
  | [], _ => Memory.blank
  | (a, b) :: m, q => if q = a then b else Memory.rdByte m q

/-- Write one byte, keeping the canonical form. -/
def Memory.wrByte : Memory → Nat → Byte → Memory
  | [], q, v => if v = Memory.blank then [] else [(q, v)]
  | (a, b) :: m, q, v =>
    if q < a then (if v = Memory.blank then (a, b) :: m else (q, v) :: (a, b) :: m)
    else if q = a then (if v = Memory.blank then m else (q, v) :: m)
    else (a, b) :: Memory.wrByte m q v

/-- Write bytes from an address upward. -/
def Memory.wrBytes : Memory → Nat → List Byte → Memory
  | m, _, [] => m
  | m, a, b :: bs => Memory.wrBytes (Memory.wrByte m a b) (a + 1) bs

/-- Clear `n` bytes from an address: every cell of the range leaves the list. -/
def Memory.clear (lo n : Nat) : Memory → Memory
  | [] => []
  | (a, b) :: m => if lo ≤ a ∧ a < lo + n then Memory.clear lo n m else (a, b) :: Memory.clear lo n m

/-- One pending store of a command: bytes from an address, or a range set to zero. -/
inductive Store where
  | bytes (addr : Nat) (bs : List Byte)
  | zero (addr n : Nat)
deriving DecidableEq, Repr

/-- The addresses a store writes. -/
def Store.covers : Store → Nat → Bool
  | .bytes a bs, q => decide (a ≤ q ∧ q < a + bs.length)
  | .zero a n, q => decide (a ≤ q ∧ q < a + n)

/-- The byte a store gives to an address it covers. -/
def Store.byteAt : Store → Nat → Byte
  | .bytes a bs, q => bs.getD (q - a) 0
  | .zero _ _, _ => 0

/-- Perform one store. -/
def Memory.store (m : Memory) : Store → Memory
  | .bytes a bs => Memory.wrBytes m a bs
  | .zero a n => Memory.clear a n m

/-- Perform the stores of a command, oldest first. -/
def Memory.storeAll : Memory → List Store → Memory
  | m, [] => m
  | m, w :: ws => Memory.storeAll (Memory.store m w) ws

end Sys2Proof.Machine
end

