-- ==== Sys2Proof/Machine/Tbl.lean ====
section
/-!
DEFINITION. Sparse tables: a list of (key, value) pairs with rising keys. A key that is not listed has the default its reader names.
-/
namespace Sys2Proof.Machine

/-- A sparse table keyed by a natural number. -/
abbrev Tbl (α : Type) := List (Nat × α)

/-- The value listed at a key, if any. -/
def Tbl.look {α : Type} : Tbl α → Nat → Option α
  | [], _ => none
  | (k, v) :: t, q => if q = k then some v else Tbl.look t q

/-- The value at a key, or the default. -/
def Tbl.lookD {α : Type} (t : Tbl α) (q : Nat) (d : α) : α := (Tbl.look t q).getD d

/-- Is the key listed? -/
def Tbl.has {α : Type} (t : Tbl α) (q : Nat) : Bool := (Tbl.look t q).isSome

/-- Store a value at a key, keeping the keys in rising order. -/
def Tbl.put {α : Type} : Tbl α → Nat → α → Tbl α
  | [], q, v => [(q, v)]
  | (k, w) :: t, q, v =>
    if q < k then (q, v) :: (k, w) :: t
    else if q = k then (q, v) :: t
    else (k, w) :: Tbl.put t q v

/-- Remove a key. -/
def Tbl.del {α : Type} : Tbl α → Nat → Tbl α
  | [], _ => []
  | (k, w) :: t, q => if q = k then Tbl.del t q else (k, w) :: Tbl.del t q

/-- Apply a function to the value at a key, taking the default where it is not listed. -/
def Tbl.upd {α : Type} (t : Tbl α) (q : Nat) (d : α) (f : α → α) : Tbl α := Tbl.put t q (f (Tbl.lookD t q d))

/-- Remove every key that a test selects. -/
def Tbl.drop {α : Type} : Tbl α → (Nat → Bool) → Tbl α
  | [], _ => []
  | (k, w) :: t, p => if p k then Tbl.drop t p else (k, w) :: Tbl.drop t p

/-- Map every listed value. -/
def Tbl.mapV {α : Type} : Tbl α → (Nat → α → α) → Tbl α
  | [], _ => []
  | (k, w) :: t, f => (k, f k w) :: Tbl.mapV t f

end Sys2Proof.Machine
end

