-- ==== Sys2Proof/Machine/State.lean ====
section
/-!
DEFINITION. The state of the package, as plain data: every register, memory, buffer, queue, counter, mode and pin that spec/ gives it, and the
queue of waiting commands.
-/
namespace Sys2Proof.Machine

/-- The four package variants (R2). -/
inductive Model where
  | grc8864 | grc8848 | grc4448 | grc2248
deriving DecidableEq, Repr

/-- The part (R2, R3): its variant, and whether its suffix removes the DDR5 tier and pattern matcher (-L) or the bulk cipher engines (-N). -/
structure Part where
  model : Model
  noDdr : Bool
  noCipher : Bool
deriving DecidableEq, Repr

/-- The strap balls (R609). -/
structure Straps where
  crewRole : Nat
  idSrc : Nat
  idie1Mode : Nat
  pkgId : Nat
deriving DecidableEq, Repr

/-- An island's free-running counter (R73): its value `base` at package time `since`, its clock in MHz, and whether its PLL runs. -/
structure Isl where
  base : Nat
  since : Nat
  mhz : Nat
  on : Bool
deriving DecidableEq, Repr

/-- A cairn entry (R589). -/
structure CairnEntry where
  stamp : Nat
  code : Nat
  info : Nat
deriving DecidableEq, Repr

/-- A cairn ring (R590): the index of the next entry, the saturating count of entries written, and the entries by index. -/
structure Ring where
  next : Nat
  written : Nat
  entries : Tbl CairnEntry
deriving DecidableEq, Repr

/-- The commit of a page in progress (R52 to R56): its pending copy of the shadow group, and whether it has passed its check. -/
structure Commit where
  copy : Tbl Nat
  checked : Bool
deriving DecidableEq, Repr

/-- The register pages: field values by field key, the applied and older copies of staged fields, commits in progress, counters, snapshots
under a hold (R582), per-requester latches (R48) and per-requester selections. -/
structure RegFile where
  cur : Tbl Nat
  applied : Tbl Nat
  older : Tbl Nat
  commits : Tbl Commit
  cnt : Tbl Nat
  snap : Tbl Nat
  latch : Tbl (Nat × Nat)
  sel : Tbl Nat
deriving DecidableEq, Repr

/-- What the package sends out or drives: answers to reads, interrupts, messages, frames, packets and commands to the parts outside it. The
record is the model's own (log entry 6); the number and the list of an entry are what the rule of its sender gives. -/
inductive Emit where
  | readValue (r : Req) (v : Nat)
  | msix (func vec addr data : Nat)
  | hostWrite (func addr : Nat) (bytes : List Byte)
  | hostRead (func tag addr len : Nat)
  | hostAtomic (func tag addr op a b : Nat)
  | pin (name : String) (level : Bool)
  | msg (kind : String) (dst : Nat) (args : List Nat)
  | bytes (kind : String) (dst : Nat) (data : List Byte)
deriving DecidableEq, Repr

/-- The part's fixed choices and the straps: the pins' present levels and the sampled values (R609). -/
structure Cfg where
  part : Part
  pins : Straps
  straps : Straps
  strapBad : Bool
deriving DecidableEq, Repr

/-- Package time in nanoseconds (the package-global island counts 1 GHz cycles, R72), the free-value counter, the island counters and the
when the islands' counters last began from zero (a fundamental reset, R73), and whether they run. -/
structure Clocks where
  now : Nat
  free : Nat
  t0 : Nat
  up : Bool
  islands : Tbl Isl
deriving DecidableEq, Repr

/-- The host endpoint's configuration of functions: those with Bus Master Enable set, those whose Function Mask is set, and the pending-bit arrays,
vector v of function f at 2048 f + v (R68, R483, R487). -/
structure MsixSt where
  bme : List Nat
  fmask : List Nat
  pba : List Nat
deriving DecidableEq, Repr

/-- A package commit wave in progress (R90): the armed pages it waits for and the pages that have accepted, by page. -/
structure WaveSt where
  waiting : List Page
  accepted : List Page
deriving DecidableEq, Repr

/-- A proxied member-window access awaiting its answer (R67). -/
structure MbrAccess where
  id : Nat
  write : Bool
  member : Nat
  addr : Nat
deriving DecidableEq, Repr

/-- The member windows: the accesses outstanding and the number given to the next. -/
structure MbrSt where
  outstanding : List MbrAccess
  nextId : Nat
deriving DecidableEq, Repr

/-- A correlation beacon on its way (R75, R76): its sequence number, issue stamp, the islands that have not echoed, and the ports' IEEE 1588
times at issue in nanoseconds, by island. -/
structure Corr where
  seq : Nat
  issue : Nat
  waiting : List Nat
  ptp : Tbl Int
deriving DecidableEq, Repr

/-- What a D2D edge remembers of its replays (R20): when flits were replayed within the last microsecond, and when REPLAY_BURST was last
written. -/
structure Replays where
  times : List Nat
  burst : Option Nat
deriving DecidableEq, Repr

/-- An address generator (R148, R181): 32-bit registers and the mode flags. -/
structure AddrGen where
  base : Nat
  idx : Nat
  step : Nat
  md : Nat
  wrap : Bool
  brev : Bool
deriving DecidableEq, Repr

/-- One loop level (R173). -/
structure LoopLevel where
  lsa : Nat
  lea : Nat
  lct : Nat
deriving DecidableEq, Repr

/-- The state of a strand (R148). -/
inductive StrandState where
  | idle | ready | waitToken | waitLb | done
deriving DecidableEq, Repr

/-- A strand context (R148): program counter, operand stack with S0 first, loop levels innermost first, address generators AG0 to AG3, BRC,
state, stall timer, and the tile cycle from which it may issue again after a skip (R180). -/
structure Strand where
  pc : Nat
  stack : List Cell
  loops : List LoopLevel
  ag : List AddrGen
  brc : Nat
  st : StrandState
  stall : Nat
  readyAt : Nat
deriving DecidableEq, Repr

/-- A tensor operation in a unit queue (R190): its number in issue order, its strand, the address of the ISSUE, the descriptor's index and its
sixteen words. -/
structure TensorOp where
  id : Nat
  strand : Nat
  pc : Nat
  desc : Nat
  words : List Nat
deriving DecidableEq, Repr

/-- A token write of a SIGNAL or SIGNALR that waits for the strand's earlier operations (R186): those with numbers below `after`. -/
structure Signal where
  strand : Nat
  after : Nat
  die : Nat
  inst : Nat
  chan : Nat
  count : Nat
deriving DecidableEq, Repr

/-- A tile beyond its register page and its memories: strands, rotation and the last holder of the issue slot (R149), the line map (R130), token
channels (R185), unit queues, operations whose writes are not yet acknowledged, signals waiting, the scrub position (R136), the cycles of
the issue slot, the buffers' pending release, the informational events already recorded in this pitch, the physical
ranges of the anchor store whose contents are undefined (with the change that left them so, R129, R133) what has been written there since, the
dirty-line list of the last commit (R266), and the lines committed since the seed's pass began (R560). -/
structure Tile where
  strands : Tbl Strand
  rotation : List (Nat × Nat)
  last : Option Nat
  cycle : Nat
  bank : List Nat
  dirty : List Nat
  chans : Tbl Nat
  arrQ : List TensorOp
  vecQ : List TensorOp
  movQ : List TensorOp
  unacked : List (Nat × Nat × Nat)
  nextOp : Nat
  sigs : List Signal
  scrub : Nat
  seen : List Nat
  undef : List (Nat × Nat × Nat)
  fresh : List (Nat × Nat)
  lastDirty : List Nat
  seedDirty : List Nat
deriving DecidableEq, Repr

/-- A mesh write in flight (R147): the sender, the operation it belongs to, the receiver, its location word and its bytes. -/
structure MeshWrite where
  id : Nat
  srcDie : Nat
  srcInst : Nat
  op : Nat
  die : Nat
  inst : Nat
  cbuf : Bool
  loc : Nat
  bytes : List Byte
deriving DecidableEq, Repr

/-- A token write in flight (R189), with the pitch and attempt it was produced under, and its producer: 0 a strand, e + 1 rope
engine e. -/
structure TokenWrite where
  id : Nat
  srcPart : Option Nat
  die : Nat
  inst : Nat
  chan : Nat
  count : Nat
  pitch : Nat
  attempt : Nat
  src : Nat
deriving DecidableEq, Repr

/-- The mesh: writes and token writes in flight, and the number given to the next. -/
structure Mesh where
  writes : List MeshWrite
  tokens : List TokenWrite
  nextId : Nat
deriving DecidableEq, Repr

/-- The entry that a rope context is reading (R216, R221, R227): its words, its index in the list, the next stored block and how many there are,
the flow it feeds (0 for a STAGE), and the stored bytes of a K2 block that the blocks so far have only begun. -/
structure RopeOpen where
  words : List Nat
  idx : Nat
  next : Nat
  total : Nat
  flow : Nat
  carry : List Byte
  nanSeen : Bool
deriving DecidableEq, Repr

/-- A list context of a rope engine (R209, R231, R233, R238): the list, the next entry, the sub-lists of a SELECT still to perform as (first
entry, entries left), the partition, pitch and attempt, the page's configuration when the list began, the entry being read, when the polling of a
SELECT began, the block checked last, and whether the list runs, is only prefetching, or has been performed to its END. -/
structure RopeCtx where
  entries : List (List Byte)
  pos : Nat
  subs : List (Nat × Nat)
  part : Nat
  pitch : Nat
  attempt : Nat
  conf : Tbl Nat
  opened : Option RopeOpen
  poll : Option Nat
  lastBlk : Option (Nat × List Byte)
  pre : Bool
  done : Bool
deriving DecidableEq, Repr

/-- A delivery that an engine sends (R225, R226): the engine and context, the partition, pitch and attempt, the destination (0 LB0, 1 LB1, 2
cluster buffer), where its elements and scales lie and how many bytes of each it has in all and so far, its token, and the pieces sent. -/
structure Flow where
  engine : Nat
  ctx : Nat
  part : Nat
  pitch : Nat
  attempt : Nat
  dst : Nat
  elemOff : Nat
  elemLen : Nat
  scaleOff : Nat
  scaleLen : Nat
  elemDone : Nat
  scaleDone : Nat
  token : Option Nat
  tiles : Nat
  pieces : List (Nat × List Byte)
deriving DecidableEq, Repr

/-- Where a delivery stands at a cluster tap (R225, R159). -/
inductive TapState where
  | coming | held | waiting | delivering
deriving DecidableEq, Repr

/-- A delivery at the tap of a cluster. -/
structure TapDel where
  flow : Nat
  die : Nat
  cluster : Nat
  st : TapState
deriving DecidableEq, Repr

/-- A TILE record of a schedule image (R249): its tile, program bytes, descriptors (64 bytes each), stall limit, bank size and, for each template,
the rotation of strands with entry addresses. -/
structure TileRec where
  die : Nat
  inst : Nat
  prog : List Byte
  descs : List Byte
  stallLimit : Nat
  pair8k : Nat
  rots : List (Nat × List (Nat × Nat))
deriving DecidableEq, Repr

/-- A ROPE record (R251): package engine number, template and list entries of 64 bytes. -/
structure RopeRec where
  engine : Nat
  template : Nat
  entries : List (List Byte)
deriving DecidableEq, Repr

/-- A ROPE_TABLES record (R251): stack, quarter, 32 multicast and 16 remote-source entries of 64 bits. -/
structure RopeTabRec where
  stack : Nat
  quarter : Nat
  mcast : List Nat
  rsrc : List Nat
deriving DecidableEq, Repr

/-- A HANDSHAKE consumer record with its producers (R254); a producer is its eight bytes as a number. -/
structure ShakeRec where
  template : Nat
  die : Nat
  chan : Nat
  inst : Nat
  strand : Nat
  consumed : Nat
  raised : Nat
  prods : List Nat
deriving DecidableEq, Repr

/-- A CBUF record (R253). -/
structure CbufRec where
  template : Nat
  use : Nat
  cluster : Nat
  off : Nat
  len : Nat
deriving DecidableEq, Repr

/-- An AREAS entry (R252). -/
structure AreaRec where
  kind : Nat
  attr : Nat
  addr : Nat
  len : Nat
  side : Nat
deriving DecidableEq, Repr

/-- An INIT record (R248): tile, bank-0 offset and bytes. -/
structure InitRec where
  die : Nat
  inst : Nat
  off : Nat
  bytes : List Byte
deriving DecidableEq, Repr

/-- One body of the fallback map (R255): the excluded region and what replaces the primary records; takeovers pair the excluded tile with the tile
that takes over its anchors. -/
structure FallbackRec where
  region : Nat
  tiles : List TileRec
  ropes : List RopeRec
  tables : List RopeTabRec
  takeovers : List ((Nat × Nat) × (Nat × Nat))
deriving DecidableEq, Repr

/-- A schedule image as firmware holds it after LOAD (R246 to R255). -/
structure Image where
  flags : Nat
  len : Nat
  modelId : Nat
  qmask : Nat
  srKey : Nat
  templates : List (Nat × Nat)
  seq : List Nat
  tiles : List TileRec
  ropes : List RopeRec
  tables : List RopeTabRec
  shakes : List ShakeRec
  cbufs : List CbufRec
  areas : List AreaRec
  fallbacks : List FallbackRec
  inits : List InitRec
  measure : List Byte
deriving DecidableEq, Repr

/-- A RUN command in a pitch controller (R261): its queue entry, first sequence index, count, flags, base pitch, the pitches it has committed,
the replays it has taken, and whether a STOP ends it at the boundary. -/
structure RunCmd where
  func : Nat
  queue : Nat
  head : Nat
  cid : Nat
  start : Nat
  count : Nat
  each : Bool
  setPitch : Option Nat
  done : Nat
  replays : Nat
  stop : Bool
deriving DecidableEq, Repr

/-- A memory grant (R512). -/
structure Grant where
  addr : Nat
  len : Nat
deriving DecidableEq, Repr

/-- A partition and its pitch controller (R261, R512): its function, grants, store area for a local belay store, image, pending RUNs, and at the
boundary the regions that have reported DONE and COMMITTED and the engines that have reported LIST_DONE; how it is parked at the boundary (0 not, 1
with its RUNs kept, R490, 2 for a lost host, R538), the regions that faulted and the codes of the rope faults of the pitch that is to be replayed, how
many times its selection timed out, what the last boundary began at, when the last region reported COMMITTED, the sequence index of the last committed
pitch, whether that pitch runs again after a step back without counting in a RUN (R562, R563), the STOPs that wait (function, queue, head, CID), and of the belay copy the
other members of the coupled set with their latest acknowledged pitch, the sends of the current increment by T-die as (pitch, sends), the dies whose
increment of the last committed pitch is acknowledged, the passes of a seed, the pitch whose increment is its last pass, and whether committed
state is lost (R555 to R563). -/
structure Partition where
  func : Nat
  grants : List Grant
  store : Grant
  image : Option Image
  runs : List RunCmd
  doneRegions : List Nat
  committed : List Nat
  listsDone : List Nat
  gftOpen : Nat
  faulted : List Nat
  ropeCodes : List Nat
  selTimeouts : Nat
  lastPitch : Option Nat
  boundaryAt : Nat
  loads : Nat
  park : Nat
  epoch : Nat
  stops : List (Nat × Nat × Nat × Nat)
  coupled : List (Nat × Nat)
  copySends : Tbl (Nat × Nat)
  ackDies : List Nat
  seedPass : Nat
  seedFinal : Option Nat
  lost : Bool
  gateAt : Nat
  lastSeq : Nat
  redo : Bool
deriving DecidableEq, Repr

/-- The contents of a DDR5 channel after a change of its cipher setting (R303): undefined but for the lines written since. -/
structure Undef where
  seed : Nat
  fresh : List Nat
deriving DecidableEq, Repr

/-- An exact non-negative fraction, kept in lowest terms, for the quantities of R330 and R347. -/
structure Frac where
  num : Nat
  den : Nat
deriving DecidableEq, Repr

/-- A path of a connection (R323, R324): its port (4 x I-die + port), UDP source port, remote address and station address, state (0 GOOD, 1 SUSPECT, 2
DOWN), the consecutive probes answered while DOWN and whether a PROBE is unanswered. -/
structure GftPath where
  port : Nat
  udp : Nat
  ip : Nat
  mac : Nat
  st : Nat
  probesOk : Nat
  probeOut : Bool
deriving DecidableEq, Repr

/-- Where the payload of a message comes from: nowhere, device or host memory read at every transmission, or bytes that the sender holds. -/
inductive TxSrc where
  | none
  | mem (addr : Nat)
  | held (bs : List Byte)
deriving DecidableEq, Repr

/-- A message to be sent (R315, R316, R335): its request (0 where it answers one), opcode, flags, MSN, source, length and the offset of its next packet,
the fields of its extension, the pitch (or the round of a REDUCE) and attempt, whether it waits for every earlier request, and the epoch of its acceptance (R89). -/
structure GftMsg where
  req : Nat
  op : Nat
  flags : Nat
  msn : Nat
  src : TxSrc
  len : Nat
  off : Nat
  raddr : Nat
  mkey : Nat
  op0 : Nat
  op1 : Nat
  group : Nat
  rank : Nat
  fmt : Nat
  goff : Nat
  pitch : Nat
  attempt : Nat
  fence : Bool
  epoch : Nat
deriving DecidableEq, Repr

/-- A packet sent and not acknowledged (R326, R328, R330): PSN, message with its offset, payload bytes, path, when it was last sent, how often, whether
it has been declared lost, RNR resends, since when it meets BUSY, and whether it waits for RNR_DELAY_US. -/
structure TxPkt where
  psn : Nat
  msg : GftMsg
  len : Nat
  path : Nat
  sentAt : Nat
  sends : Nat
  lost : Bool
  rnr : Nat
  busy : Option Nat
  waiting : Bool
deriving DecidableEq, Repr

/-- Who issued a request: a queue entry (function, queue, head, CID, whether signalled), a MOVE of a tile (die, instance, operation, partition), or
firmware for a purpose. -/
inductive GftClient where
  | queue (func q head cid : Nat) (signaled : Bool)
  | move (die inst op part : Nat)
  | fw (purpose : String) (a : Nat)
deriving DecidableEq, Repr

/-- Where the data of a response lands: nowhere, memory, or rows of `row` bytes every `pitch` bytes from a location of a tile, under the pitch and
attempt of the request. -/
inductive GftDst where
  | none
  | mem (addr : Nat)
  | tile (die inst loc row pitch : Nat)
deriving DecidableEq, Repr

/-- An outstanding request (R335, R338, R339): its number, client, opcode, MSN, destination, length and bytes that have come, group, rank and round of a
REDUCE and whether APPLIED has come, its pitch and attempt, the status when it has ended and the PSN of the failing packet. -/
structure GftReq where
  id : Nat
  client : GftClient
  op : Nat
  msn : Nat
  dst : GftDst
  len : Nat
  got : Nat
  group : Nat
  rank : Nat
  applied : Bool
  pitch : Nat
  attempt : Nat
  status : Option Nat
  detail : Nat
deriving DecidableEq, Repr

/-- A receive buffer posted on a connection (R335, R337). -/
structure RecvBuf where
  func : Nat
  queue : Nat
  head : Nat
  cid : Nat
  addr : Nat
  len : Nat
deriving DecidableEq, Repr

/-- A SEND arriving (R337, R374): its MSN, buffer (none on a REINJECT connection), bytes placed, its whole length when the last packet has come, whether
it was answered NAK LENGTH, and for reinjection the pieces. -/
structure SendRx where
  msn : Nat
  buf : Option RecvBuf
  got : Nat
  total : Option Nat
  bad : Bool
  pieces : List (Nat × List Byte)
deriving DecidableEq, Repr

/-- A connection (R319 to R330, R347): function, whether it is a crew connection of firmware (R349), peer package, the peer's number of it, class, order, nonce, own address and addressing, key slots (transmit, receive),
REINJECT, token target (die, tile, channel), paths, owner, state (0 ACTIVE, 1 SUSPENDED, 2 ERROR, 3 DRAINING), whether its context is cached and when
it was used; the next PSN, MSN and request, messages to send, packets unacknowledged, requests in order; CUM_PSN and the placed PSNs above it, receive
buffers, SENDs arriving; placements and CE marks since the last ACK, when the first of them came, the ECHO_TS and the path index of the next ACK; the
window, its alpha, next cut, SRTT, RTTVAR and the time from which pacing allows a packet, in nanoseconds; the rotation and a strict connection's path. -/
structure Conn where
  func : Nat
  crew : Bool
  peer : Nat
  rconn : Nat
  cls : Nat
  strict : Bool
  nonce : Nat
  v6 : Bool
  ip : Nat
  vlan : Option Nat
  dscp : Nat
  enc : Option (Nat × Nat)
  reinject : Bool
  tok : Option (Nat × Nat × Nat)
  paths : List GftPath
  owner : Nat
  st : Nat
  cached : Bool
  used : Nat
  nextPsn : Nat
  nextMsn : Nat
  nextReq : Nat
  msgs : List GftMsg
  unacked : List TxPkt
  reqs : List GftReq
  cum : Nat
  placed : List Nat
  bufs : List RecvBuf
  sends : List SendRx
  sinceAck : Nat
  ceCount : Nat
  firstUn : Option Nat
  echo : Nat
  ackPath : Nat
  cwnd : Frac
  alpha : Frac
  nextCut : Frac
  srtt : Frac
  rttvar : Frac
  paceAt : Frac
  rr : Nat
  cur : Option Nat
deriving DecidableEq, Repr

/-- A GFT packet that the pipeline has handed to the transport (R327): the port it came on, the remote address and station address, whether it
is marked CE, and its bytes from the base header to the ICV. -/
structure RxPkt where
  port : Nat
  ip : Nat
  mac : Nat
  ce : Bool
  bytes : List Byte
deriving DecidableEq, Repr

/-- A reduction group at its I-die (R342 to R345): its round and NEXT_RANK, the chunks received in this round and staged for the next as (rank, chunk),
which connection each (round, rank) comes on, and whether it is STALLED. -/
structure GroupSt where
  round : Nat
  nextRank : Nat
  bits : List (Nat × Nat)
  ahead : List (Nat × Nat)
  feeds : List (Nat × Nat × Nat)
  stalled : Bool
deriving DecidableEq, Repr

/-- The transport of an I-die: packets waiting, packets held for a context that is being fetched, and the summit hold as (connection, packet). -/
structure GftDie where
  rx : List RxPkt
  miss : List RxPkt
  hold : List (Nat × RxPkt)
deriving DecidableEq, Repr

/-- A frame on its way into a traffic manager (R386): port (4 x I-die + port), queue, source (0 pipeline, 1 mirror, 2 transmit queue, 3 transport), whether
it is of a class 0 connection, its bytes without the FCS, the transmit entry (function, queue, head, CID), whether it has been counted as
waiting, when it was admitted, and its epoch (R89). -/
structure TmFrame where
  port : Nat
  queue : Nat
  src : Nat
  cls0 : Bool
  bytes : List Byte
  tx : Option (Nat × Nat × Nat × Nat)
  waited : Bool
  at_ : Nat
  epoch : Nat
deriving DecidableEq, Repr

/-- A frame in an input FIFO of a pipeline (R354, R359): its sequence number at the input, its bytes without the FCS, its arrival stamp and the epoch
it was tagged with (R89). -/
structure RawFrame where
  seq : Nat
  bytes : List Byte
  stamp : Nat
  epoch : Nat
deriving DecidableEq, Repr

/-- An input of a pipeline (R354, R359): 0 to 3 a port, 4 reinjection: its FIFO, oldest first, the next sequence number, the oldest number that the
reorder stage has not released, and the later numbers that a parse engine has released. -/
structure PipeIn where
  fifo : List RawFrame
  next : Nat
  expect : Nat
  gone : List Nat
deriving DecidableEq, Repr

/-- The stage of a frame (R353): with a parse engine, to be looked up, in reorder, to be edited, in the pattern matcher, at its disposition. -/
inductive PipeStage where
  | parse | lookup | reorder | edit | pme | dispose
deriving DecidableEq, Repr

/-- A frame in a pipeline: input and sequence number, arrival stamp, epoch, stage, parse engine, the generations of the PRS_ and CLS_ pages it entered
with, its bytes as received and as they go on, the entries it has matched with their slots (none for a miss entry), whether it is local GFT that
skipped the lookup, whether it has passed through the pattern matcher, the pattern found, and whether the matcher has already decided
it (1 unscanned, for an overload). -/
structure PipeFrame where
  input : Nat
  seq : Nat
  stamp : Nat
  epoch : Nat
  stage : PipeStage
  engine : Nat
  gPrs : Nat
  gCls : Nat
  raw : List Byte
  bytes : List Byte
  chain : List (List Nat × Option Nat)
  gft : Bool
  scanned : Bool
  pattern : Option Nat
  bypass : Bool
deriving DecidableEq, Repr

/-- A frame in the cox slow-path ring (R357): its cause, input, arrival stamp and bytes. -/
structure SlowFrame where
  cause : Nat
  input : Nat
  stamp : Nat
  bytes : List Byte
deriving DecidableEq, Repr

/-- The pipeline of an I-die: the input whose turn comes next, the parse engine next in rotation, its frames in the order they came to their stage, and
the slow-path ring, oldest first. -/
structure PipeDie where
  turn : Nat
  engine : Nat
  frames : List PipeFrame
  slow : List SlowFrame
deriving DecidableEq, Repr

/-- A table slot (R361, R365): its four entry words and its six key words. A slot that is not listed holds zeros. -/
structure ClsSlot where
  words : List Nat
  key : List Nat
deriving DecidableEq, Repr

/-- A flow of the pattern matcher (R377, R378): bytes scanned, the last of them (at most 63), the action every later frame takes (0 none, 1 DROP, 2
PUNT) with its pattern, and whether scanning has ended for it. -/
structure PmeFlow where
  scanned : Nat
  tail : List Byte
  act : Nat
  pattern : Nat
  ended : Bool
deriving DecidableEq, Repr

/-- A placement ring at its I-die (R373): the producer count, the copy of the consumer count and when it was read, and the slot headers still to be
written, as (input, length, truncated, stamp, generation). -/
structure PlaceSt where
  p : Nat
  c : Nat
  readAt : Option Nat
  heads : List (Nat × Nat × Bool × Nat × Nat)
deriving DecidableEq, Repr

/-- A depth sample (R403). -/
structure TmSample where
  stamp : Nat
  depth : Nat
  frames : Nat
  seq : Nat
  hol : Nat
deriving DecidableEq, Repr

/-- An egress queue (R388 to R394, R403): its frames, deficit, shaper tokens in 1/8000 byte and when they were last brought up to date, its six counters,
and its sample ring. -/
structure TmQueue where
  frames : List TmFrame
  deficit : Nat
  tokens : Int
  since : Nat
  cnts : List Nat
  ring : Tbl TmSample
  next : Nat
  written : Nat
deriving DecidableEq, Repr

/-- A gate control list (R395, R396): its entries as (interval, mask), BASE_TIME_NS, GUARD_NS and GUARD_MODE. -/
structure GateList where
  entries : List (Nat × Nat)
  base : Nat
  guardNs : Nat
  guardMode : Bool
deriving DecidableEq, Repr

/-- The egress side of a port (R390 to R398): the port shaper's tokens and when they were brought up to date, the queues of the last 64 frame starts,
the turn of the group and whether the queue at the turn has its quantum, the gate list in force with the entry in force, the pending list with the
PTP time at which its commit applied, and the port's PTP clock against package time. -/
structure TmPort where
  tokens : Int
  since : Nat
  starts : List Nat
  turn : Nat
  granted : Bool
  gate : Option GateList
  entry : Nat
  pend : Option (GateList × Nat)
  ptp : Int
deriving DecidableEq, Repr

/-- A policer (R400): its buckets in 1/8000 byte, when they were brought up to date, and its frames by colour. -/
structure Policer where
  tc : Nat
  tp : Nat
  since : Nat
  cnts : List Nat
deriving DecidableEq, Repr

/-- A virtual-namespace record (R417): its flags, owning function, key slot, blocks per extent, and the extents as (root port, namespace, first block). -/
structure VnsRec where
  flags : Nat
  func : Nat
  slot : Nat
  extLen : Nat
  exts : List (Nat × Nat × Nat)
deriving DecidableEq, Repr

/-- A block command in progress (R421 to R425): its entry's function, queue, head and CID, its fields, its namespace's record in its epoch, the blocks
for which NVMe commands have been issued, the NVMe commands outstanding, and the status with the first failing block. -/
structure BlockCmd where
  id : Nat
  func : Nat
  queue : Nat
  head : Nat
  cid : Nat
  op : Nat
  flags : Nat
  vns : Nat
  lba : Nat
  nlb : Nat
  maddr : Nat
  saddr : Nat
  model : Nat
  rec_ : VnsRec
  next : Nat
  left : Nat
  status : Nat
  detail : Nat
deriving DecidableEq, Repr

/-- An NVMe command at an SSD (R414, R423 to R425): its block command, root port, namespace, opcode (0 Flush, 1 Write, 2 Read, 9 Dataset Management),
first backing block and first virtual block, its stage slots, the blocks done, whether it is the second read of a block, and the result held while the
port's lease is orphaned (R416). -/
structure NvmeCmd where
  id : Nat
  cmd : Nat
  port : Nat
  nsid : Nat
  op : Nat
  slba : Nat
  first : Nat
  count : Nat
  slots : List Nat
  done : List Nat
  retry : Bool
  held : Option (Nat × Nat)
deriving DecidableEq, Repr

/-- A key slot (R439): TYPE, STATE (0 EMPTY, 1 LOADING, 2 READY, 3 EXHAUSTED), OWNER, PKG, SALT, COUNTER and the key's bytes as numbers. A slot that is
not listed is EMPTY. -/
structure KeySlot where
  typ : Nat
  st : Nat
  owner : Nat
  pkg : Bool
  salt : Nat
  ctr : Nat
  key : List Nat
deriving DecidableEq, Repr

/-- A session command in progress (R442): whether a cox core gave it, and the request's bytes once they have been checked. -/
structure SessCmd where
  cox : Bool
  req : List Byte
deriving DecidableEq, Repr

/-- A vault (R437 to R466): its slots, session commands in progress, the eight measurement registers, the debug challenge, the debug responses
refused, whether the read path to the unique secret is blocked, whether its derived secrets are present, and whether an alarm has occurred since the
last fundamental reset. -/
structure Vault where
  slots : Tbl KeySlot
  sess : Tbl SessCmd
  meas : Tbl (List Nat)
  chal : List Nat
  dbgTries : Nat
  blocked : Bool
  secrets : Bool
  alarmed : Bool
deriving DecidableEq, Repr

/-- A queue (R507, R508): its parameters, its head and tail, the phase of its next completion, whether it is in ERROR or has stopped fetching,
completions held for want of a slot, entries not yet signalled, the event sequence number and the events dropped. -/
structure Queue where
  typ : Nat
  base : Nat
  size : Nat
  cq : Nat
  vector : Nat
  part : Nat
  member : Nat
  modCount : Nat
  modUs : Nat
  head : Nat
  tail : Nat
  phase : Nat
  error : Bool
  stopped : Bool
  held : List (List Byte)
  unsig : Nat
  seq : Nat
  dropped : Nat
deriving DecidableEq, Repr

/-- A submission entry that a block has been handed (R508): its number, its function and queue, the submission head after it and its bytes. -/
structure Fetched where
  id : Nat
  func : Nat
  queue : Nat
  head : Nat
  entry : List Byte
deriving DecidableEq, Repr

/-- A posted write or message held while Bus Master Enable is clear, to be issued again (R483, R484). -/
structure HeldWrite where
  func : Nat
  queue : Nat
  addr : Nat
  bytes : List Byte
deriving DecidableEq, Repr

/-- What a host read is for (R475): the next entry of a queue, the data of a fetched entry, or a transfer of a unit. -/
inductive HostWant where
  | entry (func queue : Nat)
  | data (fetch : Nat)
  | unit (kind : String) (a b : Nat)
deriving DecidableEq, Repr

/-- A host read transfer (R475, R477): what it is for, its function, length, the pieces that have completed, how many are still to complete, the
status of its first failure (R501), 0 for none, and the pieces that wait for a tag, as (address, place, length). -/
structure Xfer where
  want : HostWant
  func : Nat
  len : Nat
  got : List (Nat × List Byte)
  left : Nat
  status : Nat
  todo : List (Nat × Nat × Nat)
deriving DecidableEq, Repr

/-- A non-posted read piece outstanding at its tag (R475): its function, what it is for, its place in the transfer, its length, the bytes that have
arrived, whether it was poisoned, whether its data is wanted no more, and whether a reset's bound has passed it (R515). -/
structure HostRead where
  func : Nat
  want : HostWant
  off : Nat
  len : Nat
  got : List Byte
  poisoned : Bool
  dead : Bool
  late : Bool
deriving DecidableEq, Repr

/-- The endpoint's link and configuration beyond its page (R469, R470, R489, R491): Max_Payload_Size, Max_Read_Request_Size, VF Enable, PME_En,
PME_Status, AtomicOp Requester Enable, whether the host enabled L0p and L1, the functions whose Bus Master Enable hold is running or
has expired, the functions whose function-level reset is draining (R515), and whether the link is in L2/L3 Ready (R494). -/
structure LinkSt where
  mps : Nat
  mrrs : Nat
  vfEnable : Bool
  pmeEn : Bool
  pmeStatus : Bool
  atomicEn : Bool
  l0pOk : Bool
  l1Ok : Bool
  holding : List Nat
  expired : List Nat
  flr : List Nat
  l2 : Bool
deriving DecidableEq, Repr

/-- A cox core beyond its page (R527 to R533): its journal's records, oldest first, when it last crashed, and when its restart ends. -/
structure CoreSt where
  journal : List (List Byte)
  crashed : Option Nat
  restart : Option Nat
deriving DecidableEq, Repr

/-- Firmware (R520 to R541): the firmware SRAM of each I-die, when the host last pulsed, and when DETACH_HOLD began. -/
structure FwSt where
  sram : Tbl (List Byte)
  pulse : Option Nat
  detach : Option Nat
deriving DecidableEq, Repr

/-- A T-die's write log for a partition (R555): runs of 256-byte lines (first line, count) of this pitch and whether it overflowed, the same of the
last committed pitch, and the union since a seed's pass began, with whether any of it overflowed (R560). -/
structure WLog where
  runs : List (Nat × Nat)
  ovf : Bool
  last : List (Nat × Nat)
  lastOvf : Bool
  union : List (Nat × Nat)
  unionOvf : Bool
deriving DecidableEq, Repr

/-- A belay store at this package (R553, R556, R558): the area that holds it, the base state with its pitch, by line (for tile lines 2^60 +
1024 x (2048 x T-die + instance) + line, for memory the device address / 256), the increments checked and not applied, by T-die, with their
pitch. -/
structure StoreSt where
  addr : Nat
  len : Nat
  base : Tbl (List Byte)
  basePitch : Nat
  held : Tbl (Nat × Tbl (List Byte))
deriving DecidableEq, Repr

/-- A member of the crew as CREW_FORM names it (R36, R38, R349, R553): its index, package ID, the index of its designated partner, and the area at
that partner for its store. -/
structure CrewRec where
  index : Nat
  pkg : Nat
  partner : Option Nat
  addr : Nat
  len : Nat
deriving DecidableEq, Repr

/-- The crew (R349, R564 to R567): its members, those declared lost with the time of it, and for a recovery in course the lost member and r. -/
structure CrewSt where
  members : List CrewRec
  lost : Tbl Nat
  recovering : Option (Nat × Nat)
deriving DecidableEq, Repr

/-- A hold wave or a release wave (R578, R585): what asked for it (slot 0 to 15, or 16 + p for a freeze of partition p outside the slots), whether
it releases, whether the release discards, the islands that have not yet taken its message, and those that have not reported. -/
structure HoldWave where
  src : Nat
  release : Bool
  discard : Bool
  started : Bool
  todo : List Nat
  reporting : List Nat
deriving DecidableEq, Repr

/-- What an island reports of its latest cut (R578, R579): the channels whose markers it awaits, its smeared mask, the items logged, the cut
stamp. -/
structure IslandCut where
  waiting : List Nat
  smeared : Nat
  logged : Nat
  cut : Nat
deriving DecidableEq, Repr

/-- The belay network: waves in order of request, the holds in force, each island's cut, the members a crew hold still waits for, the partitions
whose freeze a VF or the PF requests, and the package time of each partition's latest VF request (R518). -/
structure BelaySt where
  waves : List HoldWave
  inForce : List Nat
  cuts : Tbl IslandCut
  crewWait : Tbl (List Nat)
  vfLast : Tbl Nat
  frozenDone : List Nat
  pinIn : Bool
deriving DecidableEq, Repr

/-- The telemetry exporter (R597 to R599): records waiting in its buffer, the records dropped since the last datagram, the numbers of the next
datagram and snapshot, how many entries each ring had written at the last walk, and whether a walk has not ended. -/
structure TelSt where
  records : List (List Byte)
  lost : Nat
  seq : Nat
  snap : Nat
  seen : Tbl Nat
  walking : Bool
deriving DecidableEq, Repr

/-- Power, clocks and temperature (R603 to R626): whether VAUX is up, the supply groups up in order, PKG_PWROK, PERST#, a package ID that a message
set on VAUX alone, since when both power averages have been below 93 %, since when the power cap has been below the target and whether that
has been reported, the regions' thermal caps in MHz and the stacks at half rate, by island, the latest sensor readings, by island, when
THERMAL_THROTTLE and THERMAL_NORMAL were last raised, the regions gated, the set points of VDD_T in mV and its currents in A, by T-die, WAKE#, and whether power has been off since the last fundamental reset. -/
structure PwrSt where
  aux : Bool
  groups : Nat
  pwrok : Bool
  perst : Bool
  pendId : Option Nat
  below : Option Nat
  capped : Option Nat
  cappedSaid : Bool
  caps : Tbl Nat
  half : List Nat
  temps : Tbl Int
  throttleAt : Option Nat
  normalAt : Option Nat
  gated : List Nat
  vdd : Tbl Nat
  amps : Tbl Nat
  wake : Bool
  cold : Bool
deriving DecidableEq, Repr

/-- Everything the package holds but its memories and its queue of commands. -/
structure Device where
  /-- the part and its straps (R2, R3, R609) -/
  cfg : Cfg
  /-- package time, the model's free-value counter and the island counters (R72, R73) -/
  clk : Clocks
  /-- every register page (R40 to R62) -/
  reg : RegFile
  /-- the cairn rings, by page offset (R589, R590) -/
  rings : Tbl Ring
  /-- what the package has sent or driven, oldest first (the model's own record) -/
  out : List Emit
  /-- the stores of the command being performed, newest first (empty between commands) -/
  wr : List Store
  /-- the poisoned memory lines, by first address (R293, R301) -/
  poison : List Nat
  /-- Bus Master Enable, the Function Masks and the pending bits (R483, R487) -/
  msix : MsixSt
  /-- the hold state of each island: 0 RUN, 1 FROZEN, 2 STOPPED (R575) -/
  hold : Tbl Nat
  /-- the package commit wave (R90) -/
  wave : WaveSt
  /-- member-window accesses in flight (R67) -/
  mbr : MbrSt
  /-- correlation beacons not yet answered by every island (R75) -/
  corrs : List Corr
  /-- the D2D edges' recent replays, by 4 x T-die + edge (R20) -/
  d2dReplays : Tbl Replays
  /-- the tiles, by 2048 die + instance (R123) -/
  tiles : Tbl Tile
  /-- mesh writes and token writes in flight (R147, R189) -/
  mesh : Mesh
  /-- each region's token hold, by 16 die + region (R189) -/
  tokHold : Tbl (List TokenWrite)
  /-- the rope engines' list contexts that hold a list, by 2 x package engine + context (R205, R206) -/
  ropes : Tbl RopeCtx
  /-- the partner engine whose context 1 serves a fenced engine, by fenced engine (R238) -/
  ropeMoved : Tbl Nat
  /-- the deliveries in progress (R225) -/
  flows : Tbl Flow
  /-- deliveries at the cluster taps, oldest first (R159, R225) -/
  tapQ : List TapDel
  /-- the number of the next delivery -/
  nextFlow : Nat
  /-- the partitions, by tag (R512) -/
  parts : Tbl Partition
  /-- when each memory controller corrected lines within its threshold's window, by page offset (R297) -/
  ceLog : Tbl (List Nat)
  /-- the DDR5 channels whose contents a cipher change left undefined, by 8 i + channel (R303) -/
  ddrUndef : Tbl Undef
  /-- the connections, by number (R319) -/
  conns : Tbl Conn
  /-- the transports, by I-die (R327, R341) -/
  gft : Tbl GftDie
  /-- the reduction groups, by 4096 x I-die + group (R342) -/
  groups : Tbl GroupSt
  /-- frames that have not yet reached an egress queue, oldest first (R386, R388) -/
  tmWait : List TmFrame
  /-- FEC windows in a row over the uncorrectable limit, and when FEC_DEGRADE was last emitted, by port (R312) -/
  fecBad : Tbl (Nat × Nat)
  /-- when each memory key was last registered (R332) -/
  keyTime : Tbl Nat
  /-- the inputs of the pipelines, by 8 x I-die + input (R354) -/
  pipeIn : Tbl PipeIn
  /-- the pipelines, by I-die (R353) -/
  pipes : Tbl PipeDie
  /-- the table slots: 2^20 x I-die + slot, and for stash slot s of group g + 2^19 + 64 g + s (R361) -/
  clsSlots : Tbl ClsSlot
  /-- the flow counters, frames and bytes, by 16384 x I-die + counter (R370) -/
  flowCnts : Tbl (Nat × Nat)
  /-- the pattern matcher's flows, by the key of their slot (R377) -/
  pmeFlows : Tbl PmeFlow
  /-- the placement rings, by 1024 x I-die + record (R373) -/
  places : Tbl PlaceSt
  /-- the tables that commits have loaded into on-die memory, by 32 x I-die + 2 x table + (1 for the older generation): 0 edits, 1 placements, 2 patterns, 3 rules, 4 queue records, 5 policers, 6 namespaces, 8 + p the gate list of port p; from 128 on, the tables of checked commits that have not yet applied (R383, R384, R407, R433) -/
  loaded : Tbl Memory
  /-- the epoch whose wave installed a page's applied copy, by page offset; none for a page last committed alone (R89, R90) -/
  waveEpoch : Tbl Nat
  /-- the egress queues, by 128 x I-die + 32 x port + queue (R386); one that is not listed is empty with a full bucket -/
  tmQueues : Tbl TmQueue
  /-- the egress sides of the ports, by 4 x I-die + port (R390) -/
  tmPorts : Tbl TmPort
  /-- the policers, by 4096 x I-die + policer (R400) -/
  policers : Tbl Policer
  /-- block commands in progress, oldest first (R421) -/
  blocks : List BlockCmd
  /-- NVMe commands at the SSDs, oldest first (R414) -/
  nvmes : List NvmeCmd
  /-- the number of the next NVMe command and of the next block command -/
  nextNvme : Nat
  /-- the stage buffer's slots that have been written, each a block's data and metadata (R423) -/
  stage : Tbl (List Byte)
  /-- the key vaults, by I-die (R437) -/
  vaults : Tbl Vault
  /-- host reads outstanding, by tag (R475) -/
  hostReads : Tbl HostRead
  /-- the endpoint's configuration (R469, R470) -/
  link : LinkSt
  /-- the number of the next fetched entry -/
  nextFetch : Nat
  /-- host read transfers not yet taken by their consumers (R475, R477) -/
  xfers : List Xfer
  /-- the queues, by 65536 function + queue number (R507, R508) -/
  queues : Tbl Queue
  /-- submission entries fetched and not yet consumed, oldest first (R508) -/
  fetched : List Fetched
  /-- posted writes of functions whose Bus Master Enable is clear (R483) -/
  heldW : List HeldWrite
  /-- the cox cores, by 8 x I-die + core (R527, R533) -/
  cores : Tbl CoreSt
  /-- the firmware's image and the host's heartbeat (R520, R537) -/
  fw : FwSt
  /-- the device-resident queue memory of the functions (R71, R508) -/
  queueMem : Tbl Grant
  /-- the write logs, by 32 x T-die + partition (R555) -/
  wlogs : Tbl WLog
  /-- belay stores held here, by 64 x member + partition; member 64 for a local store (R553) -/
  stores : Tbl StoreSt
  /-- the crew (R349, R565) -/
  crew : CrewSt
  /-- the belay network (R575 to R588) -/
  belay : BelaySt
  /-- the telemetry exporter (R597) -/
  tel : TelSt
  /-- power, clocks and temperature (R603 to R626) -/
  pwr : PwrSt
deriving DecidableEq, Repr

/-- The package: its units, its memories (one list for every address space, see Machine/Ops.lean) and the commands that wait. -/
structure State where
  /-- the units -/
  dev : Device
  /-- every memory -/
  mem : Memory
  /-- the waiting commands, first in, first out -/
  pending : List Instr
deriving DecidableEq, Repr

/-- A stop that is not an effect of the hardware. -/
inductive Fault where
  /-- Raised by the memory commands (HBM_READ, HBM_WRITE, DDR_READ, DDR_WRITE) at a device address where spec/09 maps no such memory
  (R288, R289). Safe: the spec says such an address does not exist. -/
  | unmappedAddress
deriving DecidableEq, Repr

/-- A command without a meaning. -/
inductive Refusal where
  /-- Raised by Dispatch for a command whose meaning is not written. Safe. -/
  | notModelled (mnemonic : String)
deriving DecidableEq, Repr

/-- Replace `cfg`. -/
def Device.setCfg (d : Device) (v : Cfg) : Device := { d with cfg := v }

/-- Replace `clk`. -/
def Device.setClk (d : Device) (v : Clocks) : Device := { d with clk := v }

/-- Replace `reg`. -/
def Device.setReg (d : Device) (v : RegFile) : Device := { d with reg := v }

/-- Replace `rings`. -/
def Device.setRings (d : Device) (v : Tbl Ring) : Device := { d with rings := v }

/-- Replace `out`. -/
def Device.setOut (d : Device) (v : List Emit) : Device := { d with out := v }

/-- Replace `wr`. -/
def Device.setWr (d : Device) (v : List Store) : Device := { d with wr := v }

/-- Replace `poison`. -/
def Device.setPoison (d : Device) (v : List Nat) : Device := { d with poison := v }

/-- Replace `msix`. -/
def Device.setMsix (d : Device) (v : MsixSt) : Device := { d with msix := v }

/-- Replace `hold`. -/
def Device.setHold (d : Device) (v : Tbl Nat) : Device := { d with hold := v }

/-- Replace `wave`. -/
def Device.setWave (d : Device) (v : WaveSt) : Device := { d with wave := v }

/-- Replace `mbr`. -/
def Device.setMbr (d : Device) (v : MbrSt) : Device := { d with mbr := v }

/-- Replace `corrs`. -/
def Device.setCorrs (d : Device) (v : List Corr) : Device := { d with corrs := v }

/-- Replace `d2dReplays`. -/
def Device.setD2dReplays (d : Device) (v : Tbl Replays) : Device := { d with d2dReplays := v }

/-- Replace `tiles`. -/
def Device.setTiles (d : Device) (v : Tbl Tile) : Device := { d with tiles := v }

/-- Replace `mesh`. -/
def Device.setMesh (d : Device) (v : Mesh) : Device := { d with mesh := v }

/-- Replace `tokHold`. -/
def Device.setTokHold (d : Device) (v : Tbl (List TokenWrite)) : Device := { d with tokHold := v }

/-- Replace `ropes`. -/
def Device.setRopes (d : Device) (v : Tbl RopeCtx) : Device := { d with ropes := v }

/-- Replace `ropeMoved`. -/
def Device.setRopeMoved (d : Device) (v : Tbl Nat) : Device := { d with ropeMoved := v }

/-- Replace `flows`. -/
def Device.setFlows (d : Device) (v : Tbl Flow) : Device := { d with flows := v }

/-- Replace `tapQ`. -/
def Device.setTapQ (d : Device) (v : List TapDel) : Device := { d with tapQ := v }

/-- Replace `nextFlow`. -/
def Device.setNextFlow (d : Device) (v : Nat) : Device := { d with nextFlow := v }

/-- Replace `parts`. -/
def Device.setParts (d : Device) (v : Tbl Partition) : Device := { d with parts := v }

/-- Replace `ceLog`. -/
def Device.setCeLog (d : Device) (v : Tbl (List Nat)) : Device := { d with ceLog := v }

/-- Replace `ddrUndef`. -/
def Device.setDdrUndef (d : Device) (v : Tbl Undef) : Device := { d with ddrUndef := v }

/-- Replace `conns`. -/
def Device.setConns (d : Device) (v : Tbl Conn) : Device := { d with conns := v }

/-- Replace `gft`. -/
def Device.setGft (d : Device) (v : Tbl GftDie) : Device := { d with gft := v }

/-- Replace `groups`. -/
def Device.setGroups (d : Device) (v : Tbl GroupSt) : Device := { d with groups := v }

/-- Replace `tmWait`. -/
def Device.setTmWait (d : Device) (v : List TmFrame) : Device := { d with tmWait := v }

/-- Replace `fecBad`. -/
def Device.setFecBad (d : Device) (v : Tbl (Nat × Nat)) : Device := { d with fecBad := v }

/-- Replace `keyTime`. -/
def Device.setKeyTime (d : Device) (v : Tbl Nat) : Device := { d with keyTime := v }

/-- Replace `pipeIn`. -/
def Device.setPipeIn (d : Device) (v : Tbl PipeIn) : Device := { d with pipeIn := v }

/-- Replace `pipes`. -/
def Device.setPipes (d : Device) (v : Tbl PipeDie) : Device := { d with pipes := v }

/-- Replace `clsSlots`. -/
def Device.setClsSlots (d : Device) (v : Tbl ClsSlot) : Device := { d with clsSlots := v }

/-- Replace `flowCnts`. -/
def Device.setFlowCnts (d : Device) (v : Tbl (Nat × Nat)) : Device := { d with flowCnts := v }

/-- Replace `pmeFlows`. -/
def Device.setPmeFlows (d : Device) (v : Tbl PmeFlow) : Device := { d with pmeFlows := v }

/-- Replace `places`. -/
def Device.setPlaces (d : Device) (v : Tbl PlaceSt) : Device := { d with places := v }

/-- Replace `loaded`. -/
def Device.setLoaded (d : Device) (v : Tbl Memory) : Device := { d with loaded := v }

/-- Replace `waveEpoch`. -/
def Device.setWaveEpoch (d : Device) (v : Tbl Nat) : Device := { d with waveEpoch := v }

/-- Replace `tmQueues`. -/
def Device.setTmQueues (d : Device) (v : Tbl TmQueue) : Device := { d with tmQueues := v }

/-- Replace `tmPorts`. -/
def Device.setTmPorts (d : Device) (v : Tbl TmPort) : Device := { d with tmPorts := v }

/-- Replace `policers`. -/
def Device.setPolicers (d : Device) (v : Tbl Policer) : Device := { d with policers := v }

/-- Replace `blocks`. -/
def Device.setBlocks (d : Device) (v : List BlockCmd) : Device := { d with blocks := v }

/-- Replace `nvmes`. -/
def Device.setNvmes (d : Device) (v : List NvmeCmd) : Device := { d with nvmes := v }

/-- Replace `nextNvme`. -/
def Device.setNextNvme (d : Device) (v : Nat) : Device := { d with nextNvme := v }

/-- Replace `stage`. -/
def Device.setStage (d : Device) (v : Tbl (List Byte)) : Device := { d with stage := v }

/-- Replace `vaults`. -/
def Device.setVaults (d : Device) (v : Tbl Vault) : Device := { d with vaults := v }

/-- Replace `hostReads`. -/
def Device.setHostReads (d : Device) (v : Tbl HostRead) : Device := { d with hostReads := v }

/-- Replace `link`. -/
def Device.setLink (d : Device) (v : LinkSt) : Device := { d with link := v }

/-- Replace `nextFetch`. -/
def Device.setNextFetch (d : Device) (v : Nat) : Device := { d with nextFetch := v }

/-- Replace `xfers`. -/
def Device.setXfers (d : Device) (v : List Xfer) : Device := { d with xfers := v }

/-- Replace `queues`. -/
def Device.setQueues (d : Device) (v : Tbl Queue) : Device := { d with queues := v }

/-- Replace `fetched`. -/
def Device.setFetched (d : Device) (v : List Fetched) : Device := { d with fetched := v }

/-- Replace `heldW`. -/
def Device.setHeldW (d : Device) (v : List HeldWrite) : Device := { d with heldW := v }

/-- Replace `cores`. -/
def Device.setCores (d : Device) (v : Tbl CoreSt) : Device := { d with cores := v }

/-- Replace `fw`. -/
def Device.setFw (d : Device) (v : FwSt) : Device := { d with fw := v }

/-- Replace `queueMem`. -/
def Device.setQueueMem (d : Device) (v : Tbl Grant) : Device := { d with queueMem := v }

/-- Replace `wlogs`. -/
def Device.setWlogs (d : Device) (v : Tbl WLog) : Device := { d with wlogs := v }

/-- Replace `stores`. -/
def Device.setStores (d : Device) (v : Tbl StoreSt) : Device := { d with stores := v }

/-- Replace `crew`. -/
def Device.setCrew (d : Device) (v : CrewSt) : Device := { d with crew := v }

/-- Replace `belay`. -/
def Device.setBelay (d : Device) (v : BelaySt) : Device := { d with belay := v }

/-- Replace `tel`. -/
def Device.setTel (d : Device) (v : TelSt) : Device := { d with tel := v }

/-- Replace `pwr`. -/
def Device.setPwr (d : Device) (v : PwrSt) : Device := { d with pwr := v }

/-- The units right after reset: before the rails rise, with every register at the reset value its table gives. -/
def Device.reset : Device where
  cfg := ⟨⟨.grc8864, false, false⟩, ⟨0, 0, 0, 0⟩, ⟨0, 0, 0, 0⟩, false⟩
  clk := ⟨0, 0, 0, false, []⟩
  reg := ⟨[], [], [], [], [], [], [], []⟩
  rings := []
  out := []
  wr := []
  poison := []
  msix := ⟨[], [], []⟩
  hold := []
  wave := ⟨[], []⟩
  mbr := ⟨[], 0⟩
  corrs := []
  d2dReplays := []
  tiles := []
  mesh := ⟨[], [], 0⟩
  tokHold := []
  ropes := []
  ropeMoved := []
  flows := []
  tapQ := []
  nextFlow := 1
  parts := []
  ceLog := []
  ddrUndef := []
  conns := []
  gft := []
  groups := []
  tmWait := []
  fecBad := []
  keyTime := []
  pipeIn := []
  pipes := []
  clsSlots := []
  flowCnts := []
  pmeFlows := []
  places := []
  loaded := []
  waveEpoch := []
  tmQueues := []
  tmPorts := []
  policers := []
  blocks := []
  nvmes := []
  nextNvme := 0
  stage := []
  vaults := []
  hostReads := []
  link := ⟨128, 512, false, false, false, false, false, false, [], [], [], false⟩
  nextFetch := 1
  xfers := []
  queues := []
  fetched := []
  heldW := []
  cores := []
  fw := ⟨[], none, none⟩
  queueMem := []
  wlogs := []
  stores := []
  crew := ⟨[], [], none⟩
  belay := ⟨[], [], [], [], [], [], false⟩
  tel := ⟨[], 0, 0, 0, [], false⟩
  pwr := ⟨false, 0, false, true, none, none, none, false, [], [], [], none, none, [], [], [], false, true⟩

/-- The machine right after reset. -/
def State.reset : State where
  dev := Device.reset
  mem := []
  pending := []

end Sys2Proof.Machine
end

