-- ==== Sys2Proof/Machine/Ops.lean ====
section
/-!
DEFINITION. The shared operations: bit ranges, bytes and memory, the part, the registers' fields, island stamps, cairn entries, errors,
interrupts, counters and answers. Every meaning is written over them.
-/
namespace Sys2Proof

/-! ### Pages -/

/-- ID.TYPE (R44); the mailbox pages and MSI-X tables have no header. -/
def Page.typ : Page → Nat
  | .tile _ _ => 0x01
  | .clu _ _ => 0x02
  | .rgn _ _ => 0x03
  | .tdie _ => 0x04
  | .rope _ _ => 0x05
  | .hbmc _ _ => 0x06
  | .d2d _ _ => 0x07
  | .ddr _ _ => 0x08
  | .pcie _ => 0x09
  | .vf _ => 0x0A
  | .gft _ => 0x0B
  | .eth _ _ => 0x0C
  | .prs _ => 0x0D
  | .cls _ => 0x0E
  | .pme _ => 0x0F
  | .tmg _ => 0x10
  | .cvu _ _ => 0x11
  | .cph _ => 0x12
  | .kvt _ => 0x13
  | .nvr _ => 0x14
  | .cox _ _ => 0x15
  | .tel => 0x16
  | .bly => 0x17
  | .pkg => 0x18
  | .mbx _ => 0
  | .msix _ => 0

/-- ID.DIE (R43). -/
def Page.die : Page → Nat
  | .tile d _ => d
  | .clu d _ => d
  | .rgn d _ => d
  | .tdie d => d
  | .rope d _ => d
  | .hbmc d _ => d
  | .d2d d _ => d
  | .pcie i => 8 + i
  | .eth i _ => 8 + i
  | .gft i => 8 + i
  | .prs i => 8 + i
  | .cls i => 8 + i
  | .pme i => 8 + i
  | .tmg i => 8 + i
  | .cvu i _ => 8 + i
  | .cph i => 8 + i
  | .kvt i => 8 + i
  | .nvr i => 8 + i
  | .cox i _ => 8 + i
  | .ddr i _ => 8 + i
  | _ => 0xF

/-- ID.INSTANCE (R43): the index within the die. -/
def Page.inst : Page → Nat
  | .tile _ t => t
  | .clu _ c => c
  | .rgn _ r => r
  | .rope _ s => s
  | .hbmc _ s => s
  | .d2d _ e => e
  | .eth _ p => p
  | .cvu _ h => h
  | .cox _ c => c
  | .ddr _ ch => ch
  | .vf n => n
  | _ => 0

/-- The ID register of a page. -/
def Page.idReg (p : Page) : Nat := p.typ * 2 ^ 24 + p.die * 2 ^ 20 + p.inst

/-- The island of a page (R72). -/
def Page.island : Page → Nat
  | .tile d t => d * 256 + t / 128
  | .clu d c => d * 256 + c / 8
  | .rgn d r => d * 256 + r
  | .tdie d => d * 256 + 0x10
  | .rope d s => d * 256 + 0x11 + s
  | .hbmc d s => d * 256 + 0x11 + s
  | .d2d d e => d * 256 + 0x14 + e
  | .pcie i => (8 + i) * 256
  | .nvr i => (8 + i) * 256
  | .eth i p => (8 + i) * 256 + 1 + p
  | .prs i => (8 + i) * 256 + 5
  | .cls i => (8 + i) * 256 + 5
  | .pme i => (8 + i) * 256 + 5
  | .tmg i => (8 + i) * 256 + 6
  | .gft i => (8 + i) * 256 + 7
  | .cvu i _ => (8 + i) * 256 + 7
  | .kvt i => (8 + i) * 256 + 8
  | .cph i => (8 + i) * 256 + 8
  | .cox i c => (8 + i) * 256 + 9 + c
  | .ddr i ch => (8 + i) * 256 + 0x11 + ch
  | _ => 0xF00

/-- The page whose ring takes a page's entries: the package-global pages share one ring (R590), and a VF's page has none of its own. -/
def Page.ringPage : Page → Page
  | .bly => .pkg
  | .tel => .pkg
  | .vf _ => .pkg
  | .mbx _ => .pkg
  | .msix _ => .pkg
  | p => p

/-- The ring size (R21, R590). -/
def Page.ringSize : Page → Nat
  | .tile _ _ => 32
  | .clu _ _ => 64
  | .rgn _ _ => 256
  | _ => 1024

end Sys2Proof

namespace Sys2Proof.Machine

/-- The outcome of a command. -/
abbrev Out := Host.Outcome State Fault Refusal

/-! ### Numbers and bits -/

/-- Bits `lo` to `lo + w - 1` of a number. -/
def bits (x lo w : Nat) : Nat := x / 2 ^ lo % 2 ^ w

/-- Bit `i` of a number. -/
def bit (x i : Nat) : Bool := x / 2 ^ i % 2 = 1

/-- The number with bits `lo` to `lo + w - 1` replaced. -/
def putBits (x lo w v : Nat) : Nat := x / 2 ^ (lo + w) * 2 ^ (lo + w) + v % 2 ^ w * 2 ^ lo + x % 2 ^ lo

/-- The number with one bit set. -/
def setBit (x i : Nat) : Nat := if bit x i then x else x + 2 ^ i

/-- A Bool as a bit. -/
def b2n (b : Bool) : Nat := if b then 1 else 0

/-- A value taken as the nearest limit of a range. -/
def clamp (lo hi x : Nat) : Nat := if x < lo then lo else if hi < x then hi else x

/-- Little-endian value of a list of bytes. -/
def leNat : List Byte → Nat
  | [] => 0
  | b :: bs => b.toNat + 256 * leNat bs

/-- The low `n` bytes of a number, little-endian. -/
def leBytes : Nat → Nat → List Byte
  | 0, _ => []
  | n + 1, x => BitVec.ofNat 8 x :: leBytes n (x / 256)

/-- Insert into a set held as a rising list. -/
def insSet (x : Nat) : List Nat → List Nat
  | [] => [x]
  | y :: ys => if x < y then x :: y :: ys else if x = y then y :: ys else y :: insSet x ys

/-- Remove from a set held as a list. -/
def delSet (x : Nat) (l : List Nat) : List Nat := l.filter (fun y => decide (y ≠ x))

/-- Saturating increment of a field of `w` bits by `n`. -/
def satAdd (w x n : Nat) : Nat := if x + n < 2 ^ w then x + n else 2 ^ w - 1

/-! ### Completing a command -/

/-- A command ends: the units become `d`, its stores are performed oldest first, and nothing else changes. -/
def State.done (s : State) (d : Device) : Out :=
  .next ⟨d.setWr [], s.mem.storeAll d.wr.reverse, s.pending⟩

/-- A command whose event is not due changes nothing. -/
def State.same (s : State) : Out := .next s

/-! ### Memory

One list of cells holds every address space: device addresses below 2^52 (HBM, DDR5 tier, host bus addresses, R288), and above them the
stores of the units that have their own space. -/

/-- First key of tile `inst` of die `d`: the indirect space of R156 (program store, descriptor table, anchor store, landing buffers). -/
def tileMem (d inst : Nat) : Nat := 2 ^ 56 + (d * 2048 + inst) * 2 ^ 20

/-- First key of the 2 MiB cluster buffer of cluster `c` of die `d` (R160). -/
def cbufMem (d c : Nat) : Nat := 2 ^ 57 + (d * 128 + c) * 2 ^ 21

/-- First key of host bus addresses in the device space (R288). -/
def hostMem : Nat := 0x8000000000000

/-- One byte as it stands now: the newest pending store that covers it, else memory. -/
def rdB (m : Memory) : List Store → Nat → Byte
  | [], a => m.rdByte a
  | w :: ws, a => if w.covers a then w.byteAt a else rdB m ws a

/-- `n` bytes from an address. -/
def Device.rd (d : Device) (m : Memory) (a n : Nat) : List Byte := (List.range n).map fun k => rdB m d.wr (a + k)

/-- A little-endian number of `n` bytes. -/
def Device.rdN (d : Device) (m : Memory) (a n : Nat) : Nat := leNat (d.rd m a n)

/-- Store bytes. -/
def Device.st (d : Device) (a : Nat) (bs : List Byte) : Device := d.setWr (.bytes a bs :: d.wr)

/-- Store a little-endian number of `n` bytes. -/
def Device.stN (d : Device) (a n x : Nat) : Device := d.st a (leBytes n x)

/-- Set a range to zero. -/
def Device.stZero (d : Device) (a n : Nat) : Device := d.setWr (.zero a n :: d.wr)

/-! ### The part -/

/-- The T-dies of a variant (R10). -/
def Model.tdies : Model → List Nat
  | .grc8864 => [0, 1, 2, 3, 4, 5, 6, 7]
  | .grc8848 => [0, 1, 2, 3, 4, 5, 6, 7]
  | .grc4448 => [0, 1, 4, 5]
  | .grc2248 => [0, 4]

/-- The I-dies of a variant, as 0 and 1 (R10). -/
def Model.idies : Model → List Nat
  | .grc2248 => [0]
  | _ => [0, 1]

/-- Device ID (R2). -/
def Model.deviceId : Model → Nat
  | .grc8864 => 0x6C08
  | .grc8848 => 0x6C09
  | .grc4448 => 0x6C04
  | .grc2248 => 0x6C02

/-- Design point in watts (R34). -/
def Model.designW : Model → Nat
  | .grc8864 => 3000
  | .grc8848 => 3000
  | .grc4448 => 1700
  | .grc2248 => 900

/-- Excursion limit in watts (R34). -/
def Model.excursionW : Model → Nat
  | .grc8864 => 3200
  | .grc8848 => 3200
  | .grc4448 => 1800
  | .grc2248 => 950

/-- Stack size in GiB (R2). -/
def Model.stackGib : Model → Nat
  | .grc8864 => 64
  | _ => 48

/-- Maximum partitions (R28): four quarters for each T-die. -/
def Model.maxPart (m : Model) : Nat := 4 * m.tdies.length

def Device.model (d : Device) : Model := d.cfg.part.model
def Device.hasTdie (d : Device) (n : Nat) : Bool := d.model.tdies.contains n
def Device.hasIdie (d : Device) (i : Nat) : Bool := d.model.idies.contains i

/-- Does the part run root ports, and on which I-die (R411, R471)? -/
def Device.rootPorts (d : Device) : Bool := d.cfg.straps.idie1Mode = 1
def Device.rootDie (d : Device) : Nat := if d.hasIdie 1 then 1 else 0

/-- Is the page's unit present (R11, R62)? -/
def Device.present (d : Device) : Page → Bool
  | .tile n t => d.hasTdie n && decide (t < 2048)
  | .clu n c => d.hasTdie n && decide (c < 128)
  | .rgn n r => d.hasTdie n && decide (r < 16)
  | .tdie n => d.hasTdie n
  | .rope n s => d.hasTdie n && decide (s < 3)
  | .hbmc n s => d.hasTdie n && decide (s < 3)
  | .d2d n e => d.hasTdie n && decide (e < 4)
  | .pcie i => d.hasIdie i && (decide (i = 0) || d.rootPorts)
  | .eth i p => d.hasIdie i && decide (p < 4)
  | .gft i => d.hasIdie i
  | .prs i => d.hasIdie i
  | .cls i => d.hasIdie i
  | .pme i => d.hasIdie i && !d.cfg.part.noDdr
  | .tmg i => d.hasIdie i
  | .cvu i h => d.hasIdie i && decide (h < 2)
  | .cph i => d.hasIdie i && !d.cfg.part.noCipher
  | .kvt i => d.hasIdie i
  | .nvr i => d.rootPorts && decide (i = d.rootDie)
  | .cox i c => d.hasIdie i && decide (c < 8)
  | .ddr i ch => d.hasIdie i && decide (ch < 8) && !d.cfg.part.noDdr
  | .pkg => true
  | .bly => true
  | .tel => true
  | .vf n => decide (1 ≤ n ∧ n ≤ 127)
  | .mbx n => decide (1 ≤ n ∧ n ≤ 127)
  | .msix f => decide (f ≤ 127)

/-! ### Register fields -/

/-- The offset of element `i` of a field's register in its page. -/
def Field.at (f : Field) (i : Nat) : Nat :=
  f.off + f.stride * (i % f.count) + f.stride2 * (i / f.count)

/-- The key of element `i` of a field of a page. -/
def fkey (p : Page) (f : Field) (i : Nat) : Nat := (p.base + f.at i) * 32 + f.lo

/-- The reset value of a field: its table's, or the design point for PKG_POWER.LIMIT_W (R633). -/
def Device.rst (d : Device) (f : Field) : Nat := if f = Fld.PKG_POWER_LIMIT_W then d.model.designW else f.reset

/-- The value of element `i` of a field; of a staged field, the shadow copy. -/
def Device.fldI (d : Device) (p : Page) (f : Field) (i : Nat) : Nat := Tbl.lookD d.reg.cur (fkey p f i) (d.rst f)

/-- The value of a field. -/
def Device.fld (d : Device) (p : Page) (f : Field) : Nat := d.fldI p f 0

/-- A one-bit field as a Bool. -/
def Device.flag (d : Device) (p : Page) (f : Field) : Bool := d.fld p f = 1

/-- Replace the register file's current values. -/
def Device.setCur (d : Device) (t : Tbl Nat) : Device := d.setReg { d.reg with cur := t }

/-- Set element `i` of a field, truncated to its width. -/
def Device.putI (d : Device) (p : Page) (f : Field) (i v : Nat) : Device :=
  d.setCur (Tbl.put d.reg.cur (fkey p f i) (v % 2 ^ f.width))

/-- Set a field. -/
def Device.put (d : Device) (p : Page) (f : Field) (v : Nat) : Device := d.putI p f 0 v

/-- The applied value of a staged field (R51, R54). -/
def Device.appI (d : Device) (p : Page) (f : Field) (i : Nat) : Nat := Tbl.lookD d.reg.applied (fkey p f i) (d.rst f)

/-- The applied value of a staged field. -/
def Device.app (d : Device) (p : Page) (f : Field) : Nat := d.appI p f 0

/-- Set the applied value of a staged field, as firmware or a commit does. -/
def Device.putAppI (d : Device) (p : Page) (f : Field) (i v : Nat) : Device :=
  d.setReg { d.reg with applied := Tbl.put d.reg.applied (fkey p f i) (v % 2 ^ f.width) }

/-- Advance a saturating field. -/
def Device.incSat (d : Device) (p : Page) (f : Field) (n : Nat) : Device := d.put p f (satAdd f.width (d.fld p f) n)

/-- The value of a selection that the page keeps per requester. -/
def Device.selOf (d : Device) (p : Page) (f : Field) (r : Req) : Nat := Tbl.lookD d.reg.sel (fkey p f 0 * 512 + r.id) f.reset

/-- Set a requester's selection. -/
def Device.putSel (d : Device) (p : Page) (f : Field) (r : Req) (v : Nat) : Device :=
  d.setReg { d.reg with sel := Tbl.put d.reg.sel (fkey p f 0 * 512 + r.id) (v % 2 ^ f.width) }

/-! ### Free values -/

/-- The next free value (log entry 2). -/
def Device.freeVal (d : Device) : Nat := Config.freeValue d.clk.free

/-- Advance the free-value counter. -/
def Device.freeNext (d : Device) : Device := d.setClk { d.clk with free := d.clk.free + 1 }

/-! ### Stamps -/

/-- The nominal stamp clock of an island in MHz (R72); a region's first clock is the nominal tile clock of R2. -/
def islandMhz (isl : Nat) : Nat :=
  let die := isl / 256
  let n := isl % 256
  if die < 8 then
    (if n < 0x10 then 1450 else if n = 0x10 then 1600 else if n < 0x14 then 1200 else 2000)
  else if die = 0xF then 1000
  else if n = 0 then 2000 else if n < 8 then 1600 else if n = 8 then 1000 else if n < 0x11 then 2000 else 1100

/-- An island's counter record, as it began at the last fundamental reset where nothing has changed it. -/
def Device.isl (d : Device) (i : Nat) : Isl := Tbl.lookD d.clk.islands i ⟨0, d.clk.t0, islandMhz i, d.clk.up⟩

/-- Parts per million of an island's clock, within the 100 ppm of R74; the package-global clock is the measure itself. -/
def islandPpm (i : Nat) : Nat := if i = 0xF00 then 1000000 else 999900 + Config.clockDrift i % 201

/-- An island's cycle counter now (R73). -/
def Device.cycles (d : Device) (i : Nat) : Nat :=
  let r := d.isl i
  (if r.on then r.base + (d.clk.now - r.since) * r.mhz * islandPpm i / 1000000000 else r.base) % 2 ^ 52

/-- An island stamp (R73): the island ID in [63:52] and the cycle counter in [51:0]. -/
def Device.stamp (d : Device) (i : Nat) : Nat := i * 2 ^ 52 + d.cycles i

/-! ### Cairn entries -/

def Device.ring (d : Device) (p : Page) : Ring := Tbl.lookD d.rings p.ringPage.base ⟨0, 0, []⟩

/-- A telemetry record waits for the next datagram (R597, R599); with export off there is none, and in a full buffer it is dropped and counted. -/
def Device.telRecord (d : Device) (typ : Nat) (body : List Byte) : Device :=
  let bs := leBytes 2 typ ++ leBytes 2 (body.length + 4) ++ body
  let used := (d.tel.records.map List.length).sum
  if d.fld .tel Fld.TEL_CTRL_ENABLE = 0 then d
  else if 262144 < used + bs.length then
    (d.setTel { d.tel with lost := d.tel.lost + 1 }).setReg
      { d.reg with cnt := Tbl.put d.reg.cnt (Page.tel.base + 1) ((Tbl.lookD d.reg.cnt (Page.tel.base + 1) 0 + 1) % 2 ^ 64) }
  else (d.setTel { d.tel with records := d.tel.records ++ [bs] }).put .tel Fld.TEL_STATE_BUF_B (used + bs.length)

/-- Write an entry in a page's ring (R590); a tile shows NEXT and WRITTEN in TILE_CAIRN_HEAD. -/
def Device.cairnRaw (d : Device) (p : Page) (stamp code info : Nat) : Device :=
  let r := d.ring p
  let r' : Ring := ⟨(r.next + 1) % p.ringPage.ringSize, satAdd 24 r.written 1,
    Tbl.put r.entries r.next ⟨stamp, code % 2 ^ 16, info % 2 ^ 48⟩⟩
  let d := d.setRings (Tbl.put d.rings p.ringPage.base r')
  let d := if p.ringPage = .pkg && bit (d.app .tel Fld.TEL_CFG_KINDS) 2 then
    d.telRecord 4 (leBytes 4 p.ringPage.idReg ++ leBytes 8 stamp ++ leBytes 8 (code % 2 ^ 16 + info % 2 ^ 48 * 2 ^ 16)) else d
  match p with
  | .tile _ _ => (d.put p Fld.TILE_CAIRN_HEAD_NEXT r'.next).put p Fld.TILE_CAIRN_HEAD_WRITTEN r'.written
  | _ => d

/-- An entry in a block ring: DATA [47:0] (R589). -/
def Device.cairn (d : Device) (p : Page) (code data : Nat) : Device := d.cairnRaw p (d.stamp p.island) code data

/-- An event written as a cairn entry in the package-global ring (R589). -/
def Device.cairnPkg (d : Device) (code data : Nat) : Device := d.cairn .pkg code data

/-- Data fields packed from DATA bit 0, each 32 bits wide, truncated to 48 bits (R511, R589). -/
def packFields (data : List Nat) : Nat := leNat (data.flatMap (leBytes 4)) % 2 ^ 48

/-- An entry whose DATA no rule gives: a free value. -/
def Device.cairnOpen (d : Device) (p : Page) (code : Nat) : Device := (d.cairn p code d.freeVal).freeNext

/-! ### Interrupts and errors -/

/-- A link in L1 returns to L0 for a TLP (R494). -/
def Device.linkWake (d : Device) : Device :=
  if d.flag (.pcie 0) Fld.PCIE_LINK_STATE_L1 then d.put (.pcie 0) Fld.PCIE_LINK_STATE_L1 0 else d

/-- Nothing holds the message of a vector: neither its mask, its function's mask nor Bus Master Enable (R483, R487). -/
def Device.vectorOpen (d : Device) (f v : Nat) : Bool :=
  decide (d.fldI (.msix f) Fld.MSIX_MASK v = 0) && !d.msix.fmask.contains f && d.msix.bme.contains f

/-- Send the MSI-X message of a vector, or hold it as a pending bit while its mask, its function's mask or Bus Master Enable holds it
(R483, R487). -/
def Device.sendMsix (d : Device) (f v : Nat) : Device :=
  let k := 2048 * f + v
  if d.vectorOpen f v then
    let d := d.linkWake
    (d.setOut (d.out ++ [.msix f v (d.fldI (.msix f) Fld.MSIX_ADDR v) (d.fldI (.msix f) Fld.MSIX_DATA v)])).setReg
      { d.reg with cnt := Tbl.put d.reg.cnt ((Page.pcie 0).base + 10) ((Tbl.lookD d.reg.cnt ((Page.pcie 0).base + 10) 0 + 1) % 2 ^ 64) }
  else if d.msix.pba.contains k then d
  else
    (d.setMsix { d.msix with pba := insSet k d.msix.pba }).setReg
      { d.reg with cnt := Tbl.put d.reg.cnt ((Page.pcie 0).base + 11) ((Tbl.lookD d.reg.cnt ((Page.pcie 0).base + 11) 0 + 1) % 2 ^ 64) }

/-- A function that an interrupt may name: the PF, or a VF that is enabled (R46). -/
def Device.funcLive (d : Device) (f : Nat) : Bool := decide (f = 0) || d.flag (.vf f) Fld.VF_STATE_ENABLED

/-- Set IRQ_STAT bits `b` (a mask); where one becomes 1 and is enabled, signal IRQ_VEC (R46). -/
def Device.irqMask (d : Device) (p : Page) (f : Field) (i : Nat) : Device :=
  let old := d.fld p f
  let d1 := d.put p f (old ||| 2 ^ i)
  let bitNo := f.lo + i
  if bit old i then d1
  else if bit (d.fld p Fld.IRQ_EN) bitNo && d.funcLive (d.fld p Fld.IRQ_VEC_FUNC) then
    d1.sendMsix (d.fld p Fld.IRQ_VEC_FUNC) (d.fld p Fld.IRQ_VEC_VECTOR)
  else d1

/-- Raise IRQ_STAT.BLOCK bit `b`, 16 to 31. -/
def Device.irq (d : Device) (p : Page) (b : Nat) : Device := d.irqMask p Fld.IRQ_STAT_BLOCK (b - 16)

/-- The ERR_STAT register as one number. -/
def Device.errStat (d : Device) (p : Page) : Nat :=
  d.fld p Fld.ERR_STAT_H_WRITE + 2 * d.fld p Fld.ERR_STAT_ACCESS + 4 * d.fld p Fld.ERR_STAT_COMMIT_OVERLAP +
    8 * d.fld p Fld.ERR_STAT_LEASE_STALE + 65536 * d.fld p Fld.ERR_STAT_BLOCK

/-- Set an ERR_STAT bit. -/
def Device.setErrBit (d : Device) (p : Page) (b : Nat) : Device :=
  if b = 0 then d.put p Fld.ERR_STAT_H_WRITE 1
  else if b = 1 then d.put p Fld.ERR_STAT_ACCESS 1
  else if b = 2 then d.put p Fld.ERR_STAT_COMMIT_OVERLAP 1
  else if b = 3 then d.put p Fld.ERR_STAT_LEASE_STALE 1
  else d.put p Fld.ERR_STAT_BLOCK (d.fld p Fld.ERR_STAT_BLOCK ||| 2 ^ (b - 16))

/-- An error event (R45, R46): the first capture, the bit, the count, and IRQ_STAT.ERR where ERR_MASK does not exclude it. -/
def Device.errNoCairn (d : Device) (p : Page) (b code : Nat) : Device :=
  let first := d.errStat p = 0
  let d := if first then
      ((d.put p Fld.ERR_FIRST_CODE code).put p Fld.ERR_FIRST_ISLAND p.island).put p Fld.ERR_FIRST_VALID 1
    else d
  let d := (d.setErrBit p b).incSat p Fld.ERR_CNT 1
  if bit (d.fld p Fld.ERR_MASK) b then d else d.irqMask p Fld.IRQ_STAT_ERR 0

/-- An error event with its cairn entry. -/
def Device.err (d : Device) (p : Page) (b code data : Nat) : Device := (d.cairn p code data).errNoCairn p b code

/-- A header error 0 to 3 (R43), whose code is a free constant. -/
def Device.hdrErr (d : Device) (p : Page) (b : Nat) : Device := d.err p b (Config.headerErrCode b) 0

/-- The MGMT_INT# pin is asserted (R488): some page holds an IRQ_STAT bit that is set and enabled while its IRQ_VEC.MGMT is 1. -/
def Device.mgmtInt (d : Device) : Bool :=
  d.reg.cur.any fun kv =>
    let b := kv.1 / 32
    decide (b % 0x1000 = 0x30) && decide (kv.2 ≠ 0) &&
      decide ((kv.2 * 2 ^ (kv.1 % 32)) &&& Tbl.lookD d.reg.cur ((b + 4) * 32) 0 ≠ 0) &&
      decide (Tbl.lookD d.reg.cur ((b + 8) * 32 + 31) 0 = 1)

/-! ### Counters -/

/-- The live value of counter `i` of a page. -/
def Device.cntOf (d : Device) (p : Page) (i : Nat) : Nat := Tbl.lookD d.reg.cnt (p.base + i) 0

/-- Add to counter `i` of a page, modulo 2^64 (R47). -/
def Device.count (d : Device) (p : Page) (i n : Nat) : Device :=
  d.setReg { d.reg with cnt := Tbl.put d.reg.cnt (p.base + i) ((d.cntOf p i + n) % 2 ^ 64) }

/-- Count one event. -/
def Device.tick (d : Device) (p : Page) (i : Nat) : Device := d.count p i 1

/-! ### Answers and messages -/

/-- Send or drive something. -/
def Device.emit (d : Device) (e : Emit) : Device := d.setOut (d.out ++ [e])

/-- Answer a read. -/
def Device.answer (d : Device) (r : Req) (v : Nat) : Device := d.emit (.readValue r v)

/-- Send a message to another unit or package. -/
def Device.msg (d : Device) (kind : String) (dst : Nat) (args : List Nat) : Device := d.emit (.msg kind dst args)

/-- Set a pin. -/
def Device.pin (d : Device) (name : String) (level : Bool) : Device := d.emit (.pin name level)

/-- Apply a change for each element of a list. -/
def each {α : Type} (f : Device → α → Device) (d : Device) (l : List α) : Device := l.foldl f d

end Sys2Proof.Machine
end

