-- ==== Sys2Proof/Machine/Crc.lean ====
section
/-!
DEFINITION. The cyclic codes of the package (R220, R428): CRC32C, the NVMe CRC64 and the T10 CRC-16.
-/
namespace Sys2Proof.Machine

/-- One bit of a reflected code: `poly` is the reversed polynomial. -/
def crcBitR (poly c : Nat) : Nat := if c % 2 = 1 then (c / 2) ^^^ poly else c / 2

/-- `n` bits of a reflected code. -/
def crcBitsR (poly : Nat) : Nat → Nat → Nat
  | 0, c => c
  | n + 1, c => crcBitsR poly n (crcBitR poly c)

/-- A reflected code over bytes, from a register value. -/
def crcR (poly : Nat) (c : Nat) (bs : List Byte) : Nat := bs.foldl (fun c b => crcBitsR poly 8 (c ^^^ b.toNat)) c

/-- CRC32C (R220, R428): reflected 0x1EDC_6F41 with initial value and final exclusive-or all ones, from an initial register value. -/
def crc32cFrom (init : Nat) (bs : List Byte) : Nat := (crcR 0x82F63B78 init bs) ^^^ 0xFFFFFFFF

/-- CRC32C. -/
def crc32c (bs : List Byte) : Nat := crc32cFrom 0xFFFFFFFF bs

/-- The NVMe CRC64 (R428). -/
def crc64 (bs : List Byte) : Nat := (crcR 0x9A6C9329AC4BC9B5 0xFFFFFFFFFFFFFFFF bs) ^^^ 0xFFFFFFFFFFFFFFFF

/-- `n` bits of the unreflected T10 code. -/
def crcBits16 : Nat → Nat → Nat
  | 0, c => c
  | n + 1, c => crcBits16 n (if 0x8000 ≤ c then (c * 2 % 0x10000) ^^^ 0x8BB7 else c * 2)

/-- The T10 CRC-16 (R428). -/
def crc16 (bs : List Byte) : Nat := bs.foldl (fun c b => crcBits16 8 (c ^^^ (b.toNat * 256))) 0

/-- The check value of a stored block at device address `a` (R220). -/
def blockCrc (blk : List Byte) (a model : Nat) : Nat := crc32c (blk ++ leBytes 8 a ++ leBytes 4 model)

end Sys2Proof.Machine
end

