-- ==== Sys2Proof/Machine/Pages.lean ====
section
/-!
DEFINITION. Register pages as their readers and writers see them (R40 to R51, R57, R62 to R66): the fields of each page, the page and offset
behind a BAR0 offset, what a word reads as and what a write stores.
-/
namespace Sys2Proof

/-- The leases of a page (R552). -/
def Page.leases : Page → Nat
  | .rope _ _ => 16
  | .nvr _ => 8
  | .kvt _ => 16
  | .cph _ => 4
  | .cvu _ _ => 16
  | _ => 0

/-- LEASE_STATE.BOUND in microseconds (R552). -/
def Page.leaseBound : Page → Nat
  | .rope _ _ => 20
  | .nvr _ => 1000
  | .kvt _ => 100
  | .cph _ => 50
  | .cvu _ _ => 20
  | _ => 0

/-- How many counters a page has. -/
def Page.counters : Page → Nat
  | .tile _ _ => 8
  | .clu _ _ => 12
  | .rgn _ _ => 16
  | _ => 24

/-- The page and the offset in it behind a PF BAR0 offset (R63 to R66); cairn areas and holes are no page. -/
def Page.ofBar0 (a : Nat) : Option (Page × Nat) :=
  let o := a % 0x1000
  if a < 0x10000000 then
    let d := a / 0x2000000
    let w := a % 0x2000000
    if w < 0x1000000 then
      if w % 0x2000 < 0x1000 then some (.tile d (128 * (w / 0x100000) + 16 * (w / 0x20000 % 8) + w / 0x2000 % 16), o) else none
    else if w < 0x1020000 then (if w % 0x2000 < 0x1000 then some (.rgn d ((w - 0x1000000) / 0x2000), o) else none)
    else if w < 0x1040000 then none
    else if w < 0x1140000 then (if w % 0x2000 < 0x1000 then some (.clu d ((w - 0x1040000) / 0x2000), o) else none)
    else if w < 0x1800000 then none
    else if w % 0x8000 < 0x1000 then
      match (w - 0x1800000) / 0x8000 with
      | 0 => some (.tdie d, o)
      | 1 => some (.rope d 0, o)
      | 2 => some (.rope d 1, o)
      | 3 => some (.rope d 2, o)
      | 4 => some (.hbmc d 0, o)
      | 5 => some (.hbmc d 1, o)
      | 6 => some (.hbmc d 2, o)
      | 7 => some (.d2d d 0, o)
      | 8 => some (.d2d d 1, o)
      | 9 => some (.d2d d 2, o)
      | 10 => some (.d2d d 3, o)
      | _ => none
    else none
  else if a < 0x14000000 then
    let i := (a - 0x10000000) / 0x2000000
    let w := a % 0x2000000
    if w % 0x8000 < 0x1000 then
      let k := w / 0x8000
      if k = 0 then some (.pcie i, o)
      else if k < 5 then some (.eth i (k - 1), o)
      else if k = 5 then some (.gft i, o)
      else if k = 6 then some (.prs i, o)
      else if k = 7 then some (.cls i, o)
      else if k = 8 then some (.pme i, o)
      else if k = 9 then some (.tmg i, o)
      else if k < 12 then some (.cvu i (k - 10), o)
      else if k = 12 then some (.cph i, o)
      else if k = 13 then some (.kvt i, o)
      else if k = 14 then some (.nvr i, o)
      else if k < 23 then some (.cox i (k - 15), o)
      else if k < 31 then some (.ddr i (k - 23), o)
      else none
    else none
  else if a < 0x14001000 then some (.pkg, o)
  else if a < 0x14002000 then some (.bly, o)
  else if a < 0x14003000 then some (.tel, o)
  else if 0x14011000 ≤ a ∧ a < 0x14090000 then some (.vf ((a - 0x14010000) / 0x1000), o)
  else none

end Sys2Proof

namespace Sys2Proof.Machine

/-- DDR_POISON_ADDR.LINE and DDR_INJECT.LINE name lines of 64 bytes (R307). -/
def ddrPoisonLine : Field := ⟨0x118, 6, 46, .none, .ro, 0, 0, 1, 0, 1⟩
def ddrInjectLine : Field := ⟨0x120, 6, 46, .h, .rw, 0, 0, 1, 0, 1⟩

/-- The fields that a DDR_ page shares with an HBMC_ page (R307). -/
def ddrShared : List Field :=
  ddrPoisonLine :: ddrInjectLine :: Fld.tabHBMC.filter fun f =>
    decide (0x108 ≤ f.off) && decide (f ≠ Fld.HBMC_POISON_ADDR_LINE) && decide (f ≠ Fld.HBMC_INJECT_LINE)

/-- The block's own fields of a page. -/
def blockFields : Page → List Field
  | .tile _ _ => Fld.tabTILE ++ Fld.tabLAST
  | .clu _ _ => Fld.tabCLU ++ Fld.tabLAST
  | .rgn _ _ => Fld.tabRGN ++ Fld.tabLAST
  | .tdie _ => Fld.tabTDIE
  | .rope _ _ => Fld.tabROPE
  | .hbmc _ _ => Fld.tabHBMC
  | .d2d _ _ => Fld.tabD2D
  | .pcie _ => Fld.tabPCIE
  | .eth _ _ => Fld.tabETH
  | .gft _ => Fld.tabGFT
  | .prs _ => Fld.tabPRS
  | .cls _ => Fld.tabCLS
  | .pme _ => Fld.tabPME
  | .tmg _ => Fld.tabTMG
  | .cvu _ h => if h = 0 then Fld.tabCVU else Fld.tabCVU.filter (fun f => f.off ≠ 0x800 && f.off ≠ 0x804) ++ Fld.tabCVUB
  | .cph _ => Fld.tabCPH
  | .kvt _ => Fld.tabKVT
  | .nvr _ => Fld.tabNVR
  | .cox _ _ => Fld.tabCOX
  | .ddr _ _ => Fld.tabDDR ++ ddrShared
  | .pkg => Fld.tabPKG
  | .bly => Fld.tabBLY
  | .tel => Fld.tabTEL
  | .vf _ => Fld.tabVF
  | .mbx _ => Fld.tabMBX
  | .msix _ => Fld.tabMSIX

/-- Every field of a page: the header of R42, the block's own, and the leases where the block has any. -/
def pageFields (p : Page) : List Field :=
  match p with
  | .mbx _ => Fld.tabMBX
  | .msix _ => Fld.tabMSIX
  | _ => Fld.tabHDR ++ blockFields p ++ (if p.leases = 0 then [] else Fld.tabLEASE)

/-- The element of a field whose registers hold the 32-bit word at offset `o`, with that word's number in the element. -/
def Field.wordAt (f : Field) (o : Nat) : Option (Nat × Nat) :=
  if o < f.off then none else
    let r := o - f.off
    let j := if f.stride2 = 0 then 0 else r / f.stride2
    let r := r - j * f.stride2
    let i := if f.stride = 0 then 0 else r / f.stride
    let k := (r - i * f.stride) / 4
    if j < f.count2 ∧ i < f.count ∧ 32 * k < f.lo + f.width then some (i + f.count * j, k) else none

/-! ### Reading -/

/-- The quarter of a region (R21). -/
def quarterOf (r : Nat) : Nat := 2 * (r / 8) + r % 4 / 2

/-- A quarter's bit number in the package: four for each die position. -/
def quarterBit (die r : Nat) : Nat := 4 * die + quarterOf r

/-- The die at the other end of edge `e` of T-die `d` (R9, R14), 0xF where the edge faces no populated die. Edge 0 faces west, 1 east, 2 and
3 the vertical partner (log entry 10). -/
def Device.peerDie (d : Device) (die e : Nat) : Nat :=
  let c := die % 4
  let east : Nat := if d.model.tdies.contains (die + 1) && decide (c < 3) then die + 1 else if d.hasIdie 1 && decide (c + 1 = d.model.tdies.length / 2) then 9 else 0xF
  let west : Nat := if c = 0 then 8 else if d.model.tdies.contains (die - 1) then die - 1 else 0xF
  if e = 0 then west else if e = 1 then east else (die + 4) % 8

/-- What a constant or per-part field reads as: its capability, strap or identity (R43, R62, R471, R609). -/
def Device.constVal (d : Device) (p : Page) (f : Field) : Option Nat :=
  if f = Fld.ID_TYPE then some p.typ
  else if f = Fld.ID_DIE then some p.die
  else if f = Fld.ID_INSTANCE then some p.inst
  else if f = Fld.VER then some (Config.version p.typ % 2 ^ 32)
  else if f = Fld.CAP0 then some (if p = .pkg then 0 else 2 * (Config.cap0 p.typ % 2 ^ 31) + 1)
  else if f = Fld.CAP1 then some (if p = .pkg then 0 else Config.cap1 p.typ % 2 ^ 32)
  else if f = Fld.PKG_CAP0_TDIE_MASK then some (d.model.tdies.foldl setBit 0)
  else if f = Fld.PKG_CAP0_IDIE_MASK then some (d.model.idies.foldl setBit 0)
  else if f = Fld.PKG_CAP0_DDR_TIER then some (b2n (!d.cfg.part.noDdr))
  else if f = Fld.PKG_CAP0_PME then some (b2n (!d.cfg.part.noDdr))
  else if f = Fld.PKG_CAP0_CIPHER then some (b2n (!d.cfg.part.noCipher))
  else if f = Fld.PKG_CAP0_ROOT_PORTS then some (b2n d.rootPorts)
  else if f = Fld.PKG_CAP0_CREW_ROLE then some d.cfg.straps.crewRole
  else if f = Fld.PKG_CAP0_HBM64 then some (b2n (d.model.stackGib = 64))
  else if f = Fld.PKG_CAP1_MAX_PART then some d.model.maxPart
  else if f = Fld.PKG_STRAP_CREW_ROLE then some d.cfg.straps.crewRole
  else if f = Fld.PKG_STRAP_ID_SRC then some d.cfg.straps.idSrc
  else if f = Fld.PKG_STRAP_IDIE1_MODE then some d.cfg.straps.idie1Mode
  else if f = Fld.PKG_STRAP_BAD then some (b2n d.cfg.strapBad)
  else if f = Fld.PKG_STRAP_PINS_ID then some d.cfg.straps.pkgId
  else if f = Fld.PCIE_SPLIT_ROOT_LANES then some (b2n (d.rootPorts && decide (d.rootDie = 0)))
  else if f = Fld.D2D_PEER_DIE then some (d.peerDie p.die p.inst)
  else if f = Fld.RGN_STATE_QUARTER then some (quarterOf p.inst)
  else if f = Fld.HBMC_CFG_SIZE_GIB then some d.model.stackGib
  else if f = Fld.LEASE_STATE_BOUND then some p.leaseBound
  else none

/-- The fields that keep one value per requester (R366, R404, R408, R466, R557, R601). -/
def perReq (f : Field) : Bool :=
  decide (f = Fld.BLY_RING_SEL_PAGE) || decide (f = Fld.BLY_CUT_SEL_ISLAND) || decide (f = Fld.TDIE_LOG_SEL_PART)
    || decide (f = Fld.KVT_SLOT_SEL_SLOT) || [Fld.CLS_TBL_SEL_SLOT, Fld.CLS_TBL_SEL_STASH, Fld.CLS_TBL_SEL_GROUP, Fld.CLS_TBL_SEL_WORD,
      Fld.CLS_TBL_SEL_AUTO_INC, Fld.CLS_TBL_STAT_RESULT, Fld.TMG_SAMP_SEL_PORT, Fld.TMG_SAMP_SEL_QUEUE, Fld.TMG_SAMP_SEL_ENTRY,
      Fld.TMG_QCNT_SEL_KIND, Fld.TMG_QCNT_SEL_INDEX, Fld.TMG_QCNT_SEL_COUNTER].contains f

/-- The hold state of an island: 0 RUN, 1 FROZEN, 2 STOPPED (R575). -/
def Device.holdOf (d : Device) (isl : Nat) : Nat := Tbl.lookD d.hold isl 0

/-- A counter as a reader sees it: its snapshot while the island is not in RUN (R582), else the live value. -/
def Device.cntRead (d : Device) (p : Page) (i : Nat) : Nat :=
  if d.holdOf p.island = 0 then d.cntOf p i else Tbl.lookD d.reg.snap (p.base + i) 0

/-- What the fields read as that show a selection or an occupancy: the key slot (R439, R466), the partition's write log (R557), the pipeline's and the
matcher's occupancy (R382, R384), the flow counter (R383), the sample ring and the queue or policer counter (R404, R408). -/
def Device.slotRead (d : Device) (r : Req) (p : Page) (f : Field) : Option Nat :=
  match p with
  | .kvt i =>
    let slots : Tbl KeySlot := match Tbl.look d.vaults i with
      | some v => v.slots
      | none => []
    let k := Tbl.lookD slots (d.selOf p Fld.KVT_SLOT_SEL_SLOT r) ⟨0, 0, 0, false, 0, 0, []⟩
    if f = Fld.KVT_SLOT_INFO_STATE then some k.st
    else if f = Fld.KVT_SLOT_INFO_TYPE then some k.typ
    else if f = Fld.KVT_SLOT_INFO_OWNER then some k.owner
    else if f = Fld.KVT_SLOT_INFO_PKG then some (b2n k.pkg)
    else if f = Fld.KVT_SLOT_INFO_SALT then some k.salt
    else if f = Fld.KVT_SLOT_CTR then some k.ctr
    else none
  | .tdie n =>
    let l := Tbl.lookD d.wlogs (32 * n + d.selOf p Fld.TDIE_LOG_SEL_PART r) ⟨[], false, [], false, [], false⟩
    if f = Fld.TDIE_LOG_STAT_RUNS then some l.runs.length
    else if f = Fld.TDIE_LOG_STAT_OVF then some (b2n l.ovf)
    else none
  | .prs i =>
    let x := Tbl.lookD d.pipes i ⟨0, 0, [], []⟩
    if f = Fld.PRS_STATE_REORDER then some (x.frames.filter fun y : PipeFrame => decide (y.stage = .reorder)).length
    else if f = Fld.PRS_STATE_SLOW then some x.slow.length
    else none
  | .cls i =>
    let c := Tbl.lookD d.flowCnts (16384 * i + d.fld p Fld.CLS_FCNT_SEL_INDEX) (0, 0)
    if f = Fld.CLS_FCNT_PKTS then some c.1 else none
  | .pme i =>
    let x := Tbl.lookD d.pipes i ⟨0, 0, [], []⟩
    if f = Fld.PME_STATE_FLOWS then some (d.pmeFlows.filter fun kv : Nat × PmeFlow => decide (kv.1 / 2 ^ 20 = i)).length
    else if f = Fld.PME_STATE_BUF_KIB then
      some ((((x.frames.filter fun y : PipeFrame => decide (y.stage = .pme)).map fun y : PipeFrame => y.raw.length).sum + 1023) / 1024)
    else none
  | .tmg i =>
    let k := 32 * d.selOf p Fld.TMG_SAMP_SEL_PORT r + d.selOf p Fld.TMG_SAMP_SEL_QUEUE r
    let q := Tbl.look d.tmQueues (128 * i + k)
    let idx := d.selOf p Fld.TMG_QCNT_SEL_INDEX r
    if f = Fld.TMG_SAMP_DATA then some ((Tbl.look d.reg.latch ((p.base + 2) * 512 + r.id)).map Prod.snd |>.getD 0)
    else if f = Fld.TMG_SAMP_HEAD_NEXT then some ((q.map TmQueue.next).getD 0)
    else if f = Fld.TMG_SAMP_HEAD_WRITTEN then some ((q.map TmQueue.written).getD 0)
    else if f = Fld.TMG_QCNT_DATA then
      some (((if d.selOf p Fld.TMG_QCNT_SEL_KIND r = 0 then (Tbl.look d.tmQueues (128 * i + idx % 128)).map TmQueue.cnts
        else (Tbl.look d.policers (4096 * i + idx)).map Policer.cnts).getD []).getD (d.selOf p Fld.TMG_QCNT_SEL_COUNTER r) 0)
    else none
  | _ => none

/-- The value that a field contributes to a read. -/
def Device.fieldRead (d : Device) (r : Req) (p : Page) (f : Field) (i : Nat) : Nat :=
  if f.acc = .wo then 0
  else match d.constVal p f with
    | some v => v
    | none =>
      if perReq f then d.selOf p f r
      else if (d.slotRead r p f).isSome then (d.slotRead r p f).getD 0
      else if f.cls = .s && d.flag p Fld.CTRL_VIEW then d.appI p f i
      else d.fldI p f i

/-- What the 32-bit word at a 4-byte aligned offset reads as, without side effects (R41, R42, R47). -/
def Device.word (d : Device) (r : Req) (p : Page) (o : Nat) : Nat :=
  if !d.present p then 0
  else if 0x40 ≤ o ∧ o < 0x100 then
    (let i := (o - 0x40) / 8
     if p.counters ≤ i then 0 else bits (d.cntRead p i) (if o % 8 = 0 then 0 else 32) 32)
  else
    (pageFields p).foldl (fun acc f =>
      match f.wordAt o with
      | some (i, k) => acc ||| bits (d.fieldRead r p f i * 2 ^ f.lo) (32 * k) 32
      | none => acc) 0

/-! ### Writing -/

/-- Is the field written by a command of its own, so that REGISTER_WRITE does not act on it? -/
def ownRow (f : Field) : Bool :=
  decide (f.acc = .w1c) || decide (f.acc = .w1s) || decide (f.acc = .wo) || decide (f = Fld.CTRL_HALT) ||
  decide (f = Fld.TILE_MEM_DATA) || decide (f = Fld.LEASE_OWNER_OWNER) || decide (f = Fld.PKG_HOST_PULSE_VALUE) ||
  decide (f = Fld.BLY_PF_FREEZE) || decide (f = Fld.BLY_HOLD_CTL_ACTIVE) || decide (f = Fld.CLS_TBL_DATA) ||
  decide (f = Fld.DDR_XTS_ENABLE) || decide (f = Fld.DDR_XTS_SLOT)

/-- The value stored where a write gives `v` to a field: the limits that a table stores at once (R155: PAIR_8K). -/
def stored (f : Field) (v : Nat) : Nat :=
  if f = Fld.TILE_ANCHOR_SPLIT_PAIR_8K then (if 16 < v then 16 else v) else v

/-- One field takes its part of a 32-bit word write (R6, R7, R50). -/
def Device.fieldWrite (d : Device) (r : Req) (p : Page) (o v : Nat) (f : Field) : Device :=
  match f.wordAt o with
  | none => d
  | some (i, k) =>
    if ownRow f || decide (f.acc ≠ .rw) then d
    else if f.cls = .h && !d.flag p Fld.STATUS_HALTED then d
    else
      let whole := (if perReq f then d.selOf p f r else d.fldI p f i) * 2 ^ f.lo
      let nv := bits (putBits whole (32 * k) 32 v) f.lo f.width
      if perReq f then d.putSel p f r nv else d.putI p f i (stored f nv)

/-- Does the word hold a class H field that this write may not store (R50)? -/
def Device.hRefused (d : Device) (p : Page) (o : Nat) : Bool :=
  !d.flag p Fld.STATUS_HALTED && (pageFields p).any fun f =>
    decide (f.cls = .h) && decide (f.acc = .rw) && (f.wordAt o).isSome

/-- A write of one aligned 32-bit word: every field under its access type; a class H field of a running block is ignored and sets H_WRITE. -/
def Device.wordWrite (d : Device) (r : Req) (p : Page) (o v : Nat) : Device :=
  let d' := (pageFields p).foldl (fun d f => d.fieldWrite r p o v f) d
  if d.hRefused p o then d'.hdrErr p 0 else d'

/-- A write of `w` bits at an offset of a page (R41): absent pages and unallocated offsets ignore it; a write smaller than 32 bits or
unaligned is ignored and sets ACCESS. -/
def Device.regWrite (d : Device) (r : Req) (p : Page) (o w v : Nat) : Device :=
  if !d.present p then d
  else if w < 32 || decide (o % (w / 8) ≠ 0) then (if p.typ = 0 then d else d.hdrErr p 1)
  else if w = 32 then d.wordWrite r p o v
  else (d.wordWrite r p o (v % 2 ^ 32)).wordWrite r p (o + 4) (v / 2 ^ 32)

end Sys2Proof.Machine
end

