-- ==== Sys2Proof/Machine/Registers.lean ====
section
/-!
DEFINITION. The commands of the common page (R41 to R62): halts, counter resets and reads, the staged commit of one page, the error and
interrupt registers, and leases. What a commit checks and what else it starts is in Machine/Commits.lean.
-/
namespace Sys2Proof.Machine

/-- The debug port is open (R462), or the lifecycle opens it without a challenge (R438). -/
def Device.debugOpen (d : Device) : Bool :=
  d.flag (.kvt 0) Fld.KVT_STATE_DEBUG_OPEN || decide (d.fld (.kvt 0) Fld.KVT_STATE_LIFECYCLE = 0)

/-- May the requester reach the page (R71, R462, R517)? A VF reaches its own mailbox page and MSI-X table; the debug port only while open. -/
def Device.mayAccess (d : Device) (r : Req) (p : Page) : Bool :=
  d.present p && match r with
    | .pf => true
    | .cox i c => d.hasIdie i && decide (c < 8)
    | .debug => d.debugOpen
    | .vf n => decide (p = .mbx n) || decide (p = .msix n)

/-- May the requester reach the header of the page (R42)? A mailbox page and an MSI-X table have none. -/
def Device.mayHeader (d : Device) (r : Req) (p : Page) : Bool := d.mayAccess r p && decide (p.typ ≠ 0)

/-- Keys of the staged fields of a page: offsets 0x800 to 0xEFF (R42). -/
def stagedKey (p : Page) (k : Nat) : Bool := decide ((p.base + 0x800) * 32 ≤ k ∧ k < (p.base + 0xF00) * 32)

/-- The staged fields of a page as a table holds them. -/
def stagedOf (p : Page) (t : Tbl Nat) : Tbl Nat := t.filter fun kv => stagedKey p kv.1

/-- A table with a page's staged fields replaced by a copy. -/
def replaceStaged (p : Page) (t copy : Tbl Nat) : Tbl Nat :=
  copy.foldl (fun t kv => Tbl.put t kv.1 kv.2) (Tbl.drop t (stagedKey p))

/-- The commit in progress on a page, if any. -/
def Device.commitOf (d : Device) (p : Page) : Option Commit := Tbl.look d.reg.commits p.base

def Device.setCommit (d : Device) (p : Page) (c : Commit) : Device :=
  d.setReg { d.reg with commits := Tbl.put d.reg.commits p.base c }

def Device.delCommit (d : Device) (p : Page) : Device := d.setReg { d.reg with commits := Tbl.del d.reg.commits p.base }

/-- The value of a staged field in a pending copy. -/
def Device.copyI (d : Device) (c : Tbl Nat) (p : Page) (f : Field) (i : Nat) : Nat := Tbl.lookD c (fkey p f i) (d.rst f)

/-- COMMIT.RESULT becomes non-zero, which ends the commit and sets IRQ_STAT.COMMIT_DONE (R52, R54). -/
def Device.endCommit (d : Device) (p : Page) (result rule : Nat) : Device :=
  let d := ((d.put p Fld.COMMIT_RESULT result).put p Fld.COMMIT_RULE rule).put p Fld.COMMIT_BUSY 0
  (d.delCommit p).irqMask p Fld.IRQ_STAT_COMMIT_DONE 0

/-- The pending copy takes effect (R54, R55): the applied copy becomes the older one and GEN.APPLIED becomes TARGET. -/
def Device.installCopy (d : Device) (p : Page) (copy : Tbl Nat) : Device :=
  let d := d.setReg { d.reg with
    older := replaceStaged p d.reg.older (stagedOf p d.reg.applied),
    applied := replaceStaged p d.reg.applied copy }
  d.put p Fld.GEN_APPLIED (d.fld p Fld.COMMIT_TARGET)

/-- The generation of a page under which an item of an epoch enters the block (R55, R89): the older one where the applied copy belongs to the wave of
another epoch. -/
def Device.genFor (d : Device) (p : Page) (epoch : Nat) : Nat :=
  match Tbl.look d.waveEpoch p.base with
  | some e => if e = epoch then d.fld p Fld.GEN_APPLIED else d.fld p Fld.GEN_OLDEST
  | none => d.fld p Fld.GEN_APPLIED

/-- The value of a staged field under a generation of its page (R55). -/
def Device.genVal (d : Device) (p : Page) (f : Field) (i gen : Nat) : Nat :=
  if gen = d.fld p Fld.GEN_APPLIED then d.appI p f i else Tbl.lookD d.reg.older (fkey p f i) (d.rst f)

/-- The page holds one generation (R55). -/
def Device.oneGeneration (d : Device) (p : Page) : Bool := decide (d.fld p Fld.GEN_OLDEST = d.fld p Fld.GEN_APPLIED)

/-- Set every counter of a page to zero (R49). -/
def Device.zeroCounters (d : Device) (p : Page) : Device :=
  d.setReg { d.reg with cnt := Tbl.drop d.reg.cnt (fun k => decide (p.base ≤ k ∧ k < p.base + 24)) }

/-- CTRL_HALT: CTRL.HALT is written (R50); 0 resumes the block. -/
def execCtrlHalt (r : Req) (p : Page) (v : Nat) (s : State) : Out :=
  if !s.dev.mayHeader r p then s.same else
  let d := s.dev.put p Fld.CTRL_HALT v
  s.done (if v % 2 = 0 then d.put p Fld.STATUS_HALTED 0 else d)

/-- HALT_AT_BOUNDARY: the block halts at its item boundary (R50, R202). -/
def execHaltAtBoundary (p : Page) (s : State) : Out :=
  if s.dev.present p && decide (p.typ ≠ 0) && s.dev.flag p Fld.CTRL_HALT then s.done (s.dev.put p Fld.STATUS_HALTED 1) else s.same

/-- CNT_RESET: every counter of the page becomes zero at one instant (R43, R49); a snapshot under a hold stays (R583). -/
def execCntReset (r : Req) (p : Page) (s : State) : Out :=
  if s.dev.mayHeader r p then s.done (s.dev.zeroCounters p) else s.same

/-- COMMIT_GO: copy the shadow group, set BUSY and assign TARGET (R52). -/
def execCommitGo (r : Req) (p : Page) (s : State) : Out :=
  let d := s.dev
  if !d.mayHeader r p then s.same
  else if d.flag p Fld.COMMIT_BUSY then s.done (d.hdrErr p 2)
  else
    let d := d.setCommit p ⟨stagedOf p d.reg.cur, false⟩
    let d := (d.put p Fld.COMMIT_BUSY 1).put p Fld.COMMIT_TARGET (d.fld p Fld.GEN_APPLIED + 1)
    s.done ((d.put p Fld.COMMIT_RESULT 0).put p Fld.COMMIT_RULE 0)

/-- GENERATION_DRAINED: the last item of GEN.OLDEST has left the block (R55). -/
def execGenerationDrained (p : Page) (s : State) : Out :=
  if s.dev.present p && decide (p.typ ≠ 0) then s.done (s.dev.put p Fld.GEN_OLDEST (s.dev.fld p Fld.GEN_APPLIED)) else s.same

/-- ERR_STAT_CLEAR: a W1C write; ERR_FIRST clears when ERR_STAT becomes all zero (R45). -/
def execErrStatClear (r : Req) (p : Page) (mask : Nat) (s : State) : Out :=
  let d := s.dev
  if !d.mayHeader r p then s.same else
  let clr := fun (d : Device) (f : Field) (b : Nat) => if bit mask b then d.put p f 0 else d
  let d := clr (clr (clr (clr d Fld.ERR_STAT_H_WRITE 0) Fld.ERR_STAT_ACCESS 1) Fld.ERR_STAT_COMMIT_OVERLAP 2) Fld.ERR_STAT_LEASE_STALE 3
  let blk := d.fld p Fld.ERR_STAT_BLOCK
  let d := d.put p Fld.ERR_STAT_BLOCK (blk - (blk &&& bits mask 16 16))
  s.done (if d.errStat p = 0 then ((d.put p Fld.ERR_FIRST_CODE 0).put p Fld.ERR_FIRST_ISLAND 0).put p Fld.ERR_FIRST_VALID 0 else d)

/-- IRQ_STAT_CLEAR: a W1C write (R46); on a CVU_ page, clearing bit 16 lets CVU_MISMATCH capture again (R432). -/
def execIrqStatClear (r : Req) (p : Page) (mask : Nat) (s : State) : Out :=
  let d := s.dev
  if !d.mayHeader r p then s.same else
  let clr := fun (d : Device) (f : Field) (b : Nat) => if bit mask b then d.put p f 0 else d
  let d := clr (clr (clr d Fld.IRQ_STAT_ERR 0) Fld.IRQ_STAT_COMMIT_DONE 1) Fld.IRQ_STAT_LEASE_ORPHAN 2
  let blk := d.fld p Fld.IRQ_STAT_BLOCK
  let d := d.put p Fld.IRQ_STAT_BLOCK (blk - (blk &&& bits mask 16 16))
  s.done (match p with
    | .cvu _ _ => if bit mask 16 then d.put p Fld.CVU_MISMATCH_VALID 0 else d
    | _ => d)

/-- A read by the PF is a host read that the endpoint completes (R478, PCIE_CNT7). -/
def Device.hostReadDone (d : Device) (r : Req) : Device :=
  match r with
  | .pf => (d.tick (.pcie 0) 7).linkWake
  | .vf _ => (d.tick (.pcie 0) 7).linkWake
  | _ => d

/-- RC_READ: the word is returned and its RC fields clear (R6, R41). -/
def execRcRead (r : Req) (p : Page) (off : Nat) (s : State) : Out :=
  let d := s.dev
  if !d.mayAccess r p then s.done ((d.answer r 0).hostReadDone r) else
  let o := off / 4 * 4
  let v := d.word r p o
  let d := (pageFields p).foldl (fun d f =>
    match f.wordAt o with
    | some (i, _) => if f.acc = .rc then d.putI p f i 0 else d
    | none => d) d
  s.done ((d.answer r v).hostReadDone r)

/-- COUNTER_LOW_READ: the low word is returned and the high word latched for the requester (R48). `withReset`: the read samples in the cycle of
a reset or capture, so it returns the value before it and sets STATUS.COINCIDENT (R271); the reset is the command that follows. -/
def execCounterLowRead (r : Req) (p : Page) (i : Nat) (withReset : Bool) (s : State) : Out :=
  let d := s.dev
  if !d.mayHeader r p || decide (p.counters ≤ i) then s.done ((d.answer r 0).hostReadDone r) else
  let v := d.cntRead p i
  let d := d.setReg { d.reg with latch := Tbl.put d.reg.latch (p.base * 512 + r.id) (i, v / 2 ^ 32) }
  let d := if withReset then d.put p Fld.STATUS_COINCIDENT 1 else d
  s.done ((d.answer r (v % 2 ^ 32)).hostReadDone r)

/-- What a 32-bit read of a counter's high word returns (R48): the requester's latch where its latest low-word read was of that counter. -/
def Device.counterHigh (d : Device) (r : Req) (p : Page) (i : Nat) : Nat :=
  match Tbl.look d.reg.latch (p.base * 512 + r.id) with
  | some (j, h) => if j = i then h else d.cntRead p i / 2 ^ 32
  | none => d.cntRead p i / 2 ^ 32

/-- CAIRN_ENTRY_READ: a 64-bit read of bytes 0 to 7 of an entry latches bytes 8 to 15 for the requester (R591). -/
def execCairnEntryRead (r : Req) (p : Page) (i : Nat) (s : State) : Out :=
  let d := s.dev
  let q := p.ringPage
  if !d.mayHeader r p || decide (q.ringSize ≤ i) then s.done ((d.answer r 0).hostReadDone r) else
  let e := Tbl.lookD (d.ring p).entries i ⟨0, 0, 0⟩
  let d := d.setReg { d.reg with latch := Tbl.put d.reg.latch ((q.base + 1) * 512 + r.id) (i, e.code + 2 ^ 16 * e.info) }
  s.done ((d.answer r e.stamp).hostReadDone r)

/-! ### Leases -/

/-- May an owner ID take a lease of the page? A session lease is for a cox core or the PF only (R442). -/
def mayTake (p : Page) (owner : Nat) : Bool :=
  match p with
  | .kvt _ => decide (owner / 4096 = 1) || decide (owner = 0x2000)
  | _ => true

/-- The owner ID of a requester (R57); a cox core's INDEX is 8 x I-die + core (log entry 22). -/
def ownerId : Req → Nat
  | .pf => 0x2000
  | .vf n => 0x2000 + n
  | .cox i c => 0x1000 + 8 * i + c
  | .debug => 0x5000

/-- The requester holds lease `i` of a page. -/
def Device.holdsLease (d : Device) (r : Req) (p : Page) (i : Nat) : Bool :=
  decide (d.fldI p Fld.LEASE_STATE_STATE i = 1 ∧ d.fldI p Fld.LEASE_OWNER_OWNER i = ownerId r)

/-- LEASE_OWNER_WRITE: take, release or refuse (R58, R61). -/
def execLeaseOwnerWrite (r : Req) (p : Page) (i word : Nat) (s : State) : Out :=
  let d := s.dev
  if !d.mayAccess r p || decide (p.leases ≤ i) then s.same
  else
    let epoch := d.fldI p Fld.LEASE_OWNER_EPOCH i
    let st := d.fldI p Fld.LEASE_STATE_STATE i
    let owner := word % 2 ^ 16
    if word / 2 ^ 16 % 2 ^ 16 ≠ epoch then s.done (d.hdrErr p 3)
    else if st = 0 ∧ owner ≠ 0 ∧ mayTake p owner then
      s.done (((d.putI p Fld.LEASE_OWNER_OWNER i owner).putI p Fld.LEASE_STATE_STATE i 1).putI p Fld.LEASE_OWNER_EPOCH i (epoch + 1))
    else if st = 1 ∧ owner = 0 then
      s.done ((d.putI p Fld.LEASE_OWNER_OWNER i 0).putI p Fld.LEASE_STATE_STATE i 0)
    else s.same

/-- Hardware takes a lease for firmware that finds it free (R236). -/
def Device.takeLease (d : Device) (p : Page) (i owner : Nat) : Device :=
  ((d.putI p Fld.LEASE_OWNER_OWNER i owner).putI p Fld.LEASE_STATE_STATE i 1).putI p Fld.LEASE_OWNER_EPOCH i
    (d.fldI p Fld.LEASE_OWNER_EPOCH i + 1)

/-- Release of a held lease (R58). -/
def Device.releaseLease (d : Device) (p : Page) (i : Nat) : Device :=
  if d.fldI p Fld.LEASE_STATE_STATE i = 1 then
    (d.putI p Fld.LEASE_OWNER_OWNER i 0).putI p Fld.LEASE_STATE_STATE i 0
  else d

/-- LEASE_BREAK_DONE: the agent becomes the owner under a new epoch (R60). -/
def execLeaseBreakDone (p : Page) (i : Nat) (s : State) : Out :=
  let d := s.dev
  if d.present p && decide (i < p.leases) && decide (d.fldI p Fld.LEASE_STATE_STATE i = 3) then
    s.done (((d.putI p Fld.LEASE_OWNER_OWNER i (d.fldI p Fld.LEASE_BREAK_AGENT i)).putI p Fld.LEASE_OWNER_EPOCH i
      (d.fldI p Fld.LEASE_OWNER_EPOCH i + 1)).putI p Fld.LEASE_STATE_STATE i 1)
  else s.same

/-- The pages that hold leases. -/
def Device.leasePages (d : Device) : List Page :=
  (d.model.tdies.flatMap fun n => [Page.rope n 0, Page.rope n 1, Page.rope n 2]) ++
  (d.model.idies.flatMap fun i => [Page.nvr i, Page.kvt i, Page.cph i, Page.cvu i 0, Page.cvu i 1].filter d.present)

/-- The watchdog of an owner fires (R59, R550): every lease it holds becomes ORPHAN and sets IRQ_STAT.LEASE_ORPHAN. -/
def Device.orphanLeases (d : Device) (owned : Nat → Bool) : Device :=
  d.leasePages.foldl (fun d p =>
    (List.range p.leases).foldl (fun d i =>
      if d.fldI p Fld.LEASE_STATE_STATE i = 1 && owned (d.fldI p Fld.LEASE_OWNER_OWNER i) then
        (d.putI p Fld.LEASE_STATE_STATE i 2).irqMask p Fld.IRQ_STAT_LEASE_ORPHAN 0
      else d) d) d

/-! ### Member windows -/

/-- MEMBER_WINDOW_ACCESS: an access to member window m is proxied in class 1 to the slice that PKG_MBR_SEL selects (R36, R67); on a package
that is not the stroke, the windows read zero. -/
def execMemberWindowAccess (write : Bool) (m off value : Nat) (s : State) : Out :=
  let d := s.dev
  if d.cfg.straps.crewRole ≠ 1 ∨ m = 0 ∨ 64 ≤ m then s.done (if write then d else (d.answer .pf 0).hostReadDone .pf)
  else
    let a := d.fldI .pkg Fld.PKG_MBR_SEL_SLICE m * 0x200000 + off % 0x200000
    let d := (d.tick .pkg 0).setMbr ⟨d.mbr.outstanding ++ [⟨d.mbr.nextId, write, m, a⟩], d.mbr.nextId + 1⟩
    s.done (d.msg "member-access" m [d.mbr.nextId - 1, b2n write, a, value])

/-- MEMBER_WINDOW_TIMEOUT: an access unanswered after 1 ms completes with all ones or is discarded, and sets MBR_TIMEOUT (R67, R70). -/
def execMemberWindowTimeout (k : Nat) (s : State) : Out :=
  let d := s.dev
  match d.mbr.outstanding.find? (fun x => x.id = k) with
  | none => s.same
  | some x =>
    let d := (d.setMbr { d.mbr with outstanding := d.mbr.outstanding.filter (fun y => y.id ≠ k) }).tick .pkg 1
    let d := if x.write then d else (d.answer .pf 0xFFFFFFFF).hostReadDone .pf
    s.done (d.err .pkg 16 (Config.blockErrCode 0x18 16) x.member)

end Sys2Proof.Machine
end

