-- ==== Sys2Proof/Machine/Belay.lean ====
section
/-!
DEFINITION. The belay network (spec/19, R575 to R588): holds, their waves over the islands, cuts, markers and releases.
-/
namespace Sys2Proof.Machine

/-- Every island of the package (R72). -/
def Device.allIslands (d : Device) : List Nat :=
  (d.model.tdies.flatMap fun n => (List.range 0x18).map (n * 256 + ·)) ++
  (d.model.idies.flatMap fun i => (List.range (if d.cfg.part.noDdr then 0x11 else 0x19)).map ((8 + i) * 256 + ·)) ++ [0xF00]

/-- The quarters of partition `p`, as the mask of PKG_PART_QMASK (R277). -/
def Device.qmask (d : Device) (p : Nat) : Nat := d.fldI .pkg Fld.PKG_PART_QMASK p

/-- Does region r of die n belong to partition p? -/
def Device.regionIn (d : Device) (p n r : Nat) : Bool := bit (d.qmask p) (quarterBit n r)

/-- The regions of a partition, as (die, region) pairs. -/
def Device.regionsOf (d : Device) (p : Nat) : List (Nat × Nat) :=
  d.model.tdies.flatMap fun n => ((List.range 16).filter (d.regionIn p n)).map fun r => (n, r)

/-- Is partition p held outside the slots: a freeze that a VF or the PF requests (R518, R577)? -/
def Device.freezeAsked (d : Device) (p : Nat) : Bool :=
  bit (d.fld .bly Fld.BLY_VF_FREEZE) p || bit (d.fld .bly Fld.BLY_PF_FREEZE) p

/-- The scope of a hold: the partition it names, or none for the package. -/
def Device.holdScope (d : Device) (src : Nat) : Option Nat :=
  if 16 ≤ src then some (src - 16)
  else if d.fldI .bly Fld.BLY_HOLD_CTL_SCOPE src = 1 then some (d.fldI .bly Fld.BLY_HOLD_CTL_PART src) else none

/-- The level a hold asks for: 1 a freeze, 2 a stop. -/
def Device.holdLevel (d : Device) (src : Nat) : Nat := if 16 ≤ src then 1 else d.fldI .bly Fld.BLY_HOLD_CTL_KIND src + 1

/-- The islands a hold covers (R575). -/
def Device.holdIslands (d : Device) (src : Nat) : List Nat :=
  match d.holdScope src with
  | none => d.allIslands
  | some p => (d.regionsOf p).map fun nr => nr.1 * 256 + nr.2

/-- The state of an island: the strongest hold in force that covers it. -/
def Device.strongest (d : Device) (isl : Nat) : Nat :=
  d.belay.inForce.foldl (fun acc src => if (d.holdIslands src).contains isl then max acc (d.holdLevel src) else acc) 0

/-- The partition is stopped: a stop in force covers the package or the partition (R575); its engines and pitch controller hold. -/
def Device.partStopped (d : Device) (p : Nat) : Bool :=
  d.belay.inForce.any fun src => decide (d.holdLevel src = 2) && (decide (d.holdScope src = none) || decide (d.holdScope src = some p))

/-- A stop of the package is in force. -/
def Device.packageStopped (d : Device) : Bool :=
  d.belay.inForce.any fun src => decide (d.holdLevel src = 2) && decide (d.holdScope src = none)

/-- The island is STOPPED. -/
def Device.stopped (d : Device) (isl : Nat) : Bool := d.holdOf isl = 2

/-- BLY_STATE shows a wave running and any island STOPPED or FROZEN (R601). -/
def Device.belayState (d : Device) : Device :=
  let d := d.put .bly Fld.BLY_STATE_WAVE (b2n (!d.belay.waves.isEmpty))
  let d := d.put .bly Fld.BLY_STATE_STOPPED (b2n (d.hold.any fun kv => kv.2 = 2))
  d.put .bly Fld.BLY_STATE_FROZEN (b2n (d.hold.any fun kv => kv.2 = 1))

/-- The level of BELAY_OUT (R588) in mode 1. -/
def Device.belayOut (d : Device) : Bool :=
  decide (d.fld .bly Fld.BLY_PIN_OUT_MODE = 1) && d.hold.any fun kv => kv.2 = 2

/-- A hold's DONE (R578): STAT, STAMP, IRQ_STAT.BLOCK bit 16 and, in mode 2, the pulse on BELAY_OUT. -/
def Device.holdDone (d : Device) (src : Nat) : Device :=
  let smeared := d.belay.cuts.any fun kv => kv.2.smeared ≠ 0 && (d.holdIslands src).contains kv.1
  let d := if 16 ≤ src then d.setBelay { d.belay with frozenDone := insSet (src - 16) d.belay.frozenDone }
    else ((d.putI .bly Fld.BLY_HOLD_STAT_DONE src 1).putI .bly Fld.BLY_HOLD_STAT_SMEARED src (b2n smeared)).putI .bly
      Fld.BLY_HOLD_STAMP src (d.stamp 0xF00)
  let d := d.irq .bly 16
  let d := if src = 4 then d.msg "crew-cut-done" 0 [d.fld .pkg Fld.PKG_CREW_INDEX] else d
  if d.fld .bly Fld.BLY_PIN_OUT_MODE = 2 then (d.pin "BELAY_OUT" true).pin "BELAY_OUT" false else d

/-- A release completed (R585, R601): STAT.RELEASING and DONE clear and IRQ_STAT.BLOCK bit 17 is set. -/
def Device.releaseDone (d : Device) (src : Nat) : Device :=
  let d := if 16 ≤ src then d.setBelay { d.belay with frozenDone := delSet (src - 16) d.belay.frozenDone }
    else (d.putI .bly Fld.BLY_HOLD_STAT_DONE src 0).putI .bly Fld.BLY_HOLD_STAT_RELEASING src 0
  d.irq .bly 17

/-- Begin the wave at the head of the list (R578, R584): its participants are the islands whose state it changes; a hold whose participants
already stand at its kind or a stronger one is done at once, and so is a release that changes no island. -/
def Device.beginWave (d : Device) : Nat → Device
  | 0 => d
  | n + 1 =>
    match d.belay.waves with
    | [] => d.belayState
    | w :: ws =>
      if w.started then d
      else
        let force := if w.release then delSet w.src d.belay.inForce else insSet w.src d.belay.inForce
        let d := d.setBelay { d.belay with inForce := force }
        let todo := if w.release then d.allIslands.filter fun i => decide (d.strongest i ≠ d.holdOf i)
          else (d.holdIslands w.src).filter fun i => decide (d.holdOf i < d.holdLevel w.src)
        if todo.isEmpty then
          let d := d.setBelay { d.belay with waves := ws }
          let d := if w.release then d.releaseDone w.src else d.holdDone w.src
          Device.beginWave d n
        else
          let d := (d.setBelay { d.belay with waves := { w with started := true, todo := todo, reporting := todo } :: ws }).tick .bly 0
          d.belayState

/-- Ask for a wave (R584): it runs after those asked for before it. -/
def Device.askWave (d : Device) (src : Nat) (release discard : Bool) : Device :=
  let d := d.setBelay { d.belay with waves := d.belay.waves ++ [⟨src, release, discard, false, [], []⟩] }
  d.beginWave (d.belay.waves.length)

/-- Raise a slot (R577): its fields are set, ACTIVE becomes 1 and the wave is asked for. -/
def Device.raiseSlot (d : Device) (s kind scope part cause : Nat) (discard : Bool) : Device :=
  let d := (((d.putI .bly Fld.BLY_HOLD_CTL_KIND s kind).putI .bly Fld.BLY_HOLD_CTL_SCOPE s (if scope = 3 then 0 else scope)).putI .bly
    Fld.BLY_HOLD_CTL_PART s part).putI .bly Fld.BLY_HOLD_CTL_DISCARD s (b2n discard)
  let d := ((d.putI .bly Fld.BLY_HOLD_CTL_CAUSE s cause).putI .bly Fld.BLY_HOLD_CTL_ACTIVE s 1).putI .bly Fld.BLY_HOLD_STAT_DONE s 0
  d.askWave s false false

/-- A hardware cause raises slot 0 (R577): a stop of the package; while slot 0 is active a further cause is counted and recorded only. -/
def Device.raiseHw (d : Device) (cause : Nat) : Device :=
  if d.fldI .bly Fld.BLY_HOLD_CTL_ACTIVE 0 = 1 then
    (d.tick .bly 2).cairnPkg (Config.blockErrCode 0x17 0) cause
  else d.raiseSlot 0 1 0 0 cause false

/-- The members of the crew (PKG_CREW_MASK). -/
def Device.crewMembers (d : Device) : List Nat := (List.range 64).filter (bit (d.fld .pkg Fld.PKG_CREW_MASK_MEMBERS))

/-- HOLD_RAISE: a slot's ACTIVE bit is set by the PF or a cox core (slots 6 to 15) or the debug port (slot 5) (R577, R578). A hold of crew scope
travels through the stroke package (R586). A write that would change an active slot is refused with ERR_STAT.BLOCK bit 16 (R601). -/
def execHoldRaise (r : Req) (slot kind scope part : Nat) (discard : Bool) (s : State) : Out :=
  let d := s.dev
  let okSlot := if r = .debug then decide (slot = 5) else decide (6 ≤ slot ∧ slot < 16)
  if !d.mayAccess r .bly || !okSlot then s.same
  else if d.fldI .bly Fld.BLY_HOLD_CTL_ACTIVE slot = 1 then
    (if d.fldI .bly Fld.BLY_HOLD_CTL_KIND slot = kind % 2 ∧ d.fldI .bly Fld.BLY_HOLD_CTL_SCOPE slot = scope % 4 ∧
        d.fldI .bly Fld.BLY_HOLD_CTL_PART slot = part % 32 ∧ d.fldI .bly Fld.BLY_HOLD_CTL_DISCARD slot = b2n discard then s.same
     else s.done (d.errNoCairn .bly 16 (Config.blockErrCode 0x17 16)))
  else if scope % 4 = 2 ∧ r ≠ .debug ∧ d.crewMembers ≠ [] then
    let d := (((d.putI .bly Fld.BLY_HOLD_CTL_KIND slot kind).putI .bly Fld.BLY_HOLD_CTL_SCOPE slot 2).putI .bly
      Fld.BLY_HOLD_CTL_DISCARD slot (b2n discard)).putI .bly Fld.BLY_HOLD_CTL_CAUSE slot 0x0A
    let d := (d.putI .bly Fld.BLY_HOLD_CTL_ACTIVE slot 1).putI .bly Fld.BLY_HOLD_STAT_DONE slot 0
    let d := d.setBelay { d.belay with crewWait := Tbl.put d.belay.crewWait slot d.crewMembers }
    if d.cfg.straps.crewRole = 1 then
      let d := each (fun d m => d.msg "crew-hold" m [kind % 2, b2n discard]) d (d.crewMembers.filter (· ≠ 0))
      s.done (d.raiseSlot 4 kind 0 0 0x08 discard)
    else s.done (d.msg "crew-hold" 0 [kind % 2, b2n discard])
  else
    s.done (d.raiseSlot slot kind (if scope % 4 = 2 then 0 else scope % 4) part (if r = .debug then 0x09 else 0x0A) discard)

/-- The pages whose counters an island holds are those that its counter keys name; a cut copies them (R582). -/
def Device.snapshotIsland (d : Device) (isl : Nat) : Device :=
  let mine := fun (k : Nat) => match Page.ofBar0 (k / 0x1000 * 0x1000) with
    | some (p, _) => decide (p.island = isl)
    | none => false
  let snap := Tbl.drop d.reg.snap mine
  d.setReg { d.reg with snap := (d.reg.cnt.filter fun kv => mine kv.1).foldl (fun t kv => Tbl.put t kv.1 kv.2) snap }

/-- Set an island's hold state; leaving RUN takes the counter snapshot (R582). -/
def Device.setHoldOf (d : Device) (isl level : Nat) : Device :=
  let d := if d.holdOf isl = 0 && decide (level ≠ 0) then d.snapshotIsland isl else d
  d.setHold (if level = 0 then Tbl.del d.hold isl else Tbl.put d.hold isl level)

/-- A participant has reported; when none is left the wave waits for CUT_DONE. -/
def Device.reportCut (d : Device) (isl : Nat) : Device :=
  match d.belay.waves with
  | w :: ws => d.setBelay { d.belay with waves := { w with reporting := delSet isl w.reporting } :: ws }
  | [] => d

/-- A region page counts its belay cuts (RGN_CNT12) and smeared channels (RGN_CNT13). -/
def Device.regionTick (d : Device) (isl i : Nat) : Device :=
  if isl / 256 < 8 ∧ isl % 256 < 16 then d.tick (.rgn (isl / 256) (isl % 256)) i else d

/-- HOLD_MESSAGE: a participant takes HOLD at its next item boundary (R578 steps 2 and 3): its state rises, its counters are copied, the cut stamp
is recorded and it awaits the markers of `channels`, the channels that the physical network gives it from other participants. -/
def execHoldMessage (isl : Nat) (channels : List Nat) (s : State) : Out :=
  let d := s.dev
  match d.belay.waves with
  | [] => s.same
  | w :: ws =>
    if w.release || !w.todo.contains isl then s.same
    else
      let d := d.setBelay { d.belay with
        waves := { w with todo := delSet isl w.todo } :: ws,
        cuts := Tbl.put d.belay.cuts isl ⟨channels, 0, 0, d.stamp isl⟩ }
      let d := (d.setHoldOf isl (max (d.holdOf isl) (d.holdLevel w.src))).regionTick isl 12
      let d := if channels = [] then d.reportCut isl else d
      s.done d.belayState

/-- MARKER_ARRIVE: a channel's marker ends its log; a channel on which a 65th item came is SMEARED (R579). The participant reports when every
marker has arrived. -/
def execMarkerArrive (isl chan logged : Nat) (smeared : Bool) (s : State) : Out :=
  let d := s.dev
  let c := Tbl.lookD d.belay.cuts isl ⟨[], 0, 0, 0⟩
  if !c.waiting.contains chan then s.same
  else
    let c' : IslandCut := ⟨c.waiting.filter (· ≠ chan), if smeared then c.smeared ||| 2 ^ (chan % 8) else c.smeared,
      satAdd 16 c.logged logged, c.cut⟩
    let d := d.setBelay { d.belay with cuts := Tbl.put d.belay.cuts isl c' }
    let d := if smeared then (d.tick .bly 1).regionTick isl 13 else d
    s.done (if c'.waiting = [] then d.reportCut isl else d)

/-- CUT_DONE: every participant has reported, so the slot's DONE and STAMP are set (R578 step 6). `member`: instead, the report of a crew member
arrives for a hold of crew scope, whose slot is done when every member has reported (R586). -/
def execCutDone (member : Option Nat) (s : State) : Out :=
  let d := s.dev
  match member with
  | some m =>
    let d := d.setBelay { d.belay with crewWait := Tbl.mapV d.belay.crewWait fun _ l => l.filter (· ≠ m) }
    let ready := (d.belay.crewWait.filter fun kv => kv.2 = []).map Prod.fst
    let d := each Device.holdDone d ready
    s.done (d.setBelay { d.belay with crewWait := Tbl.drop d.belay.crewWait ready.contains })
  | none =>
    match d.belay.waves with
    | [] => s.same
    | w :: ws =>
      if w.release || !w.todo.isEmpty || !w.reporting.isEmpty || !w.started then s.same
      else
        let d := (d.setBelay { d.belay with waves := ws }).holdDone w.src
        s.done (d.beginWave (d.belay.waves.length + 1))

/-- Release a slot (R585). -/
def Device.releaseSlot (d : Device) (s : Nat) : Device :=
  let discard := d.fldI .bly Fld.BLY_HOLD_CTL_DISCARD s = 1
  let d := (d.putI .bly Fld.BLY_HOLD_CTL_ACTIVE s 0).putI .bly Fld.BLY_HOLD_STAT_RELEASING s 1
  d.askWave s true discard

/-- HOLD_RELEASE: a slot's ACTIVE bit is cleared and a release wave begins (R585); a release of crew scope follows the path of the hold. -/
def execHoldRelease (r : Req) (slot : Nat) (s : State) : Out :=
  let d := s.dev
  if !d.mayAccess r .bly || decide (16 ≤ slot) || decide (d.fldI .bly Fld.BLY_HOLD_CTL_ACTIVE slot = 0) then s.same
  else if d.fldI .bly Fld.BLY_HOLD_CTL_SCOPE slot = 2 then
    let d := d.putI .bly Fld.BLY_HOLD_CTL_ACTIVE slot 0
    let d := (d.setBelay { d.belay with crewWait := Tbl.del d.belay.crewWait slot }).putI .bly Fld.BLY_HOLD_STAT_DONE slot 0
    if d.cfg.straps.crewRole = 1 then
      let d := each (fun d m => d.msg "crew-release" m [d.fldI .bly Fld.BLY_HOLD_CTL_DISCARD slot]) d (d.crewMembers.filter (· ≠ 0))
      s.done (if d.fldI .bly Fld.BLY_HOLD_CTL_ACTIVE 4 = 1 then d.releaseSlot 4 else d)
    else s.done (d.msg "crew-release" 0 [d.fldI .bly Fld.BLY_HOLD_CTL_DISCARD slot])
  else s.done (d.releaseSlot slot)

/-- The islands of the tile at an endpoint of the mesh. -/
def tileIsland (die inst : Nat) : Nat := die * 256 + inst / 128

/-- Drop the items that wait at the inputs of an island, counting them (R585). -/
def Device.discardItems (d : Device) (isl : Nat) : Device :=
  let hit := fun (die inst : Nat) => decide (tileIsland die inst = isl)
  let nw := (d.mesh.writes.filter fun w => hit w.die w.inst).length
  let nt := (d.mesh.tokens.filter fun w => hit w.die w.inst).length
  let nd := (d.tapQ.filter fun q => decide (q.die * 256 + q.cluster / 8 = isl)).length
  let d := d.setMesh { d.mesh with
    writes := d.mesh.writes.filter fun w => !hit w.die w.inst,
    tokens := d.mesh.tokens.filter fun w => !hit w.die w.inst }
  let d := d.setTapQ (d.tapQ.filter fun q => !decide (q.die * 256 + q.cluster / 8 = isl))
  d.count .bly 3 (nw + nt + nd)

/-- RELEASE_MESSAGE: a participant returns to the state of the strongest hold that still covers it; where the release discards, its logged items
are dropped, else they are performed as they then arrive (R582, R585). -/
def execReleaseMessage (isl : Nat) (s : State) : Out :=
  let d := s.dev
  match d.belay.waves with
  | [] => s.same
  | w :: ws =>
    if !w.release || !w.todo.contains isl then s.same
    else
      let new := d.strongest isl
      let was := d.holdOf isl
      let d := d.setHoldOf isl new
      let d := if w.discard && decide (was = 2) && decide (new < 2) then d.discardItems isl else d
      let todo := delSet isl w.todo
      if todo.isEmpty then
        let d := (d.setBelay { d.belay with waves := ws }).releaseDone w.src
        s.done ((d.beginWave (d.belay.waves.length + 1)).belayState)
      else s.done ((d.setBelay { d.belay with waves := { w with todo := todo } :: ws }).belayState)

/-- CREW_HOLD: a crew hold, or its release, arrives from the stroke package and is raised or released in slot 4 (R577, R586). -/
def execCrewHold (raise : Bool) (kind : Nat) (discard : Bool) (s : State) : Out :=
  let d := s.dev
  if raise then
    (if d.fldI .bly Fld.BLY_HOLD_CTL_ACTIVE 4 = 1 then s.same else s.done (d.raiseSlot 4 kind 0 0 0x08 discard))
  else
    (if d.fldI .bly Fld.BLY_HOLD_CTL_ACTIVE 4 = 0 then s.same
     else s.done ((d.putI .bly Fld.BLY_HOLD_CTL_DISCARD 4 (b2n discard)).releaseSlot 4))

/-- BELAY_IN_EDGE: a rising edge on BELAY_IN that lasts `ns` raises slot 1 with IN_KIND when IN_EN is 1 and it lasts 20 ns (R587, R588). -/
def execBelayInEdge (ns : Nat) (s : State) : Out :=
  let d := s.dev.put .bly Fld.BLY_STATE_PIN_IN 1
  if d.flag .bly Fld.BLY_PIN_IN_EN && decide (20 ≤ ns) && decide (d.fldI .bly Fld.BLY_HOLD_CTL_ACTIVE 1 = 0) then
    s.done (d.raiseSlot 1 (d.fld .bly Fld.BLY_PIN_IN_KIND) 0 0 0x05 false)
  else s.done d

/-- The freeze of partition p as its holders now ask (R518): raised when the first asks, released when the last withdraws. -/
def Device.freezeChange (d : Device) (p : Nat) (was : Bool) : Device :=
  let now := d.freezeAsked p
  if now && !was then d.askWave (16 + p) false false
  else if was && !now then d.askWave (16 + p) true false
  else d

/-- VF_TEL_FREEZE: VF n requests or releases a freeze of its partition (R518, R596): one request per partition per millisecond; further ones are
ignored and counted in VF_CNT1. -/
def execVfTelFreeze (n part : Nat) (freeze : Bool) (s : State) : Out :=
  let d := s.dev
  match Tbl.look d.parts part with
  | none => s.same
  | some q =>
    if q.func ≠ n ∨ n = 0 then s.same
    else
      let was := d.freezeAsked part
      let m := d.fld .bly Fld.BLY_VF_FREEZE
      if freeze then
        (match Tbl.look d.belay.vfLast part with
         | some t => if d.clk.now < t + 1000000 then s.done (d.tick (.vf n) 1)
           else s.done ((((d.setBelay { d.belay with vfLast := Tbl.put d.belay.vfLast part d.clk.now }).put .bly Fld.BLY_VF_FREEZE
             (setBit m part)).tick .bly 4).freezeChange part was)
         | none => s.done ((((d.setBelay { d.belay with vfLast := Tbl.put d.belay.vfLast part d.clk.now }).put .bly Fld.BLY_VF_FREEZE
             (setBit m part)).tick .bly 4).freezeChange part was))
      else if bit m part then s.done ((d.put .bly Fld.BLY_VF_FREEZE (m - 2 ^ part)).freezeChange part was)
      else s.same

/-- VF_TEL_FREEZE.FROZEN reads 1 once the cut is complete (R518). -/
def Device.telFrozen (d : Device) (part : Nat) : Bool := d.belay.frozenDone.contains part

/-- BLY_PF_FREEZE: the PF requests or releases freezes, partition p at bit p (R577). -/
def execBlyPfFreeze (value : Nat) (s : State) : Out :=
  let d := s.dev
  let old := (List.range 32).map fun p => (p, d.freezeAsked p)
  let d := d.put .bly Fld.BLY_PF_FREEZE value
  s.done (each (fun d pw => d.freezeChange pw.1 pw.2) d old)

end Sys2Proof.Machine
end

