-- ==== Sys2Proof/Machine/Memtiers.lean ====
section
/-!
DEFINITION. The memory tiers (spec/09, R288 to R308): the device address map, reads and writes by line with their poison, the patrol scrubs and
the BAR4 aperture (R69).
-/
namespace Sys2Proof.Machine

/-! ### The device address map -/

/-- The attribute of a device address (R288). -/
inductive MemKind where
  | hbm | ddr | remote | host | unmapped
deriving DecidableEq, Repr

/-- Bytes of the DDR5 tier. -/
def Device.tierBytes (d : Device) : Nat := d.fld .pkg Fld.PKG_DDR_TIER_SIZE_GIB * 2 ^ 30

/-- The attribute of an address. -/
def Device.memKind (d : Device) (a : Nat) : MemKind :=
  if a < 0x20000000000 then
    (if d.hasTdie (a / 0x4000000000) && decide (a % 0x4000000000 < 3 * d.model.stackGib * 2 ^ 30) then .hbm else .unmapped)
  else if 0x80000000000 ≤ a ∧ a < 0x80000000000 + d.tierBytes then .ddr
  else if 0x4000000000000 ≤ a ∧ a < 0x8000000000000 then .remote
  else if 0x8000000000000 ≤ a ∧ a < 0x10000000000000 then .host
  else .unmapped

/-- The selected channels of the tier, as (I-die, channel), in ascending order (R299). -/
def Device.tierChannels (d : Device) : List (Nat × Nat) :=
  (d.model.idies.flatMap fun i => (List.range 8).map fun c => (i, c)).filter fun ic => d.flag (.ddr ic.1 ic.2) Fld.DDR_STATE_USED

/-- The controller of a mapped memory address (R290, R300). -/
def Device.memPage (d : Device) (a : Nat) : Option Page :=
  match d.memKind a with
  | .hbm => some (.hbmc (a / 0x4000000000) (a % 0x4000000000 / 512 % 3))
  | .ddr =>
    let chs := d.tierChannels
    (match chs[(a - 0x80000000000) / 4096 % chs.length]? with
     | some ic => some (.ddr ic.1 ic.2)
     | none => none)
  | _ => none

/-- The ECC line of an address: 256 bytes of HBM, 64 of the tier (R291, R301); host memory is taken in pieces of 64. -/
def Device.lineOf (d : Device) (a : Nat) : Nat := if d.memKind a = .hbm then 256 else 64

/-- Where R290 puts a device address in its stack: pseudo-channel and byte offset within it. -/
def hbmPlace (a : Nat) : Nat × Nat :=
  let o := a % 0x4000000000
  let q := o / 512 / 3
  ((q ^^^ (q / 64) ^^^ (q / 4096)) % 64, q / 64 * 512 + o % 512)

/-- The device address of line `k` of stack `s` of die `n`, in ascending local order, pseudo-channel by pseudo-channel. -/
def Device.hbmLineAddr (d : Device) (n s k : Nat) : Nat :=
  let perPc := d.model.stackGib * 2 ^ 30 / 64 / 256
  let pc := k / perPc
  let loc := k % perPc * 256
  let hi := loc / 512
  let q := hi * 64 + (pc ^^^ (hi % 64) ^^^ (hi / 64 % 64))
  n * 0x4000000000 + (3 * q + s) * 512 + loc % 512

/-- The device address of line `k` of a tier channel, the `t`-th of `n` selected (R300). -/
def ddrLineAddr (t n k : Nat) : Nat := 0x80000000000 + ((k * 64 / 4096) * n + t) * 4096 + k * 64 % 4096

/-! ### Reading and writing lines -/

/-- A byte of memory now: in a channel whose contents are undefined (R303), a free value until its line is written. -/
def Device.memByte (d : Device) (m : Memory) (a : Nat) : Byte :=
  match d.memPage a with
  | some (.ddr i c) =>
    (match Tbl.look d.ddrUndef (8 * i + c) with
     | some u => if u.fresh.contains (a / 64 * 64) then rdB m d.wr a else BitVec.ofNat 8 (Config.undefByte u.seed a)
     | none => rdB m d.wr a)
  | _ => rdB m d.wr a

/-- `n` bytes of memory now, without counting a read. -/
def Device.memBytes (d : Device) (m : Memory) (a n : Nat) : List Byte := (List.range n).map fun k => d.memByte m (a + k)

/-- A channel whose key is lost serves nothing (R304). -/
def Device.keyLost (d : Device) (p : Page) : Bool :=
  match p with
  | .ddr _ _ => d.flag p Fld.DDR_STATE_KEY_LOST
  | _ => false

/-- INJECT.LINE and POISON_ADDR.LINE of a controller, with its line size's exponent (R306, R307). -/
def lineFields (p : Page) : Field × Field × Nat :=
  match p with
  | .ddr _ _ => (ddrInjectLine, ddrPoisonLine, 6)
  | _ => (Fld.HBMC_INJECT_LINE, Fld.HBMC_POISON_ADDR_LINE, 8)

/-- The most symbols (of the tier, devices) that the line's code corrects. -/
def correctable (p : Page) : Nat :=
  match p with
  | .ddr _ _ => 1
  | _ => 3

/-- A corrected line enters the threshold's window (R297). -/
def Device.ceThreshold (d : Device) (p : Page) : Device :=
  let w := max 1 (d.fld p Fld.HBMC_CE_THRESH_WINDOW_S) * 1000000000
  let log := (Tbl.lookD d.ceLog p.base []).filter (fun t => decide (d.clk.now < t + w)) ++ [d.clk.now]
  if d.fld p Fld.HBMC_CE_THRESH_COUNT < log.length then
    ((((d.setCeLog (Tbl.put d.ceLog p.base [])).cairnOpen p 0x0602).errNoCairn p 17 0x0602)).irq p 17
  else d.setCeLog (Tbl.put d.ceLog p.base log)

/-- The line is lost: the poison mark, the capture, bit 16 and the entry (R293). -/
def Device.poisonLine (d : Device) (p : Page) (line : Nat) : Device :=
  let (_, lf, e) := lineFields p
  let d := (d.setPoison (insSet line d.poison)).stZero line (2 ^ e)
  let d := (d.tick p 4).put p Fld.HBMC_POISON_ADDR_VALID 1
  let d := (d.put p lf (line / 2 ^ e)).cairnOpen p 0x0601
  (d.errNoCairn p 16 0x0601).irq p 16

/-- A read of one line (R292, R293, R304): `syms` symbols are found in error, besides what INJECT adds; `overtaken` says that a write to the line
came before the write-back. Answers whether the read returns poisoned. -/
def Device.readLine (d : Device) (p : Page) (line syms : Nat) (scrub overtaken : Bool) : Device × Bool :=
  if d.keyLost p then (d.tick p 10, true)
  else
    let d := if scrub then d.tick p 6 else d.tick p 0
    if d.poison.contains line then (d.tick p 5, true)
    else
      let (inj, _, e) := lineFields p
      let mode := d.fld p Fld.HBMC_INJECT_MODE
      let hit := decide (mode ≠ 0) && decide (d.fld p inj = line / 2 ^ e)
      let d := if hit then d.put p Fld.HBMC_INJECT_MODE 0 else d
      let syms := if hit && decide (mode = 1) then syms + 1 else if hit && decide (mode = 2) then syms + correctable p + 1 else syms
      if syms = 0 then (d, false)
      else if syms ≤ correctable p then
        let d := (d.tick p 2).count p 3 syms
        let d := if overtaken then d.tick p 8 else if scrub then d.tick p 7 else d
        (d.ceThreshold p, false)
      else (d.poisonLine p line, true)

/-- The lines that a range touches, by first address. -/
def linesOf (size a n : Nat) : List Nat :=
  if n = 0 then [] else (List.range ((a + n - 1) / size - a / size + 1)).map fun k => (a / size + k) * size

/-- A read of a range by a requester: the controllers read each line once; `finds` gives the symbols in error of the lines that have any. The
answer holds the poisoned lines. -/
def Device.memReads (d : Device) (a n : Nat) (finds : List (Nat × Nat)) : Device × List Nat :=
  (linesOf (d.lineOf a) a n).foldl (fun (acc : Device × List Nat) line =>
    match acc.1.memPage line with
    | none => acc
    | some p =>
      let (d, bad) := acc.1.readLine p line (Tbl.lookD finds line 0) false false
      (d, if bad then acc.2 ++ [line] else acc.2)) (d, [])

/-- A line written since its channel's contents became undefined; the bytes around a part write keep their free values. -/
def Device.freshen (d : Device) (m : Memory) (p : Page) (line : Nat) : Device :=
  match p with
  | .ddr i c =>
    (match Tbl.look d.ddrUndef (8 * i + c) with
     | some u =>
       if u.fresh.contains line then d
       else
         let old := d.memBytes m line 64
         (d.setDdrUndef (Tbl.put d.ddrUndef (8 * i + c) { u with fresh := insSet line u.fresh })).st line old
     | none => d)
  | _ => d

/-- The part of a write that falls in one line (R293, R304). -/
def Device.writeLine (d : Device) (m : Memory) (p : Page) (line a : Nat) (bs : List Byte) : Device :=
  if d.keyLost p then d.tick p 10
  else
    let d := d.tick p 1
    let whole := decide (bs.length = d.lineOf line)
    if d.poison.contains line then
      (if whole then ((d.setPoison (delSet line d.poison)).tick p 9).st a bs else d.tick p 10)
    else (d.freshen m p line).st a bs

/-- A write of a range to mapped memory. -/
def Device.memWrite (d : Device) (m : Memory) (a : Nat) (bs : List Byte) : Device :=
  let size := d.lineOf a
  (linesOf size a bs.length).foldl (fun d line =>
    match d.memPage line with
    | none => if d.memKind line = .host then d.st (max a line) ((bs.drop (line - a)).take (line + size - max a line)) else d
    | some p => d.writeLine m p line (max a line) ((bs.drop (line - a)).take (line + size - max a line))) d

/-- Does a whole range lie in one kind of mapped memory of the package (HBM or tier)? -/
def Device.inMemory (d : Device) (a n : Nat) : Bool :=
  decide (0 < n) && (d.memPage a).isSome && (d.memPage (a + n - 1)).isSome && decide (d.memKind a = d.memKind (a + n - 1)) &&
    decide (a / 0x4000000000 = (a + n - 1) / 0x4000000000 ∨ d.memKind a = .ddr)

/-! ### The controllers' commands -/

/-- What a read returns: the data, or the poison flag. -/
def Device.readAnswer (d : Device) (m : Memory) (a n : Nat) (bad : List Nat) : Device :=
  if bad = [] then d.emit (.bytes "memory-read" a (d.memBytes m a n)) else d.msg "memory-read-poisoned" a bad

/-- A read command of one kind of memory (R292 to R294): for a tile's MOVE, poison raises a stop with cause HBM_POISON. -/
def memReadCmd (k : MemKind) (a n : Nat) (move : Bool) (finds : List (Nat × Nat)) (s : State) : Out :=
  let d := s.dev
  if d.memKind a ≠ k ∨ !d.inMemory a n then .fault .unmappedAddress
  else
    let (d, bad) := d.memReads a n finds
    let d := d.readAnswer s.mem a n bad
    s.done (if move && !bad.isEmpty then d.raiseHw 0x03 else d)

/-- A write command of one kind of memory. -/
def memWriteCmd (k : MemKind) (a : Nat) (bs : List Byte) (s : State) : Out :=
  let d := s.dev
  if d.memKind a ≠ k ∨ !d.inMemory a bs.length then .fault .unmappedAddress
  else s.done (d.memWrite s.mem a bs)

/-- HBM_READ: the controllers of a range read it, correcting or poisoning its lines (R292 to R294). -/
def execHbmRead (a n : Nat) (move : Bool) (finds : List (Nat × Nat)) (s : State) : Out := memReadCmd .hbm a n move finds s

/-- DDR_READ: the tier's channels read a range (R301, R302, R304). -/
def execDdrRead (a n : Nat) (move : Bool) (finds : List (Nat × Nat)) (s : State) : Out := memReadCmd .ddr a n move finds s

/-- HBM_WRITE: the controllers of a range write it (R293). -/
def execHbmWrite (a : Nat) (bs : List Byte) (s : State) : Out := memWriteCmd .hbm a bs s

/-- DDR_WRITE: the tier's channels write a range (R301, R302, R304). -/
def execDdrWrite (a : Nat) (bs : List Byte) (s : State) : Out := memWriteCmd .ddr a bs s

/-- One scrub read of a controller whose stack or channel has `n` lines (R296). -/
def Device.scrubLine (d : Device) (p : Page) (n : Nat) (addr : Nat → Nat) (syms : Nat) : Device :=
  let pos := d.fld p Fld.HBMC_SCRUB_POS_LINE % n
  let line := addr pos
  let d := d.put p Fld.HBMC_SCRUB_POS_LINE ((pos + 1) % n)
  if d.poison.contains line then d else (d.readLine p line syms true false).1

/-- HBM_SCRUB: the next line of a stack is read and checked (R296). -/
def execHbmScrub (n st syms : Nat) (s : State) : Out :=
  let d := s.dev
  let p := Page.hbmc n st
  if d.present p && d.flag p Fld.HBMC_SCRUB_ENABLE && d.flag p Fld.HBMC_STATE_TRAINED && !d.flag p Fld.HBMC_STATE_SELF_REFRESH then
    s.done (d.scrubLine p (d.model.stackGib * 2 ^ 30 / 256) (d.hbmLineAddr n st) syms)
  else s.same

/-- DDR_SCRUB: the next line of a selected channel is read and checked (R301). -/
def execDdrScrub (i ch syms : Nat) (s : State) : Out :=
  let d := s.dev
  let p := Page.ddr i ch
  let chs := d.tierChannels
  if d.present p && d.flag p Fld.HBMC_SCRUB_ENABLE && d.flag p Fld.DDR_STATE_USED && !d.flag p Fld.DDR_STATE_SELF_REFRESH
      && !d.keyLost p && decide (d.tierBytes ≠ 0) then
    s.done (d.scrubLine p (d.tierBytes / chs.length / 64) (ddrLineAddr (chs.idxOf (i, ch)) chs.length) syms)
  else s.same

/-- BAR4_ACCESS: through the window of the offset to device memory, or refused (R69). -/
def execBar4Access (write : Bool) (off : Nat) (data : List Byte) (len : Nat) (finds : List (Nat × Nat)) (s : State) : Out :=
  let d := s.dev
  let w := off / 0x200000000
  let n := if write then data.length else len
  let a := d.fldI .pkg Fld.PKG_BAR4_WIN_BASE w * 2 ^ 21 + off % 0x200000000
  if 16 ≤ w ∨ n = 0 then s.same
  else if d.fldI .pkg Fld.PKG_BAR4_WIN_ENABLE w = 0 ∨ !d.inMemory a n then
    let d := (d.tick .pkg 2).err .pkg 17 (Config.blockErrCode 0x18 17) off
    s.done (if write then d else (d.answer .pf 0).hostReadDone .pf)
  else if write then s.done (d.memWrite s.mem a data)
  else
    let (d, bad) := d.memReads a n finds
    s.done ((if bad = [] then d.emit (.bytes "bar4-read" off (d.memBytes s.mem a n)) else d.msg "bar4-read-poisoned" off bad).hostReadDone .pf)

end Sys2Proof.Machine
end

