-- ==== Sys2Proof/Machine/Queues.lean ====
section
/-!
DEFINITION. Queues (R68, R507 to R511) and the device's requests to the host (R474 to R477, R483): doorbells, the fetch of submission entries,
completions, events and MSI-X moderation.
-/
namespace Sys2Proof.Machine

/-! ### Host-directed writes -/

/-- Is a device address in host memory (R288)? -/
def isHost (a : Nat) : Bool := decide (hostMem ≤ a)

/-- Where a transfer from `a` of `n` bytes splits: pieces of at most `size` that cross no 4 KiB boundary (R474, R475). -/
def piecesOf (size : Nat) : Nat → Nat → Nat → List (Nat × Nat)
  | 0, _, _ => []
  | fuel + 1, a, n =>
    if n = 0 ∨ size = 0 then []
    else
      let k := min n (min size (4096 - a % 4096))
      (a, k) :: piecesOf size fuel (a + k) (n - k)

/-- Has the function Bus Master Enable? -/
def Device.busMaster (d : Device) (f : Nat) : Bool := d.msix.bme.contains f

/-- The function's host link is gone: its hold has expired (R485), the host is lost (R538), or the package is FATAL (R570). -/
def Device.hostGone (d : Device) (f : Nat) : Bool := d.link.expired.contains f || decide (d.fld .pkg Fld.PKG_FW_STATE_STATE = 8 ∨ d.fld .pkg Fld.PKG_FW_STATE_STATE = 15)

/-- An event that the endpoint counts and reports at a bit of ERR_STAT.BLOCK and IRQ_STAT.BLOCK (R499, R500). -/
def Device.linkErr (d : Device) (b cnt : Nat) : Device :=
  (((d.tick (.pcie 0) cnt).cairnOpen (.pcie 0) (Config.blockErrCode 0x09 b)).errNoCairn (.pcie 0) b (Config.blockErrCode 0x09 b)).irq (.pcie 0) b

/-- Issue a posted write (R474): pieces of at most Max_Payload_Size that cross no 4 KiB boundary, in ascending order. -/
def Device.hostIssue (d : Device) (f addr : Nat) (bs : List Byte) : Device :=
  let ps := piecesOf d.link.mps bs.length addr bs.length
  let d := ((d.count (.pcie 0) 0 ps.length).count (.pcie 0) 1 bs.length).linkWake
  ps.foldl (fun (d : Device) p => d.emit (.hostWrite f p.1 ((bs.drop (p.1 - addr)).take p.2))) d

/-- A 16-byte entry that reports BME_LOST (R485, R501). -/
def bmeLost (bs : List Byte) : Bool := decide (bs.length = 16) && decide (leNat ((bs.drop 2).take 2) = 0x0901)

/-- Write to host memory for a function's queue, at a bus address (R474). With Bus Master Enable clear it is discarded, counted, and held to be issued
again (R483, R484); once the hold has expired only BME_LOST entries wait for the bit (R485); while the host is lost it is dropped and counted (R538), and
in a function-level reset it is squashed (R515). -/
def Device.hostPost (d : Device) (f q addr : Nat) (bs : List Byte) : Device :=
  if d.link.flr.contains f then d
  else if d.link.expired.contains f && !d.busMaster f && bmeLost bs then d.setHeldW (d.heldW ++ [⟨f, q, addr, bs⟩])
  else if d.hostGone f then d.tick (.pcie 0) 9
  else if d.busMaster f then d.hostIssue f addr bs
  else (d.linkErr 19 9).setHeldW (d.heldW ++ [⟨f, q, addr, bs⟩])

/-- Write a ring entry or data at a device or host address. -/
def Device.postAt (d : Device) (m : Memory) (f q a : Nat) (bs : List Byte) : Device :=
  if isHost a then d.hostPost f q (a - hostMem) bs else d.memWrite m a bs

/-! ### Queues -/

def qkey (f q : Nat) : Nat := 65536 * f + q
def Device.queue (d : Device) (f q : Nat) : Option Queue := Tbl.look d.queues (qkey f q)
def Device.setQueue (d : Device) (f q : Nat) (x : Queue) : Device := d.setQueues (Tbl.put d.queues (qkey f q) x)

/-- Is the type one whose entries the device fetches (R507)? -/
def isSq (typ : Nat) : Bool := decide (typ ≠ 6 ∧ typ ≠ 8)

/-- Submission entry sizes (R507). -/
def entrySize (typ : Nat) : Nat := if typ = 2 then 32 else if typ = 3 then 16 else 64

/-- Completion and event entry sizes. -/
def slotSize (typ : Nat) : Nat := if typ = 6 then 32 else 16

/-- A completion slot is free: the tail is more than one entry short of the head (R510). -/
def Queue.slotFree (x : Queue) : Bool := decide ((x.tail + 1) % x.size ≠ x.head)

/-- The MSI-X message of a queue after an entry (R510): at once with MOD_US 0, else with MOD_COUNT entries. -/
def Device.moderate (d : Device) (f q : Nat) : Device :=
  match d.queue f q with
  | none => d
  | some x =>
    if x.modUs = 0 ∨ x.modCount ≤ x.unsig + 1 then (d.setQueue f q { x with unsig := 0 }).sendMsix f x.vector
    else d.setQueue f q { x with unsig := x.unsig + 1 }

/-- Write one entry at the tail of a completion or event queue, setting PHASE in the byte that holds it (R509, R511), and signal it. -/
def Device.postSlot (d : Device) (m : Memory) (f q : Nat) (bs : List Byte) : Device :=
  match d.queue f q with
  | none => d
  | some x =>
    let size := slotSize x.typ
    let at_ := if x.typ = 6 then 31 else 13
    let bs := (List.range size).map fun k => if k = at_ then (bs.getD k 0) ||| (BitVec.ofNat 8 (128 * x.phase)) else bs.getD k 0
    let d := d.postAt m f q (x.base + size * x.tail) bs
    let t := (x.tail + 1) % x.size
    (d.setQueue f q { x with tail := t, phase := if t = 0 then 1 - x.phase else x.phase }).moderate f q

/-- Post a completion of submission queue `sq` whose entry's head is `head`: twelve bytes and the common fields (R509), or hold it while no slot is
free; with 64 held, the paired queues stop fetching (R510). -/
def Device.complete (d : Device) (m : Memory) (f sq head : Nat) (body : List Byte) : Device :=
  match d.queue f sq with
  | none => d
  | some s =>
    match d.queue f s.cq with
    | none => d
    | some c =>
      let bs := (List.range 12).map (fun k => body.getD k 0) ++ leBytes 2 (sq % 2 ^ 14) ++ leBytes 2 head
      if c.held.isEmpty && c.slotFree then d.postSlot m f s.cq bs
      else if c.held.length < 64 then d.setQueue f s.cq { c with held := c.held ++ [bs] }
      else d

/-- A completion of CID and STATUS with its other bytes zero. -/
def Device.completeStatus (d : Device) (m : Memory) (x : Fetched) (cid status : Nat) : Device :=
  d.complete m x.func x.queue x.head (leBytes 2 cid ++ leBytes 2 status)

/-- The event queue of a function: its lowest-numbered queue of type 0x6 (log entry 14). -/
def Device.eventQueue (d : Device) (f : Nat) : Option Nat :=
  ((d.queues.filter fun kv => decide (kv.1 / 65536 = f ∧ kv.2.typ = 6)).head?).map fun kv => kv.1 % 65536

/-- Raise an event of a function (R511), its data as 32-bit fields; with the queue full it is dropped and counted. -/
def Device.event (d : Device) (m : Memory) (f code isl : Nat) (data : List Nat) : Device :=
  match d.eventQueue f with
  | none => d
  | some q =>
    match d.queue f q with
    | none => d
    | some x =>
      if !x.slotFree then d.setQueue f q { x with dropped := x.dropped + 1 }
      else
        let body := (data.flatMap (leBytes 4)).take 16
        let bs := leBytes 2 code ++ leBytes 2 x.seq ++ leBytes 8 (d.stamp isl) ++ body ++ List.replicate (20 - body.length) 0
        let d := if bit (d.app .tel Fld.TEL_CFG_KINDS) 1 then d.telRecord 5 (leBytes 2 f ++ [0, 0] ++ bs) else d
        (d.setQueue f q { x with seq := (x.seq + 1) % 65536 }).postSlot m f q bs

/-- A queue enters ERROR and QUEUE_ERROR is raised (R508). -/
def Device.queueError (d : Device) (m : Memory) (f q : Nat) : Device :=
  match d.queue f q with
  | none => d
  | some x => (d.setQueue f q { x with error := true }).event m f 0x0A01 0xF00 [q]

/-- The index of a doorbell is taken (R68, R508). -/
def Device.doorbell (d : Device) (m : Memory) (f q v : Nat) : Device :=
  match d.queue f q with
  | none => d
  | some x =>
    if x.error then d
    else if x.size ≤ v % 2 ^ 24 then d.queueError m f q
    else if isSq x.typ then d.setQueue f q { x with tail := v % 2 ^ 24 }
    else d.setQueue f q { x with head := v % 2 ^ 24 }

/-- DOORBELL_WRITE: a new tail or head index, or ERROR on a bad one (R68, R508); the stroke package forwards a member queue's doorbell (R496). -/
def execDoorbellWrite (f q v : Nat) (s : State) : Out :=
  let d := s.dev
  match d.queue f q with
  | none => s.same
  | some x =>
    if !d.funcLive f then s.same
    else if d.cfg.straps.crewRole = 1 ∧ x.member ≠ 0 then
      s.done ((d.tick (.pcie 0) 15).msg "doorbell" x.member [f, q, v])
    else s.done (d.doorbell s.mem f q v)

/-- DOORBELL_FORWARD: a member takes a forwarded doorbell write (R496). -/
def execDoorbellForward (f q v : Nat) (s : State) : Out :=
  if s.dev.cfg.straps.crewRole = 2 then s.done (s.dev.doorbell s.mem f q v) else s.same

/-! ### Host reads -/

/-- The free tags, lowest first, of the 4,096 (R469, R475). -/
def Device.freeTags (d : Device) (n : Nat) : List Nat :=
  ((List.range (d.hostReads.length + n)).filter fun t => !Tbl.has d.hostReads t).take n

/-- Issue one piece of a transfer under a free tag. -/
def Device.issuePiece (d : Device) (f : Nat) (want : HostWant) (p : Nat × Nat × Nat) : Device :=
  let t := (d.freeTags 1).headD 0
  let d := (d.setHostReads (Tbl.put d.hostReads t ⟨f, want, p.2.1, p.2.2, [], false, false, false⟩)).linkWake.emit (.hostRead f t p.1 p.2.2)
  (d.tick (.pcie 0) 2).put (.pcie 0) Fld.PCIE_TAGS_OUTSTANDING d.hostReads.length

/-- How many tags are free (R469). -/
def Device.tagRoom (d : Device) : Nat := 4096 - d.hostReads.length

/-- Issue a host read of a transfer: split, each piece with its own tag, and what finds no tag waits (R475); none where no tag is free or Bus Master
Enable is clear. -/
def Device.hostFetch (d : Device) (f : Nat) (want : HostWant) (addr len : Nat) : Option Device :=
  let ps := (piecesOf d.link.mrrs len addr len).map fun p => (p.1, p.1 - addr, p.2)
  if !d.busMaster f ∨ d.tagRoom = 0 then none
  else
    let d1 := (ps.take d.tagRoom).foldl (fun (d : Device) p => d.issuePiece f want p) d
    some (d1.setXfers (d1.xfers ++ [⟨want, f, len, [], ps.length, 0, ps.drop d.tagRoom⟩]))

/-- Pieces that wait for a tag are issued as tags come free. -/
def Device.issueMore (d : Device) : Device :=
  match d.xfers.find? (fun x => !x.todo.isEmpty && d.busMaster x.func) with
  | none => d
  | some x =>
    let n := d.tagRoom
    let d1 := (x.todo.take n).foldl (fun (d : Device) p => d.issuePiece x.func x.want p) d
    d1.setXfers (d1.xfers.map fun y : Xfer => if y.want = x.want then { y with todo := y.todo.drop n } else y)

/-- The transfer issued for a want. -/
def Device.xferOf (d : Device) (w : HostWant) : Option Xfer := d.xfers.find? fun x => decide (x.want = w)

/-- A transfer is taken by its consumer, or given up: reads still outstanding for it deliver nothing. -/
def Device.endXfer (d : Device) (w : HostWant) : Device :=
  (d.setXfers (d.xfers.filter fun x => decide (x.want ≠ w))).setHostReads
    (Tbl.mapV d.hostReads fun _ (x : HostRead) => if x.want = w then { x with dead := true } else x)

/-- The bytes of a transfer whose pieces have all completed, in address order. -/
def Xfer.bytes (x : Xfer) : List Byte :=
  ((List.range x.len).foldl (fun (acc : List Byte × Nat) _ =>
    match x.got.find? (fun p : Nat × List Byte => decide (p.1 = acc.2)) with
    | some p => if p.2 = [] then acc else (acc.1 ++ p.2, acc.2 + p.2.length)
    | none => acc) ([], 0)).1

/-- An entry is handed to its block. -/
def Device.hand (d : Device) (f q : Nat) (entry : List Byte) : Device :=
  match d.queue f q with
  | none => d
  | some x =>
    let h := (x.head + 1) % x.size
    let d := d.setQueue f q { x with head := h, stopped := false }
    (d.setFetched (d.fetched ++ [⟨d.nextFetch, f, q, h, entry⟩])).setNextFetch (d.nextFetch + 1)

/-- A duty of R525 is served: some core that holds it is in RUN. -/
def Device.dutyUp (d : Device) (b : Nat) : Bool :=
  d.model.idies.any fun i => (List.range 8).any fun c =>
    bit (d.fld (.cox i c) Fld.COX_STATE_DUTY) b && decide (d.fld (.cox i c) Fld.COX_STATE_STATE = 1)

/-- A duty drains because the core that holds it is HALTED (R594). -/
def Device.dutyHeld (d : Device) (b : Nat) : Bool :=
  !d.dutyUp b && d.model.idies.any fun i => (List.range 8).any fun c =>
    bit (d.fld (.cox i c) Fld.COX_STATE_DUTY) b && decide (d.fld (.cox i c) Fld.COX_STATE_STATE = 4)

/-- May the device fetch from a queue: an entry waits, the queue is not in ERROR nor stopped, the function runs, its completion queue's hold has
room, firmware is READY and a core serves the duty (R508, R510, R515, R525, R530, R594)? -/
def Device.mayFetch (d : Device) (f q : Nat) : Bool :=
  match d.queue f q with
  | none => false
  | some x =>
    isSq x.typ && !x.error && !x.stopped && decide (x.head ≠ x.tail) && d.funcLive f &&
      !d.link.flr.contains f && decide (d.fld .pkg Fld.PKG_FW_STATE_STATE = 7) && d.dutyUp (if f = 0 ∧ q = 0 then 0 else 1) &&
      (match d.queue f x.cq with
       | some c => decide (c.held.length < 64)
       | none => false)

/-- QUEUE_ENTRY_FETCH: the device fetches the next submission entry and hands it to its block; from host memory it issues the read, whose completion
hands the entry over (R475, R508). -/
def execQueueEntryFetch (f q : Nat) (s : State) : Out :=
  let d := s.dev
  match d.queue f q with
  | none => s.same
  | some x =>
    if !d.mayFetch f q then s.same
    else
      let a := x.base + entrySize x.typ * x.head
      if isHost a then
        (match d.hostFetch f (.entry f q) (a - hostMem) (entrySize x.typ) with
         | some d => s.done (d.setQueue f q { x with stopped := true })
         | none => s.same)
      else s.done ((d.memReads a (entrySize x.typ) []).1.hand f q (d.memBytes s.mem a (entrySize x.typ)))

/-- The oldest entry handed over from a queue. -/
def Device.oldest (d : Device) (f q : Nat) : Option Fetched := d.fetched.find? fun x => x.func = f && x.queue = q

/-- Remove a handed entry. -/
def Device.dropFetched (d : Device) (id : Nat) : Device :=
  (d.setFetched (d.fetched.filter fun x => x.id ≠ id)).endXfer (.data id)

/-- A little-endian field of an entry. -/
def Fetched.num (x : Fetched) (off len : Nat) : Nat := leNat ((x.entry.drop off).take len)

/-- Is a queue's type as given? -/
def Device.queueTyp (d : Device) (f q : Nat) : Nat := ((d.queue f q).map Queue.typ).getD 0

/-- What the data that a unit asks for comes to: the bytes with the poisoned lines among them, reads just issued to the host, a host transfer that
failed with a status of R501, or nothing yet. -/
inductive HostData where
  | ready (d : Device) (bs : List Byte) (bad : List Nat)
  | asked (d : Device)
  | failed (d : Device) (status : Nat)
  | notNow

/-- The bytes at a device or host address for a unit: in device memory at once, in host memory once the reads have completed (R475). -/
def Device.dataAt (d : Device) (m : Memory) (f : Nat) (w : HostWant) (a len : Nat) : HostData :=
  if len = 0 then .ready d [] []
  else if isHost a && d.hostGone f then
    (if d.link.expired.contains f then .failed (d.endXfer w) 0x0901 else .failed (d.endXfer w).freeNext (d.freeVal % 2 ^ 16))
  else if isHost a then
    match d.xferOf w with
    | some x =>
      if x.left ≠ 0 then .notNow
      else if x.status ≠ 0 then .failed (d.endXfer w) x.status
      else .ready (d.endXfer w) x.bytes []
    | none =>
      match d.hostFetch f w (a - hostMem) len with
      | some d => .asked d
      | none => .notNow
  else
    let r := d.memReads a len []
    .ready r.1 (r.1.memBytes m a len) r.2

/-- The source bytes of a handed entry. -/
def Device.sourceData (d : Device) (m : Memory) (x : Fetched) (a len : Nat) : HostData := d.dataAt m x.func (.data x.id) a len

/-- CQ_MODERATION_TIMER: MOD_US has passed after the first unsignalled entry (R510). -/
def execCqModerationTimer (f q : Nat) (s : State) : Out :=
  match s.dev.queue f q with
  | none => s.same
  | some x => if x.unsig = 0 then s.same else s.done ((s.dev.setQueue f q { x with unsig := 0 }).sendMsix f x.vector)

/-- Post the held completions that now find slots. -/
def Device.drainHeld (d : Device) (m : Memory) (f q : Nat) : Nat → Device
  | 0 => d
  | n + 1 =>
    match d.queue f q with
    | none => d
    | some x =>
      match x.held with
      | [] => d
      | bs :: rest => if x.slotFree then ((d.setQueue f q { x with held := rest }).postSlot m f q bs).drainHeld m f q n else d

/-- CQ_SPACE_RETURN: a completion slot frees; held completions are posted and fetching resumes (R510). -/
def execCqSpaceReturn (f q : Nat) (s : State) : Out :=
  match s.dev.queue f q with
  | none => s.same
  | some x => if x.held.isEmpty || !x.slotFree then s.same else s.done (s.dev.drainHeld s.mem f q 64)

/-- EVENT_OVERFLOW: space returns to a full event queue and EVENT_OVERFLOW is written with the number dropped (R511). -/
def execEventOverflow (f q : Nat) (s : State) : Out :=
  match s.dev.queue f q with
  | none => s.same
  | some x =>
    if x.typ ≠ 6 ∨ x.dropped = 0 ∨ !x.slotFree ∨ s.dev.eventQueue f ≠ some q then s.same
    else s.done ((s.dev.setQueue f q { x with dropped := 0 }).event s.mem f 0x0A02 0xF00 [x.dropped])

end Sys2Proof.Machine
end

