-- ==== Sys2Proof/Machine/Cvu.lean ====
section
/-!
DEFINITION. The check-value units (spec/13, R427 to R432): their counters and mismatch capture for every owner, and software jobs.
-/
namespace Sys2Proof.Machine

/-- CVU_ALLOC.OWNER of unit `u` of the page of half `h` (R429). -/
def ownerField (h u : Nat) : Field :=
  ((if h = 0 then [Fld.CVU_ALLOC_OWNER0, Fld.CVU_ALLOC_OWNER1, Fld.CVU_ALLOC_OWNER2, Fld.CVU_ALLOC_OWNER3, Fld.CVU_ALLOC_OWNER4, Fld.CVU_ALLOC_OWNER5,
      Fld.CVU_ALLOC_OWNER6, Fld.CVU_ALLOC_OWNER7, Fld.CVU_ALLOC_OWNER8, Fld.CVU_ALLOC_OWNER9, Fld.CVU_ALLOC_OWNER10, Fld.CVU_ALLOC_OWNER11,
      Fld.CVU_ALLOC_OWNER12, Fld.CVU_ALLOC_OWNER13, Fld.CVU_ALLOC_OWNER14]
    else [Fld.CVUB_ALLOC_OWNER0, Fld.CVUB_ALLOC_OWNER1, Fld.CVUB_ALLOC_OWNER2, Fld.CVUB_ALLOC_OWNER3, Fld.CVUB_ALLOC_OWNER4, Fld.CVUB_ALLOC_OWNER5,
      Fld.CVUB_ALLOC_OWNER6, Fld.CVUB_ALLOC_OWNER7, Fld.CVUB_ALLOC_OWNER8, Fld.CVUB_ALLOC_OWNER9, Fld.CVUB_ALLOC_OWNER10, Fld.CVUB_ALLOC_OWNER11,
      Fld.CVUB_ALLOC_OWNER12, Fld.CVUB_ALLOC_OWNER13, Fld.CVUB_ALLOC_OWNER14])[u]?).getD
    (if h = 0 then Fld.CVU_ALLOC_OWNER15 else Fld.CVUB_ALLOC_OWNER15)

/-- The owner of unit `u` of half `h`: 0 SOFTWARE, 1 GFT_TX, 2 GFT_RX, 3 STORAGE, 4 BELAY. -/
def Device.unitOwner (d : Device) (i h u : Nat) : Nat := d.app (.cvu i h) (ownerField h u)

/-- The half whose page holds an owner's units (R434). -/
def ownerHalf (owner : Nat) : Nat := if owner = 1 ∨ owner = 2 then 0 else 1

/-- The lowest-numbered unit of an owner in its half, with its number in the I-die (log entry 22: which unit takes a stream is not given). -/
def Device.ownerUnit (d : Device) (i owner : Nat) : Nat :=
  let h := ownerHalf owner
  16 * h + (((List.range 16).find? fun u => d.unitOwner i h u = owner).getD 0)

/-- Count a value that an owner's units finish over `bytes` bytes, folds included (R435). -/
def Device.cvuValue (d : Device) (i owner bytes : Nat) (compared : Bool) : Device :=
  let p := Page.cvu i (ownerHalf owner)
  let d := (d.count p 0 bytes).tick p 1
  if compared then d.tick p 2 else d

/-- A mismatch (R432): the owner's counter, bit 16 of ERR_STAT and IRQ_STAT, and the first capture. -/
def Device.cvuMismatch (d : Device) (i h unit owner context : Nat) : Device :=
  let p := Page.cvu i h
  let d := d.tick p (if owner = 2 then 3 else if owner = 3 then 4 else if owner = 4 then 5 else 6)
  let d := if d.flag p Fld.CVU_MISMATCH_VALID then d
    else (((d.put p Fld.CVU_MISMATCH_UNIT unit).put p Fld.CVU_MISMATCH_OWNER owner).put p Fld.CVU_MISMATCH_CONTEXT context).put p Fld.CVU_MISMATCH_VALID 1
  (d.errNoCairn p 16 (Config.blockErrCode 0x11 16)).irq p 16

/-- A hardware owner's comparison of a value: counted, and a mismatch where it fails. -/
def Device.cvuCheck (d : Device) (i owner bytes context : Nat) (ok : Bool) : Device :=
  let d := d.cvuValue i owner bytes true
  if ok then d else d.cvuMismatch i (ownerHalf owner) (d.ownerUnit i owner) owner context

/-! ### Software jobs (R430, R431) -/

/-- The register of an algorithm over more bytes, its initial value and its final exclusive-or (R427). -/
def cvuRun (alg reg : Nat) (bs : List Byte) : Nat :=
  match alg with
  | 1 => crcR 0x9A6C9329AC4BC9B5 reg bs
  | 2 => bs.foldl (fun c b => crcBits16 8 (c ^^^ (b.toNat * 256))) reg
  | _ => crcR 0x82F63B78 reg bs
def cvuInit (alg : Nat) : Nat := if alg = 1 then 2 ^ 64 - 1 else if alg = 2 then 0 else 2 ^ 32 - 1
def cvuWidth (alg : Nat) : Nat := if alg = 1 then 64 else if alg = 2 then 16 else 32

/-- The fold bytes of a unit (R428). -/
def Device.foldBytes (d : Device) (p : Page) (u : Nat) : List Byte :=
  (leBytes 8 (d.fldI p Fld.CVU_FOLD0 u) ++ leBytes 8 (d.fldI p Fld.CVU_FOLD1 u)).take (d.fldI p Fld.CVU_CFG_FOLD_LEN u)

/-- CVU_JOB: a write of CVU_JOB_CTL with GO set starts a job on unit `u` of half `h` (R430); START and FINAL are those of the write. -/
def execCvuJob (r : Req) (i h u : Nat) (start final : Bool) (s : State) : Out :=
  let d := s.dev
  let p := Page.cvu i h
  if !d.mayAccess r p || decide (16 ≤ u) then s.same
  else if d.unitOwner i h u ≠ 0 then s.done (d.errNoCairn p 17 (Config.blockErrCode 0x11 17))
  else if !d.holdsLease r p u then s.done (d.errNoCairn p 18 (Config.blockErrCode 0x11 18))
  else if d.fldI p Fld.CVU_JOB_CTL_BUSY u = 1 then s.done (d.errNoCairn p 17 (Config.blockErrCode 0x11 17))
  else
    let alg := d.fldI p Fld.CVU_CFG_ALG u
    let d := (d.putI p Fld.CVU_JOB_CTL_START u (b2n start)).putI p Fld.CVU_JOB_CTL_FINAL u (b2n final)
    let d := (d.putI p Fld.CVU_JOB_CTL_BUSY u 1).putI p Fld.CVU_JOB_CTL_RESULT u 0
    s.done (if start then
        let pre := if d.fldI p Fld.CVU_CFG_FOLD u = 1 then d.foldBytes p u else []
        ((d.putI p Fld.CVU_RUN u (cvuRun alg (cvuInit alg) pre)).putI p Fld.CVU_BYTES u 0).count p 0 pre.length
      else d)

/-- The end of a job. -/
def Device.cvuEnd (d : Device) (i h u result : Nat) : Device :=
  ((d.putI (.cvu i h) Fld.CVU_JOB_CTL_BUSY u 0).putI (.cvu i h) Fld.CVU_JOB_CTL_RESULT u result).endXfer (.unit "cvu" (2 * i + h) u)

/-- CVU_JOB_DONE: the unit has read its source, and the value is finished and compared as the job asks (R430, R431). -/
def execCvuJobDone (i h u : Nat) (s : State) : Out :=
  let d := s.dev
  let p := Page.cvu i h
  if !d.present p || decide (16 ≤ u) || decide (d.fldI p Fld.CVU_JOB_CTL_BUSY u = 0) then s.same
  else
    let a := d.fldI p Fld.CVU_JOB_ADDR u
    let len := d.fldI p Fld.CVU_JOB_LEN u
    let alg := d.fldI p Fld.CVU_CFG_ALG u
    let owner := d.fldI p Fld.LEASE_OWNER_OWNER u
    let func := if owner / 4096 = 2 then owner % 4096 else 0
    if len ≠ 0 && !isHost a && !d.inMemory a len then s.done ((d.cvuEnd i h u (d.freeVal % 4)).freeNext)
    else match d.dataAt s.mem func (.unit "cvu" (2 * i + h) u) a len with
    | .notNow => s.same
    | .asked d => s.done d
    | .failed d st => s.done (if st = 0x0905 then d.cvuEnd i h u 3 else (d.cvuEnd i h u (d.freeVal % 4)).freeNext)
    | .ready d bs bad =>
      let reg := d.fldI p Fld.CVU_RUN u
      match bad with
      | line :: _ =>
        let n := (line - a) / 64 * 64
        let d := (d.putI p Fld.CVU_RUN u (cvuRun alg reg (bs.take n))).putI p Fld.CVU_BYTES u (d.fldI p Fld.CVU_BYTES u + n)
        s.done ((d.count p 0 n).cvuEnd i h u 3)
      | [] =>
        let reg := cvuRun alg reg bs
        let d := (d.putI p Fld.CVU_BYTES u (d.fldI p Fld.CVU_BYTES u + len)).count p 0 len
        if d.fldI p Fld.CVU_JOB_CTL_FINAL u = 0 then s.done ((d.putI p Fld.CVU_RUN u reg).cvuEnd i h u 1)
        else
          let suf := if d.fldI p Fld.CVU_CFG_FOLD u = 2 then d.foldBytes p u else []
          let v := (cvuRun alg reg suf) ^^^ (if alg = 2 then 0 else cvuInit alg)
          let d := ((d.count p 0 suf.length).putI p Fld.CVU_RUN u v).tick p 1
          if d.fldI p Fld.CVU_CFG_CMP u = 0 then s.done (d.cvuEnd i h u 1)
          else
            let d := d.tick p 2
            if v = d.fldI p Fld.CVU_EXPECT u % 2 ^ cvuWidth alg then s.done (d.cvuEnd i h u 1)
            else s.done ((d.cvuMismatch i h (16 * h + u) 0 len).cvuEnd i h u 2)

end Sys2Proof.Machine
end

