-- ==== Sys2Proof/Machine/Frac.lean ====
section
/-!
DEFINITION. Exact non-negative fractions, for the round-trip estimates of R330 and the congestion window of R347.
-/
namespace Sys2Proof.Machine

/-- A fraction in lowest terms; a zero denominator is taken as 1. -/
def Frac.of (n d : Nat) : Frac :=
  let d := if d = 0 then 1 else d
  let g := Nat.gcd n d
  ⟨n / g, d / g⟩

/-- A whole number. -/
def Frac.nat (n : Nat) : Frac := ⟨n, 1⟩

def Frac.add (a b : Frac) : Frac := Frac.of (a.num * b.den + b.num * a.den) (a.den * b.den)

/-- Subtraction, 0 where it would be negative. -/
def Frac.sub (a b : Frac) : Frac := Frac.of (a.num * b.den - b.num * a.den) (a.den * b.den)

def Frac.mul (a b : Frac) : Frac := Frac.of (a.num * b.num) (a.den * b.den)
def Frac.div (a b : Frac) : Frac := Frac.of (a.num * b.den) (a.den * b.num)
def Frac.le (a b : Frac) : Bool := decide (a.num * b.den ≤ b.num * a.den)
def Frac.lt (a b : Frac) : Bool := decide (a.num * b.den < b.num * a.den)
def Frac.max (a b : Frac) : Frac := if a.le b then b else a
def Frac.min (a b : Frac) : Frac := if a.le b then a else b

/-- The distance of two fractions. -/
def Frac.dist (a b : Frac) : Frac := if a.le b then b.sub a else a.sub b

/-- `((n - k) a + k b) / n`: the estimate `a` moved toward `b` with gain `k / n`. -/
def Frac.toward (a b : Frac) (n : Nat) : Frac := Frac.of ((n - 1) * a.num * b.den + b.num * a.den) (n * a.den * b.den)

end Sys2Proof.Machine
end

