-- ==== Sys2Proof/Machine/Formats.lean ====
section
/-!
DEFINITION. Number formats and deterministic arithmetic (spec/04, R95 to R122): every value is an exact dyadic number, and each rounding is one
explicit step.
-/
namespace Sys2Proof.Machine

/-- A decoded value: NaN, an infinity, or the exact (-1)^neg × m × 2^e. -/
inductive Num where
  | nan
  | inf (neg : Bool)
  | fin (neg : Bool) (m : Nat) (e : Int)
deriving DecidableEq, Repr

/-- The parameters of an element format (R97). `top` is the largest finite magnitude as mantissa and exponent of two. -/
structure Fp where
  ebits : Nat
  mbits : Nat
  bias : Nat
  /-- the top exponent encodes infinities and NaN as IEEE does -/
  ieee : Bool
  /-- only the all-ones code is a NaN (E4M3) -/
  onlyNan : Bool
  topM : Nat
  topE : Int
  nanCode : Nat
  emax : Nat
deriving DecidableEq, Repr

def e2m1 : Fp := ⟨2, 1, 1, false, false, 3, 1, 0, 2⟩
def e4m3 : Fp := ⟨4, 3, 7, false, true, 14, 5, 0x7F, 8⟩
def e5m2 : Fp := ⟨5, 2, 15, true, false, 7, 13, 0x7F, 15⟩
def bf16 : Fp := ⟨8, 7, 127, true, false, 255, 120, 0x7FC0, 0⟩
def fp32 : Fp := ⟨8, 23, 127, true, false, 16777215, 104, 0x7FC00000, 0⟩

/-- Width of an encoding in bits. -/
def Fp.width (f : Fp) : Nat := 1 + f.ebits + f.mbits

/-- Decode an encoding (R97, R98). -/
def Fp.dec (f : Fp) (c : Nat) : Num :=
  let neg := bit c (f.ebits + f.mbits)
  let ex := bits c f.mbits f.ebits
  let man := c % 2 ^ f.mbits
  if f.ieee && decide (ex = 2 ^ f.ebits - 1) then (if man = 0 then .inf neg else .nan)
  else if f.onlyNan && decide (ex = 2 ^ f.ebits - 1 ∧ man = 2 ^ f.mbits - 1) then .nan
  else if ex = 0 then .fin neg man (1 - (f.bias : Int) - f.mbits)
  else .fin neg (2 ^ f.mbits + man) ((ex : Int) - f.bias - f.mbits)

/-- floor(log2) of a non-zero magnitude m × 2^e. -/
def ilog (m : Nat) (e : Int) : Int := (Nat.log2 m : Int) + e

/-- The exact value m × 2^e written over 2^q for q ≤ e, else truncated: quotient, remainder and the divisor. -/
def overQ (m : Nat) (e q : Int) : Nat × Nat × Nat :=
  if q ≤ e then (m * 2 ^ (e - q).toNat, 0, 1)
  else
    let k := 2 ^ (q - e).toNat
    (m / k, m % k, k)

/-- Is the magnitude m × 2^e greater than m' × 2^e'? -/
def magGt (m : Nat) (e : Int) (m' : Nat) (e' : Int) : Bool :=
  if e ≤ e' then decide (m' * 2 ^ (e' - e).toNat < m) else decide (m' < m * 2 ^ (e - e').toNat)

/-- The rounding a descriptor selects: to nearest even, or stochastic with a 16-bit draw (R108, R110). -/
inductive Rnd where
  | rne
  | sr (r : Nat)
deriving DecidableEq, Repr

/-- Round the quotient n with remainder `rem` over `k`. -/
def roundUp (rd : Rnd) (n rem k : Nat) : Nat :=
  if rem = 0 then n
  else match rd with
    | .rne => if k < 2 * rem ∨ (2 * rem = k ∧ n % 2 = 1) then n + 1 else n
    | .sr r => if 65536 ≤ rem * 65536 / k + r then n + 1 else n

/-- A conversion's result: the encoding, and the events saturated and overflowed to infinity (R108). -/
structure Conv where
  code : Nat
  sat : Bool
  ovf : Bool
deriving DecidableEq, Repr

/-- The sign bit of an encoding. -/
def Fp.sgn (f : Fp) (neg : Bool) : Nat := if neg then 2 ^ (f.ebits + f.mbits) else 0

/-- The encoding of the representable magnitude n × 2^q (n below 2^(mbits+1), or equal to it after a carry). -/
def Fp.pack (f : Fp) (n : Nat) (q : Int) : Nat :=
  if n < 2 ^ f.mbits then n
  else
    let (n, q) := if 2 ^ (f.mbits + 1) ≤ n then (n / 2, q + 1) else (n, q)
    (q + f.mbits + f.bias).toNat * 2 ^ f.mbits + (n - 2 ^ f.mbits)

/-- The encoding of the largest finite magnitude. -/
def Fp.topCode (f : Fp) : Nat := f.pack f.topM f.topE

/-- Convert an exact value, rounding once (R108, R110). -/
def Fp.enc (f : Fp) (rd : Rnd) (x : Num) : Conv :=
  match x with
  | .nan => ⟨f.nanCode, false, false⟩
  | .inf neg =>
    if f.ieee then ⟨f.sgn neg + (2 ^ f.ebits - 1) * 2 ^ f.mbits, false, false⟩
    else ⟨f.sgn neg + f.topCode, true, false⟩
  | .fin neg 0 _ => ⟨f.sgn neg, false, false⟩
  | .fin neg m e =>
    let narrow := f.mbits < 7
    let qmin : Int := 1 - (f.bias : Int) - f.mbits
    let q := max (ilog m e - f.mbits) qmin
    let (n, rem, k) := overQ m e q
    let n := roundUp rd n rem k
    if narrow && magGt m e f.topM f.topE then ⟨f.sgn neg + f.topCode, true, false⟩
    else if magGt n q f.topM f.topE then ⟨f.sgn neg + (2 ^ f.ebits - 1) * 2 ^ f.mbits, false, true⟩
    else ⟨f.sgn neg + f.pack n q, false, false⟩

/-- Negate. -/
def Num.neg : Num → Num
  | .nan => .nan
  | .inf b => .inf (!b)
  | .fin b m e => .fin (!b) m e

/-- The signed mantissa at exponent q ≤ e. -/
def sgnAt (neg : Bool) (m : Nat) (e q : Int) : Int :=
  let v : Int := m * 2 ^ (e - q).toNat
  if neg then -v else v

/-- A signed integer times 2^q; an exact zero takes the given sign. -/
def ofSigned (v q : Int) (zneg : Bool) : Num := if v = 0 then .fin zneg 0 0 else .fin (decide (v < 0)) v.natAbs q

/-- The exact sum; a zero sum is +0 unless both are -0 (IEEE, RNE). -/
def Num.add : Num → Num → Num
  | .nan, _ => .nan
  | _, .nan => .nan
  | .inf a, .inf b => if a = b then .inf a else .nan
  | .inf a, .fin _ _ _ => .inf a
  | .fin _ _ _, .inf b => .inf b
  | .fin a m e, .fin b n g =>
    let q := min e g
    ofSigned (sgnAt a m e q + sgnAt b n g q) q (a && b)

/-- The exact product. -/
def Num.mul : Num → Num → Num
  | .nan, _ => .nan
  | _, .nan => .nan
  | .inf a, .inf b => .inf (a != b)
  | .inf a, .fin b m _ => if m = 0 then .nan else .inf (a != b)
  | .fin a m _, .inf b => if m = 0 then .nan else .inf (a != b)
  | .fin a m e, .fin b n g => .fin (a != b) (m * n) (e + g)

/-- FP32 operations under RNE (R120); a fused multiply-add rounds once. -/
def rnd32 (x : Num) : Nat := (fp32.enc .rne x).code
def add32 (a b : Nat) : Nat := rnd32 ((fp32.dec a).add (fp32.dec b))
def sub32 (a b : Nat) : Nat := rnd32 ((fp32.dec a).add (fp32.dec b).neg)
def mul32 (a b : Nat) : Nat := rnd32 ((fp32.dec a).mul (fp32.dec b))
def fma32 (a b c : Nat) : Nat := rnd32 (((fp32.dec a).mul (fp32.dec b)).add (fp32.dec c))

/-- BF16 addition: the exact sum rounded once (R118). -/
def addBf (a b : Nat) : Nat := (bf16.enc .rne ((bf16.dec a).add (bf16.dec b))).code

/-! ### Format codes -/

/-- The element format of a tensor format code (R95); K2 and reserved codes have none of their own. -/
def fmtElem (code : Nat) : Option Fp :=
  match code with
  | 0 => some fp32
  | 1 => some bf16
  | 2 => some e4m3
  | 3 => some e5m2
  | 4 => some e2m1
  | 6 => some e4m3
  | 7 => some e5m2
  | 8 => some e2m1
  | _ => none

/-- The scale block in elements; 0 for the formats without scales (R95). -/
def fmtBlock (code : Nat) : Nat := if code = 2 ∨ code = 3 ∨ code = 4 then 32 else if code = 6 ∨ code = 7 ∨ code = 8 then 16 else if code = 5 then 128 else 0

/-- Bits of one stored element. -/
def fmtBits (code : Nat) : Nat :=
  match code with
  | 0 => 32 | 1 => 16 | 2 => 8 | 3 => 8 | 4 => 4 | 5 => 2 | 6 => 8 | 7 => 8 | 8 => 4 | _ => 0

/-- Is the code a P format? -/
def fmtIsP (code : Nat) : Bool := decide (code = 2 ∨ code = 3 ∨ code = 4 ∨ code = 6 ∨ code = 7 ∨ code = 8)

/-- Is the code reserved? -/
def fmtReserved (code : Nat) : Bool := decide (9 ≤ code)

/-- An E8M0 scale (R99): a power of two, or NaN. -/
def scaleNum (k : Nat) : Num := if k = 0xFF then .nan else .fin false 1 ((k : Int) - 127)

/-- An element of a P format with its scale, exactly (R99, R109). -/
def Num.scaled (x : Num) (k : Nat) : Num :=
  if k = 0xFF then .nan
  else match x with
    | .fin b m e => .fin b m (e + ((k : Int) - 127))
    | y => y

/-- Decode a P element with its scale into FP32 (R109). -/
def pToFp32 (f : Fp) (c k : Nat) : Nat := rnd32 ((f.dec c).scaled k)

/-! ### Writing a scale block -/

/-- What writing a block gives: its scale code, its element codes and the events. -/
structure BlockOut where
  scale : Nat
  codes : List Nat
  sats : Nat
  nanBlocks : Nat
deriving DecidableEq, Repr

/-- floor(log2) of the largest magnitude of a block, if any element is not zero. -/
def blockLog (xs : List Num) : Option Int :=
  xs.foldl (fun acc x =>
    match x with
    | .fin _ (m + 1) e => (match acc with | none => some (ilog (m + 1) e) | some l => some (max l (ilog (m + 1) e)))
    | _ => acc) none

def Num.isFin : Num → Bool
  | .fin _ _ _ => true
  | _ => false

def clampI (x lo hi : Int) : Int := if x < lo then lo else if hi < x then hi else x

/-- Write one scale block of a P format (R107); each element brings its rounding. -/
def encBlock (f : Fp) (xs : List (Num × Rnd)) : BlockOut :=
  if xs.any (fun x => !x.1.isFin) then ⟨0xFF, xs.map (fun _ => 0), 0, 1⟩
  else
    let k := match blockLog (xs.map Prod.fst) with
      | none => 0
      | some l => (clampI (l - f.emax + 127) 0 0xFE).toNat
    let cs := xs.map fun x => f.enc x.2 (match x.1 with | .fin b m e => .fin b m (e - ((k : Int) - 127)) | y => y)
    ⟨k, cs.map Conv.code, (cs.filter Conv.sat).length, 0⟩

/-! ### Stochastic draws -/

/-- The 16-bit draw of R111. -/
def srDraw (key pitch stream index : Nat) : Nat :=
  let m := 2 ^ 64
  let z := (((key ^^^ (pitch * 0x9E3779B97F4A7C15 % m)) ^^^ (stream * 2 ^ 48 % m)) ^^^ index) % m
  let z := ((z ^^^ (z / 2 ^ 30)) * 0xBF58476D1CE4E5B9) % m
  let z := ((z ^^^ (z / 2 ^ 27)) * 0x94D049BB133111EB) % m
  let z := z ^^^ (z / 2 ^ 31)
  z % 2 ^ 16

/-! ### Accumulation -/

/-- The k-slice of a pair of operand formats (R113): the smaller scale block, or 8 for BF16; none for a pair the array does not accept. -/
def kSlice (a b : Nat) : Option Nat :=
  if a = 1 ∧ b = 1 then some 8
  else if fmtIsP a && fmtIsP b then some (min (fmtBlock a) (fmtBlock b))
  else none

/-- The exact sum of the products of a slice, without scales (R114, R115). -/
def dotExact (xs : List (Num × Num)) : Num :=
  xs.foldl (fun acc x => acc.add (x.1.mul x.2)) (.fin false 0 0)

/-- A slice result (R114, R115): the exact sum times the two scales, rounded once to FP32; a zero sum is +0. -/
def sliceResult (xs : List (Num × Num)) (ka kb : Nat) : Nat :=
  if ka = 0xFF ∨ kb = 0xFF then fp32.nanCode
  else match dotExact xs with
    | .nan => fp32.nanCode
    | .inf n => rnd32 (.inf n)
    | .fin _ 0 _ => 0
    | .fin n m e => rnd32 (.fin n m (e + ((ka : Int) - 127) + ((kb : Int) - 127)))

/-- Is an FP32 encoding a NaN, an infinity? -/
def isNan32 (c : Nat) : Bool := decide (bits c 23 8 = 255 ∧ c % 2 ^ 23 ≠ 0)
def isInf32 (c : Nat) : Bool := decide (bits c 23 8 = 255 ∧ c % 2 ^ 23 = 0)

/-- One level of the pairwise tree. -/
def treeLevel (add : Nat → Nat → Nat) : List Nat → List Nat
  | a :: b :: t => add a b :: treeLevel add t
  | t => t

/-- The fixed pairwise tree of R118 by logical part number, over `fuel` levels. -/
def treeSumAux (add : Nat → Nat → Nat) : Nat → List Nat → List Nat
  | 0, p => p
  | n + 1, p => if p.length ≤ 1 then p else treeSumAux add n (treeLevel add p)

/-- tree_sum (R118). -/
def treeSum (add : Nat → Nat → Nat) (p : List Nat) : Nat := (treeSumAux add p.length p).headD 0

/-! ### K2 -/

/-- The codebook index of weight i of a K2 block (R103). -/
def k2Index (blk : List Byte) (i : Nat) : Nat := bits (blk.getD (4 + i / 4) 0).toNat (2 * (i % 4)) 2

/-- A K2 block delivered (R104 to R106, R637): the delivered scale code, the element codes, whether the block carries a NaN codebook entry or a
NaN tensor scale, and the codebook entries that saturate (R636). -/
structure K2Out where
  scale : Nat
  codes : List Nat
  nan : Bool
  sats : Nat
deriving DecidableEq, Repr

/-- Decompress one K2 block into P8-E4M3 or P4 elements under a tensor scale code. -/
def k2Deliver (p4 : Bool) (tensorScale : Nat) (blk : List Byte) : K2Out :=
  let c := (List.range 4).map fun n => (blk.getD n 0).toNat
  let idx := (List.range 128).map (k2Index blk)
  let nanE := c.map fun x => decide (e4m3.dec x = .nan)
  let nan := nanE.any id || decide (tensorScale = 0xFF)
  if !p4 then ⟨tensorScale, idx.map fun i => if nanE.getD i false then 0x7F else c.getD i 0, nan, 0⟩
  else if nan then ⟨0xFF, idx.map fun _ => 0, true, 0⟩
  else
    let vals := c.map e4m3.dec
    let s : Int := match blockLog vals with | none => 0 | some l => l - 2
    let code := clampI ((tensorScale : Int) + s) 0 0xFE
    let s := code - tensorScale
    let conv := vals.map fun x => e2m1.enc .rne (match x with | .fin b m e => .fin b m (e - s) | y => y)
    ⟨code.toNat, idx.map fun i => (conv.getD i ⟨0, false, false⟩).code, false, (conv.filter Conv.sat).length⟩

end Sys2Proof.Machine
end

