-- ==== Sys2Proof/Machine/Tiles.lean ====
section
/-!
DEFINITION. The tile as its commands see it (spec/05): the anchor store's views, landing buffers, token channels, error-code findings, and
taking a tile fault, which fences the region and raises a belay stop (R153, R23).
-/
namespace Sys2Proof.Machine

/-! ### Tiles, regions and partitions -/

/-- A strand after R164: everything zero, in a state. -/
def Strand.fresh (pc : Nat) (st : StrandState) : Strand :=
  ⟨pc, [], [], List.replicate 4 ⟨0, 0, 0, 0, false, false⟩, 0, st, 0, 0⟩

/-- A tile that has run nothing. -/
def Tile.blank : Tile := ⟨[], [], none, 0, [], [], [], [], [], [], [], 0, [], 0, [], [], [], [], []⟩

def Device.tile (d : Device) (n i : Nat) : Tile := Tbl.lookD d.tiles (2048 * n + i) Tile.blank
def Device.setTile (d : Device) (n i : Nat) (t : Tile) : Device := d.setTiles (Tbl.put d.tiles (2048 * n + i) t)

/-- The region page of a tile. -/
def rgnOf (n i : Nat) : Page := .rgn n (i / 128)

/-- The partition a region belongs to, if any (RGN_STATE). -/
def Device.regionPart (d : Device) (n r : Nat) : Option Nat :=
  if d.flag (.rgn n r) Fld.RGN_STATE_PVALID then some (d.fld (.rgn n r) Fld.RGN_STATE_PTAG) else none

/-- The partition a tile belongs to (TILE_PART). -/
def Device.tilePart (d : Device) (n i : Nat) : Option Nat :=
  if d.flag (.tile n i) Fld.TILE_PART_VALID then some (d.fld (.tile n i) Fld.TILE_PART_TAG) else none

/-- INFO of an entry of a tile, cluster or region ring (R589): SOURCE, PTAG, PVALID and DATA. -/
def infoOf (source : Nat) (part : Option Nat) (data : Nat) : Nat :=
  source % 1024 + (part.getD 0 % 32) * 1024 + b2n part.isSome * 32768 + data % 2 ^ 32 * 65536

/-- An entry in a tile's ring. -/
def Device.cairnTile (d : Device) (n i code source data : Nat) : Device :=
  d.cairn (.tile n i) code (infoOf source (d.tilePart n i) data)

/-- An entry that a cluster or region writes about itself: SOURCE 0x0100. -/
def Device.cairnRgn (d : Device) (p : Page) (r code data : Nat) : Device :=
  d.cairn p code (infoOf 0x100 (d.regionPart p.die r) data)

/-- An informational tile entry that TILE_CAIRN_EN permits, written for the first event of its code in a pitch (R155, R158). -/
def Device.cairnOnce (d : Device) (n i : Nat) (en : Option Field) (code source data : Nat) : Device :=
  let ok := match en with
    | some f => d.flag (.tile n i) f
    | none => true
  let t := d.tile n i
  if ok && !t.seen.contains code then (d.setTile n i { t with seen := insSet code t.seen }).cairnTile n i code source data else d

/-! ### Faults -/

/-- A region faults or a unit in it does: it enters FENCED (R23), its partition notes it, and the entry FENCED carries the cause. -/
def Device.fenceRegion (d : Device) (n r cause : Nat) : Device :=
  let p := Page.rgn n r
  if d.flag p Fld.STATUS_FENCED then d
  else
    let d := ((d.put p Fld.RGN_STATE_STATE 3).put p Fld.STATUS_FENCED 1).put (.tdie n) Fld.TDIE_STATE_FENCED
      (setBit (d.fld (.tdie n) Fld.TDIE_STATE_FENCED) r)
    let d := d.cairnRgn p r 0x0303 cause
    match d.regionPart n r with
    | none => d
    | some q =>
      match Tbl.look d.parts q with
      | none => d
      | some x => d.setParts (Tbl.put d.parts q { x with faulted := insSet (16 * n + r) x.faulted })

/-- Committed anchors of a region are lost: the partition must be restored before it replays (R154, R563). -/
def Device.stateLost (d : Device) (n r : Nat) : Device :=
  match d.regionPart n r with
  | none => d
  | some q =>
    match Tbl.look d.parts q with
    | none => d
    | some x => d.setParts (Tbl.put d.parts q { x with lost := true })

/-- A region faults: fenced, bit 16 of its page, and a stop with cause TILE_FAULT (R21, R153, R163). -/
def Device.regionFault (d : Device) (n r cause : Nat) : Device :=
  let p := Page.rgn n r
  (((d.fenceRegion n r cause).errNoCairn p 16 cause).irq p 16).raiseHw 0x01

/-- A tile fault (R153): the capture, the entry, the queued descriptors discarded, the region fenced and the belay stop raised. `at`: the strand
with its program counter and stack depth; none for a fault that belongs to no strand. A tile that has faulted takes no other fault. -/
def Device.tileFault (d : Device) (n i code : Nat) (at_ : Option (Nat × Nat × Nat)) : Device :=
  let p := Page.tile n i
  if d.flag p Fld.TILE_RUN_FAULTED then d
  else
    let (st, pc, depth) := at_.getD (0, 0, 0)
    let d := ((d.put p Fld.TILE_FAULT_CODE code).put p Fld.TILE_FAULT_STRAND st).put p Fld.TILE_FAULT_NOSTRAND (b2n at_.isNone)
    let d := ((d.put p Fld.TILE_FAULT_VALID 1).put p Fld.TILE_FAULT_PC_PC pc).put p Fld.TILE_RUN_FAULTED 1
    let d := d.cairnTile n i code (if at_.isNone then 0x100 else st) (pc + depth * 2 ^ 16)
    let d := (d.errNoCairn p 16 code).irq p 16
    let d := d.setTile n i { d.tile n i with arrQ := [], vecQ := [], movQ := [] }
    let d := d.tick (rgnOf n i) 2
    let d := if d.flag (rgnOf n i) Fld.STATUS_FENCED then d else d.put (rgnOf n i) Fld.RGN_STATE_FAULT_TILE (i % 128)
    let d := if code = 0x0106 then d.stateLost n (i / 128) else d
    d.regionFault n (i / 128) code

/-- A fault of a strand's own instruction. -/
def Device.strandFault (d : Device) (n i st code : Nat) : Device :=
  let x := Tbl.lookD (d.tile n i).strands st (Strand.fresh 0 .idle)
  d.tileFault n i code (some (st, x.pc, x.stack.length))

/-- A fault that a tensor operation raises (R153). -/
def Device.opFault (d : Device) (n i : Nat) (op : TensorOp) (code : Nat) : Device :=
  let x := Tbl.lookD (d.tile n i).strands op.strand (Strand.fresh 0 .idle)
  d.tileFault n i code (some (op.strand, op.pc, x.stack.length))

/-! ### The anchor store -/

/-- The bank size P in bytes, at most 128 KiB (R129, R155). -/
def Device.bankSize (d : Device) (n i : Nat) : Nat := min 16 (d.fld (.tile n i) Fld.TILE_ANCHOR_SPLIT_PAIR_8K) * 8192

/-- The size of a view (R130): its valid addresses lie below it. -/
def viewSize (p view : Nat) : Nat := if view = 2 then 262144 - 2 * p else p

/-- The bank bit of a line (R130). -/
def Tile.bankOf (t : Tile) (line : Nat) : Nat := b2n (t.bank.contains line)

/-- Where a read of byte `a` through a view finds it: its physical byte (R130). -/
def physRead (t : Tile) (p view a : Nat) : Nat :=
  let b := t.bankOf (a / 256)
  if view = 2 then 2 * p + a
  else if view = 1 ∧ t.dirty.contains (a / 256) then (1 - b) * p + a
  else b * p + a

/-- Where a write of byte `a` through the NEW or SCRATCH view puts it (R130). -/
def physWrite (t : Tile) (p view a : Nat) : Nat :=
  if view = 2 then 2 * p + a else (1 - t.bankOf (a / 256)) * p + a

/-- The key of a physical byte of the anchor store. -/
def anchorKey (n i phys : Nat) : Nat := tileMem n i + 0x40000 + phys

/-- A physical byte of the anchor store: a free value where its content is undefined and nothing has been written since (R129, R133). -/
def Device.anchorByte (d : Device) (m : Memory) (n i phys : Nat) : Byte :=
  let t := d.tile n i
  match t.undef.find? (fun u => decide (u.2.1 ≤ phys ∧ phys < u.2.2)) with
  | none => rdB m d.wr (anchorKey n i phys)
  | some u =>
    if t.fresh.any (fun r => decide (r.1 ≤ phys ∧ phys < r.2)) then rdB m d.wr (anchorKey n i phys)
    else BitVec.ofNat 8 (Config.undefByte u.1 (anchorKey n i phys))

/-- `len` physical bytes of the anchor store. -/
def Device.anchorBytes (d : Device) (m : Memory) (n i phys len : Nat) : List Byte :=
  (List.range len).map fun k => d.anchorByte m n i (phys + k)

/-- Store physical bytes of the anchor store. -/
def Device.anchorSt (d : Device) (n i phys : Nat) (bs : List Byte) : Device :=
  let t := d.tile n i
  let d := d.st (anchorKey n i phys) bs
  if t.undef = [] then d else d.setTile n i { t with fresh := (phys, phys + bs.length) :: t.fresh }

/-- The content of a physical range becomes undefined (R129, R133). -/
def Device.anchorForget (d : Device) (n i lo hi : Nat) : Device :=
  if hi ≤ lo then d
  else
    let t := d.tile n i
    let outside := fun (r : Nat × Nat) => decide (r.2 ≤ lo ∨ hi ≤ r.1)
    (d.setTile n i { t with undef := (d.clk.free, lo, hi) :: t.undef.filter (fun u => outside u.2), fresh := t.fresh.filter outside }).freeNext

/-- Read bytes through a view. -/
def Device.anchorRead (d : Device) (m : Memory) (n i view a len : Nat) : List Byte :=
  let t := d.tile n i
  let p := d.bankSize n i
  (List.range len).map fun k => d.anchorByte m n i (physRead t p view (a + k))

/-- A write of bytes `bs` at `a` begins on a line of the pair area (R131): a clean line that the write does not cover whole is copied from its
committed bank first, and becomes dirty. -/
def Device.openLine (d : Device) (m : Memory) (n i a len line : Nat) : Device :=
  let t := d.tile n i
  let p := d.bankSize n i
  if t.dirty.contains line then d
  else
    let lo := line * 256
    let d := if a ≤ lo ∧ lo + 256 ≤ a + len then d
      else
        let b := t.bankOf line
        d.anchorSt n i ((1 - b) * p + lo) (d.anchorBytes m n i (b * p + lo) 256)
    d.setTile n i { d.tile n i with dirty := insSet line (d.tile n i).dirty }

/-- Write bytes through the NEW or SCRATCH view (R130, R131). -/
def Device.anchorWrite (d : Device) (m : Memory) (n i view a : Nat) (bs : List Byte) : Device :=
  if bs = [] then d
  else if view = 2 then d.anchorSt n i (2 * d.bankSize n i + a) bs
  else
    (linesOf 256 a bs.length).foldl (fun d lo =>
      let d := d.openLine m n i a bs.length (lo / 256)
      let from_ := max a lo
      d.anchorSt n i (physWrite (d.tile n i) (d.bankSize n i) view from_) ((bs.drop (from_ - a)).take (lo + 256 - from_))) d

/-- Is the word at an address of the indirect space in the committed copy of a line (R135, R136)? -/
def Device.committedWord (d : Device) (n i addr : Nat) : Bool :=
  let p := d.bankSize n i
  let ph := addr - 0x40000
  decide (0x40000 ≤ addr ∧ addr < 0x80000) && decide (ph < 2 * p) &&
    decide ((d.tile n i).bankOf (ph % p / 256) = ph / p)

/-- The fault code of an uncorrectable error at an address of the indirect space (R135, R141, R152). -/
def Device.ueCode (d : Device) (n i addr : Nat) : Nat :=
  if 0x80000 ≤ addr then 0x0107
  else if 0x40000 ≤ addr then (if d.committedWord n i addr then 0x0106 else 0x0105)
  else 0x0109

/-- One corrected error (R135, R141): counted, and the first of the pitch recorded. -/
def Device.correctedError (d : Device) (n i addr : Nat) : Device :=
  (d.tick (.tile n i) 5).cairnOnce n i (some Fld.TILE_CAIRN_EN_CE) 0x0110 0x100 addr

/-- The error code's findings: corrected errors are counted; the first uncorrectable one gives a fault code. -/
def Device.eccFound (d : Device) (n i : Nat) (ecc : Ecc) : Device × Option Nat :=
  ((ecc.filter fun e => !e.2).foldl (fun d e => d.correctedError n i e.1) d,
    ((ecc.filter fun e => e.2).head?).map fun e => d.ueCode n i e.1)

/-! ### Landing buffers -/

/-- The state of a landing buffer (R137): 0 EMPTY, 1 FILLING, 2 FULL. -/
def Device.lbState (d : Device) (n i b : Nat) : Nat :=
  d.fld (.tile n i) (if b = 0 then Fld.TILE_LB_LB0_STATE else Fld.TILE_LB_LB1_STATE)

/-- The valid granules of a landing buffer. -/
def Device.lbGran (d : Device) (n i b : Nat) : Nat :=
  d.fld (.tile n i) (if b = 0 then Fld.TILE_LB_LB0_GRAN else Fld.TILE_LB_LB1_GRAN)

def Device.setLb (d : Device) (n i b state gran : Nat) : Device :=
  if b = 0 then (d.put (.tile n i) Fld.TILE_LB_LB0_STATE state).put (.tile n i) Fld.TILE_LB_LB0_GRAN gran
  else (d.put (.tile n i) Fld.TILE_LB_LB1_STATE state).put (.tile n i) Fld.TILE_LB_LB1_GRAN gran

/-- The pitch boundary or a replay empties both landing buffers (R140); a buffer FULL and unreleased is counted. -/
def Device.emptyLbs (d : Device) (n i : Nat) : Device :=
  let full := b2n (decide (d.lbState n i 0 = 2)) + b2n (decide (d.lbState n i 1 = 2))
  (((if full = 0 then d else d.count (.tile n i) 7 full).setLb n i 0 0 0).setLb n i 1 0 0)

/-! ### Token channels and strands -/

/-- Parcel `a` of a tile's program store (R165). -/
def Device.parcel (d : Device) (m : Memory) (n i a : Nat) : Nat := d.rdN m (tileMem n i + 2 * a) 2

/-- The listed strands of a tile that are READY, in TILE_RUN.READY. -/
def Device.syncReady (d : Device) (n i : Nat) : Device :=
  d.put (.tile n i) Fld.TILE_RUN_READY ((d.tile n i).strands.filter fun kv => kv.2.st = .ready).length

/-- Is the wait of a strand satisfied (R185, R194)? -/
def Device.waitOver (d : Device) (m : Memory) (n i : Nat) (x : Strand) : Bool :=
  let p := d.parcel m n i x.pc
  match x.st with
  | .waitToken => decide (d.parcel m n i (x.pc + 1) ≤ Tbl.lookD (d.tile n i).chans (p % 256) 0)
  | .waitLb => decide (d.lbState n i (p % 2) = 2)
  | _ => false

/-- Strands whose wait is satisfied return to READY (R150). -/
def Device.wake (d : Device) (m : Memory) (n i : Nat) : Device :=
  let t := d.tile n i
  (d.setTile n i { t with strands := Tbl.mapV t.strands fun _ x => if d.waitOver m n i x then { x with st := .ready } else x }).syncReady n i

/-- Tokens reach a channel (R185, R188). -/
def Device.applyTokens (d : Device) (m : Memory) (n i chan count : Nat) : Device :=
  let t := d.tile n i
  let v := Tbl.lookD t.chans chan 0 + count
  let d := d.setTile n i { t with chans := Tbl.put t.chans chan (min v 65535) }
  let d := if 65535 < v then (d.errNoCairn (.tile n i) 18 0x0114).cairnOnce n i none 0x0114 0x100 chan else d
  d.wake m n i

/-- Release a landing buffer (R138); answers false where it is FILLING, which is LB_EARLY_RELEASE. -/
def Device.releaseLb (d : Device) (n i b : Nat) : Device × Bool :=
  match d.lbState n i b with
  | 0 => (d, true)
  | 1 => (d, false)
  | _ => (d.setLb n i b 0 0, true)

/-- Numeric events of an operation (R157, R158): `n` of kind `k`, counted, the first of the pitch recorded. -/
def Device.numericEvents (d : Device) (n i desc kind count : Nat) : Device :=
  if count = 0 then d
  else (d.count (.tile n i) 6 count).cairnOnce n i (some Fld.TILE_CAIRN_EN_NUMERIC) 0x0111 0x100 (desc % 512 + kind * 512)

/-- A write that a tile refuses (R147): counted, bit 17, and an entry where TILE_CAIRN_EN permits. -/
def Device.refuseWrite (d : Device) (n i srcInst srcDie : Nat) : Device :=
  let d := (d.tick (.tile n i) 7).errNoCairn (.tile n i) 17 0x0113
  if d.flag (.tile n i) Fld.TILE_CAIRN_EN_REFUSED then d.cairnTile n i 0x0113 0x100 (srcInst % 65536 + srcDie % 8 * 65536) else d

/-- The tile's pitch and the region's attempt, which tag tokens and deliveries (R189, R262). -/
def Device.tilePitch (d : Device) (n i : Nat) : Nat := d.fld (.tile n i) Fld.TILE_PITCH_NUM_PITCH
def Device.tileAttempt (d : Device) (n i : Nat) : Nat := d.fld (rgnOf n i) Fld.RGN_HOLD_ATTEMPT

/-- How a tag stands against the tile's pitch and attempt (R189, R225). -/
inductive TagFit where
  | equal | early | stale
deriving DecidableEq, Repr

/-- The table of R189. -/
def Device.tagFit (d : Device) (n i pitch attempt : Nat) : TagFit :=
  let p := d.tilePitch n i
  let a := d.tileAttempt n i
  if pitch = p ∧ attempt = a then .equal
  else if (pitch = (p + 1) % 2 ^ 32 ∧ attempt = 0) ∨ (pitch = p ∧ attempt = a + 1) then .early
  else .stale

/-- Is the island of a tile able to perform what arrives or is queued: not STOPPED, and the tile not faulted (R153, R575)? -/
def Device.tileLive (d : Device) (n i : Nat) : Bool :=
  d.present (.tile n i) && !d.stopped (n * 256 + i / 128) && !d.flag (.tile n i) Fld.TILE_RUN_FAULTED

/-- CBUF_UE: an uncorrectable cluster-buffer error is a fault of the region (R160, R162). -/
def execCbufUe (n c addr : Nat) (s : State) : Out :=
  let d := s.dev
  let p := Page.clu n c
  if !d.present p then s.same
  else
    let d := ((d.cairnRgn p (c / 8) 0x0202 addr).errNoCairn p 16 0x0202).irq p 16
    s.done (d.regionFault n (c / 8) 0x0202)

/-- TILE_FAULT: a cause of R152 in the tile itself, of a strand or of none (R153). -/
def execTileFault (n i code : Nat) (strand : Option Nat) (s : State) : Out :=
  let d := s.dev
  if !d.present (.tile n i) || decide (code < 0x0101 ∨ 0x010A < code) then s.same
  else match strand with
    | some st => s.done (d.strandFault n i (st % 256) code)
    | none => s.done (d.tileFault n i code none)

/-- ANCHOR_SCRUB: the scrub interval expires and the next word of the anchor store is read and checked (R136). `ecc`: the finding, some true an
uncorrectable error. -/
def execAnchorScrub (n i : Nat) (ecc : Option Bool) (s : State) : Out :=
  let d := s.dev
  let p := Page.tile n i
  if !d.tileLive n i || !d.flag p Fld.TILE_SCRUB_ENABLE then s.same
  else
    let t := d.tile n i
    let w := t.scrub % 32768
    let addr := 0x40000 + 8 * w
    let d := d.setTile n i { t with scrub := (w + 1) % 32768 }
    match ecc with
    | none => s.done d
    | some false => s.done (d.correctedError n i addr)
    | some true =>
      let bank := d.bankSize n i
      let ph := 8 * w
      let live := if ph < 2 * bank then t.dirty.contains (ph % bank / 256) else d.flag p Fld.TILE_RUN_RUNNING
      if d.committedWord n i addr then s.done (d.tileFault n i 0x0106 none)
      else if live then s.done (d.tileFault n i 0x0105 none)
      else s.done (((d.anchorSt n i (8 * w) (List.replicate 8 0)).tick p 5).cairnTile n i 0x0116 0x100 addr)

/-- Does the indirect window reach an address (R156)? -/
def windowMapped (a : Nat) : Bool := decide (a < 0x18000) || decide (0x40000 ≤ a ∧ a < 0x90000)

/-- Is the byte in a granule that is not yet valid of a buffer that is FILLING, so that it may be old or new (R226)? -/
def Device.unsettled (d : Device) (n i a : Nat) : Bool :=
  decide (0x80000 ≤ a) &&
    (let b := (a - 0x80000) / 0x8000
     decide (d.lbState n i b = 1) && !bit (d.lbGran n i b) ((a - 0x80000) % 0x8000 / 4096))

/-- Bytes of the indirect space (R156). -/
def Device.windowBytes (d : Device) (m : Memory) (n i a len : Nat) : List Byte :=
  if 0x40000 ≤ a ∧ a < 0x80000 then d.anchorBytes m n i (a - 0x40000) len else d.rd m (tileMem n i + a) len

/-- Store bytes of the indirect space (R156). -/
def Device.windowSt (d : Device) (n i a : Nat) (bs : List Byte) : Device :=
  if 0x40000 ≤ a ∧ a < 0x80000 then d.anchorSt n i (a - 0x40000) bs else d.st (tileMem n i + a) bs

/-- TILE_MEM_ACCESS: an access to TILE_MEM_DATA at 0x138, or to its high half at 0x13C where `high` (R155, R156). `ecc`: what the error code finds in
the word, some true an uncorrectable error. The registers are class H: a write to a running tile is ignored with H_WRITE. -/
def execTileMemAccess (r : Req) (n i : Nat) (write : Bool) (width : Nat) (high : Bool) (value : Nat) (ecc : Option Bool) (s : State) : Out :=
  let d := s.dev
  let p := Page.tile n i
  if !d.mayAccess r p then (if write then s.same else s.done ((d.answer r 0).hostReadDone r))
  else if width < 32 then s.done (if write then d.hdrErr p 1 else (d.answer r 0).hostReadDone r)
  else if write && !d.flag p Fld.STATUS_HALTED then s.done (d.hdrErr p 0)
  else
    let word := d.fld p Fld.TILE_MEM_ADDR_WORD
    let a := 8 * word
    let mapped := windowMapped a
    let off := if high ∧ width = 32 then 4 else 0
    let len := if width = 32 then 4 else 8
    let whole := decide (len = 8)
    let reads := mapped && (!write || !whole)
    let bad := reads && decide (ecc = some true)
    let d := if reads && decide (ecc = some false) then d.correctedError n i a else d
    let d := if bad && !write then (d.cairnTile n i 0x0117 0x100 a).errNoCairn p 20 0x0117 else d
    let d := if bad && write then d.tileFault n i (d.ueCode n i a) none else d
    let v := if !mapped then 0 else if d.unsettled n i a then d.freeVal % 2 ^ (8 * len) else leNat (d.windowBytes s.mem n i (a + off) len)
    let d := if write then (if mapped && !bad then d.windowSt n i (a + off) (leBytes len value) else d)
      else
        let d := if mapped && d.unsettled n i a then d.freeNext else d
        (d.answer r v).hostReadDone r
    let adv := d.flag p Fld.TILE_MEM_ADDR_AUTO_INC && (whole || high)
    s.done (if adv then d.put p Fld.TILE_MEM_ADDR_WORD (word + 1) else d)

end Sys2Proof.Machine
end

