-- ==== Sys2Proof/Machine/Vector.lean ====
section
/-!
DEFINITION. The vector unit's functions on FP32 encodings (R127, R128): every one is a sequence of operations that each round once to nearest even.
-/
namespace Sys2Proof.Machine

/-- t[i] = rne(2^(i/64)) (R128). -/
def exp2T : List Nat :=
  [0x3F800000, 0x3F8164D2, 0x3F82CD87, 0x3F843A29, 0x3F85AAC3, 0x3F871F62, 0x3F88980F, 0x3F8A14D5] ++
  [0x3F8B95C2, 0x3F8D1ADF, 0x3F8EA43A, 0x3F9031DC, 0x3F91C3D3, 0x3F935A2B, 0x3F94F4F0, 0x3F96942D] ++
  [0x3F9837F0, 0x3F99E046, 0x3F9B8D3A, 0x3F9D3EDA, 0x3F9EF532, 0x3FA0B051, 0x3FA27043, 0x3FA43516] ++
  [0x3FA5FED7, 0x3FA7CD94, 0x3FA9A15B, 0x3FAB7A3A, 0x3FAD583F, 0x3FAF3B79, 0x3FB123F6, 0x3FB311C4] ++
  [0x3FB504F3, 0x3FB6FD92, 0x3FB8FBAF, 0x3FBAFF5B, 0x3FBD08A4, 0x3FBF179A, 0x3FC12C4D, 0x3FC346CD] ++
  [0x3FC5672A, 0x3FC78D75, 0x3FC9B9BE, 0x3FCBEC15, 0x3FCE248C, 0x3FD06334, 0x3FD2A81E, 0x3FD4F35B] ++
  [0x3FD744FD, 0x3FD99D16, 0x3FDBFBB8, 0x3FDE60F5, 0x3FE0CCDF, 0x3FE33F89, 0x3FE5B907, 0x3FE8396A] ++
  [0x3FEAC0C7, 0x3FED4F30, 0x3FEFE4BA, 0x3FF28177, 0x3FF5257D, 0x3FF7D0DF, 0x3FFA83B3, 0x3FFD3E0C]

/-- c1, c2, c3 = rne(ln2), rne(ln2^2/2), rne(ln2^3/6) (R128). -/
def exp2C : List Nat :=
  [0x3F317218, 0x3E75FDF0, 0x3D635847]

/-- rc[i] = rne(1 / (1 + i/64)) (R128). -/
def log2Rc : List Nat :=
  [0x3F800000, 0x3F7C0FC1, 0x3F783E10, 0x3F74898D, 0x3F70F0F1, 0x3F6D7304, 0x3F6A0EA1, 0x3F66C2B4] ++
  [0x3F638E39, 0x3F607038, 0x3F5D67C9, 0x3F5A740E, 0x3F579436, 0x3F54C77B, 0x3F520D21, 0x3F4F6475] ++
  [0x3F4CCCCD, 0x3F4A4588, 0x3F47CE0C, 0x3F4565C8, 0x3F430C31, 0x3F40C0C1, 0x3F3E82FA, 0x3F3C5264] ++
  [0x3F3A2E8C, 0x3F381703, 0x3F360B61, 0x3F340B41, 0x3F321643, 0x3F302C0B, 0x3F2E4C41, 0x3F2C7692] ++
  [0x3F2AAAAB, 0x3F28E83F, 0x3F272F05, 0x3F257EB5, 0x3F23D70A, 0x3F2237C3, 0x3F20A0A1, 0x3F1F1166] ++
  [0x3F1D89D9, 0x3F1C09C1, 0x3F1A90E8, 0x3F191F1A, 0x3F17B426, 0x3F164FDA, 0x3F14F209, 0x3F139A86] ++
  [0x3F124925, 0x3F10FDBC, 0x3F0FB824, 0x3F0E7835, 0x3F0D3DCB, 0x3F0C08C1, 0x3F0AD8F3, 0x3F09AE41] ++
  [0x3F088889, 0x3F0767AB, 0x3F064B8A, 0x3F053408, 0x3F042108, 0x3F03126F, 0x3F020821, 0x3F010204]

/-- h[i] = rne(-log2(rc[i])) (R128). -/
def log2H : List Nat :=
  [0x00000000, 0x3CB73CB3, 0x3D35D690, 0x3D8759C9, 0x3DB31FB7, 0x3DDE420E, 0x3E0462C4, 0x3E195751] ++
  [0x3E2E00D1, 0x3E42615F, 0x3E567AEF, 0x3E6A4F70, 0x3E7DE0B5, 0x3E88983F, 0x3E92203D, 0x3E9B8925] ++
  [0x3EA4D3C2, 0x3EAE00D1, 0x3EB71110, 0x3EC0052D, 0x3EC8DDD3, 0x3ED19BAF, 0x3EDA3F60, 0x3EE2C97E] ++
  [0x3EEB3A9E, 0x3EF39355, 0x3EFBD42A, 0x3F01FED4, 0x3F060828, 0x3F0A0650, 0x3F0DF98A, 0x3F11E20E] ++
  [0x3F15C01A, 0x3F1993E4, 0x3F1D5DA0, 0x3F211D84, 0x3F24D3C3, 0x3F28808D, 0x3F2C2410, 0x3F2FBE7F] ++
  [0x3F335004, 0x3F36D8CA, 0x3F3A58FE, 0x3F3DD0C9, 0x3F41404E, 0x3F44A7BB, 0x3F480731, 0x3F4B5ED6] ++
  [0x3F4EAECF, 0x3F51F740, 0x3F553847, 0x3F58720A, 0x3F5BA4A5, 0x3F5ED038, 0x3F61F4E5, 0x3F6512C6] ++
  [0x3F6829FA, 0x3F6B3AA0, 0x3F6E44CF, 0x3F7148A2, 0x3F744636, 0x3F773DA2, 0x3F7A2F03, 0x3F7D1A71]

/-- d_k = rne((-1)^(k+1) / (k ln2)), k = 1 to 5 (R128). -/
def log2D : List Nat :=
  [0x3FB8AA3B, 0xBF38AA3B, 0x3EF6384F, 0xBEB8AA3B, 0x3E93BB63]

def canonNan : Nat := fp32.nanCode
def negBit (c : Nat) : Nat := if bit c 31 then c - 2 ^ 31 else c + 2 ^ 31

/-- An FP32 value with the unit's canonical NaN (R100). -/
def canon (c : Nat) : Nat := if isNan32 c then canonNan else c

/-- An order key of finite and infinite FP32 encodings in which -0 < +0. -/
def ordKey (c : Nat) : Int := if bit c 31 then -((c % 2 ^ 31 : Nat) : Int) - 1 else ((c % 2 ^ 31 : Nat) : Int)

def isZero32 (c : Nat) : Bool := decide (c % 2 ^ 31 = 0)

/-- a > b as numbers, false for a NaN. -/
def gt32 (a b : Nat) : Bool := !isNan32 a && !isNan32 b && !(isZero32 a && isZero32 b) && decide (ordKey b < ordKey a)

def max32 (a b : Nat) : Nat := if isNan32 a || isNan32 b then canonNan else if ordKey a < ordKey b then b else a
def min32 (a b : Nat) : Nat := if isNan32 a || isNan32 b then canonNan else if ordKey b < ordKey a then b else a
def abs32 (a : Nat) : Nat := if isNan32 a then canonNan else a % 2 ^ 31
def neg32 (a : Nat) : Nat := if isNan32 a then canonNan else negBit a
def cmpgt32 (a b : Nat) : Nat := if gt32 a b then 0x3F800000 else 0

/-- SEL: a where c is not zero, otherwise b. -/
def sel32 (a b c : Nat) : Nat := canon (if isZero32 c then b else a)

/-- The integer square root of a number below 4^k. -/
def isqrt : Nat → Nat → Nat → Nat
  | 0, _, r => r
  | k + 1, n, r => if (r + 2 ^ k) * (r + 2 ^ k) ≤ n then isqrt k n (r + 2 ^ k) else isqrt k n r

/-- The FP32 rounding of n × 2^q from a truncated magnitude with a sticky bit below it. -/
def rndSticky (neg : Bool) (n : Nat) (inexact : Bool) (q : Int) : Nat := rnd32 (.fin neg (2 * n + b2n inexact) (q - 1))

/-- RCP: 1 / a, correctly rounded. -/
def rcp32 (a : Nat) : Nat :=
  match fp32.dec a with
  | .nan => canonNan
  | .inf n => fp32.sgn n
  | .fin n 0 _ => rnd32 (.inf n)
  | .fin n m e => rndSticky n (2 ^ 80 / m) (decide (2 ^ 80 % m ≠ 0)) (-80 - e)

/-- SQRT: the IEEE square root. -/
def sqrt32 (a : Nat) : Nat :=
  match fp32.dec a with
  | .nan => canonNan
  | .inf n => if n then canonNan else rnd32 (.inf false)
  | .fin n 0 _ => fp32.sgn n
  | .fin true _ _ => canonNan
  | .fin false m e =>
    let odd := decide (e % 2 ≠ 0)
    let x := (if odd then 2 * m else m) * 2 ^ 64
    let y := isqrt 64 x 0
    rndSticky false y (decide (y * y ≠ x)) ((if odd then e - 1 else e) / 2 - 32)

/-- RSQRT: 1 / √a, correctly rounded. -/
def rsqrt32 (a : Nat) : Nat :=
  match fp32.dec a with
  | .nan => canonNan
  | .inf n => if n then canonNan else 0
  | .fin n 0 _ => rnd32 (.inf n)
  | .fin true _ _ => canonNan
  | .fin false m e =>
    let odd := decide (e % 2 ≠ 0)
    let x := if odd then 2 * m else m
    let h := (if odd then e - 1 else e) / 2
    let w := 2 ^ 160 / x
    let y := isqrt 84 w 0
    rndSticky false y (decide (y * y * x ≠ 2 ^ 160)) (-80 - h)

/-- floor of m × 2^e with a sign, and the fraction left as a numerator over 2^k. -/
def floorNum (neg : Bool) (m : Nat) (e : Int) : Int × Nat × Nat :=
  let k := if e < 0 then (-e).toNat else 0
  let v : Nat := if e < 0 then m else m * 2 ^ e.toNat
  let s : Int := if neg then -(v : Int) else v
  let f := s / (2 ^ k : Nat)
  (f, (s - f * (2 ^ k : Nat)).toNat, k)

def tabAt (t : List Nat) (i : Nat) : Nat := t.getD i 0

/-- EXP2 (R128). -/
def exp2_32 (x : Nat) : Nat :=
  match fp32.dec x with
  | .nan => canonNan
  | .inf n => if n then 0 else rnd32 (.inf false)
  | .fin neg m e =>
    if !neg && !gt32 0x43000000 x then rnd32 (.inf false)
    else if neg && gt32 0xC3160000 x then 0
    else
      let (n, fr, k) := floorNum neg m e
      let i := fr * 64 / 2 ^ k
      let r := rnd32 (.fin false (fr * 64 - i * 2 ^ k) (-(k : Int) - 6))
      let p := fma32 (tabAt exp2C 2) r (tabAt exp2C 1)
      let p := fma32 p r (tabAt exp2C 0)
      let q := mul32 p r
      let t := tabAt exp2T i
      match fp32.dec (fma32 t q t) with
      | .fin b ym ye => rnd32 (.fin b ym (ye + n))
      | y => rnd32 y

/-- LOG2 (R128). -/
def log2_32 (x : Nat) : Nat :=
  match fp32.dec x with
  | .nan => canonNan
  | .inf n => if n then canonNan else rnd32 (.inf false)
  | .fin _ 0 _ => rnd32 (.inf true)
  | .fin true _ _ => canonNan
  | .fin false m g =>
    let e := ilog m g
    let l := Nat.log2 m
    let i := (m - 2 ^ l) * 64 / 2 ^ l
    let mant := rnd32 (.fin false m (-(l : Int)))
    let u := fma32 mant (tabAt log2Rc i) 0xBF800000
    let p := fma32 (tabAt log2D 4) u (tabAt log2D 3)
    let p := fma32 p u (tabAt log2D 2)
    let p := fma32 p u (tabAt log2D 1)
    let p := fma32 p u (tabAt log2D 0)
    let y := fma32 p u (tabAt log2H i)
    add32 y (rnd32 (.fin (decide (e < 0)) e.natAbs 0))

def exp32 (a : Nat) : Nat := exp2_32 (mul32 a 0x3FB8AA3B)
def sigmoid32 (a : Nat) : Nat := rcp32 (add32 0x3F800000 (exp32 (neg32 a)))
def silu32 (a : Nat) : Nat := mul32 a (sigmoid32 a)
def tanh32 (a : Nat) : Nat := fma32 0x40000000 (sigmoid32 (mul32 0x40000000 a)) 0xBF800000

/-- The element function that VFN selects (R127), but for CVT and the row reductions. -/
def vecFn (vfn a b c : Nat) : Nat :=
  match vfn with
  | 0x00 => add32 a b
  | 0x01 => sub32 a b
  | 0x02 => mul32 a b
  | 0x03 => fma32 a b c
  | 0x04 => max32 a b
  | 0x05 => min32 a b
  | 0x06 => abs32 a
  | 0x07 => neg32 a
  | 0x08 => cmpgt32 a b
  | 0x09 => sel32 a b c
  | 0x0A => rcp32 a
  | 0x0B => sqrt32 a
  | 0x0C => rsqrt32 a
  | 0x0D => exp2_32 a
  | 0x0E => log2_32 a
  | 0x0F => exp32 a
  | 0x10 => sigmoid32 a
  | 0x11 => silu32 a
  | 0x12 => tanh32 a
  | _ => canon a

/-- Which functions take operand b, and which take c, the existing output (R127). -/
def vecUsesB (vfn : Nat) : Bool := decide (vfn ≤ 0x05 ∨ vfn = 0x08 ∨ vfn = 0x09)
def vecUsesC (vfn : Nat) : Bool := decide (vfn = 0x03 ∨ vfn = 0x09)

/-- VFN codes that are not reserved. -/
def vecKnown (vfn : Nat) : Bool := decide (vfn ≤ 0x13 ∨ vfn = 0x20 ∨ vfn = 0x21)

/-- A row reduction (R127): RSUM is tree_sum, RMAX the maximum. -/
def rowReduce (vfn : Nat) (xs : List Nat) : Nat :=
  if vfn = 0x20 then canon (treeSum add32 xs)
  else match xs with
    | [] => 0
    | x :: t => canon (t.foldl max32 x)

end Sys2Proof.Machine
end

