-- ==== Sys2Proof/Machine/Windows.lean ====
section
/-!
DEFINITION. The window table of the remote-package range (R333), with the memory keys' (R331) and reduction groups' (R342) tables that the GFT
pages locate.
-/
namespace Sys2Proof.Machine

/-- A valid window (R333): its connection, whether it is in reduce mode, MKEY or GROUP, REMOTE_BASE, RANK and FORMAT. -/
structure Window where
  conn : Nat
  reduce : Bool
  key : Nat
  base : Nat
  rank : Nat
  fmt : Nat

/-- Window `w`, where the window table is in use and its entry is valid in a mode that R333 gives. -/
def Device.window (d : Device) (m : Memory) (w : Nat) : Option Window :=
  let p := Page.gft 0
  if d.app p Fld.GFT_WIN_BASE_VALID = 0 ∨ 256 ≤ w then none
  else
    let e := d.memBytes m (d.app p Fld.GFT_WIN_BASE_ADDR * 4096 + 16 * w) 16
    let n := fun off len => leNat ((e.drop off).take len)
    let v := n 0 4
    if !bit v 31 ∨ 2 ≤ bits v 28 2 then none
    else some ⟨v % 2 ^ 22, decide (bits v 28 2 = 1), n 4 4, n 8 8 % 2 ^ 52, n 8 2, n 10 1⟩

/-- The window of a device address of the remote-package range, with the offset in it. -/
def Device.windowAt (d : Device) (m : Memory) (a : Nat) : Option (Window × Nat) :=
  if d.memKind a = .remote then (d.window m ((a - 0x4000000000000) / 2 ^ 42)).map fun w => (w, a % 2 ^ 42) else none

/-- A MOVE may reach `n` bytes at a remote address: in one valid window, and in a reduce-mode window only to write (R145, R333). -/
def Device.windowOk (d : Device) (m : Memory) (a n : Nat) (write : Bool) : Bool :=
  match d.windowAt m a with
  | some (w, off) => decide (off + n ≤ 2 ^ 42) && (write || !w.reduce)
  | none => false

/-- A memory key entry (R331): BASE, LENGTH, PERM, GEN, the owning function and ALLOW. -/
structure KeyEntry where
  base : Nat
  len : Nat
  perm : Nat
  gen : Nat
  func : Nat
  allow : Nat

/-- The address of key entry `k`. -/
def Device.keyAddr (d : Device) (k : Nat) : Nat := d.app (.gft 0) Fld.GFT_KEY_BASE_ADDR * 4096 + 32 * k

/-- Key entry `k`, where its index lies below GFT_KEY_COUNT. -/
def Device.keyEntry (d : Device) (m : Memory) (k : Nat) : Option KeyEntry :=
  if d.app (.gft 0) Fld.GFT_KEY_BASE_VALID = 0 ∨ d.app (.gft 0) Fld.GFT_KEY_COUNT_COUNT ≤ k then none
  else
    let e := d.memBytes m (d.keyAddr k) 32
    let n := fun off len => leNat ((e.drop off).take len)
    some ⟨n 0 8 % 2 ^ 52, n 8 8, n 16 1, n 17 1, n 18 2, n 20 2⟩

/-- A reduction group's entry (R342). -/
structure GroupEntry where
  target : Nat
  len : Nat
  fmt : Nat
  ranks : Nat
  staging : Nat
  notify : Nat
  startPitch : Nat

/-- Group entry `g` of I-die `i`, where it is well formed. -/
def Device.groupEntry (d : Device) (m : Memory) (i g : Nat) : Option GroupEntry :=
  if d.app (.gft i) Fld.GFT_GROUP_BASE_VALID = 0 ∨ 4096 ≤ g then none
  else
    let e := d.memBytes m (d.app (.gft i) Fld.GFT_GROUP_BASE_ADDR * 4096 + 32 * g) 32
    let n := fun off len => leNat ((e.drop off).take len)
    let x : GroupEntry := ⟨n 0 8 % 2 ^ 52, n 8 4, n 12 1, n 14 2, n 16 8 % 2 ^ 52, n 24 4, n 28 4⟩
    if x.len % 256 = 0 ∧ 2 ≤ x.ranks ∧ x.ranks ≤ 16384 ∧ x.fmt ≤ 1 then some x else none

end Sys2Proof.Machine
end

