-- ==== Sys2Proof/Machine/Tensor.lean ====
section
/-!
DEFINITION. Tensor descriptors and the operations of the array and the vector unit (spec/05, R124 to R128, R139, R142 to R146; R278 and R279
for TMASK). An operation is one indivisible step: it reads its operands, writes its result and leaves its queue.
-/
namespace Sys2Proof.Machine

/-! ### Descriptors -/

/-- Field `[lo + w - 1 : lo]` of word `k` of a descriptor (R142). -/
def dw (words : List Nat) (k lo w : Nat) : Nat := bits (words.getD k 0) lo w

def dOp (x : List Nat) : Nat := dw x 0 0 8
def dAcc (x : List Nat) : Bool := bit (x.getD 0 0) 8
def dRound (x : List Nat) : Bool := bit (x.getD 0 0) 9
def dRelB (x : List Nat) : Bool := bit (x.getD 0 0) 10
def dKord (x : List Nat) : Bool := bit (x.getD 0 0) 11
def dDir (x : List Nat) : Nat := dw x 0 12 2
def dFmtA (x : List Nat) : Nat := dw x 0 16 4
def dFmtB (x : List Nat) : Nat := dw x 0 20 4
def dFmtOut (x : List Nat) : Nat := dw x 0 24 4
def dM (x : List Nat) : Nat := dw x 1 0 16
def dN (x : List Nat) : Nat := dw x 1 16 16
def dK (x : List Nat) : Nat := dw x 2 0 24
def dVfn (x : List Nat) : Nat := dw x 2 24 8
def dStream (x : List Nat) : Nat := dw x 3 0 16
def dPart (x : List Nat) : Nat := dw x 4 0 12
def dParts (x : List Nat) : Nat := dw x 4 12 12
def dA (x : List Nat) : Nat := dw x 5 0 25
def dAs (x : List Nat) : Nat := dw x 6 0 25
def dAStride (x : List Nat) : Nat := dw x 7 0 16
def dBStride (x : List Nat) : Nat := dw x 7 16 16
def dB (x : List Nat) : Nat := dw x 8 0 25
def dBs (x : List Nat) : Nat := dw x 9 0 25
def dOut (x : List Nat) : Nat := dw x 10 0 25
def dOuts (x : List Nat) : Nat := dw x 11 0 25
def dOutStride (x : List Nat) : Nat := dw x 12 0 16
def dDevStride (x : List Nat) : Nat := dw x 12 16 16
def dPeerInst (x : List Nat) : Nat := dw x 13 0 16
def dPeerDie (x : List Nat) : Nat := dw x 13 24 3
def dPeerCbuf (x : List Nat) : Bool := bit (x.getD 13 0) 31
def dDevAddr (x : List Nat) : Nat := x.getD 14 0 % 2 ^ 32 + x.getD 15 0 % 2 ^ 20 * 2 ^ 32

/-- The reserved bits of a descriptor are zero (R142). -/
def descReserved (x : List Nat) : Bool :=
  let z := fun k lo w => decide (dw x k lo w = 0)
  z 0 14 2 && z 0 28 4 && z 3 16 16 && z 4 24 8 && z 5 25 7 && z 6 25 7 && z 8 25 7 && z 9 25 7 && z 10 25 7 && z 11 25 7 &&
    z 13 16 8 && z 13 27 4 && z 15 20 12

/-- Location fields (R143). -/
def locAddr (l : Nat) : Nat := l % 2 ^ 21
def locView (l : Nat) : Nat := bits l 21 2
def locSpace (l : Nat) : Nat := bits l 23 2

/-- The bytes of `k` elements of a format. -/
def rowBytes (fmt k : Nat) : Nat := (k * fmtBits fmt + 7) / 8

/-- The bytes from a location to the end of `rows` rows of `len` bytes at a stride. -/
def spanBytes (rows stride len : Nat) : Nat := if rows = 0 then 0 else (rows - 1) * stride * 16 + len

/-- A location is aligned and its range lies inside its space, under a bank size (R143, R145, R130). -/
def locOk (pNew pScratch l span : Nat) (write : Bool) : Bool :=
  let a := locAddr l
  decide (a % 16 = 0) &&
    (match locSpace l with
     | 0 =>
       decide (locView l ≠ 3) && !(write && decide (locView l = 0)) &&
         decide (a + span ≤ (if locView l = 2 then viewSize pScratch 2 else pNew))
     | 3 => decide (a + span ≤ 2097152)
     | _ => decide (a + span ≤ 32768))

/-- Bytes of the scale array of `rows` rows of `len` elements; 0 for a format without scales (R102). -/
def scaleBytes (fmt rows len : Nat) : Nat := if fmtBlock fmt = 0 then 0 else rows * (len / fmtBlock fmt)

/-- An operand of elements with its scales lies inside its space, and its rows are whole scale blocks (R102). -/
def operandOk (p fmt l sl rows stride len : Nat) (write : Bool) : Bool :=
  locOk p p l (spanBytes rows stride (rowBytes fmt len)) write &&
    (decide (fmtBlock fmt = 0) || (decide (len % fmtBlock fmt = 0) && locOk p p sl (scaleBytes fmt rows len) write))

/-- A format of a vector operand: FP32 or BF16 (R95). -/
def vecFmt (f : Nat) : Bool := decide (f ≤ 1)

/-- A format of a stored tensor that a tile reads or writes (R95): not K2, not reserved. -/
def tileFmt (f : Nat) : Bool := decide (f ≤ 8 ∧ f ≠ 5)

/-! ### Reading and writing operands -/

/-- The key of byte `off` of a location in a landing buffer or the cluster buffer. -/
def plainKey (n i l off : Nat) : Nat :=
  match locSpace l with
  | 1 => tileMem n i + 0x80000 + locAddr l + off
  | 2 => tileMem n i + 0x88000 + locAddr l + off
  | _ => cbufMem n (i / 16) + locAddr l + off

/-- Read bytes at an offset of a location. -/
def Device.locRead (d : Device) (m : Memory) (n i l off len : Nat) : List Byte :=
  if locSpace l = 0 then d.anchorRead m n i (locView l) (locAddr l + off) len else d.rd m (plainKey n i l off) len

/-- Write bytes at an offset of a location; cluster-buffer bytes are counted (CLU_CNT5). -/
def Device.locWrite (d : Device) (m : Memory) (n i l off : Nat) (bs : List Byte) : Device :=
  if locSpace l = 0 then d.anchorWrite m n i (locView l) (locAddr l + off) bs
  else
    let d := if locSpace l = 3 then d.count (.clu n (i / 16)) 5 bs.length else d
    d.st (plainKey n i l off) bs

/-- Count the cluster-buffer bytes that an operand reads (CLU_CNT4). -/
def Device.countCbufRead (d : Device) (n i l bytes : Nat) : Device :=
  if locSpace l = 3 then d.count (.clu n (i / 16)) 4 bytes else d

/-- Element `k` of a run of bytes of a format, as its encoding. -/
def elemAt (fmt : Nat) (bs : List Byte) (k : Nat) : Nat :=
  match fmtBits fmt with
  | 4 => bits (bs.getD (k / 2) 0).toNat (4 * (k % 2)) 4
  | 8 => (bs.getD k 0).toNat
  | 16 => leNat ((bs.drop (2 * k)).take 2)
  | _ => leNat ((bs.drop (4 * k)).take 4)

/-- A row of elements as encodings. -/
def Device.rowCodes (d : Device) (m : Memory) (n i fmt l stride r len : Nat) : List Nat :=
  let bs := d.locRead m n i l (r * stride * 16) (rowBytes fmt len)
  (List.range len).map (elemAt fmt bs)

/-- The scale of block `j` of row `r` of `len` elements (R102); 2^0 for a format without scales. -/
def Device.scaleAt (d : Device) (m : Memory) (n i fmt sl len r j : Nat) : Nat :=
  if fmtBlock fmt = 0 then 127 else leNat (d.locRead m n i sl (r * (len / fmtBlock fmt) + j) 1)

/-- The scales of a row, by block. -/
def Device.rowScales (d : Device) (m : Memory) (n i fmt sl len r : Nat) : List Nat :=
  if fmtBlock fmt = 0 then []
  else (d.locRead m n i sl (r * (len / fmtBlock fmt)) (len / fmtBlock fmt)).map BitVec.toNat

/-- Element `k` of a row as an FP32 encoding (R109). -/
def toFp32 (fmt : Nat) (codes scales : List Nat) (k : Nat) : Nat :=
  let c := codes.getD k 0
  match fmt with
  | 0 => c
  | 1 => rnd32 (bf16.dec c)
  | _ => match fmtElem fmt with
    | some f => pToFp32 f c (scales.getD (k / fmtBlock fmt) 0)
    | none => 0

/-- A row of elements as FP32 encodings. -/
def Device.rowFp32 (d : Device) (m : Memory) (n i fmt l sl stride r len : Nat) : List Nat :=
  let cs := d.rowCodes m n i fmt l stride r len
  let ss := d.rowScales m n i fmt sl len r
  (List.range len).map (toFp32 fmt cs ss)

/-- Pack element encodings of a format into bytes. -/
def packCodes (fmt : Nat) (cs : List Nat) : List Byte :=
  match fmtBits fmt with
  | 4 => (List.range ((cs.length + 1) / 2)).map fun k => BitVec.ofNat 8 (cs.getD (2 * k) 0 + 16 * cs.getD (2 * k + 1) 0)
  | 8 => cs.map (BitVec.ofNat 8)
  | 16 => cs.flatMap (leBytes 2)
  | _ => cs.flatMap (leBytes 4)

/-- The numeric events of writing elements: saturations, NaN-scale blocks, overflows to infinity. -/
structure WriteEvents where
  sats : Nat
  nans : Nat
  ovfs : Nat
deriving DecidableEq, Repr

/-- The epoch of the pitch that a tile runs (R89). -/
def Device.tileEpoch (d : Device) (n i : Nat) : Nat :=
  match (d.tilePart n i).bind (Tbl.look d.parts) with
  | some x => x.epoch
  | none => d.fld .pkg Fld.PKG_WAVE_EPOCH

/-- The rounding of element `idx` of an operation's output (R110, R111). -/
def Device.opRnd (d : Device) (n i : Nat) (words : List Nat) (sr : Bool) (idx : Nat) : Rnd :=
  if sr then
    .sr (srDraw (d.genVal (.tile n i) Fld.TILE_SR_KEY_KEY 0 (d.genFor (.tile n i) (d.tileEpoch n i))) (d.tilePitch n i) (dStream words) idx)
  else .rne

/-- One scale block of a row written in a P format: scale, encodings and events. -/
def blockOf (f : Fp) (vals : List Nat) (rnd : Nat → Rnd) (first size j : Nat) : BlockOut :=
  encBlock f ((List.range size).map fun k => (fp32.dec (vals.getD (j * size + k) 0), rnd (first + j * size + k)))

/-- Write row `r` of an output from FP32 values (R107 to R110): FP32 as held, BF16 rounded, P formats by block with their scales. -/
def Device.writeRow (d : Device) (m : Memory) (n i fmt l sl stride r : Nat) (vals : List Nat) (rnd : Nat → Rnd) : Device × WriteEvents :=
  let off := r * stride * 16
  let first := r * vals.length
  match fmt with
  | 0 => (d.locWrite m n i l off (packCodes 0 vals), ⟨0, 0, 0⟩)
  | 1 =>
    let cs := (List.range vals.length).map fun k => bf16.enc (rnd (first + k)) (fp32.dec (vals.getD k 0))
    (d.locWrite m n i l off (packCodes 1 (cs.map Conv.code)), ⟨0, 0, (cs.filter Conv.ovf).length⟩)
  | _ => match fmtElem fmt with
    | none => (d, ⟨0, 0, 0⟩)
    | some f =>
      let size := fmtBlock fmt
      let blocks := (List.range (vals.length / size)).map (blockOf f vals rnd first size)
      let d := d.locWrite m n i l off (packCodes fmt (blocks.flatMap BlockOut.codes))
      let d := d.locWrite m n i sl (r * (vals.length / size)) (blocks.map fun b => BitVec.ofNat 8 b.scale)
      (d, ⟨(blocks.map BlockOut.sats).sum, (blocks.map BlockOut.nanBlocks).sum, 0⟩)

/-- Record the events of written rows. -/
def Device.writeEvents (d : Device) (n i desc : Nat) (e : WriteEvents) : Device :=
  ((d.numericEvents n i desc 0 e.sats).numericEvents n i desc 3 e.nans).numericEvents n i desc 4 e.ovfs

/-! ### The check at issue -/

/-- The tree-mask record at a location is well formed (R278). -/
def Device.treeOk (d : Device) (m : Memory) (n i l : Nat) : Bool :=
  let nodes := leNat (d.locRead m n i l 4 1)
  let par := d.locRead m n i l 16 64
  let dep := d.locRead m n i l 80 64
  let at_ := fun (b : List Byte) k => (b.getD k 0).toNat
  decide (1 ≤ nodes ∧ nodes ≤ 64) && decide (at_ par 0 = 0xFF) && decide (at_ dep 0 = 0) &&
    (List.range (nodes - 1)).all fun k =>
      decide (at_ par (k + 1) < k + 1) && decide (at_ dep (k + 1) = at_ dep (at_ par (k + 1)) + 1)

/-- The range of an operand with no element format: rows of bytes. -/
def bytesOk (p l rows stride len : Nat) (write : Bool) : Bool := locOk p p l (spanBytes rows stride len) write

/-- Does a range from `a` to `e` lie in the union of some grants? `fuel`: the grants that it may pass through. -/
def grantsCover (gs : List Grant) : Nat → Nat → Nat → Bool
  | 0, a, e => decide (e ≤ a)
  | fuel + 1, a, e =>
    if e ≤ a then true
    else match gs.find? fun g => decide (g.addr ≤ a ∧ a < g.addr + g.len) with
      | none => false
      | some g => grantsCover gs fuel (g.addr + g.len) e

/-- Does a device range lie in the memory granted to a partition, the union of its grants (R512, R513)? -/
def Device.granted (d : Device) (part a n : Nat) : Bool :=
  match Tbl.look d.parts part with
  | none => false
  | some x => grantsCover x.grants x.grants.length a (a + n)

/-- The check of a MOVE (R142, R144, R145, R289, R513): device memory must lie in the partition's grants or in
a remote window, and a location in a peer is checked against the largest range that its view can have. -/
def Device.moveOk (d : Device) (m : Memory) (p : Nat) (part : Option Nat) (x : List Nat) : Bool :=
  let mm := dM x
  let nn := dN x
  let src := bytesOk p (dA x) mm (dAStride x) nn false
  let dst := bytesOk p (dOut x) mm (dOutStride x) nn true
  let noPeer := decide (x.getD 13 0 = 0)
  let noDev := decide (x.getD 14 0 = 0) && decide (x.getD 15 0 = 0) && decide (dDevStride x = 0)
  let pitch := if dDevStride x = 0 then nn else dDevStride x * 16
  let mapped := (List.range mm).all fun r =>
    let a := dDevAddr x + r * pitch
    (d.inMemory a nn && d.granted (part.getD 32) a nn) ||
      d.windowOk m a nn (decide (dDir x = 3))
  match dDir x with
  | 0 => src && dst && noPeer && noDev
  | 1 =>
    let l := dOut x
    let span := spanBytes mm (dOutStride x) nn
    let there := if dPeerCbuf x then decide (locAddr l % 16 = 0) && decide (locAddr l + span ≤ 2097152)
      else locOk 131072 0 l span true
    src && noDev && d.hasTdie (dPeerDie x) && decide (dPeerInst x < 2048) && there
  | 2 => dst && noPeer && mapped
  | _ => src && noPeer && mapped

/-- The check of R145 at issue. -/
def Device.descOk (d : Device) (m : Memory) (n i : Nat) (x : List Nat) : Bool :=
  let p := d.bankSize n i
  let op := dOp x
  let mm := dM x
  let nn := dN x
  let vfn := dVfn x
  let outN := if op = 2 ∧ 0x20 ≤ vfn then 1 else nn
  descReserved x && vecKnown vfn && decide (1 ≤ mm) && decide (1 ≤ nn) && decide (1 ≤ dParts x) && decide (dParts x ≤ 4095) && decide (dPart x < dParts x ∨ op = 5) &&
    (decide (op = 1) || !dAcc x) && (decide (op = 3) || decide (dDir x = 0)) &&
    (match op with
     | 1 =>
       decide (mm ≤ 64) && (kSlice (dFmtA x) (dFmtB x)).isSome && vecFmt (dFmtOut x) &&
         operandOk p (dFmtA x) (dA x) (dAs x) mm (dAStride x) (dK x) false &&
         operandOk p (dFmtB x) (dB x) (dBs x) nn (dBStride x) (dK x) false &&
         operandOk p (dFmtOut x) (dOut x) (dOuts x) mm (dOutStride x) nn true
     | 2 =>
       (if vfn = 0x13 then tileFmt (dFmtA x) && tileFmt (dFmtOut x) else vecFmt (dFmtA x) && vecFmt (dFmtOut x)) &&
         operandOk p (dFmtA x) (dA x) (dAs x) mm (dAStride x) nn false &&
         (!vecUsesB vfn || (vecFmt (dFmtB x) && operandOk p (dFmtB x) (dB x) (dBs x) mm (dBStride x) nn false)) &&
         operandOk p (dFmtOut x) (dOut x) (dOuts x) mm (dOutStride x) outN true
     | 3 => d.moveOk m p (d.tilePart n i) x
     | 4 =>
       vecFmt (dFmtA x) && vecFmt (dFmtB x) && vecFmt (dFmtOut x) &&
         operandOk p (dFmtA x) (dA x) (dAs x) mm (dAStride x) nn false &&
         operandOk p (dFmtB x) (dB x) (dBs x) mm (dBStride x) nn false &&
         operandOk p (dFmtOut x) (dOut x) (dOuts x) mm (dOutStride x) nn true
     | 5 =>
       decide (dFmtA x = 0) && decide (dFmtOut x = 0) && decide (dParts x = 1) && decide (dPart x + mm ≤ 64) &&
         operandOk p 0 (dA x) 0 mm (dAStride x) nn false && operandOk p 0 (dOut x) 0 mm (dOutStride x) nn true &&
         decide (locSpace (dB x) = 0 ∨ locSpace (dB x) = 3) && locOk p p (dB x) 144 false && d.treeOk m n i (dB x)
     | _ => false)

/-! ### Beginning an operation -/

/-- The strand's earlier operations have completed their writes (R146). -/
def Tile.strandClear (t : Tile) (op : TensorOp) : Bool :=
  (t.arrQ ++ t.vecQ ++ t.movQ).all (fun q => decide (q.strand ≠ op.strand) || decide (op.id ≤ q.id)) &&
    t.unacked.all fun u => decide (u.2.1 ≠ op.strand) || decide (op.id ≤ u.1) || decide (u.2.2 = 0)

/-- The granules of a landing buffer that a range of a location touches. -/
def granulesOf (l span : Nat) : List Nat := (linesOf 4096 (locAddr l) span).map (· / 4096)

/-- Operand b in a landing buffer may be read: the granules are valid, or under KORD 1 the buffer is FULL (R139). -/
def Device.bReady (d : Device) (n i l sl span sspan : Nat) (kord : Bool) : Bool :=
  let one := fun (l span : Nat) =>
    decide (span = 0) || decide (locSpace l ≠ 1 ∧ locSpace l ≠ 2) ||
      (let b := locSpace l - 1
       if kord then decide (d.lbState n i b = 2) else (granulesOf l span).all fun g => bit (d.lbGran n i b) g)
  one l span && one sl sspan

/-- May the operation that reads operand b in a landing buffer start (R139)? -/
def Device.operandBReady (d : Device) (n i : Nat) (x : List Nat) : Bool :=
  let k := if dOp x = 1 then dK x else dN x
  let rows := if dOp x = 1 then dN x else dM x
  if dOp x = 2 && !vecUsesB (dVfn x) then true
  else d.bReady n i (dB x) (dBs x) (spanBytes rows (dBStride x) (rowBytes (dFmtB x) k)) (scaleBytes (dFmtB x) rows k) (dKord x)

/-- After an operation: it leaves its queue, its errors are counted, and FLAGS.REL_B releases the landing buffer of operand b (R138). -/
def Device.opDone (d : Device) (n i : Nat) (op : TensorOp) : Device :=
  if dRelB op.words && decide (locSpace (dB op.words) = 1 ∨ locSpace (dB op.words) = 2) then
    (match d.releaseLb n i (locSpace (dB op.words) - 1) with
     | (d, true) => d
     | (d, false) => d.opFault n i op 0x0108)
  else d

/-- Run an operation that heads its unit's queue: it is due when its tile is live, its strand's earlier operations are complete and its operand
b may be read. An uncorrectable error or an accumulator parity error faults the tile with nothing of the operation written. -/
def Device.runOp (d : Device) (n i : Nat) (q : List TensorOp) (kind : Nat → Bool) (needB : Bool) (ecc : Ecc) (parity : Bool)
    (pop : Tile → Tile) (f : Device → TensorOp → Device) : Option Device :=
  match q with
  | [] => none
  | op :: _ =>
    if !d.tileLive n i || !kind (dOp op.words) || !(d.tile n i).strandClear op || (needB && !d.operandBReady n i op.words) then none
    else
      let d := d.setTile n i (pop (d.tile n i))
      let (d, ue) := d.eccFound n i ecc
      match ue with
      | some code => some (d.opFault n i op code)
      | none => if parity then some (d.opFault n i op 0x010A) else some ((f d op).opDone n i op)

/-! ### The array -/

/-- The pairs of elements of slice `j` of a row and a column. -/
def slicePairs (fa fb : Fp) (ra rb : List Nat) (q j k : Nat) : List (Num × Num) :=
  (List.range (min q (k - j * q))).map fun e => (fa.dec (ra.getD (j * q + e) 0), fb.dec (rb.getD (j * q + e) 0))

/-- What a column of the array accumulates over the slices (R116): the accumulator, and the NaN and infinite slice results. -/
def accumulate (fa fb : Fp) (ba bb q k : Nat) (ra sa rb sb : List Nat) (c0 : Nat) : Nat × Nat × Nat :=
  (List.range ((k + q - 1) / q)).foldl (fun (acc : Nat × Nat × Nat) j =>
    let sc := fun (blk : Nat) (ss : List Nat) => if blk = 0 then 127 else ss.getD (j * q / blk) 0
    let r := sliceResult (slicePairs fa fb ra rb q j k) (sc ba sa) (sc bb sb)
    (add32 acc.1 r, acc.2.1 + b2n (isNan32 r), acc.2.2 + b2n (isInf32 r))) (c0, 0, 0)

/-- One column group of an MM (R124): columns `g`, for every row. -/
def Device.mmGroup (d : Device) (m : Memory) (n i : Nat) (op : TensorOp) (cols : List Nat) : Device :=
  let x := op.words
  match fmtElem (dFmtA x), fmtElem (dFmtB x), kSlice (dFmtA x) (dFmtB x) with
  | some fa, some fb, some q =>
    let k := dK x
    let bs := cols.map fun c => (d.rowCodes m n i (dFmtB x) (dB x) (dBStride x) c k, d.rowScales m n i (dFmtB x) (dBs x) k c)
    let sr := dRound x && decide (dParts x = 1)
    let f := dFmtOut x
    let rows := (List.range (dM x)).map fun r =>
      let ra := d.rowCodes m n i (dFmtA x) (dA x) (dAStride x) r k
      let sa := d.rowScales m n i (dFmtA x) (dAs x) k r
      let cin := if dAcc x then
          let bytes := d.locRead m n i (dOut x) (r * dOutStride x * 16 + cols.headD 0 * rowBytes f 1) (rowBytes f cols.length)
          (List.range cols.length).map fun c => toFp32 f ((List.range cols.length).map (elemAt f bytes)) [] c
        else []
      (List.range cols.length).map fun c =>
        let b := bs.getD c ([], [])
        accumulate fa fb (fmtBlock (dFmtA x)) (fmtBlock (dFmtB x)) q k ra sa b.1 b.2 (cin.getD c 0)
    let nans := (rows.map fun r => (r.map fun a => a.2.1).sum).sum
    let infs := (rows.map fun r => (r.map fun a => a.2.2).sum).sum
    let d := (d.numericEvents n i op.desc 1 nans).numericEvents n i op.desc 2 infs
    (List.range rows.length).foldl (fun d r =>
      let accs := (rows.getD r []).map Prod.fst
      let off := r * dOutStride x * 16 + cols.headD 0 * rowBytes f 1
      if f = 0 then d.locWrite m n i (dOut x) off (packCodes 0 accs)
      else
        let cs := (List.range accs.length).map fun c =>
          bf16.enc (d.opRnd n i x sr (r * dN x + cols.headD 0 + c)) (fp32.dec (accs.getD c 0))
        (d.locWrite m n i (dOut x) off (packCodes 1 (cs.map Conv.code))).numericEvents n i op.desc 4 (cs.filter Conv.ovf).length) d
  | _, _, _ => d

/-- Elements a column of the array reduces per cycle (R113, R125). -/
def macRate (fa fb : Nat) : Nat := if fa = 1 then 8 else if (fa = 4 ∨ fa = 8) ∧ (fb = 4 ∨ fb = 8) then 32 else 16

/-- An MM (R124): column groups of 20 in ascending order. -/
def Device.mm (d : Device) (m : Memory) (n i : Nat) (op : TensorOp) : Device :=
  let x := op.words
  let groups := (dN x + 19) / 20
  let d := (d.countCbufRead n i (dA x) (dM x * rowBytes (dFmtA x) (dK x) * groups)).countCbufRead n i (dB x) (dN x * rowBytes (dFmtB x) (dK x))
  let rate := macRate (dFmtA x) (dFmtB x)
  let d := d.count (.tile n i) 1 (dM x * groups * ((dK x + rate - 1) / rate))
  (List.range groups).foldl (fun d g => d.mmGroup m n i op ((List.range (min 20 (dN x - 20 * g))).map (20 * g + ·))) d

/-- MM_EXECUTE: the array begins and performs the MM at the head of its queue (R124). -/
def execMmExecute (n i : Nat) (ecc : Ecc) (parity : Bool) (s : State) : Out :=
  let d := s.dev
  match d.runOp n i (d.tile n i).arrQ (fun o => o = 1) true ecc parity (fun t => { t with arrQ := t.arrQ.tail }) (fun d op => d.mm s.mem n i op) with
  | some d => s.done d
  | none => s.same

/-! ### The vector unit -/

/-- One row of a VEC: its output values, of one element for a row reduction. -/
def Device.vecRow (d : Device) (m : Memory) (n i : Nat) (x : List Nat) (r : Nat) : List Nat :=
  let nn := dN x
  let vfn := dVfn x
  let a := d.rowFp32 m n i (dFmtA x) (dA x) (dAs x) (dAStride x) r nn
  if vfn = 0x20 ∨ vfn = 0x21 then [rowReduce vfn a]
  else if vfn = 0x13 then a.map canon
  else
    let b := if vecUsesB vfn then d.rowFp32 m n i (dFmtB x) (dB x) (dBs x) (dBStride x) r nn else []
    let c := if vecUsesC vfn then d.rowFp32 m n i (dFmtOut x) (dOut x) (dOuts x) (dOutStride x) r nn else []
    (List.range nn).map fun k => vecFn vfn (a.getD k 0) (b.getD k 0) (c.getD k 0)

/-- Write the rows of an output with their roundings and events. -/
def Device.writeRows (d : Device) (m : Memory) (n i : Nat) (op : TensorOp) (rows : List (List Nat)) (sr : Bool) : Device :=
  let x := op.words
  (List.range rows.length).foldl (fun d r =>
    let (d, e) := d.writeRow m n i (dFmtOut x) (dOut x) (dOuts x) (dOutStride x) r (rows.getD r []) (d.opRnd n i x sr)
    d.writeEvents n i op.desc e) d

/-- A VEC (R127): every element is read before any is written. A P format decoded into BF16 rounds to nearest even (R109). -/
def Device.vec (d : Device) (m : Memory) (n i : Nat) (op : TensorOp) : Device :=
  let x := op.words
  let rows := (List.range (dM x)).map (d.vecRow m n i x)
  let d := d.countCbufRead n i (dA x) (dM x * rowBytes (dFmtA x) (dN x))
  let d := if vecUsesB (dVfn x) then d.countCbufRead n i (dB x) (dM x * rowBytes (dFmtB x) (dN x)) else d
  let d := d.count (.tile n i) 2 ((rows.map List.length).sum)
  d.writeRows m n i op rows (dRound x && !(fmtIsP (dFmtA x) && decide (dFmtOut x = 1)))

/-- VEC_EXECUTE: the vector unit begins and performs the VEC at the head of its queue (R127). -/
def execVecExecute (n i : Nat) (ecc : Ecc) (s : State) : Out :=
  let d := s.dev
  match d.runOp n i (d.tile n i).vecQ (fun o => o = 2) true ecc false (fun t => { t with vecQ := t.vecQ.tail }) (fun d op => d.vec s.mem n i op) with
  | some d => s.done d
  | none => s.same

/-- One element of a TSUM (R118, R144). -/
def tsumElem (bf : Bool) (a b : Nat) : Nat :=
  if bf then
    let r := fun c => (bf16.enc .rne (fp32.dec c)).code
    rnd32 (bf16.dec (addBf (r a) (r b)))
  else add32 a b

/-- A TSUM: out = add_rne(a, b) in the partial-sum format FMT_OUT. -/
def Device.tsum (d : Device) (m : Memory) (n i : Nat) (op : TensorOp) : Device :=
  let x := op.words
  let nn := dN x
  let rows := (List.range (dM x)).map fun r =>
    let a := d.rowFp32 m n i (dFmtA x) (dA x) (dAs x) (dAStride x) r nn
    let b := d.rowFp32 m n i (dFmtB x) (dB x) (dBs x) (dBStride x) r nn
    (List.range nn).map fun k => tsumElem (dFmtOut x = 1) (a.getD k 0) (b.getD k 0)
  let d := d.countCbufRead n i (dA x) (dM x * rowBytes (dFmtA x) nn)
  let d := d.countCbufRead n i (dB x) (dM x * rowBytes (dFmtB x) nn)
  (d.count (.tile n i) 2 (dM x * nn)).writeRows m n i op rows false

/-- TSUM_EXECUTE: one addition of the partial-sum tree (R144). -/
def execTsumExecute (n i : Nat) (ecc : Ecc) (s : State) : Out :=
  let d := s.dev
  match d.runOp n i (d.tile n i).vecQ (fun o => o = 4) false ecc false (fun t => { t with vecQ := t.vecQ.tail }) (fun d op => d.tsum s.mem n i op) with
  | some d => s.done d
  | none => s.same

/-- The ancestor masks of a tree (R278): anc[0] = 1, anc[i] = anc[PARENT[i]] | 2^i. -/
def ancestors (par : List Byte) (nodes : Nat) : List Nat :=
  (List.range (nodes - 1)).foldl (fun acc k => acc ++ [acc.getD (par.getD (k + 1) 0).toNat 0 ||| 2 ^ (k + 1)]) [1]

/-- Is column `c` of row `r` kept (R279)? -/
def treeKeeps (anc : List Nat) (l0 nodes row0 col0 r c : Nat) : Bool :=
  let i := row0 + r
  let pos := col0 + c
  decide (pos < l0) || (decide (i < nodes) && decide (pos - l0 < nodes) && bit (anc.getD i 0) (pos - l0))

/-- A TMASK (R279): masked scores become -∞. -/
def Device.tmask (d : Device) (m : Memory) (n i : Nat) (op : TensorOp) : Device :=
  let x := op.words
  let nn := dN x
  let l0 := leNat (d.locRead m n i (dB x) 0 4)
  let nodes := leNat (d.locRead m n i (dB x) 4 1)
  let anc := ancestors (d.locRead m n i (dB x) 16 64) nodes
  let rows := (List.range (dM x)).map fun r =>
    let a := d.rowCodes m n i 0 (dA x) (dAStride x) r nn
    (List.range nn).map fun c => if treeKeeps anc l0 nodes (dPart x) (dK x) r c then a.getD c 0 else 0xFF800000
  let d := d.countCbufRead n i (dA x) (dM x * 4 * nn)
  (d.count (.tile n i) 2 (dM x * nn)).writeRows m n i op rows false

/-- TMASK_EXECUTE: the vector unit applies a sweep tree-mask (R279). -/
def execTmaskExecute (n i : Nat) (ecc : Ecc) (s : State) : Out :=
  let d := s.dev
  match d.runOp n i (d.tile n i).vecQ (fun o => o = 5) false ecc false (fun t => { t with vecQ := t.vecQ.tail }) (fun d op => d.tmask s.mem n i op) with
  | some d => s.done d
  | none => s.same

end Sys2Proof.Machine
end

