-- ==== Sys2Proof/Machine/Mesh.lean ====
section
/-!
DEFINITION. Mesh writes, token writes and the end of a tile's pitch (spec/05 R147, R150, R151; spec/06 R185 to R189).
-/
namespace Sys2Proof.Machine

/-! ### Mesh writes -/

/-- A mesh write of an operation is acknowledged (R186). -/
def Device.ackWrite (d : Device) (n i op : Nat) : Device :=
  let t := d.tile n i
  d.setTile n i { t with unacked :=
    (t.unacked.map fun u => if u.1 = op then (u.1, u.2.1, u.2.2 - 1) else u).filter fun u => decide (u.2.2 ≠ 0) }

/-- Must the receiver refuse the write (R147)? -/
def Device.refuses (d : Device) (w : MeshWrite) : Bool :=
  let part := d.tilePart w.die w.inst
  let p := d.bankSize w.die w.inst
  part.isNone || decide (part ≠ d.tilePart w.srcDie w.srcInst) ||
    (!w.cbuf && decide (locSpace w.loc = 0) &&
      (decide (locView w.loc = 0 ∨ locView w.loc = 3) || decide (viewSize p (locView w.loc) < locAddr w.loc + w.bytes.length)))

/-- MESH_WRITE_ARRIVE: write `k` arrives, behind those that left earlier between the same tiles (R147), and is performed or refused. `ecc`: what the
error code finds in the words that it reads. -/
def execMeshWriteArrive (k : Nat) (ecc : Ecc) (s : State) : Out :=
  let d := s.dev
  match d.mesh.writes.find? (fun w => w.id = k) with
  | none => s.same
  | some w =>
    let ahead := d.mesh.writes.any fun v => decide (v.id < k ∧ v.srcDie = w.srcDie ∧ v.srcInst = w.srcInst ∧ v.die = w.die ∧ v.inst = w.inst)
    if ahead || d.stopped (tileIsland w.die w.inst) then s.same
    else
      let d := d.setMesh { d.mesh with writes := d.mesh.writes.filter fun v => decide (v.id ≠ k) }
      let d := (d.ackWrite w.srcDie w.srcInst w.op).tick (rgnOf w.die w.inst) 9
      if d.refuses w then s.done (d.refuseWrite w.die w.inst w.srcInst w.srcDie)
      else if w.cbuf then
        s.done ((d.count (.clu w.die (w.inst / 16)) 5 w.bytes.length).st (cbufMem w.die (w.inst / 16) + locAddr w.loc) w.bytes)
      else
        let (d, ue) := d.eccFound w.die w.inst ecc
        match ue with
        | some code => s.done (d.tileFault w.die w.inst code none)
        | none => s.done (d.locWrite s.mem w.die w.inst w.loc 0 w.bytes)

/-! ### Tokens -/

/-- Send a token write (R186, R189): it carries the partition, pitch and attempt under which it was produced. -/
def Device.sendTokens (d : Device) (srcPart : Option Nat) (n i chan count pitch attempt src : Nat) : Device :=
  if count = 0 then d
  else d.setMesh { d.mesh with
    tokens := d.mesh.tokens ++ [⟨d.mesh.nextId, srcPart, n, i, chan, count, pitch, attempt, src⟩], nextId := d.mesh.nextId + 1 }

/-- The region's token hold. -/
def Device.heldTokens (d : Device) (n r : Nat) : List TokenWrite := Tbl.lookD d.tokHold (16 * n + r) []

/-- Replace it, with RGN_HOLD.USED. -/
def Device.setHeldTokens (d : Device) (n r : Nat) (l : List TokenWrite) : Device :=
  (d.setTokHold (if l = [] then Tbl.del d.tokHold (16 * n + r) else Tbl.put d.tokHold (16 * n + r) l)).put (.rgn n r) Fld.RGN_HOLD_USED l.length

/-- Is a 32-bit number behind another, as a signed difference? -/
def behind (a b : Nat) : Bool := decide (2 ^ 31 ≤ (a + 2 ^ 32 - b % 2 ^ 32) % 2 ^ 32)

/-- A token write discarded as stale (R189, R204). -/
def Device.staleToken (d : Device) (w : TokenWrite) : Device :=
  let d := (d.tick (rgnOf w.die w.inst) 4).errNoCairn (.tile w.die w.inst) 19 0x0115
  d.cairnTile w.die w.inst 0x0115 0x100
    (w.chan % 256 + w.attempt % 256 * 256 + b2n (behind w.pitch (d.tilePitch w.die w.inst)) * 65536)

/-- TOKEN_WRITE_ARRIVE: token write `k` arrives and is applied, held or discarded (R187 to R189); while the hold is full it waits on the mesh. -/
def execTokenWriteArrive (k : Nat) (s : State) : Out :=
  let d := s.dev
  match d.mesh.tokens.find? (fun w => w.id = k) with
  | none => s.same
  | some w =>
    if d.stopped (tileIsland w.die w.inst) then s.same
    else
      let r := w.inst / 128
      let drop := d.setMesh { d.mesh with tokens := d.mesh.tokens.filter fun v => decide (v.id ≠ k) }
      if (d.tilePart w.die w.inst).isNone || decide (d.tilePart w.die w.inst ≠ w.srcPart) then
        s.done (drop.refuseWrite w.die w.inst 0 0)
      else match d.tagFit w.die w.inst w.pitch w.attempt with
        | .equal => s.done (drop.applyTokens s.mem w.die w.inst w.chan w.count)
        | .early =>
          let held := d.heldTokens w.die r
          if 64 ≤ held.length then s.same
          else s.done ((drop.setHeldTokens w.die r (held ++ [w])).tick (.rgn w.die r) 3)
        | .stale => s.done (drop.staleToken w)

/-- The operations that strand `st` issued before `after` are complete with their writes acknowledged (R186). -/
def Tile.opsDone (t : Tile) (st after : Nat) : Bool :=
  (t.arrQ ++ t.vecQ ++ t.movQ).all (fun q => decide (q.strand ≠ st) || decide (after ≤ q.id)) &&
    t.unacked.all fun u => decide (u.2.1 ≠ st) || decide (after ≤ u.1)

/-- TOKEN_DELIVER: the strand's oldest SIGNAL or SIGNALR whose earlier writes are acknowledged delivers its tokens (R186). -/
def execTokenDeliver (n i st : Nat) (s : State) : Out :=
  let d := s.dev
  let t := d.tile n i
  match t.sigs.find? (fun g => g.strand = st) with
  | none => s.same
  | some g =>
    if !d.tileLive n i || !t.opsDone st g.after then s.same
    else
      let d := d.setTile n i { t with sigs := t.sigs.erase g }
      if g.die = n ∧ g.inst = i then s.done (d.applyTokens s.mem n i g.chan g.count)
      else s.done (d.sendTokens (d.tilePart n i) g.die g.inst g.chan g.count (d.tilePitch n i) (d.tileAttempt n i) 0)

/-! ### The end of a tile's pitch -/

/-- STALL_TIMEOUT: a strand's stall timer reaches its limit (R151): the strand is READY or waits, on a tile that runs a pitch and is neither
halted nor stopped. -/
def execStallTimeout (n i st : Nat) (s : State) : Out :=
  let d := s.dev
  let p := Page.tile n i
  match Tbl.look (d.tile n i).strands st with
  | none => s.same
  | some x =>
    if !d.tileLive n i || !d.flag p Fld.TILE_RUN_RUNNING || d.flag p Fld.STATUS_HALTED || decide (x.st = .idle) || decide (x.st = .done) then s.same
    else s.done (d.strandFault n i st 0x0103)

/-- The tile has met R150. -/
def Tile.finished (t : Tile) : Bool :=
  t.rotation.all (fun r => decide ((Tbl.lookD t.strands r.1 (Strand.fresh 0 .idle)).st = .done)) &&
    t.arrQ.isEmpty && t.vecQ.isEmpty && t.movQ.isEmpty && t.unacked.isEmpty

/-- Every tile of the region that runs a strand reports DONE. -/
def Device.regionTilesDone (d : Device) (n r : Nat) : Bool :=
  d.tiles.all fun kv =>
    decide (kv.1 / 2048 ≠ n ∨ kv.1 % 2048 / 128 ≠ r) || kv.2.rotation.isEmpty || d.flag (.tile n (kv.1 % 2048)) Fld.TILE_RUN_DONE

/-- The region controller sends DONE for its region (R266 step 1): it enters BOUNDARY and its pitch controller notes it. -/
def Device.regionDone (d : Device) (n r : Nat) : Device :=
  match d.regionPart n r with
  | none => d
  | some q =>
    match Tbl.look d.parts q with
    | none => d
    | some x => (d.put (.rgn n r) Fld.RGN_STATE_STATE 2).setParts
        (Tbl.put d.parts q { x with doneRegions := insSet (16 * n + r) x.doneRegions, boundaryAt := d.clk.now })

/-- TILE_DONE: every listed strand is DONE and every queue is empty with its writes acknowledged (R150); with the region's last tile, the region
controller sends DONE. -/
def execTileDone (n i : Nat) (s : State) : Out :=
  let d := s.dev
  let p := Page.tile n i
  if !d.tileLive n i || !d.flag p Fld.TILE_RUN_RUNNING || d.flag p Fld.TILE_RUN_DONE || !(d.tile n i).finished then s.same
  else
    let d := d.put p Fld.TILE_RUN_DONE 1
    s.done (if d.regionTilesDone n (i / 128) && decide (d.fld (rgnOf n i) Fld.RGN_STATE_STATE = 1) then d.regionDone n (i / 128) else d)

end Sys2Proof.Machine
end

