-- ==== Sys2Proof/Machine/Vault.lean ====
section
/-!
DEFINITION. The key vaults, the bulk cipher engines and the device's identity (spec/14, R436 to R468), with the DDR5 channels' use of a key (R302 to
R304).
-/
namespace Sys2Proof.Machine

/-! ### Vaults and slots -/

def freshVault : Vault := ⟨[], [], [], [], 0, false, false, false⟩
def Device.vault (d : Device) (i : Nat) : Vault := Tbl.lookD d.vaults i freshVault
def Device.setVault (d : Device) (i : Nat) (v : Vault) : Device := d.setVaults (Tbl.put d.vaults i v)

/-- An EMPTY slot. -/
def emptySlot : KeySlot := ⟨0, 0, 0, false, 0, 0, []⟩
def Device.slot (d : Device) (i n : Nat) : KeySlot := Tbl.lookD (d.vault i).slots n emptySlot

/-- Replace a slot; KVT_STATE.SLOTS_USED counts those not EMPTY. -/
def Device.setSlot (d : Device) (i n : Nat) (k : KeySlot) : Device :=
  let v := d.vault i
  let t := if k.st = 0 then Tbl.del v.slots n else Tbl.put v.slots n k
  (d.setVault i { v with slots := t }).put (.kvt i) Fld.KVT_STATE_SLOTS_USED t.length

/-- KVT_STATE.APPROVED (R455). -/
def Device.approvedNow (d : Device) (i : Nat) : Bool :=
  let p := Page.kvt i
  decide (d.fld p Fld.KVT_STATE_LIFECYCLE = 1) && d.flag p Fld.KVT_SELFTEST_PASS && decide (d.fld p Fld.KVT_STATE_VAULT = 1)
    && d.flag p Fld.KVT_STATE_DRBG_OK && decide (d.fld p Fld.KVT_ALARM_CAUSE = 0) && !d.flag p Fld.KVT_STATE_DEBUG_OPEN

/-- Bring KVT_STATE.APPROVED up to date after a change of what it depends on. -/
def Device.approve (d : Device) (i : Nat) : Device := d.put (.kvt i) Fld.KVT_STATE_APPROVED (b2n (d.approvedNow i))

/-- A key leaves the engines (R304, R447): an enabled DDR5 channel on the slot loses its key, and a software job that uses it ends with RESULT KEY and
no output. -/
def Device.withdraw (d : Device) (i n : Nat) : Device :=
  let d := (List.range 8).foldl (fun d ch =>
    let p := Page.ddr i ch
    if d.present p && d.flag p Fld.DDR_XTS_ENABLE && decide (d.fld p Fld.DDR_XTS_SLOT = n) then d.put p Fld.DDR_STATE_KEY_LOST 1 else d) d
  (List.range 4).foldl (fun d j =>
    let p := Page.cph i
    if d.present p && decide (d.fldI p Fld.CPH_JOB_CTL_BUSY j = 1) && decide (d.fldI p Fld.CPH_JOB_CFG_SLOT j = n) then
      ((((d.putI p Fld.CPH_JOB_CTL_BUSY j 0).putI p Fld.CPH_JOB_CTL_RESULT j 3).putI p Fld.CPH_JOB_CTL_APPROVED j
        (b2n (d.approvedNow i))).tick p 5).endXfer (.unit "cph" i j)
    else d) d

/-- A slot is zeroed and becomes EMPTY (R444, R447). -/
def Device.eraseSlot (d : Device) (i n : Nat) : Device :=
  if (d.slot i n).st = 0 then d else ((d.withdraw i n).setSlot i n emptySlot).tick (.kvt i) 2

/-- Every slot that a test selects is erased. -/
def Device.eraseSlots (d : Device) (i : Nat) (sel : KeySlot → Bool) : Device :=
  (d.vault i).slots.foldl (fun (d : Device) (kv : Nat × KeySlot) => if sel kv.2 then d.eraseSlot i kv.1 else d) d

/-- Steps 3 and 4 of R457: every key is withdrawn; the slots, the DRBG state and the derived secrets are overwritten. -/
def Device.vaultErase (d : Device) (i : Nat) : Device :=
  let d := d.eraseSlots i (fun _ => true)
  let d := d.setVault i { d.vault i with secrets := false }
  (d.put (.kvt i) Fld.KVT_STATE_DRBG_OK 0).approve i

/-- The function that owns a software job channel (R440, R452): the function that holds its lease, the PF for a cox core. -/
def Device.jobFunc (d : Device) (i j : Nat) : Nat :=
  let o := d.fldI (.cph i) Fld.LEASE_OWNER_OWNER j
  if o / 4096 = 2 then o % 4096 else 0

/-- The engines' check of a slot (R440, R449): 0 usable, 3 KEY, 4 EXHAUSTED. `pkgUse`: the use is one of the package's own. -/
def KeySlot.use (k : KeySlot) (typ func : Nat) (pkgUse : Bool) : Nat :=
  if k.typ ≠ typ ∨ !(if k.pkg then pkgUse else decide (k.owner = func)) then 3
  else if k.st = 3 then 4
  else if k.st = 2 then 0
  else 3

/-! ### AES-GCM -/

/-- The big-endian bytes of a number. -/
def beNats (n x : Nat) : List Nat := ((leBytes n x).map BitVec.toNat).reverse

/-- The IV (R449): the salt followed by the counter, most significant byte first. -/
def gcmIv (salt ctr : Nat) : List Nat := beNats 4 salt ++ beNats 8 ctr

/-- Encryption or decryption of bytes under a key and an IV. -/
def gcmCrypt (key iv : List Nat) (bs : List Byte) : List Byte :=
  (List.range bs.length).map fun k => (bs.getD k 0) ^^^ BitVec.ofNat 8 (Config.gcmByte key iv k)

/-- The 128-bit tag over the AAD and the ciphertext. -/
def gcmTagOf (key iv : List Nat) (aad ct : List Byte) : Nat :=
  Config.gcmTag key iv (aad.map BitVec.toNat) (ct.map BitVec.toNat) % 2 ^ 128

/-- The slot after a counter value has been issued (R449). -/
def KeySlot.issue (k : KeySlot) : KeySlot := { k with ctr := k.ctr + 1, st := if k.ctr + 1 = 2 ^ 64 - 1 then 3 else k.st }

/-! ### Session commands -/

/-- A request of R443. -/
structure VReq where
  op : Nat
  typ : Nat
  slot : Nat
  wrap : Nat
  owner : Nat
  scope : Nat
  salt : Nat
  len : Nat
  ctx : List Nat
  mask : Nat
  rest : Nat
  payload : List Nat
  cox : Bool

/-- The fields of a request block. -/
def parseVReq (bs : List Byte) (cox : Bool) : VReq :=
  let n := fun off len => leNat ((bs.drop off).take len)
  ⟨n 0 1, n 1 1, n 2 2, n 4 2, n 6 1, n 7 1, n 8 4, n 12 4, ((bs.drop 16).take 32).map BitVec.toNat, n 48 4, n 52 12,
    ((bs.drop 64).take (n 12 4)).map BitVec.toNat, cox⟩

/-- A response: STATUS, SALT, COUNTER and data. -/
structure VResp where
  status : Nat
  salt : Nat
  ctr : Nat
  data : List Nat

def VResp.err (status : Nat) : VResp := ⟨status, 0, 0, []⟩

/-- Bytes of a key of a type. -/
def keyBytes (typ : Nat) : Nat := if typ = 4 then 64 else 32

/-- Is the operation an import? -/
def VReq.isImport (q : VReq) : Bool := decide (q.op = 1) || decide (q.op = 2)

/-- BAD_REQUEST: unknown OP or TYPE, reserved bytes non-zero, lengths wrong (R443 to R445), a PKG import or an EXTEND not from a cox core. -/
def VReq.bad (q : VReq) : Bool :=
  decide (q.op = 0 ∨ 10 < q.op) || decide (q.rest ≠ 0) || decide (4095 < q.slot) || decide (4095 < q.wrap) || decide (1 < q.scope) ||
  decide (127 < q.owner) || decide (4032 < q.len ∧ q.op ≠ 8) ||
  (q.isImport && (decide (q.typ = 0 ∨ 4 < q.typ) || (decide (q.scope = 1) && !q.cox) ||
    decide (q.len ≠ (if q.op = 1 then keyBytes q.typ + 8 else 1568)))) ||
  (decide (q.op = 8) && decide (q.len = 0 ∨ 8192 < q.len)) ||
  (decide (q.op = 9) && (!q.cox || decide (q.len ≠ 64) || decide (q.slot = 0 ∨ 7 < q.slot)))

/-- The status that refuses a request, 0 where nothing does (R438, R441, R444, R445, R453, R463, R465). R445 gives no order of these checks; the order
here is log entry 17. -/
def Device.vaultRefuse (d : Device) (i : Nat) (q : VReq) : Nat :=
  let p := Page.kvt i
  let secure := decide (d.fld p Fld.KVT_STATE_LIFECYCLE = 1)
  let dbg := d.flag p Fld.KVT_STATE_DEBUG_OPEN
  let drbg := d.flag p Fld.KVT_STATE_DRBG_OK
  if d.fld p Fld.KVT_STATE_VAULT ≠ 1 then 0x130A
  else if q.bad then 0x1301
  else if q.isImport && decide (q.typ ≠ 1) && d.cfg.part.noCipher then 0x1307
  else if (decide (q.op = 2) || decide (q.op = 5)) && !secure then 0x1308
  else if (decide (q.op = 2) || decide (q.op = 5) || decide (q.op = 6)) && dbg then 0x1309
  else if q.isImport && decide ((d.slot i q.slot).st ≠ 0) then 0x1302
  else if decide (q.op = 1) && !(decide ((d.slot i q.wrap).typ = 1) && decide ((d.slot i q.wrap).st = 2)) then 0x1305
  else if ((q.isImport && decide (q.typ = 2)) || decide (q.op = 5) || decide (q.op = 7) || decide (q.op = 8)) && !drbg then 0x130B
  else 0

/-- The key that an import obtains, or its status (R444). -/
def Device.importedKey (d : Device) (i : Nat) (q : VReq) : Except Nat (List Nat) :=
  if q.op = 1 then
    match Config.aesKwUnwrap (d.slot i q.wrap).key q.payload with
    | some k => .ok ((List.range (keyBytes q.typ)).map fun x => k.getD x 0 % 256)
    | none => .error 0x1303
  else
    match Config.kemDecaps q.payload with
    | some ss =>
      let k := Config.shake256 (ss ++ q.ctx ++ [q.typ] ++ (leBytes 16 Config.serial).map BitVec.toNat) (keyBytes q.typ)
      .ok ((List.range (keyBytes q.typ)).map fun x => k.getD x 0 % 256)
    | none => .error 0x1304

/-- An import ends: the slot is loaded, or returns to EMPTY (R444, R445). -/
def Device.importEnd (d : Device) (i owner : Nat) (q : VReq) : Device × VResp :=
  let fail := fun (st : Nat) => ((d.setSlot i q.slot emptySlot).tick (.kvt i) 1, VResp.err st)
  match d.importedKey i q with
  | .error st => fail st
  | .ok k =>
    if q.typ = 4 ∧ k.take 32 = k.drop 32 then fail 0x1306
    else
      let salt := if q.typ = 2 then d.freeVal % 2 ^ 32 else if q.typ = 3 then q.salt else 0
      let d := if q.typ = 2 then d.freeNext else d
      ((d.setSlot i q.slot ⟨q.typ, 2, owner, decide (q.scope = 1), salt, 0, k⟩).tick (.kvt i) 0, ⟨0, salt, 0, []⟩)

/-- Measurement register k. -/
def Device.measOf (d : Device) (i k : Nat) : List Nat := Tbl.lookD (d.vault i).meas k (List.replicate 64 0)

/-- EXTEND (R464): M becomes SHAKE256-512(M followed by the data). -/
def Device.extendMeas (d : Device) (i k : Nat) (data : List Nat) : Device :=
  let m := Config.shake256 (d.measOf i k ++ data) 64
  d.setVault i { d.vault i with meas := Tbl.put (d.vault i).meas k ((List.range 64).map fun x => m.getD x 0 % 256) }

/-- A list taken to exactly n bytes. -/
def toLen (n : Nat) (l : List Nat) : List Nat := (List.range n).map fun k => l.getD k 0 % 256

/-- Little-endian bytes as numbers. -/
def leNats (n x : Nat) : List Nat := (leBytes n x).map BitVec.toNat

/-- The attestation report before its signature (R464). -/
def Device.attestBody (d : Device) (i : Nat) (q : VReq) : List Nat :=
  let parts := (List.range 32).filter fun t => bit q.mask t
  let len := 648 + 72 * parts.length + 1280
  let p := Page.kvt i
  leNats 4 0x54415247 ++ leNats 2 len ++ [d.fld p Fld.KVT_STATE_LIFECYCLE, b2n (d.approvedNow i) + 2 * b2n (d.vault i).alarmed] ++
    leNats 2 (d.fld .pkg Fld.PKG_ID_ID) ++ [i, 0] ++ leNats 4 (d.fld p Fld.KVT_FUSE_SVN) ++ leNats 16 Config.serial ++ toLen 32 q.ctx ++
    ((List.range 8).flatMap fun k => d.measOf i k) ++ toLen 64 (Config.shake256 Config.kemKey 64) ++ leNats 4 q.mask ++ [0, 0, 0, 0] ++
    (parts.flatMap fun t =>
      let m : List Nat := match Tbl.look d.parts t with
        | some x => (match x.image with
          | some im => im.measure.map BitVec.toNat
          | none => [])
        | none => []
      [t, 0, 0, 0] ++ leNats 4 (d.fldI .pkg Fld.PKG_PART_HANDLE t) ++ toLen 64 m)

/-- VENDOR_CMD: a signed fuse command, applied to both I-dies' fuses; none where its content is refused (R438, R444, R461). -/
def Device.vendorDo (d : Device) (i : Nat) (payload : List Nat) : Option Device :=
  let p := Page.kvt i
  let both := fun (f : Field) (v : Nat) (d : Device) => d.model.idies.foldl (fun d k => (d.put (.kvt k) f v).approve k) d
  match Config.vendorCmd payload with
  | some (0, k) =>
    let r := setBit (d.fld p Fld.KVT_FUSE_KEY_REVOKED) k
    if k < 2 ∧ r ≠ 3 then some (both Fld.KVT_FUSE_KEY_REVOKED r d) else none
  | some (1, v) => if d.fld p Fld.KVT_FUSE_SVN < v ∧ v ≤ 64 then some (both Fld.KVT_FUSE_SVN v d) else none
  | some (2, l) => if d.fld p Fld.KVT_STATE_LIFECYCLE < l ∧ l ≤ 2 then some (both Fld.KVT_STATE_LIFECYCLE l d) else none
  | _ => none

/-- MIGRATE (R448): `answers` says whether the peer vault answers on the sideband link. -/
def Device.migrateDo (d : Device) (i : Nat) (q : VReq) (answers : Bool) : Device × VResp :=
  let j := 1 - i
  let k := d.slot i q.slot
  if !d.hasIdie j || !answers || decide (d.fld (.kvt j) Fld.KVT_STATE_VAULT ≠ 1) then (d, .err 0x130C)
  else if k.st ≠ 2 ∨ k.typ = 1 then (d, .err 0x1301)
  else if (d.slot j q.wrap).st ≠ 0 then (d, .err 0x1302)
  else ((d.setSlot j q.wrap k).eraseSlot i q.slot, ⟨0, k.salt, k.ctr, []⟩)

/-- The effect of a request that no check refuses, and its response; an import's is its end. -/
def Device.vaultDo (d : Device) (i owner : Nat) (q : VReq) (answers : Bool) : Device × VResp :=
  if q.isImport then d.importEnd i owner q
  else if q.op = 3 then (d.eraseSlot i q.slot, .err 0)
  else if q.op = 4 then
    let has := (d.vault i).secrets
    let key := fun (n : Nat) (l : List Nat) => toLen n (if has then l else [])
    (d, ⟨0, 0, 0, key 1793 Config.identityKey ++ key 1568 Config.kemKey ++ (if has then Config.vendorCert.map (· % 256) else [])⟩)
  else if q.op = 5 then
    let body := d.attestBody i q
    ((d.tick (.kvt i) 4).freeNext, ⟨0, 0, 0, body ++ toLen 1280 (Config.falconSign body d.freeVal)⟩)
  else if q.op = 6 then d.migrateDo i q answers
  else if q.op = 7 then
    (d.model.idies.foldl (fun d k => (d.eraseSlots k (fun _ => true)).approve k) d, .err 0)
  else if q.op = 8 then (d.freeNext, ⟨0, 0, 0, leNats q.len d.freeVal⟩)
  else if q.op = 9 then (d.extendMeas i q.slot q.payload, .err 0)
  else match d.vendorDo i q.payload with
    | some d => (d, .err 0)
    | none => (d, .err 0x130D)

/-- The status that a response carries: its code with APPROVED in bit 15 (R455). -/
def Device.withApproved (d : Device) (i code : Nat) : Nat := code % 2 ^ 15 + 2 ^ 15 * b2n (d.approvedNow i)

/-- The bytes of a response (R443). -/
def VResp.bytes (x : VResp) (status : Nat) : List Byte :=
  (leNats 2 status ++ [0, 0] ++ leNats 4 x.salt ++ leNats 8 x.ctr ++ List.replicate 48 0 ++ x.data).map (BitVec.ofNat 8)

/-- A session command ends (R442): the response, then BUSY and STATUS. -/
def Device.sessEnd (d : Device) (m : Memory) (i s : Nat) (write : Bool) (x : VResp) : Device :=
  let p := Page.kvt i
  let st := d.withApproved i x.status
  let a := d.fldI p Fld.KVT_SESS_REQ_ADDR_ADDR s * 2 ^ 14
  let d := if write then d.postAt m 0 0 (a + 4096) (x.bytes st) else d
  let d := d.setVault i { d.vault i with sess := Tbl.del (d.vault i).sess s }
  (d.putI p Fld.KVT_SESS_CTL_BUSY s 0).putI p Fld.KVT_SESS_CTL_STATUS s st

/-- Does the request name a slot that an import is loading, so that it waits (R446)? -/
def Device.waitsForImport (d : Device) (i : Nat) (q : VReq) : Bool :=
  (decide (q.op = 3) && decide ((d.slot i q.slot).st = 1)) ||
  (decide (q.op = 7) && d.model.idies.any fun k => (d.vault k).slots.any fun (kv : Nat × KeySlot) => decide (kv.2.st = 1))

/-- A session command: the write of GO by `r` whose request holds operation `op`, and its course (R442, R444 to R446). A request in host memory is
read first; an import holds its slot LOADING from its acceptance to its end, which is the same command a second time. -/
def sessionCmd (op : Nat) (r : Req) (i sn : Nat) (answers : Bool) (s : State) : Out :=
  let d := s.dev
  let p := Page.kvt i
  if !d.mayAccess r p || decide (16 ≤ sn) then s.same
  else match Tbl.look (d.vault i).sess sn with
    | some c =>
      let q := parseVReq c.req c.cox
      if q.op ≠ op then s.same
      else
        let x := if d.fld p Fld.KVT_STATE_VAULT ≠ 1 then ((d.setSlot i q.slot emptySlot).tick p 1, VResp.err 0x130A)
          else d.importEnd i q.owner q
        s.done (x.1.sessEnd s.mem i sn true x.2)
    | none =>
      let a := d.fldI p Fld.KVT_SESS_REQ_ADDR_ADDR sn * 2 ^ 14
      if d.memKind a ≠ .hbm ∧ d.memKind a ≠ .host then s.done (d.sessEnd s.mem i sn false (.err 0x1301))
      else match d.dataAt s.mem 0 (.unit "session" i sn) a 4096 with
        | .notNow => s.same
        | .asked d => s.done (d.putI p Fld.KVT_SESS_CTL_BUSY sn 1)
        | .failed d st => s.done (d.sessEnd s.mem i sn true (.err st))
        | .ready d bs _ =>
          let q := parseVReq bs (match r with
            | .cox _ _ => true
            | _ => false)
          if q.op ≠ op ∧ 1 ≤ q.op ∧ q.op ≤ 10 then s.same
          else if d.waitsForImport i q then s.same
          else
            let st := d.vaultRefuse i q
            if st ≠ 0 then s.done ((if q.isImport then d.tick p 1 else d).sessEnd s.mem i sn true (.err st))
            else if q.isImport then
              (if 4 ≤ (d.vault i).sess.length then s.same
               else
                let d := d.setSlot i q.slot { emptySlot with typ := q.typ, st := 1, owner := q.owner, pkg := decide (q.scope = 1) }
                let d := d.setVault i { d.vault i with sess := Tbl.put (d.vault i).sess sn ⟨q.cox, bs⟩ }
                s.done (d.putI p Fld.KVT_SESS_CTL_BUSY sn 1))
            else
              let x := d.vaultDo i q.owner q answers
              s.done (x.1.sessEnd s.mem i sn true x.2)

/-- IMPORT_KW (R444). -/
def execImportKw (r : Req) (i session : Nat) (s : State) : Out := sessionCmd 1 r i session true s

/-- IMPORT_KEM (R444). -/
def execImportKem (r : Req) (i session : Nat) (s : State) : Out := sessionCmd 2 r i session true s

/-- ERASE (R444, R446, R447). -/
def execErase (r : Req) (i session : Nat) (s : State) : Out := sessionCmd 3 r i session true s

/-- GET_PUBLIC (R444). -/
def execGetPublic (r : Req) (i session : Nat) (s : State) : Out := sessionCmd 4 r i session true s

/-- ATTEST (R464). -/
def execAttest (r : Req) (i session : Nat) (s : State) : Out := sessionCmd 5 r i session true s

/-- MIGRATE (R448). -/
def execMigrate (r : Req) (i session : Nat) (answers : Bool) (s : State) : Out := sessionCmd 6 r i session answers s

/-- ZEROIZE (R444). -/
def execZeroize (r : Req) (i session : Nat) (s : State) : Out := sessionCmd 7 r i session true s

/-- RANDOM (R444). -/
def execRandom (r : Req) (i session : Nat) (s : State) : Out := sessionCmd 8 r i session true s

/-- EXTEND (R464). -/
def execExtend (r : Req) (i session : Nat) (s : State) : Out := sessionCmd 9 r i session true s

/-- VENDOR_CMD (R438, R444). -/
def execVendorCmd (r : Req) (i session : Nat) (s : State) : Out := sessionCmd 10 r i session true s

/-- A break of a session lease ends the command in progress without a response; the slot it was loading returns to EMPTY (R442). -/
def Device.breakSession (d : Device) (i sn : Nat) : Device :=
  let p := Page.kvt i
  let d := (d.tick p 8).endXfer (.unit "session" i sn)
  let d := match Tbl.look (d.vault i).sess sn with
    | some c => d.setSlot i (parseVReq c.req c.cox).slot emptySlot
    | none => d
  (d.setVault i { d.vault i with sess := Tbl.del (d.vault i).sess sn }).putI p Fld.KVT_SESS_CTL_BUSY sn 0

/-! ### Self-tests, alarms and the DRBG -/

/-- A self-test fails (R454): VAULT becomes ERROR, KVT_SELFTEST holds the test, and bit 16 is set. -/
def Device.selfTestFail (d : Device) (i test : Nat) : Device :=
  let p := Page.kvt i
  let d := (((d.put p Fld.KVT_STATE_VAULT 3).put p Fld.KVT_SELFTEST_FAILED test).put p Fld.KVT_SELFTEST_DONE 1).put p Fld.KVT_SELFTEST_PASS 0
  ((d.err p 16 (Config.blockErrCode 0x13 16) test).irq p 16).approve i

/-- The vault's start (R453, R454, R458, R459): the tests, the derived secrets where the part has any and their path is open, the DRBG. `failedTest`
is 0 where every test passes, else a code of KVT_SELFTEST.FAILED. -/
def Device.vaultStart (d : Device) (i failedTest : Nat) : Device :=
  let p := Page.kvt i
  if failedTest ≠ 0 then d.selfTestFail i failedTest
  else
    let v := d.vault i
    let d := d.setVault i { v with secrets := decide (d.fld p Fld.KVT_STATE_LIFECYCLE = 1) && !v.blocked }
    let d := ((d.put p Fld.KVT_SELFTEST_DONE 1).put p Fld.KVT_SELFTEST_PASS 1).put p Fld.KVT_SELFTEST_FAILED 0
    ((d.put p Fld.KVT_STATE_VAULT 1).put p Fld.KVT_STATE_DRBG_OK 1).approve i

/-- An alarm in one vault (R457, steps 1 and 3 to 5). -/
def Device.alarmIn (d : Device) (m : Memory) (i cause : Nat) : Device :=
  let p := Page.kvt i
  let c := d.fld p Fld.KVT_ALARM_CAUSE ||| 2 ^ cause
  let d := (d.put p Fld.KVT_ALARM_CAUSE c).tick p 3
  let d := d.vaultErase i
  let d := d.setVault i { d.vault i with alarmed := true }
  let d := ((d.put p Fld.KVT_STATE_VAULT 2).approve i).event m 0 0x1301 p.island [i, c]
  (d.err p 17 0x1301 c).irq p 17

/-- An alarm: its vault, and over the alarm wire pair the other, which latches PEER (R457). -/
def Device.alarm (d : Device) (m : Memory) (i cause : Nat) : Device :=
  let d := d.alarmIn m i cause
  if d.hasIdie (1 - i) then d.alarmIn m (1 - i) 6 else d

/-- VAULT_ALARM: a sensor of vault i latches a cause (R456, R457). -/
def execVaultAlarm (i cause : Nat) (s : State) : Out :=
  if s.dev.present (.kvt i) && decide (cause < 7) then
    s.done (if cause = 6 then s.dev.alarmIn s.mem i 6 else s.dev.alarm s.mem i cause)
  else s.same

/-- ALARM_CLEAR: a W1C write clears the causes whose condition is gone (R458). `present` names the conditions that the sensors still see; PEER's lasts
while the other vault signals an alarm. -/
def execAlarmClear (r : Req) (i mask present : Nat) (s : State) : Out :=
  let d := s.dev
  let p := Page.kvt i
  if !d.mayAccess r p then s.same
  else
    let peer := d.hasIdie (1 - i) && decide (d.fld (.kvt (1 - i)) Fld.KVT_ALARM_CAUSE ≠ 0)
    let still := bits present 0 6 ||| (if peer then 64 else 0)
    let c := d.fld p Fld.KVT_ALARM_CAUSE
    s.done ((d.put p Fld.KVT_ALARM_CAUSE (c - (c &&& (mask &&& (127 - still))))).approve i)

/-- VAULT_REINIT: with every alarm bit clear, an ALARMED vault starts again (R458). -/
def execVaultReinit (i failedTest : Nat) (s : State) : Out :=
  let d := s.dev
  let p := Page.kvt i
  if d.present p && decide (d.fld p Fld.KVT_STATE_VAULT = 2) && decide (d.fld p Fld.KVT_ALARM_CAUSE = 0) then s.done (d.vaultStart i failedTest)
  else s.same

/-- DRBG_RESEED (R453). -/
def execDrbgReseed (i : Nat) (s : State) : Out :=
  if s.dev.present (.kvt i) && s.dev.flag (.kvt i) Fld.KVT_STATE_DRBG_OK then s.done (s.dev.tick (.kvt i) 5) else s.same

/-- ENTROPY_FAIL: DRBG_OK clears and the failure is counted (R453, R466). -/
def execEntropyFail (i : Nat) (s : State) : Out :=
  let p := Page.kvt i
  if s.dev.present p then
    s.done (((((s.dev.put p Fld.KVT_STATE_DRBG_OK 0).tick p 6).err p 18 (Config.blockErrCode 0x13 18) 0).irq p 18).approve i)
  else s.same

/-- DRBG_RETRY: the vault tries to instantiate the DRBG again (R453). -/
def execDrbgRetry (i : Nat) (ok : Bool) (s : State) : Out :=
  let p := Page.kvt i
  if s.dev.present p && ok && decide (s.dev.fld p Fld.KVT_STATE_VAULT = 1) then s.done ((s.dev.put p Fld.KVT_STATE_DRBG_OK 1).approve i) else s.same

/-! ### Firmware images -/

/-- The boot ROM's checks of an image: the number of the first that fails, 0 for none (R460, R461). -/
def Device.bootCheck (d : Device) (i : Nat) (image : List Nat) : Nat :=
  let p := Page.kvt i
  let n := fun off len => leNat (((image.drop off).take len).map (BitVec.ofNat 8))
  let idx := n 6 1
  let pub := (image.drop 256).take 1793
  let body := (image.drop 4096).take (n 16 8)
  if n 0 4 ≠ 0x57465247 ∨ n 4 2 ≠ 1 then 1
  else if 2 ≤ idx ∨ bit (d.fld p Fld.KVT_FUSE_KEY_REVOKED) idx then 2
  else if toLen 32 (Config.shake256 pub 32) ≠ toLen 32 (Config.vendorKeyHash idx) then 3
  else if n 8 4 < d.fld p Fld.KVT_FUSE_SVN then 4
  else if !Config.falconVerify pub (image.take 2304) ((image.drop 2304).take 1280) then 5
  else if toLen 64 (Config.shake256 body 64) ≠ (image.drop 24).take 64 then 6
  else 0

/-- The boot ROM of an I-die takes an image: BOOT_FAIL, or measurement register 0 extended with BODY_DIGEST (R461). -/
def Device.bootImage (d : Device) (i : Nat) (image : List Nat) : Device × Nat :=
  let c := d.bootCheck i image
  let d := d.put (.kvt i) Fld.KVT_SELFTEST_BOOT_FAIL c
  (if c = 0 then d.extendMeas i 0 ((image.drop 24).take 64) else d, c)

/-! ### The debug port -/

/-- DEBUG_CHALLENGE_READ: 32 bytes of the DRBG and the serial, renewed at each read (R462). -/
def execDebugChallengeRead (i : Nat) (s : State) : Out :=
  let d := s.dev
  if !d.present (.kvt i) then s.same
  else
    let c := leNats 32 d.freeVal ++ leNats 16 Config.serial
    s.done (((d.setVault i { d.vault i with chal := c }).freeNext).emit (.bytes "debug-challenge" i (c.map (BitVec.ofNat 8))))

/-- DEBUG_RESPONSE: a signed response to the challenge (R462): a refusal is counted, the third raises a DEBUG alarm; a success erases the vaults (in
SECURE, R438), blocks the path to the unique secret and opens the port. -/
def execDebugResponse (i keyIdx : Nat) (pubkey signature : List Nat) (s : State) : Out :=
  let d := s.dev
  let p := Page.kvt i
  let v := d.vault i
  if !d.present p then s.same
  else
    let ok := decide (keyIdx < 2) && !bit (d.fld p Fld.KVT_FUSE_KEY_REVOKED) keyIdx &&
      decide (toLen 32 (Config.shake256 pubkey 32) = toLen 32 (Config.vendorKeyHash keyIdx)) && decide (v.chal ≠ []) &&
      Config.falconVerify pubkey v.chal signature
    if !ok then
      let d := (d.setVault i { v with dbgTries := v.dbgTries + 1 }).tick p 7
      s.done (if v.dbgTries + 1 = 3 then d.alarm s.mem i 4 else d)
    else
      let secure := decide (d.fld p Fld.KVT_STATE_LIFECYCLE = 1)
      s.done (d.model.idies.foldl (fun d k =>
        let d := if secure then d.vaultErase k else d
        let d := d.setVault k { d.vault k with blocked := true }
        (d.put (.kvt k) Fld.KVT_STATE_DEBUG_OPEN 1).approve k) d)

/-- DEBUG_PORT_ACCESS: any other access of the closed port in SECURE raises a DEBUG alarm (R462). -/
def execDebugPortAccess (i : Nat) (s : State) : Out :=
  let d := s.dev
  if d.present (.kvt i) && decide (d.fld (.kvt i) Fld.KVT_STATE_LIFECYCLE = 1) && !d.flag (.kvt i) Fld.KVT_STATE_DEBUG_OPEN then
    s.done (d.alarm s.mem i 4)
  else s.same

/-! ### Software cipher jobs -/

/-- A job ends with a result and the value of APPROVED (R455, R467). -/
def Device.jobEnd (d : Device) (i j result : Nat) : Device :=
  let p := Page.cph i
  ((d.putI p Fld.CPH_JOB_CTL_BUSY j 0).putI p Fld.CPH_JOB_CTL_RESULT j result).putI p Fld.CPH_JOB_CTL_APPROVED j (b2n (d.approvedNow i))

/-- The engine's check of a job's slot. -/
def Device.jobUse (d : Device) (i j : Nat) : Nat :=
  let p := Page.cph i
  (d.slot i (d.fldI p Fld.CPH_JOB_CFG_SLOT j)).use (if d.fldI p Fld.CPH_JOB_CFG_DECRYPT j = 1 then 3 else 2) (d.jobFunc i j) false

/-- CPH_JOB: a write of GO starts a job, or ends it at once where the engine refuses the slot (R440, R449, R452). -/
def execCphJob (r : Req) (i j : Nat) (s : State) : Out :=
  let d := s.dev
  let p := Page.cph i
  if !d.mayAccess r p || decide (4 ≤ j) then s.same
  else if d.fldI p Fld.CPH_JOB_CTL_BUSY j = 1 then s.done (d.err p 17 (Config.blockErrCode 0x12 17) j)
  else if d.jobUse i j ≠ 0 then s.done ((d.tick p 6).jobEnd i j (d.jobUse i j))
  else s.done ((d.putI p Fld.CPH_JOB_CTL_BUSY j 1).putI p Fld.CPH_JOB_CTL_RESULT j 0)

/-- May a software job name the address (R452)? -/
def Device.jobAddr (d : Device) (a n : Nat) : Bool := decide (n = 0) || isHost a || d.inMemory a n

/-- CPH_JOB_DONE: the engine reads the AAD and the data, writes the data encrypted or decrypted, and reports (R449, R452, R467). A result for
which R467 has no code is a free value (log entry 2). -/
def execCphJobDone (i j : Nat) (finds : List (Nat × Nat)) (s : State) : Out :=
  let d := s.dev
  let p := Page.cph i
  if !d.present p || decide (4 ≤ j) || decide (d.fldI p Fld.CPH_JOB_CTL_BUSY j = 0) then s.same
  else
    let src := d.fldI p Fld.CPH_JOB_SRC j
    let dst := d.fldI p Fld.CPH_JOB_DST j
    let len := d.fldI p Fld.CPH_JOB_LEN j
    let aadLen := d.fldI p Fld.CPH_JOB_CFG_AAD_LEN j
    let f := d.jobFunc i j
    if d.jobUse i j ≠ 0 then s.done ((d.tick p 6).jobEnd i j (d.jobUse i j))
    else if !d.jobAddr src (aadLen + len) || !d.jobAddr dst len then s.done ((d.jobEnd i j (d.freeVal % 8)).freeNext)
    else
      let d := if isHost src then d else (d.memReads src (aadLen + len) finds).1
      match d.dataAt s.mem f (.unit "cph" i j) src (aadLen + len) with
      | .notNow => s.same
      | .asked d => s.done d
      | .failed d st => s.done (if st = 0x0905 then d.jobEnd i j 5 else (d.jobEnd i j (d.freeVal % 8)).freeNext)
      | .ready d bs bad =>
        if bad ≠ [] then s.done (d.jobEnd i j 5)
        else
          let n := d.fldI p Fld.CPH_JOB_CFG_SLOT j
          let k := d.slot i n
          let aad := bs.take aadLen
          let data := bs.drop aadLen
          if d.fldI p Fld.CPH_JOB_CFG_DECRYPT j = 1 then
            let iv := gcmIv k.salt (d.fldI p Fld.CPH_JOB_CTR j)
            let good := decide (gcmTagOf k.key iv aad data = d.fldI p Fld.CPH_JOB_TAG j)
            let d := (d.postAt s.mem f 0 dst (gcmCrypt k.key iv data)).count p 1 len
            let d := if good then d else d.tick p 2
            s.done ((d.tick p 7).jobEnd i j (if good then 1 else 2))
          else
            let iv := gcmIv k.salt k.ctr
            let ct := gcmCrypt k.key iv data
            let d := (d.setSlot i n k.issue).postAt s.mem f 0 dst ct
            let d := (d.putI p Fld.CPH_JOB_TAG j (gcmTagOf k.key iv aad ct)).putI p Fld.CPH_JOB_CTR j k.ctr
            s.done (((d.count p 0 len).tick p 7).jobEnd i j 1)

/-! ### DDR5 channels -/

/-- The channel takes the key of its slot: KCV and the end of KEY_LOST, or KEY_LOST where the engine refuses the slot (R304, R440). -/
def Device.xtsLoad (d : Device) (i ch : Nat) : Device :=
  let p := Page.ddr i ch
  let k := d.slot i (d.fld p Fld.DDR_XTS_SLOT)
  if k.pkg && decide (k.use 4 0 true = 0) then
    (d.put p Fld.DDR_XTS_KCV_KCV (Config.xtsKcv k.key)).put p Fld.DDR_STATE_KEY_LOST 0
  else
    (((d.tick (.cph i) 6).put p Fld.DDR_XTS_KCV_KCV d.freeVal).freeNext).put p Fld.DDR_STATE_KEY_LOST 1

/-- The contents of a channel become undefined (R303). -/
def Device.xtsUndef (d : Device) (i ch : Nat) : Device :=
  (d.setDdrUndef (Tbl.put d.ddrUndef (8 * i + ch) ⟨d.freeVal, []⟩)).freeNext

/-- DDR_XTS_WRITE: ENABLE and SLOT of a halted channel, or the refusal of a part without cipher engines (R50, R303). -/
def execDdrXtsWrite (r : Req) (i ch value : Nat) (s : State) : Out :=
  let d := s.dev
  let p := Page.ddr i ch
  if !d.mayAccess r p then s.same
  else if !d.flag p Fld.STATUS_HALTED then s.done (d.hdrErr p 0)
  else
    let en := bits value 0 1
    let slot := bits value 16 12
    if en = 1 && d.cfg.part.noCipher then s.done (d.err p 18 0x1307 slot)
    else
      let changed := decide (d.fld p Fld.DDR_XTS_ENABLE ≠ en) || decide (d.fld p Fld.DDR_XTS_SLOT ≠ slot) || d.keyLost p
      let d := (d.put p Fld.DDR_XTS_ENABLE en).put p Fld.DDR_XTS_SLOT slot
      if !changed then s.done d
      else
        let d := d.xtsUndef i ch
        s.done (if en = 1 then d.xtsLoad i ch else d.put p Fld.DDR_STATE_KEY_LOST 0)

/-- DDR_XTS_RESUME: the slot's key is checked against DDR_XTS_KCV (R304). -/
def execDdrXtsResume (r : Req) (i ch : Nat) (s : State) : Out :=
  let d := s.dev
  let p := Page.ddr i ch
  if !d.mayAccess r p || !d.keyLost p then s.same
  else
    let k := d.slot i (d.fld p Fld.DDR_XTS_SLOT)
    if !(k.pkg && decide (k.use 4 0 true = 0)) then s.done (d.tick (.cph i) 6)
    else if Config.xtsKcv k.key % 2 ^ 64 = d.fld p Fld.DDR_XTS_KCV_KCV then s.done (d.put p Fld.DDR_STATE_KEY_LOST 0)
    else s.done (d.err p 19 (Config.blockErrCode 0x08 19) 0)

end Sys2Proof.Machine
end

