-- ==== Sys2Proof/Machine/Gft.lean ====
section
/-!
DEFINITION. The transport's shared operations (spec/10, R314 to R347): packets and their seals, connections, sending, acknowledgement, completion and
the failure of a connection.
-/
namespace Sys2Proof.Machine

/-! ### Bytes in network order -/

def beBytes (n x : Nat) : List Byte := (leBytes n x).reverse
def beNat (bs : List Byte) : Nat := leNat bs.reverse

/-- The sum of the 16-bit big-endian words of a run of bytes. -/
def words16 : List Byte → Nat
  | [] => 0
  | [a] => 256 * a.toNat
  | a :: b :: t => 256 * a.toNat + b.toNat + words16 t

/-- The Internet checksum of a sum of words. -/
def inetSum (s : Nat) : Nat := 65535 - (if s = 0 then 0 else (s - 1) % 65535 + 1)

/-! ### Connections -/

def Device.conn (d : Device) (c : Nat) : Option Conn := Tbl.look d.conns c
def Device.setConn (d : Device) (c : Nat) (x : Conn) : Device := d.setConns (Tbl.put d.conns c x)
def Device.gftDie (d : Device) (i : Nat) : GftDie := Tbl.lookD d.gft i ⟨[], [], []⟩
def Device.setGftDie (d : Device) (i : Nat) (x : GftDie) : Device := d.setGft (Tbl.put d.gft i x)

/-- The GFT page of a connection's owner. -/
def Conn.page (c : Conn) : Page := .gft c.owner

/-- The transport island stamp (R315). -/
def Device.gftStamp (d : Device) (i : Nat) : Nat := d.cycles ((8 + i) * 256 + 7)

/-- GFT_OUTSTANDING shows the I-die's outstanding requests (R339). -/
def Device.showOutstanding (d : Device) (i : Nat) : Device :=
  d.put (.gft i) Fld.GFT_OUTSTANDING_REQ ((d.conns.map fun kv : Nat × Conn => if kv.2.owner = i then kv.2.reqs.length else 0).sum)

/-- GFT_SUMMIT shows the summit hold (R341). -/
def Device.showSummit (d : Device) (i : Nat) : Device :=
  let n := (d.gftDie i).hold.length
  let d := d.put (.gft i) Fld.GFT_SUMMIT_IN_USE n
  if d.fld (.gft i) Fld.GFT_SUMMIT_HIGH < n then d.put (.gft i) Fld.GFT_SUMMIT_HIGH n else d

/-- GFT_STATE shows the contexts cached and pinned (R320). -/
def Device.showCached (d : Device) (i : Nat) : Device :=
  let own := d.conns.filter fun kv : Nat × Conn => decide (kv.2.owner = i)
  let d := d.put (.gft i) Fld.GFT_STATE_CACHED (own.filter fun kv : Nat × Conn => kv.2.cached).length
  d.put (.gft i) Fld.GFT_STATE_PINNED (own.filter fun kv : Nat × Conn => decide (kv.2.cls ≤ 2)).length

/-- An event of R348: to the PF, to the owning function, and as a cairn entry of the same code. -/
def Device.fabricEvent (d : Device) (m : Memory) (p : Page) (func code : Nat) (data : List Nat) : Device :=
  let d := d.event m 0 code p.island data
  let d := if func = 0 then d else d.event m func code p.island data
  d.cairn p code (packFields data)

/-- MAX_PAYLOAD in bytes (R335, R350). -/
def Device.mtu (d : Device) (i : Nat) : Nat :=
  match d.fld (.gft i) Fld.GFT_CFG_MAX_PAYLOAD with
  | 0 => 1024
  | 1 => 2048
  | _ => 4096

/-! ### Packet formats -/

/-- The bytes of an opcode's extensions (R316), by opcode; none for an unknown one. -/
def extLen (op : Nat) : Option Nat :=
  match op with
  | 0x01 => some 16
  | 0x02 => some 16
  | 0x03 => some 0
  | 0x04 => some 0
  | 0x05 => some 32
  | 0x06 => some 32
  | 0x07 => some 16
  | 0x08 => some 16
  | 0x09 => some 16
  | 0x10 => some 16
  | 0x11 => some 16
  | 0x12 => some 0
  | 0x13 => some 16
  | _ => none

/-- Only ACK, NAK, PROBE and PROBE_REPLY travel outside the PSN sequence (R316). -/
def sequenced (op : Nat) : Bool := decide (op < 0x10)

/-- The extensions of a message's packet (R316). -/
def GftMsg.ext (x : GftMsg) : List Byte :=
  let rdma := beBytes 8 x.raddr ++ beBytes 4 x.mkey ++ beBytes 4 x.len
  match x.op with
  | 0x01 => rdma
  | 0x02 => rdma
  | 0x05 => rdma ++ beBytes 8 x.op0 ++ beBytes 8 x.op1
  | 0x06 => rdma ++ beBytes 8 x.op0 ++ beBytes 8 x.op1
  | 0x07 => beBytes 8 x.op0 ++ beBytes 8 x.op1
  | 0x08 => beBytes 4 x.group ++ beBytes 2 x.rank ++ [BitVec.ofNat 8 x.fmt, 0] ++ beBytes 4 x.goff ++ beBytes 4 x.len
  | 0x09 => beBytes 4 x.group ++ beBytes 2 x.rank ++ [BitVec.ofNat 8 x.fmt, 0] ++ beBytes 4 x.goff ++ beBytes 4 x.len
  | _ => []

/-- The generation byte of a packet's memory key, 0 for a packet without one (R317). -/
def GftMsg.gen (x : GftMsg) : Nat := if x.op = 1 ∨ x.op = 2 ∨ x.op = 5 ∨ x.op = 6 then x.mkey / 2 ^ 24 else 0

/-- A base header (R315). -/
def baseHeader (op flags src conn psn msn off pitch attempt path len ts : Nat) : List Byte :=
  [BitVec.ofNat 8 (0x20 + op), BitVec.ofNat 8 flags] ++ beBytes 2 src ++ beBytes 4 conn ++ beBytes 4 psn ++ beBytes 4 msn ++ beBytes 4 off ++
    beBytes 4 pitch ++ [BitVec.ofNat 8 attempt, BitVec.ofNat 8 path] ++ beBytes 2 len ++ beBytes 4 ts

/-- The ICV of R317 over a packet's bytes up to the end of its tag. -/
def icvOf (nonce psn gen : Nat) (bs : List Byte) : Nat := crc32c (leBytes 4 nonce ++ leBytes 4 psn ++ [BitVec.ofNat 8 gen, 0, 0, 0] ++ bs)

/-- A packet as it arrives (R315, R316): its header fields, extensions, CIPHER counter, payload and tag as sent, and ICV. -/
structure GftHdr where
  op : Nat
  flags : Nat
  src : Nat
  conn : Nat
  psn : Nat
  msn : Nat
  off : Nat
  pitch : Nat
  attempt : Nat
  path : Nat
  ts : Nat
  head : List Byte
  ext : List Byte
  ctr : Nat
  body : List Byte
  tag : Nat
  icv : Nat
  covered : List Byte

/-- A field of the extensions. -/
def GftHdr.e (h : GftHdr) (off len : Nat) : Nat := beNat ((h.ext.drop off).take len)

/-- Parse a packet's bytes; none where it is malformed (R316). -/
def parseGft (bs : List Byte) : Option GftHdr :=
  let n := fun off len => beNat ((bs.drop off).take len)
  let op := n 0 1 % 32
  match extLen op with
  | none => none
  | some e =>
    let enc := bit (n 1 1) 4
    let plen := n 26 2
    let c := if enc then 8 else 0
    let t := if enc then 16 else 0
    let total := 32 + e + c + plen + t + 4
    if n 0 1 / 32 ≠ 1 ∨ bs.length ≠ total ∨ 4096 < plen then none
    else some {
      op := op, flags := n 1 1, src := n 2 2 % 2 ^ 14, conn := n 4 4 % 2 ^ 22, psn := n 8 4, msn := n 12 4, off := n 16 4, pitch := n 20 4,
      attempt := n 24 1, path := n 25 1 % 16, ts := n 28 4, head := bs.take (32 + e), ext := (bs.drop 32).take e,
      ctr := n (32 + e) c, body := (bs.drop (32 + e + c)).take plen, tag := n (32 + e + c + plen) t, icv := n (total - 4) 4,
      covered := bs.take (total - 4) }

/-! ### Frames -/

/-- The class-map fields of class `c` (R386, R407): QBASE, QCOUNT and PCP. -/
def classMap (c : Nat) : Field × Field × Field :=
  match c with
  | 0 => (Fld.TMG_CLASS_MAP0_QBASE, Fld.TMG_CLASS_MAP0_QCOUNT, Fld.TMG_CLASS_MAP0_PCP)
  | 1 => (Fld.TMG_CLASS_MAP1_QBASE, Fld.TMG_CLASS_MAP1_QCOUNT, Fld.TMG_CLASS_MAP1_PCP)
  | 2 => (Fld.TMG_CLASS_MAP2_QBASE, Fld.TMG_CLASS_MAP2_QCOUNT, Fld.TMG_CLASS_MAP2_PCP)
  | 3 => (Fld.TMG_CLASS_MAP3_QBASE, Fld.TMG_CLASS_MAP3_QCOUNT, Fld.TMG_CLASS_MAP3_PCP)
  | _ => (Fld.TMG_CLASS_MAP4_QBASE, Fld.TMG_CLASS_MAP4_QCOUNT, Fld.TMG_CLASS_MAP4_PCP)

/-- The Ethernet, IP and UDP headers around a packet (R314). TTL, IPv4 identification and the IPv6 flow label, which no rule gives, are a free
value (log entry 2). -/
def Device.gftFrame (d : Device) (c : Conn) (x : GftPath) (bs : List Byte) : List Byte :=
  let i := x.port / 4
  let fv := d.freeVal
  let ttl := fv % 256
  let tos := c.dscp % 64 * 4 + 2
  let dport := d.fld (.gft i) Fld.GFT_CFG_UDP_PORT
  let ulen := 8 + bs.length
  let tag := match c.vlan with
    | some v => beBytes 2 0x8100 ++ beBytes 2 (d.app (.tmg i) (classMap c.cls).2.2 * 8192 + v % 4096)
    | none => []
  let eth := beBytes 6 x.mac ++ beBytes 6 (d.app (.eth i (x.port % 4)) Fld.ETH_MAC_ADDR_ADDR) ++ tag
  if c.v6 then
    let pseudo := beBytes 16 c.ip ++ beBytes 16 x.ip ++ beBytes 4 ulen ++ beBytes 4 17
    let udp0 := beBytes 2 x.udp ++ beBytes 2 dport ++ beBytes 2 ulen
    let ck := inetSum (words16 pseudo + words16 udp0 + words16 bs)
    eth ++ beBytes 2 0x86DD ++ beBytes 4 (6 * 2 ^ 28 + tos * 2 ^ 20 + fv / 2 ^ 24 % 2 ^ 20) ++ beBytes 2 ulen ++ [17, BitVec.ofNat 8 ttl] ++
      beBytes 16 c.ip ++ beBytes 16 x.ip ++ udp0 ++ beBytes 2 (if ck = 0 then 65535 else ck) ++ bs
  else
    let a := [0x45, BitVec.ofNat 8 tos] ++ beBytes 2 (20 + ulen) ++ beBytes 2 (fv / 256 % 65536) ++ [0x40, 0, BitVec.ofNat 8 ttl, 17]
    let b := beBytes 4 c.ip ++ beBytes 4 x.ip
    eth ++ beBytes 2 0x0800 ++ a ++ beBytes 2 (inetSum (words16 a + words16 b)) ++ b ++
      beBytes 2 x.udp ++ beBytes 2 dport ++ beBytes 2 ulen ++ [0, 0] ++ bs

/-- Hand a packet of a connection to the traffic manager of its path's port (R353, R386). -/
def Device.gftEnqueue (d : Device) (id : Nat) (c : Conn) (path epoch : Nat) (bs : List Byte) : Device :=
  match c.paths[path]? with
  | none => d
  | some x =>
    let i := x.port / 4
    let cm := classMap c.cls
    let g := d.genFor (.tmg i) epoch
    let n := d.genVal (.tmg i) cm.2.1 0 g
    let q := d.genVal (.tmg i) cm.1 0 g + (if n = 0 then 0 else id % n)
    let frame := d.gftFrame c x bs
    ((d.freeNext).tick c.page 0).setTmWait (d.tmWait ++ [⟨x.port, q % 32, 3, decide (c.cls = 0), frame, none, false, 0, epoch⟩])

/-- Seal a packet: AES-GCM on an encrypted connection (R318), then the ICV. The error is what refuses the key: 3 KEY, 4 EXHAUSTED. -/
def Device.sealPkt (d : Device) (c : Conn) (psn gen : Nat) (head ext payload : List Byte) : Device × Except Nat (List Byte) :=
  let fin := fun (bs : List Byte) => bs ++ beBytes 4 (icvOf c.nonce psn gen bs)
  match c.enc with
  | none => (d.cvuValue c.owner 1 (12 + head.length + ext.length + payload.length) false, .ok (fin (head ++ ext ++ payload)))
  | some (tx, _) =>
    let i := c.owner
    let k := d.slot i tx
    let u := k.use 2 c.func c.crew
    if u ≠ 0 then (d.tick (.cph i) 6, .error u)
    else
      let iv := gcmIv k.salt k.ctr
      let ct := gcmCrypt k.key iv payload
      let tag := gcmTagOf k.key iv (head ++ ext) ct
      let d := (d.setSlot i tx k.issue).count (.cph i) 0 payload.length
      let d := d.cvuValue i 1 (12 + head.length + ext.length + 24 + payload.length) false
      (d, .ok (fin (head ++ ext ++ beBytes 8 k.ctr ++ ct ++ beBytes 16 tag)))

/-- FLAGS of a packet (R315). -/
def pktFlags (base : Nat) (first last enc retx : Bool) : Nat :=
  b2n first + 2 * b2n last + base % 16 / 4 * 4 + 16 * b2n enc + 32 * b2n retx

/-! ### Reduction groups -/

def groupKey (i g : Nat) : Nat := 4096 * i + g

/-- Every group that a connection has fed is STALLED (R345). -/
def Device.stallGroups (d : Device) (m : Memory) (id : Nat) : Device :=
  d.groups.foldl (fun (d : Device) (kv : Nat × GroupSt) =>
    let g := kv.2
    if !g.stalled && g.feeds.any (fun f : Nat × Nat × Nat => decide (f.2.2 = id)) then
      (d.setGroups (Tbl.put d.groups kv.1 { g with stalled := true })).fabricEvent m (.gft (kv.1 / 4096)) 0 0x0B13
        [kv.1 % 4096, g.round, g.nextRank]
    else d) d

/-! ### Completion of requests -/

/-- A request's end reaches its client (R338, R346): a completion entry, or the MOVE's acknowledgement and the count of its pitch. -/
def Device.reqEnd (d : Device) (m : Memory) (id : Nat) (r : GftReq) : Device :=
  let st := r.status.getD 0
  match r.client with
  | .queue f q head cid signaled =>
    if st = 0 ∧ !signaled then d
    else d.complete m f q head (leBytes 2 cid ++ leBytes 2 st ++ leBytes 8 r.detail)
  | .move n i op part =>
    let d := d.ackWrite n i op
    (match Tbl.look d.parts part with
     | some x => d.setParts (Tbl.put d.parts part { x with
         gftOpen := x.gftOpen - 1, ropeCodes := if st = 0 then x.ropeCodes else x.ropeCodes ++ [st] })
     | none => d)
  | .fw purpose a => d.msg ("gft-done " ++ purpose) id [a, st]

/-- Has the request's own work ended (R335)? -/
def Conn.reqDone (c : Conn) (r : GftReq) : Bool :=
  let sent := !(c.msgs.any fun x => decide (x.req = r.id)) && !(c.unacked.any fun x => decide (x.msg.req = r.id))
  match r.op with
  | 0x02 => decide (r.len ≤ r.got)
  | 0x05 => decide (r.len ≤ r.got)
  | 0x06 => decide (r.len ≤ r.got)
  | 0x08 => sent && r.applied
  | _ => sent

/-- Post the completions at the front of a connection's requests, in request order (R338); a DRAINING connection with nothing left is freed (R319). -/
def Device.flushReqs (d : Device) (m : Memory) (id : Nat) : Nat → Device
  | 0 => d
  | n + 1 =>
    match d.conn id with
    | none => d
    | some c =>
      match c.reqs with
      | [] => if c.st = 3 && c.msgs.isEmpty && c.unacked.isEmpty then ((d.stallGroups m id).setConns (Tbl.del d.conns id)).showCached c.owner else d
      | r :: rest =>
        if r.status.isNone then d
        else ((d.setConn id { c with reqs := rest }).reqEnd m id r).flushReqs m id n

/-- Mark the requests that have ended and post what may be posted. -/
def Device.settle (d : Device) (m : Memory) (id : Nat) : Device :=
  match d.conn id with
  | none => d
  | some c =>
    let reqs := c.reqs.map fun r => if r.status.isNone && c.reqDone r then { r with status := some 0 } else r
    ((d.setConn id { c with reqs := reqs }).flushReqs m id (reqs.length + 1)).showOutstanding c.owner

/-- A request fails: what of its message has not been sent is dropped (R328). -/
def Conn.failReq (c : Conn) (req status detail : Nat) : Conn :=
  { c with
    msgs := c.msgs.filter fun x => decide (x.req ≠ req)
    reqs := c.reqs.map fun r => if r.id = req && r.status.isNone then { r with status := some status, detail := detail } else r }

/-! ### Errors -/

/-- A connection enters ERROR (R319, R328, R330): its outstanding requests fail, and CONN_ERROR is raised. -/
def Device.connError (d : Device) (m : Memory) (id reqStatus : Nat) : Device :=
  match d.conn id with
  | none => d
  | some c =>
    if c.st = 2 then d
    else
      let p := c.page
      let reqs := c.reqs.map fun r => if r.status.isNone then { r with status := some reqStatus } else r
      let d := d.setConn id { c with st := 2, msgs := [], unacked := [], reqs := reqs, sends := [] }
      let h := d.gftDie c.owner
      let d := (d.setGftDie c.owner { h with hold := h.hold.filter fun x => decide (x.1 ≠ id) }).showSummit c.owner
      let d := (((d.tick p 23).errNoCairn p 18 0x0B10).irq p 18).fabricEvent m p c.func 0x0B10 [id, reqStatus, (c.nextPsn + 2 ^ 32 - 1) % 2 ^ 32]
      ((d.stallGroups m id).flushReqs m id (reqs.length + 1)).showOutstanding c.owner

/-- A refused key (R318, R440): KEY_EXHAUSTED, or CONN_ERROR. -/
def Device.keyRefused (d : Device) (m : Memory) (id why : Nat) : Device :=
  match d.conn id with
  | none => d
  | some c =>
    if why = 4 then
      (d.fabricEvent m c.page c.func 0x0B11 [id, (c.enc.getD (0, 0)).1]).connError m id 0x010C
    else d.connError m id 0x010A

/-! ### Packets outside the sequence -/

/-- Send an ACK, NAK, PROBE or PROBE_REPLY (R316, R329). -/
def Device.sendCtl (d : Device) (m : Memory) (id op psn msn path : Nat) (ext payload : List Byte) : Device :=
  match d.conn id with
  | none => d
  | some c =>
    let head := baseHeader op (16 * b2n c.enc.isSome) (d.fld .pkg Fld.PKG_ID_ID) c.rconn psn msn 0 0 0 path payload.length (d.gftStamp c.owner % 2 ^ 32)
    match d.sealPkt c psn 0 head ext payload with
    | (d, .ok bs) => d.gftEnqueue id c path (d.fld .pkg Fld.PKG_WAVE_EPOCH) bs
    | (d, .error why) => d.keyRefused m id why

/-- How far a PSN is ahead of another, modulo 2^32. -/
def ahead (psn cum : Nat) : Nat := (psn + 2 ^ 32 - cum) % 2 ^ 32

/-- Is a PSN behind CUM_PSN (R326)? -/
def behindPsn (psn cum : Nat) : Bool := decide (1 ≤ ahead cum psn ∧ ahead cum psn ≤ 2 ^ 31)

/-- The placed-PSN bitmap from CUM_PSN up to the highest placed PSN, in whole bytes (R329). -/
def Conn.bitmap (c : Conn) : List Byte :=
  let ds := (c.placed.map fun p => ahead p c.cum).filter fun x => decide (x < 2048)
  let top := ds.foldl max 0
  if ds = [] then []
  else (List.range (top / 8 + 1)).map fun k =>
    BitVec.ofNat 8 (((List.range 8).map fun b => if ds.contains (8 * k + b) then 2 ^ b else 0).sum)

/-- The ACK extension of a connection (R316, R329). -/
def Conn.ackExt (c : Conn) (nak : Nat) : List Byte :=
  beBytes 4 c.cum ++ beBytes 4 c.echo ++ beBytes 2 (min c.ceCount 65535) ++ beBytes 2 (min c.sinceAck 65535) ++ [BitVec.ofNat 8 nak, 0, 0, 0]

/-- Send an ACK now (R329). -/
def Device.ackNow (d : Device) (m : Memory) (id : Nat) : Device :=
  match d.conn id with
  | none => d
  | some c => (d.setConn id { c with sinceAck := 0, ceCount := 0, firstUn := none, echo := 0 }).sendCtl m id 0x10 0 0 c.ackPath (c.ackExt 0) c.bitmap

/-- Answer a packet with a NAK (R328). -/
def Device.sendNak (d : Device) (m : Memory) (id psn msn code : Nat) : Device :=
  match d.conn id with
  | none => d
  | some c => (if code = 2 then d.tick c.page 10 else d).sendCtl m id 0x11 psn msn c.ackPath (c.ackExt code) []

/-! ### Paths -/

def Conn.setPath (c : Conn) (k : Nat) (x : GftPath) : Conn := { c with paths := c.paths.set k x }

/-- The indices of the GOOD paths. -/
def Conn.good (c : Conn) : List Nat :=
  (List.range c.paths.length).filter fun k => match c.paths[k]? with
    | some x => decide (x.st = 0)
    | none => false

/-- A path becomes DOWN (R324). With no usable path left, a part with one I-die has nowhere to move the connection: CONN_ERROR (R325). -/
def Device.pathDown (d : Device) (m : Memory) (id k : Nat) : Device :=
  match d.conn id with
  | none => d
  | some c =>
    match c.paths[k]? with
    | none => d
    | some x =>
      if x.st = 2 then d
      else
        let c := c.setPath k { x with st := 2, probesOk := 0, probeOut := false }
        let d := (d.setConn id c).tick c.page 22
        if (c.paths.all fun y => decide (y.st = 2)) && decide (d.model.idies.length = 1) then d.connError m id 0x010A else d

/-- A GOOD path becomes SUSPECT and is probed (R324). -/
def Device.pathSuspect (d : Device) (m : Memory) (id k : Nat) : Device :=
  match d.conn id with
  | none => d
  | some c =>
    match c.paths[k]? with
    | none => d
    | some x =>
      if x.st = 0 then (d.setConn id (c.setPath k { x with st := 1, probesOk := 0, probeOut := true })).sendCtl m id 0x12 0 0 k [] [] else d

/-! ### Congestion and timers -/

/-- The connection is subject to congestion control (R322, R347). -/
def Conn.congested (c : Conn) : Bool := decide (2 ≤ c.cls)

/-- A loss cuts the window (R347). -/
def Device.onLoss (d : Device) (c : Conn) : Conn :=
  let now := Frac.nat d.clk.now
  if c.congested && c.nextCut.le now then
    { c with cwnd := (Frac.nat (d.mtu c.owner)).max (c.cwnd.mul ⟨1, 2⟩), nextCut := now.add c.srtt }
  else c

/-- An ACK moves the window (R347). An ACK of no newly placed packet leaves alpha as it is (log entry 18). -/
def Device.onAck (d : Device) (c : Conn) (acked ce count : Nat) (rtt : Option Frac) : Conn :=
  if !c.congested then c
  else
    let mtu := d.mtu c.owner
    let now := Frac.nat d.clk.now
    let target := Frac.nat (1000 * d.app c.page Fld.GFT_CC_TARGET_RTT_US)
    let alpha := if count = 0 then c.alpha else c.alpha.toward (Frac.of ce count) 16
    let c := { c with alpha := alpha }
    let cut := fun (f : Frac) => { c with cwnd := (Frac.nat mtu).max (c.cwnd.mul f), nextCut := now.add c.srtt }
    let slow := match rtt with
      | some r => target.lt r
      | none => false
    if c.nextCut.le now && decide (0 < ce) then cut ((Frac.nat 1).sub (alpha.mul ⟨1, 2⟩))
    else if c.nextCut.le now && slow then
      let r := rtt.getD (Frac.nat 1)
      cut ((⟨1, 2⟩ : Frac).max ((Frac.nat 1).sub ((⟨4, 5⟩ : Frac).mul ((r.sub target).div r))))
    else { c with cwnd := (Frac.nat (2048 * mtu)).min (c.cwnd.add ((Frac.nat (mtu * acked)).div c.cwnd)) }

/-- A sample of the round trip (R330). -/
def Conn.sample (c : Conn) (rtt : Frac) : Conn :=
  { c with rttvar := c.rttvar.toward (c.srtt.dist rtt) 4, srtt := c.srtt.toward rtt 8 }

/-- Packet `psn` is declared lost (R330): its path becomes SUSPECT, the window is cut, and the packet waits to be sent again, or the connection enters
ERROR when it has been retransmitted RETRY_MAX times. -/
def Device.declareLost (d : Device) (m : Memory) (id psn : Nat) : Device :=
  match d.conn id with
  | none => d
  | some c =>
    match c.unacked.find? (fun x => decide (x.psn = psn)) with
    | none => d
    | some x =>
      if x.lost || decide (x.sends = 0) then d
      else if d.app c.page Fld.GFT_RETRY_RETRY_MAX < x.sends then d.connError m id 0x0101
      else
        let c := { c with unacked := c.unacked.map fun y => if y.psn = psn then { y with lost := true } else y }
        (d.setConn id (d.onLoss c)).pathSuspect m id x.path

/-! ### Placement at the receiver -/

/-- The receiver's record of a placed PSN: the bitmap and CUM_PSN (R326), and where `data` the counts toward the next ACK and the ECHO_TS (R329). -/
def Conn.placePsn (c : Conn) (psn : Nat) : Conn :=
  let adv := (List.range 2049).foldl (fun (acc : Nat × List Nat) _ =>
    if acc.2.contains acc.1 then ((acc.1 + 1) % 2 ^ 32, delSet acc.1 acc.2) else acc) (c.cum, insSet psn c.placed)
  { c with cum := adv.1, placed := adv.2 }

/-- A PSN is marked placed and acknowledged as R329 gives; a packet that was placed counts in GFT_CNT1 and GFT_CNT3. -/
def Device.markPlaced (d : Device) (m : Memory) (id : Nat) (h : GftHdr) (ce done atOnce : Bool) : Device :=
  match d.conn id with
  | none => d
  | some c =>
    let c := c.placePsn h.psn
    let c := { c with
      sinceAck := c.sinceAck + 1, ceCount := c.ceCount + b2n ce, firstUn := if c.firstUn.isNone then some d.clk.now else c.firstUn,
      echo := if bit h.flags 5 then c.echo else h.ts, ackPath := h.path }
    let d := d.setConn id c
    let d := if done then (d.tick c.page 1).count c.page 3 h.body.length else d
    if atOnce || decide (d.app c.page Fld.GFT_ACK_ACK_EVERY ≤ c.sinceAck) then d.ackNow m id else d

/-! ### Host memory of a function -/

/-- What a fabric access to host memory of a function meets: nothing, NAK BUSY in a hold (R483), NAK HOST_FENCED (R485). -/
def Device.hostNak (d : Device) (f : Nat) : Option Nat :=
  if d.hostGone f then some 8 else if !d.busMaster f then some 4 else none

/-- A function's grants: those of its partitions and its device-resident queue memory (R513). -/
def Device.funcGrants (d : Device) (f : Nat) : List Grant :=
  (d.parts.flatMap fun kv : Nat × Partition => if kv.2.func = f then kv.2.grants else []) ++ (Tbl.look d.queueMem f).toList

/-- Does a range lie in a function's granted memory, or in host memory (R513)? -/
def Device.funcMem (d : Device) (f a n : Nat) : Bool :=
  isHost a || (d.inMemory a n && grantsCover (d.funcGrants f) (d.funcGrants f).length a (a + n))

/-! ### Issuing requests -/

/-- A fresh message. -/
def GftMsg.blank : GftMsg := ⟨0, 0, 0, 0, .none, 0, 0, 0, 0, 0, 0, 0, 0, 0, 0, 0, 0, false, 0⟩

/-- May the owner take another request (R339)? -/
def Device.reqRoom (d : Device) (i : Nat) : Bool := decide (d.fld (.gft i) Fld.GFT_OUTSTANDING_REQ < 65536)

/-- Accept a request on a connection: its message waits to be split into packets (R335). -/
def Device.addReq (d : Device) (id : Nat) (client : GftClient) (x : GftMsg) (dst : GftDst) : Device :=
  match d.conn id with
  | none => d
  | some c =>
    let len := if x.op = 5 ∨ x.op = 6 then 8 else x.len
    let r : GftReq := ⟨c.nextReq, client, x.op, c.nextMsn, dst, len, 0, x.group, x.rank, false, x.pitch, x.attempt, none, 0⟩
    let c := { c with
      reqs := c.reqs ++ [r], msgs := c.msgs ++ [{ x with req := c.nextReq, msn := c.nextMsn, epoch := d.fld .pkg Fld.PKG_WAVE_EPOCH }], nextReq := c.nextReq + 1,
      nextMsn := (c.nextMsn + 1) % 2 ^ 32 }
    (d.setConn id c).showOutstanding c.owner

/-- A request that ends at once with a status keeps its place in the order of completions (R338). -/
def Device.addEnded (d : Device) (m : Memory) (id : Nat) (client : GftClient) (status : Nat) : Device :=
  let r : GftReq := ⟨0, client, 0, 0, .none, 0, 0, 0, 0, false, 0, 0, some status, 0⟩
  match d.conn id with
  | none => d.reqEnd m id r
  | some c => ((d.setConn id { c with reqs := c.reqs ++ [r] }).flushReqs m id (c.reqs.length + 1)).showOutstanding c.owner

end Sys2Proof.Machine
end

