-- ==== Sys2Proof/Machine/Fabric.lean ====
section
/-!
DEFINITION. The commands of the fabric (spec/10, R309 to R351): Ethernet ports, GFT requests, packets sent and received, and the transport's timers.
-/
namespace Sys2Proof.Machine

/-! ### Ports -/

/-- The narrowest mode first choice of R312: the widest mode at or below the configured one with a lane group that holds no failed lane, as
(SPEED, GROUP). -/
def portMode (speed group failed : Nat) : Option (Nat × Nat) :=
  if failed = 0 then some (speed, group)
  else
    let ok := fun (s g : Nat) => (List.range (8 / 2 ^ s)).all fun l => !bit failed (g * (8 / 2 ^ s) + l)
    ((List.range 4).filter fun s => decide (speed ≤ s)).findSome? fun s => ((List.range (2 ^ s)).find? (ok s)).map fun g => (s, g)

/-- PORT_UP: the link comes up in the mode that ETH_MODE and the failed lanes leave (R309, R312, R348). -/
def execPortUp (i p : Nat) (s : State) : Out :=
  let d := s.dev
  let e := Page.eth i p
  let failed := d.fld e Fld.ETH_STATE_FAILED
  if !d.present e || d.flag e Fld.ETH_STATE_UP || (decide (failed ≠ 0) && !d.flag e Fld.ETH_MODE_AUTO_NARROW) then s.same
  else match portMode (d.fld e Fld.ETH_MODE_SPEED) (d.fld e Fld.ETH_MODE_GROUP) failed with
    | none => s.same
    | some (sp, g) =>
      let d := ((d.put e Fld.ETH_STATE_UP 1).put e Fld.ETH_STATE_SPEED sp).put e Fld.ETH_STATE_GROUP g
      s.done (d.fabricEvent s.mem e 0 0x0C01 [i, p, sp, g])

/-- The port goes down (R312, R324): its paths are DOWN and what was sent on them unacknowledged is lost. -/
def Device.portLost (d : Device) (m : Memory) (i p cause lanes : Nat) : Device :=
  let e := Page.eth i p
  let d := ((d.put e Fld.ETH_STATE_UP 0).put e Fld.ETH_STATE_FAILED (d.fld e Fld.ETH_STATE_FAILED ||| lanes)).tick e 7
  let d := d.fabricEvent m e 0 0x0C02 [i, p, cause]
  d.conns.foldl (fun (d : Device) (kv : Nat × Conn) =>
    (List.range kv.2.paths.length).foldl (fun (d : Device) (k : Nat) =>
      let hit := match kv.2.paths[k]? with
        | some x => decide (x.port = 4 * i + p)
        | none => false
      if !hit then d
      else
        let d := d.pathDown m kv.1 k
        (kv.2.unacked.filter fun x => decide (x.path = k)).foldl (fun (d : Device) (x : TxPkt) => d.declareLost m kv.1 x.psn) d) d) d

/-- PORT_DOWN: a lane loses lock, or the port is disabled (R312, R348). `lanes` are the lanes that lost lock. -/
def execPortDown (i p cause lanes : Nat) (s : State) : Out :=
  if s.dev.present (.eth i p) && s.dev.flag (.eth i p) Fld.ETH_STATE_UP then s.done (s.dev.portLost s.mem i p cause lanes) else s.same

/-- PORT_NARROWED: with AUTO_NARROW, a port that is down with failed lanes retrains at the widest mode without them (R312). -/
def execPortNarrowed (i p : Nat) (s : State) : Out :=
  let d := s.dev
  let e := Page.eth i p
  let failed := d.fld e Fld.ETH_STATE_FAILED
  if !d.present e || d.flag e Fld.ETH_STATE_UP || decide (failed = 0) || !d.flag e Fld.ETH_MODE_AUTO_NARROW then s.same
  else match portMode (d.fld e Fld.ETH_MODE_SPEED) (d.fld e Fld.ETH_MODE_GROUP) failed with
    | none => s.same
    | some (sp, g) =>
      s.done (((d.put e Fld.ETH_STATE_SPEED sp).put e Fld.ETH_STATE_GROUP g).fabricEvent s.mem e 0 0x0C03 [i, p, sp, failed])

/-- FEC_WINDOW: a window of 1 ms ends with its counts (R312). -/
def execFecWindow (i p corrected uncorrectable : Nat) (s : State) : Out :=
  let d := s.dev
  let e := Page.eth i p
  if !d.present e || !d.flag e Fld.ETH_STATE_UP then s.same
  else
    let k := 4 * i + p
    let st := Tbl.lookD d.fecBad k (0, 0)
    let d := (d.count e 5 corrected).count e 6 uncorrectable
    let degrade := decide (d.fld e Fld.ETH_FEC_THRESH_CE_PER_MS < corrected) && (decide (st.2 = 0) || decide (st.2 + 1000000000 ≤ d.clk.now))
    let d := if degrade then d.fabricEvent s.mem e 0 0x0C04 [i, p, corrected] else d
    let n := if d.fld e Fld.ETH_FEC_THRESH_UCW_PER_MS < uncorrectable then st.1 + 1 else 0
    let d := d.setFecBad (Tbl.put d.fecBad k (if n = 3 then 0 else n, if degrade then d.clk.now else st.2))
    s.done (if n = 3 then d.portLost s.mem i p 1 0 else d)

/-! ### Requests from queues -/

/-- The bytes of an entry that an opcode does not use are zero (R334). GROUP_OFF of a REDUCE is its REMOTE_ADDR, and an atomic's LENGTH may be 8 (log
entry 18). -/
def Fetched.unusedZero (x : Fetched) (op : Nat) : Bool :=
  let z := fun off len => decide (x.num off len = 0)
  let tail := z 55 1 && z 60 4
  let remote := z 16 12
  let ops := z 32 16
  let red := z 48 7 && z 56 4
  match op with
  | 0x01 => ops && red && tail
  | 0x02 => ops && red && tail
  | 0x04 => remote && ops && red && tail
  | 0x05 => z 40 8 && red && tail && (z 28 4 || decide (x.num 28 4 = 8))
  | 0x06 => red && tail && (z 28 4 || decide (x.num 28 4 = 8))
  | 0x08 => z 24 4 && ops && tail
  | _ => remote && ops && red && tail

/-- The size and alignment that R335 and R340 ask of an entry, with the FLAGS that exist. -/
def Fetched.sizeOk (x : Fetched) (op : Nat) : Bool :=
  let len := x.num 28 4
  let flags := x.num 1 1
  decide (flags < 16) && (!bit flags 0 || (decide (op = 1) && decide (8 ≤ len) && decide (len ≤ 64))) &&
    (match op with
     | 0x01 => decide (len ≤ 2 ^ 31)
     | 0x02 => decide (1 ≤ len) && decide (len ≤ 2 ^ 31)
     | 0x05 => decide (x.num 16 8 % 8 = 0)
     | 0x06 => decide (x.num 16 8 % 8 = 0)
     | 0x08 => decide (1 ≤ len) && decide (len % 256 = 0) && decide (len ≤ 2 ^ 31) && decide (x.num 16 8 % 256 = 0) && decide (x.num 16 8 < 2 ^ 32) &&
         decide (x.num 54 1 ≤ 1)
     | _ => decide (len ≤ 2 ^ 31))

/-- The known opcodes of a GFT queue (R334). -/
def gftOpcodes : List Nat := [0x01, 0x02, 0x04, 0x05, 0x06, 0x08, 0x10]

/-- A GFT queue entry (R334 to R338): the oldest entry of the queue, where it has the opcode (an entry of no known opcode is refused by whichever command
meets it). -/
def gftCmd (op f q : Nat) (s : State) : Out :=
  let d := s.dev
  match d.oldest f q with
  | none => s.same
  | some x =>
    let o := x.num 0 1
    let id := x.num 4 4
    let flags := x.num 1 1
    let len := x.num 28 4
    let laddr := x.num 8 8
    if d.queueTyp f q ≠ 5 ∨ (o ≠ op ∧ gftOpcodes.contains o) then s.same
    else
      let client := GftClient.queue f q x.head (x.num 2 2) (bit flags 3)
      let d' := d.dropFetched x.id
      match d.conn id with
      | none => s.done (d'.addEnded s.mem id client 0x010A)
      | some c =>
        let need := if o = 5 ∨ o = 6 then 8 else len
        if c.func ≠ f ∨ c.st = 2 ∨ c.st = 3 then s.done (d'.addEnded s.mem id client 0x010A)
        else if !d.reqRoom c.owner then s.same
        else if o ≠ op ∨ !x.unusedZero o ∨ !x.sizeOk o then s.done (d'.addEnded s.mem id client 0x010F)
        else if need ≠ 0 && !d.funcMem f laddr need then s.done (d'.addEnded s.mem id client 0x010E)
        else if o = 0x10 then
          (if 4096 ≤ c.bufs.length then s.done (d'.addEnded s.mem id client 0x010F)
           else
            let d' := d'.setConn id { c with bufs := c.bufs ++ [⟨f, q, x.head, x.num 2 2, laddr, len⟩] }
            s.done (d'.addEnded s.mem id client 0))
        else if (o = 5 ∨ o = 6) ∧ 16 ≤ (c.reqs.filter fun r => decide (r.op = 5 ∨ r.op = 6)).length then s.same
        else
          let fl := 4 * b2n (bit flags 0) + 8 * b2n (bit flags 2)
          let msg := { GftMsg.blank with
            op := o
            flags := fl
            src := if o = 1 ∨ o = 4 ∨ o = 8 then .mem laddr else .none
            len := if o = 5 ∨ o = 6 then 8 else len
            raddr := x.num 16 8 % 2 ^ 52
            mkey := x.num 24 4
            op0 := x.num 32 8
            op1 := x.num 40 8
            group := x.num 48 4
            rank := x.num 52 2
            fmt := x.num 54 1
            goff := x.num 16 4
            pitch := if o = 8 then x.num 56 4 else 0
            fence := bit flags 1 }
          s.done (d'.addReq id client msg (if o = 2 ∨ o = 5 ∨ o = 6 then .mem laddr else .none))

/-- GFT_WRITE (R335). -/
def execGftWrite (f q : Nat) (s : State) : Out := gftCmd 0x01 f q s

/-- GFT_READ (R335). -/
def execGftRead (f q : Nat) (s : State) : Out := gftCmd 0x02 f q s

/-- GFT_SEND (R335). -/
def execGftSend (f q : Nat) (s : State) : Out := gftCmd 0x04 f q s

/-- GFT_FETCH_ADD (R335). -/
def execGftFetchAdd (f q : Nat) (s : State) : Out := gftCmd 0x05 f q s

/-- GFT_CMP_SWAP (R335). -/
def execGftCmpSwap (f q : Nat) (s : State) : Out := gftCmd 0x06 f q s

/-- GFT_REDUCE (R335). -/
def execGftReduce (f q : Nat) (s : State) : Out := gftCmd 0x08 f q s

/-- GFT_POST_RECV (R335). -/
def execGftPostRecv (f q : Nat) (s : State) : Out := gftCmd 0x10 f q s

/-! ### Sending -/

/-- Does a message of this opcode carry payload (R316)? -/
def hasPayload (op : Nat) : Bool := decide (op = 1) || decide (op = 3) || decide (op = 4) || decide (op = 8)

/-- The bytes of a message that its next packet carries. -/
def Device.nextLen (d : Device) (c : Conn) (x : GftMsg) : Nat := if hasPayload x.op then min (d.mtu c.owner) (x.len - x.off) else 0

/-- The payload bytes in flight. -/
def Conn.inFlight (c : Conn) : Nat := (c.unacked.map TxPkt.len).sum

/-- The next new packet of a connection, where FENCE, the PSN window, the congestion window and pacing allow one (R322, R326, R334, R347). -/
def Device.nextNew (d : Device) (c : Conn) : Option (GftMsg × Nat) :=
  match c.msgs with
  | [] => none
  | x :: _ =>
    let n := d.nextLen c x
    let fenced := x.fence && (match c.reqs with
      | r :: _ => decide (r.id ≠ x.req)
      | [] => false)
    let span := match c.unacked with
      | y :: _ => ahead c.nextPsn y.psn
      | [] => 0
    let small := decide (c.cls ≤ 1) && decide (8 ≤ c.unacked.length)
    let wide := c.congested && (!((Frac.nat (c.inFlight + n)).le c.cwnd) || !(c.paceAt.le (Frac.nat d.clk.now)))
    if fenced || decide (2048 ≤ span) || small || wide then none else some (x, n)

/-- The path for a packet (R323, R330): a strict connection's one path, else the next GOOD path in rotation, avoiding the one a packet was lost on. -/
def Conn.pickPath (c : Conn) (avoid : Option Nat) : Option Nat :=
  let good := c.good
  if c.strict then
    match c.cur with
    | some k => if good.contains k then some k else good.head?
    | none => good.head?
  else
    let other := good.filter fun k => decide (some k ≠ avoid)
    let pool := if other = [] then good else other
    match pool.find? (fun k => decide (c.rr ≤ k)) with
    | some k => some k
    | none => pool.head?

/-- Send one packet, new or again (R314 to R318, R330, R347). -/
def sendPacket (id : Nat) (c : Conn) (msg : GftMsg) (n : Nat) (old : Option TxPkt) (s : State) : Out :=
  let d := s.dev
  let psn := match old with
    | some x => x.psn
    | none => c.nextPsn
  match c.pickPath (old.map TxPkt.path) with
  | none => s.same
  | some k =>
    let fromMem := fun (d : Device) (payload : List Byte) (d0 : Device) =>
      let retx := match old with
        | some x => decide (0 < x.sends) || decide (0 < x.rnr) || x.busy.isSome
        | none => false
      let whole := !hasPayload msg.op
      let flags := pktFlags msg.flags (whole || decide (msg.off = 0)) (whole || decide (msg.len ≤ msg.off + n)) c.enc.isSome retx
      let head := baseHeader msg.op flags (d.fld .pkg Fld.PKG_ID_ID) c.rconn psn msg.msn msg.off msg.pitch msg.attempt k n (d.gftStamp c.owner % 2 ^ 32)
      match d.sealPkt c psn msg.gen head msg.ext payload with
      | (_, .error why) => s.done (d0.keyRefused s.mem id why)
      | (d, .ok bs) =>
        let d := ((d.gftEnqueue id c k msg.epoch bs).count c.page 2 n)
        let d := if retx then d.tick c.page 12 else d
        let pkt : TxPkt := match old with
          | some x => { x with path := k, sentAt := d.clk.now, sends := x.sends + 1, lost := false }
          | none => ⟨psn, msg, n, k, d.clk.now, 1, false, 0, none, false⟩
        let now := Frac.nat d.clk.now
        let c := { c with
          unacked := if old.isSome then c.unacked.map fun y => if y.psn = psn then pkt else y else c.unacked ++ [pkt]
          nextPsn := if old.isSome then c.nextPsn else (c.nextPsn + 1) % 2 ^ 32
          msgs := if old.isSome then c.msgs
            else if !hasPayload msg.op || decide (msg.len ≤ msg.off + n) then c.msgs.tail else { msg with off := msg.off + n } :: c.msgs.tail
          paceAt := if c.congested then (now.max c.paceAt).add ((Frac.nat n).mul (c.srtt.div c.cwnd)) else c.paceAt
          rr := k + 1
          cur := some k
          used := d.clk.now }
        s.done (d.setConn id c)
    match msg.src with
    | .none => fromMem d [] d
    | .held bs => fromMem d ((bs.drop msg.off).take n) d
    | .mem a =>
      if n = 0 then fromMem d [] d
      else match d.dataAt s.mem c.func (.unit "gft" id psn) (a + msg.off) n with
        | .notNow => s.same
        | .asked d => s.done d
        | .failed d st =>
          if msg.req = 0 then s.done ((d.setConn id { c with msgs := c.msgs.tail }).sendNak s.mem id msg.op1 msg.msn (if st = 0x0905 then 5 else 1))
          else s.done ((d.setConn id (c.failReq msg.req st psn)).settle s.mem id)
        | .ready d bs bad =>
          if bad = [] || old.isSome then fromMem d bs d
          else if msg.req = 0 then s.done ((d.setConn id { c with msgs := c.msgs.tail }).sendNak s.mem id msg.op1 msg.msn 5)
          else s.done ((d.setConn id (c.failReq msg.req 0x0106 psn)).settle s.mem id)

/-- GFT_PACKET_SEND: a lost packet is sent again, or else the next new one (R322, R326, R330, R347). -/
def execGftPacketSend (id : Nat) (s : State) : Out :=
  let d := s.dev
  match d.conn id with
  | none => s.same
  | some c =>
    if c.st = 1 ∨ c.st = 2 then s.same
    else match c.unacked.find? (fun x => x.lost && !x.waiting) with
      | some x => sendPacket id c x.msg x.len (some x) s
      | none => match d.nextNew c with
        | some (msg, n) => sendPacket id c msg n none s
        | none => s.same

/-! ### Receiving -/

/-- What the checks of R327 leave of the oldest packet of an opcode: there is none, the packet has ended here, or its operation is to be performed
on connection `id`. -/
inductive RxRes where
  | none
  | stop (d : Device)
  | go (d : Device) (id : Nat) (c : Conn) (x : RxPkt) (h : GftHdr)

/-- Check 8 (R327, R331): 0, or the NAK code. -/
def Device.keyCheck (d : Device) (m : Memory) (mkey addr len perm peer : Nat) : Nat :=
  match d.keyEntry m (mkey % 2 ^ 24) with
  | none => 1
  | some k =>
    if !bit k.perm 7 then (if isHost k.base && d.hostGone k.func then 8 else 1)
    else if k.gen ≠ mkey / 2 ^ 24 then 2
    else if addr < k.base ∨ k.base + k.len < addr + len ∨ !bit k.perm perm ∨ !(bit k.allow 15 || decide (k.allow % 2 ^ 14 = peer)) then 1
    else 0

/-- The permission that an opcode needs (R331, R335). -/
def permOf (op : Nat) : Nat := if op = 1 then 0 else if op = 2 then 1 else 2

/-- Take the oldest waiting packet of opcode `op` at I-die `i` and apply checks 3 to 9 of R327 in their order. -/
def Device.rxStart (d : Device) (m : Memory) (i op : Nat) : RxRes :=
  let g := d.gftDie i
  match g.rx.find? (fun x => match parseGft x.bytes with
    | some h => decide (h.op = op)
    | none => false) with
  | none => .none
  | some x =>
    match parseGft x.bytes with
    | none => .none
    | some h =>
      let p := Page.gft i
      let id := h.conn
      let d := d.setGftDie i { g with rx := g.rx.erase x }
      match d.conn id with
      | none => .stop (d.tick p 5)
      | some c =>
        if c.owner ≠ i ∨ c.peer ≠ h.src ∨ c.st = 1 ∨ c.st = 2 then .stop (d.tick p 5)
        else if !c.cached then
          (if 1024 ≤ g.miss.length then .stop (d.tick p 6)
           else .stop ((d.tick p 16).setGftDie i { d.gftDie i with miss := g.miss ++ [x] }))
        else
          let keyed := decide (op = 1 ∨ op = 2 ∨ op = 5 ∨ op = 6)
          let gen := if keyed then h.e 8 4 / 2 ^ 24 else 0
          let good := decide (icvOf c.nonce h.psn gen h.covered = h.icv)
          let d := d.cvuCheck i 2 (12 + h.covered.length) id good
          if !good then
            .stop (((d.tick p 7).err p 16 (Config.blockErrCode 0x0B 16) id).irq p 16)
          else
            let c := match c.paths[h.path]? with
              | some y => c.setPath h.path { y with ip := x.ip, mac := x.mac }
              | none => c
            let c := { c with used := d.clk.now }
            let d := d.setConn id c
            let bad := fun (d : Device) => RxRes.stop (((d.tick p 8).err p 17 (Config.blockErrCode 0x0B 17) id).irq p 17)
            let opened : Except RxRes (Device × GftHdr) :=
              match c.enc with
              | none => if bit h.flags 4 then .error (bad d) else .ok (d, h)
              | some (_, rxs) =>
                if !bit h.flags 4 then .error (bad d)
                else
                  let k := d.slot i rxs
                  let u := k.use 3 c.func c.crew
                  if u ≠ 0 then .error (.stop ((d.tick (.cph i) 6).keyRefused m id u))
                  else
                    let iv := gcmIv k.salt h.ctr
                    if gcmTagOf k.key iv h.head h.body ≠ h.tag then
                      .error (bad ((d.tick (.cph i) 2).errNoCairn (.cph i) 16 (Config.blockErrCode 0x12 16)))
                    else .ok (d.count (.cph i) 1 h.body.length, { h with body := gcmCrypt k.key iv h.body })
            match opened with
            | .error r => r
            | .ok (d, h) =>
              if !sequenced op then .go d id c x h
              else
                let behind := behindPsn h.psn c.cum
                let a := ahead h.psn c.cum
                if !(behind || decide (a < (if c.strict then 1 else 2048))) then .stop (d.tick p 9)
                else
                  let len := if op = 5 ∨ op = 6 then 8 else h.e 12 4
                  let kc := if keyed then d.keyCheck m (h.e 8 4) (h.e 0 8 % 2 ^ 52) len (permOf op) c.peer else 0
                  let d := d.setConn id { c with ackPath := h.path }
                  if kc ≠ 0 then
                    let d := d.sendNak m id h.psn h.msn kc
                    .stop (if behind then d else d.markPlaced m id h x.ce false false)
                  else if behind || c.placed.contains h.psn then .stop ((d.tick p 11).ackNow m id)
                  else if (d.gftDie i).hold.any fun y => decide (y.1 = id) && (match parseGft y.2.bytes with
                      | some h' => decide (h'.psn = h.psn)
                      | none => false) then .stop d
                  else .go d id { c with ackPath := h.path } x h

/-- Answer NAK; the packet is marked placed unless it will come again (R327). -/
def Device.nakPlaced (d : Device) (m : Memory) (id : Nat) (h : GftHdr) (ce : Bool) (code : Nat) : Device :=
  let d := d.sendNak m id h.psn h.msn code
  if code = 3 ∨ code = 4 then d else d.markPlaced m id h ce false false

/-- The GFT queue that takes a function's receive completions without a buffer: its lowest-numbered one (log entry 18). -/
def Device.gftQueueOf (d : Device) (f : Nat) : Option Nat :=
  ((d.queues.filter fun kv : Nat × Queue => decide (kv.1 / 65536 = f ∧ kv.2.typ = 5)).head?).map fun kv => kv.1 % 65536

/-- A receive completion, or the token of the connection's target (R337). -/
def Device.recvDone (d : Device) (m : Memory) (c : Conn) (b : Option RecvBuf) (status bytes pitch attempt : Nat) : Device :=
  match c.tok with
  | some (n, i, ch) => d.sendTokens (d.tilePart n i) n i ch 1 pitch attempt 0
  | none =>
    match b with
    | some b => d.complete m b.func b.queue b.head (leBytes 2 b.cid ++ leBytes 2 status ++ leBytes 8 bytes)
    | none =>
      match d.gftQueueOf c.func with
      | some q => (d.complete m c.func q (((d.queue c.func q).map Queue.head).getD 0)
          (leBytes 2 (d.freeVal % 65536) ++ leBytes 2 status ++ leBytes 8 bytes)).freeNext
      | none => d

/-- The function whose host memory a key names. -/
def Device.keyFunc (d : Device) (m : Memory) (mkey : Nat) : Nat := ((d.keyEntry m (mkey % 2 ^ 24)).map KeyEntry.func).getD 0

/-- Perform a WRITE packet that has passed its checks (R327, R340). -/
def Device.placeWrite (d : Device) (m : Memory) (id : Nat) (c : Conn) (x : RxPkt) (h : GftHdr) : Device :=
  let a := h.e 0 8 % 2 ^ 52 + h.off
  let f := d.keyFunc m (h.e 8 4)
  let nak := if isHost a then d.hostNak f else none
  match nak with
  | some code => d.nakPlaced m id h x.ce code
  | none =>
    if h.e 12 4 < h.off + h.body.length then d.nakPlaced m id h x.ce 1
    else
      let d := d.postAt m f 0 a h.body
      let summit := bit h.flags 2
      let d := if summit && bit h.flags 3 then d.recvDone m c none 0 h.body.length h.pitch h.attempt else d
      d.markPlaced m id h x.ce true summit

/-- Release the held summits of a connection that CUM_PSN has reached (R341). -/
def Device.releaseSummits (d : Device) (m : Memory) (i id : Nat) : Nat → Device
  | 0 => d
  | n + 1 =>
    match d.conn id with
    | none => d
    | some c =>
      match (d.gftDie i).hold.find? (fun y => decide (y.1 = id) && (match parseGft y.2.bytes with
        | some h => decide (h.psn = c.cum)
        | none => false)) with
      | none => d
      | some y =>
        match parseGft y.2.bytes with
        | none => d
        | some h =>
          let d := (d.setGftDie i { d.gftDie i with hold := (d.gftDie i).hold.erase y }).showSummit i
          let body := match c.enc with
            | some (_, rxs) => gcmCrypt (d.slot i rxs).key (gcmIv (d.slot i rxs).salt h.ctr) h.body
            | none => h.body
          (d.placeWrite m id c y.2 { h with body := body }).releaseSummits m i id n

/-- What follows the placement of any packet: held summits that may now act. -/
def Device.afterPlace (d : Device) (m : Memory) (i id : Nat) : Device := d.releaseSummits m i id ((d.gftDie i).hold.length)

/-- Run the operation of a received packet. -/
def rxCmd (op i : Nat) (f : Device → Nat → Conn → RxPkt → GftHdr → Device) (s : State) : Out :=
  if !s.dev.present (.gft i) then s.same
  else match s.dev.rxStart s.mem i op with
    | .none => s.same
    | .stop d => s.done d
    | .go d id c x h => s.done ((f d id c x h).afterPlace s.mem i id)

/-- RX_WRITE: placed, or a summit held until CUM_PSN reaches it (R340, R341). -/
def execRxWrite (i : Nat) (s : State) : Out :=
  rxCmd 0x01 i (fun d id c x h =>
    if bit h.flags 2 && !c.strict && decide (h.psn ≠ c.cum) then
      let g := d.gftDie i
      if 4096 ≤ g.hold.length then
        ((d.tick (.gft i) 15).err (.gft i) 19 (Config.blockErrCode 0x0B 19) id).irq (.gft i) 19
      else ((d.tick (.gft i) 14).setGftDie i { g with hold := g.hold ++ [(id, x)] }).showSummit i
    else d.placeWrite s.mem id c x h) s

/-- RX_READ_REQ: the target will send the response packets (R335); a poisoned source is answered NAK POISON (R327). -/
def execRxReadReq (i : Nat) (s : State) : Out :=
  rxCmd 0x02 i (fun d id _ x h =>
    let a := h.e 0 8 % 2 ^ 52
    let len := h.e 12 4
    let nak := if isHost a then d.hostNak (d.keyFunc s.mem (h.e 8 4)) else none
    match nak with
    | some code => d.nakPlaced s.mem id h x.ce code
    | none =>
      if !isHost a && !(d.memReads a len []).2.isEmpty then d.nakPlaced s.mem id h x.ce 5
      else
        let d := d.markPlaced s.mem id h x.ce true false
        match d.conn id with
        | none => d
        | some c => d.setConn id { c with
            msgs := c.msgs ++ [{ GftMsg.blank with
              op := 3
              msn := h.msn
              src := .mem a
              len := len
              pitch := h.pitch
              attempt := h.attempt
              op1 := h.psn }] }) s

/-- Data of a response lands (R335, R346); data for a tile whose partition no longer runs the attempt is discarded. -/
def Device.landData (d : Device) (m : Memory) (c : Conn) (r : GftReq) (off : Nat) (bs : List Byte) : Device :=
  match r.dst with
  | .none => d
  | .mem a => d.postAt m c.func 0 (a + off) bs
  | .tile n i loc row pitch =>
    if d.tagFit n i r.pitch r.attempt = .equal then
      (linesOf row off bs.length).foldl (fun (d : Device) lo =>
        d.locWrite m n i loc (lo / row * pitch + (max off lo - lo)) ((bs.drop (max off lo - off)).take (lo + row - max off lo))) d
    else d.tick c.page 5

/-- RX_READ_RESP: response data is placed at the requester (R335). -/
def execRxReadResp (i : Nat) (s : State) : Out :=
  rxCmd 0x03 i (fun d id c x h =>
    match c.reqs.find? (fun r => decide (r.op = 2) && decide (r.msn = h.msn) && r.status.isNone) with
    | none => d.markPlaced s.mem id h x.ce true false
    | some r =>
      let d := d.landData s.mem c r h.off h.body
      let c := { c with reqs := c.reqs.map fun y => if y.id = r.id then { y with got := y.got + h.body.length } else y }
      ((d.setConn id c).markPlaced s.mem id h x.ce true false).settle s.mem id) s

/-- The frame of a SEND on a REINJECT connection, in order of its pieces. -/
def SendRx.frame (r : SendRx) (n : Nat) : List Byte :=
  (List.range n).map fun k =>
    match r.pieces.find? (fun p : Nat × List Byte => decide (p.1 ≤ k ∧ k < p.1 + p.2.length)) with
    | some p => p.2.getD (k - p.1) 0
    | none => 0

def Device.pipe (d : Device) (i input : Nat) : PipeIn := Tbl.lookD d.pipeIn (8 * i + input) ⟨[], 0, 0, []⟩

/-- Bytes in an input FIFO. -/
def PipeIn.used (x : PipeIn) : Nat := (x.fifo.map fun f : RawFrame => f.bytes.length).sum

/-- A frame enters an input FIFO (R354, R359). -/
def Device.pipePush (d : Device) (i input : Nat) (bs : List Byte) : Device :=
  let x := d.pipe i input
  let isl := (8 + i) * 256 + (if input < 4 then 1 + input else 7)
  (d.setPipeIn (Tbl.put d.pipeIn (8 * i + input) { x with fifo := x.fifo ++ [⟨x.next, bs, d.stamp isl, d.fld .pkg Fld.PKG_WAVE_EPOCH⟩], next := x.next + 1 })).tick (.prs i) (if input = 4 then 15 else 0)

/-- Perform a SEND packet (R337, R374): it lands in its message's buffer, or the whole frame enters the pipeline. -/
def Device.placeSend (d : Device) (m : Memory) (i id : Nat) (c : Conn) (x : RxPkt) (h : GftHdr) : Device :=
  let e : Option (Conn × SendRx) := match c.sends.find? (fun r => decide (r.msn = h.msn)) with
    | some r => some (c, r)
    | none =>
      if c.reinject then some ({ c with sends := c.sends ++ [⟨h.msn, none, 0, none, false, []⟩] }, ⟨h.msn, none, 0, none, false, []⟩)
      else match c.bufs with
        | b :: rest => some ({ c with bufs := rest, sends := c.sends ++ [⟨h.msn, some b, 0, none, false, []⟩] }, ⟨h.msn, some b, 0, none, false, []⟩)
        | [] => none
  match e with
  | none => d.nakPlaced m id h x.ce 3
  | some (c, r) =>
    let n := h.body.length
    let total := if bit h.flags 1 then some (h.off + n) else r.total
    let limit := match r.buf with
      | some b => b.len
      | none => 9216
    let upd := fun (r' : SendRx) => { c with sends := c.sends.map fun y => if y.msn = r.msn then r' else y }
    let fin := { c with sends := c.sends.filter fun y => decide (y.msn ≠ r.msn) }
    let whole := decide (total = some (r.got + n))
    if r.bad || decide (limit < h.off + n) then
      (d.setConn id (if whole then fin else upd { r with bad := true, got := r.got + n, total := total })).nakPlaced m id h x.ce 6
    else
      match r.buf with
      | some b =>
        let nak := if isHost b.addr then d.hostNak c.func else none
        (match nak with
         | some code => d.nakPlaced m id h x.ce code
         | none =>
          let d := d.postAt m c.func 0 (b.addr + h.off) h.body
          let d := d.setConn id (if whole then fin else upd { r with got := r.got + n, total := total })
          let d := if whole then d.recvDone m c (some b) 0 (r.got + n) h.pitch h.attempt else d
          d.markPlaced m id h x.ce true false)
      | none =>
        let r := { r with pieces := r.pieces ++ [(h.off, h.body)], got := r.got + n, total := total }
        if !whole then (d.setConn id (upd r)).markPlaced m id h x.ce true false
        else
          let frame := r.frame (r.got)
          if 262144 < (d.pipe i 4).used + frame.length then d.nakPlaced m id h x.ce 3
          else ((d.setConn id fin).pipePush i 4 frame).markPlaced m id h x.ce true false

/-- RX_SEND (R337, R374). -/
def execRxSend (i : Nat) (s : State) : Out := rxCmd 0x04 i (fun d id c x h => d.placeSend s.mem i id c x h) s

/-! ### Atomics -/

/-- The entries of the atomic result store in use at an I-die (R336): its ATOMIC_RESPs not yet acknowledged. -/
def Device.atomicsHeld (d : Device) (i : Nat) : Nat :=
  (d.conns.map fun kv : Nat × Conn => if kv.2.owner = i then
    (kv.2.msgs.filter fun x => decide (x.op = 7)).length + (kv.2.unacked.filter fun x => decide (x.msg.op = 7)).length else 0).sum

/-- An atomic has been executed: its old value is kept and sent (R335, R336). -/
def Device.atomicDone (d : Device) (m : Memory) (id : Nat) (x : RxPkt) (h : GftHdr) (old : Nat) : Device :=
  let d := d.markPlaced m id h x.ce true false
  match d.conn id with
  | none => d
  | some c => d.setConn id { c with msgs := c.msgs ++ [{ GftMsg.blank with
      op := 7
      msn := h.msn
      op0 := old
      pitch := h.pitch
      attempt := h.attempt }] }

/-- A received atomic (R336): in memory at once; on a host address by the endpoint's AtomicOp, whose completion performs the rest on a second run. -/
def rxAtomic (op i : Nat) (new : Nat → GftHdr → Nat) (s : State) : Out :=
  if !s.dev.present (.gft i) then s.same
  else match s.dev.rxStart s.mem i op with
    | .none => s.same
    | .stop d => s.done d
    | .go d id _ x h =>
      let a := h.e 0 8 % 2 ^ 52
      let f := d.keyFunc s.mem (h.e 8 4)
      let out := fun (d : Device) => s.done (d.afterPlace s.mem i id)
      if a % 8 ≠ 0 then out (d.nakPlaced s.mem id h x.ce 1)
      else if 16384 ≤ d.atomicsHeld i then out (d.nakPlaced s.mem id h x.ce 4)
      else if !isHost a then
        (if !(d.memReads a 8 []).2.isEmpty then out (d.nakPlaced s.mem id h x.ce 5)
         else
          let old := leNat (d.memBytes s.mem a 8)
          out ((d.memWrite s.mem a (leBytes 8 (new old h % 2 ^ 64))).atomicDone s.mem id x h old))
      else match d.hostNak f with
        | some code => out (d.nakPlaced s.mem id h x.ce code)
        | none =>
          if !d.link.atomicEn then out (d.nakPlaced s.mem id h x.ce 7)
          else match d.xferOf (.unit "atomic" id h.psn) with
            | none =>
              let t := (s.dev.freeTags 1).headD 0
              let d := s.dev.setHostReads (Tbl.put s.dev.hostReads t ⟨f, .unit "atomic" id h.psn, 0, 8, [], false, false, false⟩)
              let d := d.setXfers (d.xfers ++ [⟨.unit "atomic" id h.psn, f, 8, [], 1, 0, []⟩])
              s.done (d.emit (.hostAtomic f t (a - hostMem) op (h.e 16 8) (h.e 24 8)))
            | some r =>
              if r.left ≠ 0 then s.same
              else
                let d := d.endXfer (.unit "atomic" id h.psn)
                if r.status = 0x0902 then out (d.nakPlaced s.mem id h x.ce 7)
                else if r.status = 0x0905 then out (d.nakPlaced s.mem id h x.ce 5)
                else if r.status ≠ 0 then out (d.nakPlaced s.mem id h x.ce 1)
                else out (d.atomicDone s.mem id x h (leNat r.bytes))

/-- RX_FETCH_ADD: v becomes v + OPERAND0 (R335). -/
def execRxFetchAdd (i : Nat) (s : State) : Out := rxAtomic 0x05 i (fun v h => v + h.e 16 8) s

/-- RX_CMP_SWAP: where v = OPERAND0, v becomes OPERAND1 (R335). -/
def execRxCmpSwap (i : Nat) (s : State) : Out := rxAtomic 0x06 i (fun v h => if v = h.e 16 8 then h.e 24 8 else v) s

/-- RX_ATOMIC_RESP: the old value is placed at LOCAL_ADDR and completes the atomic (R335). -/
def execRxAtomicResp (i : Nat) (s : State) : Out :=
  rxCmd 0x07 i (fun d id c x h =>
    match c.reqs.find? (fun r => decide (r.op = 5 ∨ r.op = 6) && decide (r.msn = h.msn) && r.status.isNone) with
    | none => d.markPlaced s.mem id h x.ce true false
    | some r =>
      let d := d.landData s.mem c r 0 (leBytes 8 (h.e 0 8))
      let c := { c with reqs := c.reqs.map fun y => if y.id = r.id then { y with got := 8 } else y }
      ((d.setConn id c).markPlaced s.mem id h x.ce true false).settle s.mem id) s

/-! ### Reductions -/

/-- The state of a group (R342): from its entry where nothing has been received yet. -/
def Device.groupSt (d : Device) (i g : Nat) (e : GroupEntry) : GroupSt := Tbl.lookD d.groups (groupKey i g) ⟨e.startPitch, 0, [], [], [], false⟩

/-- Apply a run of bytes to the target: v becomes add_rne(v, x) in the group's format (R343). -/
def Device.applyChunk (d : Device) (m : Memory) (e : GroupEntry) (off : Nat) (bs : List Byte) : Device :=
  let v := d.memBytes m (e.target + off) bs.length
  let w := if e.fmt = 1 then 2 else 4
  let sum := (List.range (bs.length / w)).flatMap fun k =>
    let at_ := fun (l : List Byte) => leNat ((l.drop (w * k)).take w)
    leBytes w (if e.fmt = 1 then addBf (at_ v) (at_ bs) else add32 (at_ v) (at_ bs))
  d.memWrite m (e.target + off) sum

/-- The staging address of a rank's chunk. -/
def GroupEntry.stage (e : GroupEntry) (rank off : Nat) : Nat := e.staging + (rank - 1) * e.len + off

/-- Every chunk of a rank has been received. -/
def rankWhole (e : GroupEntry) (bits : List (Nat × Nat)) (rank : Nat) : Bool := (List.range (e.len / 256)).all fun k => bits.contains (rank, k)

/-- Send APPLIED for a rank of a round on the connection that fed it (R343, R344). -/
def Device.sendApplied (d : Device) (id g round rank : Nat) (e : GroupEntry) : Device :=
  match d.conn id with
  | none => d
  | some c => d.setConn id { c with msgs := c.msgs ++ [{ GftMsg.blank with
      op := 9
      group := g
      rank := rank
      fmt := e.fmt
      len := e.len
      pitch := round }] }

/-- The token of a round that has ended (R343). -/
def Device.groupToken (d : Device) (e : GroupEntry) (round : Nat) : Device :=
  if bit e.notify 31 then
    let n := bits e.notify 16 3
    let i := e.notify % 2 ^ 16
    d.sendTokens (d.tilePart n i) n i (bits e.notify 19 8) 1 round (d.tileAttempt n i) 0
  else d

/-- While the rank at NEXT_RANK is whole: APPLIED, the next rank and what of it is staged, and at the last rank the end of the round (R343). -/
def Device.advanceGroup (d : Device) (m : Memory) (i g : Nat) (e : GroupEntry) : Nat → Device
  | 0 => d
  | n + 1 =>
    let st := d.groupSt i g e
    if !rankWhole e st.bits st.nextRank || decide (e.ranks ≤ st.nextRank) then d
    else
      let feed := st.feeds.find? fun f : Nat × Nat × Nat => decide (f.1 = st.round ∧ f.2.1 = st.nextRank)
      let d := match feed with
        | some f => d.sendApplied f.2.2 g st.round st.nextRank e
        | none => d
      let nx := st.nextRank + 1
      if nx < e.ranks then
        let d := d.setGroups (Tbl.put d.groups (groupKey i g) { st with nextRank := nx })
        let staged := (List.range (e.len / 256)).filter fun k => st.bits.contains (nx, k)
        let d := staged.foldl (fun (d : Device) k =>
          (d.applyChunk m e (256 * k) (d.memBytes m (e.stage nx (256 * k)) 256)).tick (.gft i) 19) d
        d.advanceGroup m i g e n
      else
        let st' := { st with
          round := (st.round + 1) % 2 ^ 32
          nextRank := 0
          bits := st.ahead
          ahead := []
          feeds := st.feeds.filter fun f : Nat × Nat × Nat => decide (f.1 ≠ st.round) }
        ((d.setGroups (Tbl.put d.groups (groupKey i g) st')).groupToken e st.round).advanceGroup m i g e n

/-- RX_REDUCE: applied, staged, acknowledged as duplicate or answered NAK by round and rank (R343 to R345). -/
def execRxReduce (i : Nat) (s : State) : Out :=
  rxCmd 0x08 i (fun d id _ x h =>
    let m := s.mem
    let g := h.e 0 4
    let rank := h.e 4 2
    let off := h.e 8 4 + h.off
    let n := h.body.length
    match d.groupEntry m i g with
    | none => d.nakPlaced m id h x.ce 1
    | some e =>
      let st := d.groupSt i g e
      let feed := st.feeds.find? fun f : Nat × Nat × Nat => decide (f.1 = h.pitch ∧ f.2.1 = rank)
      let other := match feed with
        | some f => decide (f.2.2 ≠ id)
        | none => false
      if st.stalled || other || decide (e.ranks ≤ rank) || decide (h.e 6 1 ≠ e.fmt) || decide (off % 256 ≠ 0) || decide (n % 256 ≠ 0) ||
          decide (e.len < off + n) then d.nakPlaced m id h x.ce 1
      else
        let chunks := (List.range (n / 256)).map (off / 256 + ·)
        let piece := fun (k : Nat) => (h.body.drop (256 * (k - off / 256))).take 256
        let feeds := if feed.isSome then st.feeds else st.feeds ++ [(h.pitch, rank, id)]
        let same := decide (h.pitch = st.round)
        let behind := behindPsn h.pitch st.round
        let next := decide (h.pitch = (st.round + 1) % 2 ^ 32)
        if behind || (same && decide (rank < st.nextRank)) then
          ((d.count (.gft i) 20 chunks.length).sendApplied id g h.pitch rank e).markPlaced m id h x.ce true false
        else if same then
          let fresh := chunks.filter fun k => !st.bits.contains (rank, k)
          let d := d.count (.gft i) 20 (chunks.length - fresh.length)
          let st := { st with bits := st.bits ++ fresh.map (fun k => (rank, k)), feeds := feeds }
          let d := d.setGroups (Tbl.put d.groups (groupKey i g) st)
          let d := fresh.foldl (fun (d : Device) k =>
            if rank = st.nextRank then (d.applyChunk m e (256 * k) (piece k)).tick (.gft i) 19
            else d.memWrite m (e.stage rank (256 * k)) (piece k)) d
          (d.advanceGroup m i g e (e.ranks + 1)).markPlaced m id h x.ce true false
        else if next && decide (1 ≤ rank) && decide (rank < st.nextRank) then
          let fresh := chunks.filter fun k => !st.ahead.contains (rank, k)
          let d := d.count (.gft i) 20 (chunks.length - fresh.length)
          let st := { st with ahead := st.ahead ++ fresh.map (fun k => (rank, k)), feeds := feeds }
          let d := d.setGroups (Tbl.put d.groups (groupKey i g) st)
          (fresh.foldl (fun (d : Device) k => d.memWrite m (e.stage rank (256 * k)) (piece k)) d).markPlaced m id h x.ce true false
        else d.nakPlaced m id h x.ce 4) s

/-- RX_APPLIED: completes the requester's REDUCE of the group, round and rank (R344). -/
def execRxApplied (i : Nat) (s : State) : Out :=
  rxCmd 0x09 i (fun d id c x h =>
    let c := { c with reqs := c.reqs.map fun r =>
      if r.op = 8 ∧ r.group = h.e 0 4 ∧ r.rank = h.e 4 2 ∧ r.pitch = h.pitch then { r with applied := true } else r }
    ((d.setConn id c).markPlaced s.mem id h x.ce true false).settle s.mem id) s

/-! ### Acknowledgements -/

/-- RX_ACK: packets are acknowledged, the round trip and the window updated, and packets sent long before an acknowledged one declared lost (R329, R330,
R347). -/
def execRxAck (i : Nat) (s : State) : Out :=
  rxCmd 0x10 i (fun d id c _ h =>
    let cum := h.e 0 4
    let echo := h.e 4 4
    let ce := h.e 8 2
    let bm := leNat h.body
    let acked := fun (x : TxPkt) => behindPsn x.psn cum || (decide (ahead x.psn cum < 8 * h.body.length) && bit bm (ahead x.psn cum))
    let hit := c.unacked.filter acked
    let rtt := if echo = 0 then none else some (Frac.of (5 * ((d.gftStamp i + 2 ^ 32 - echo) % 2 ^ 32)) 8)
    let c := { c with unacked := c.unacked.filter fun x => !acked x }
    let c := match rtt with
      | some r => c.sample r
      | none => c
    let c := d.onAck c ((hit.map TxPkt.len).sum) ce (h.e 10 2) rtt
    let d := (d.setConn id c).count (.gft i) 18 ce
    let latest := (hit.map TxPkt.sentAt).foldl max 0
    let reo := (c.srtt.mul ⟨1, 4⟩).max (Frac.nat 1000)
    let late := c.unacked.filter fun x => ((Frac.nat x.sentAt).add reo).le (Frac.nat latest)
    let d := late.foldl (fun (d : Device) (x : TxPkt) => d.declareLost s.mem id x.psn) d
    d.settle s.mem id) s

/-- The status with which a NAK fails its request (R328, R338). -/
def nakStatus (code : Nat) : Option Nat :=
  match code with
  | 1 => some 0x0102
  | 2 => some 0x0103
  | 5 => some 0x0106
  | 6 => some 0x0107
  | 7 => some 0x0108
  | 8 => some 0x0109
  | _ => none

/-- RX_NAK: the requester fails or resends the request by the code (R328). A NAK POISON for a read that the target had begun to answer names the READ_REQ
that is already acknowledged: its request fails by MSN. -/
def execRxNak (i : Nat) (s : State) : Out :=
  rxCmd 0x11 i (fun d id c _ h =>
    let d := d.tick (.gft i) 21
    let code := h.e 12 1
    let pkt : Option TxPkt := c.unacked.find? fun x : TxPkt => decide (x.psn = h.psn)
    let req : Option GftReq := match pkt with
      | some x => c.reqs.find? fun r : GftReq => decide (r.id = x.msg.req) && r.status.isNone
      | none => c.reqs.find? fun r : GftReq => decide (r.op = 2) && decide (r.msn = h.msn) && r.status.isNone
    let gone := { c with unacked := c.unacked.filter fun x : TxPkt => decide (x.psn ≠ h.psn) }
    match nakStatus code, req, pkt with
    | some st, some r, _ => (d.setConn id (gone.failReq r.id st h.psn)).settle s.mem id
    | some _, none, _ => (d.setConn id gone).settle s.mem id
    | none, some r, some x =>
      if code = 3 ∧ d.app (.gft i) Fld.GFT_RETRY_RNR_MAX ≤ x.rnr then
        (d.setConn id (c.failReq r.id 0x0104 h.psn)).connError s.mem id 0x010A
      else if code = 3 then
        d.setConn id { c with unacked := c.unacked.map fun y : TxPkt => if y.psn = h.psn then { y with rnr := y.rnr + 1, busy := none, waiting := true } else y }
      else if code = 4 then
        d.setConn id { c with unacked := c.unacked.map fun y : TxPkt =>
          if y.psn = h.psn then { y with busy := some (y.busy.getD d.clk.now), waiting := true } else y }
      else d
    | none, _, _ => d) s

/-- RX_PROBE: a PROBE_REPLY goes back on the same path index (R324). -/
def execRxProbe (i : Nat) (s : State) : Out := rxCmd 0x12 i (fun d id c _ h => d.sendCtl s.mem id 0x13 h.psn h.msn h.path (c.ackExt 0) []) s

/-- RX_PROBE_REPLY: a SUSPECT path becomes GOOD; a DOWN one after three answers in a row (R324). -/
def execRxProbeReply (i : Nat) (s : State) : Out :=
  rxCmd 0x13 i (fun d id c _ h =>
    match c.paths[h.path]? with
    | none => d
    | some x =>
      let n := x.probesOk + 1
      let x := if x.st = 1 ∨ (x.st = 2 ∧ 3 ≤ n) then { x with st := 0, probesOk := 0, probeOut := false }
        else if x.st = 2 then { x with probesOk := n, probeOut := false } else x
      d.setConn id (c.setPath h.path x)) s

/-! ### Timers -/

/-- ACK_DELAY_EXPIRY: ACK_DELAY_NS has passed since the first unacknowledged placement (R329). -/
def execAckDelayExpiry (id : Nat) (s : State) : Out :=
  match s.dev.conn id with
  | none => s.same
  | some c => if c.firstUn.isNone then s.same else s.done (s.dev.ackNow s.mem id)

/-- RTO_EXPIRY: the packet's RTO expires (R330). -/
def execRtoExpiry (id psn : Nat) (s : State) : Out :=
  let d := s.dev
  match d.conn id with
  | none => s.same
  | some c =>
    if c.unacked.any fun x => decide (x.psn = psn) && !x.lost && !x.waiting && decide (0 < x.sends) then
      s.done ((d.tick c.page 13).declareLost s.mem id psn)
    else s.same

/-- RNR_DELAY_EXPIRY: the packet may be sent again with its PSN (R328). -/
def execRnrDelayExpiry (id psn : Nat) (s : State) : Out :=
  let d := s.dev
  match d.conn id with
  | none => s.same
  | some c =>
    if c.unacked.any fun x => decide (x.psn = psn) && x.waiting then
      s.done (d.setConn id { c with unacked := c.unacked.map fun x =>
        if x.psn = psn then { x with waiting := false, lost := true, sends := 0 } else x })
    else s.same

/-- BUSY_LIMIT_EXPIRY: 100 ms of continuous BUSY (R328). -/
def execBusyLimitExpiry (id psn : Nat) (s : State) : Out :=
  let d := s.dev
  match d.conn id with
  | none => s.same
  | some c =>
    match c.unacked.find? (fun x => decide (x.psn = psn) && x.busy.isSome) with
    | none => s.same
    | some x => s.done ((d.setConn id (c.failReq x.msg.req 0x0105 psn)).connError s.mem id 0x010A)

/-- PROBE_TIMEOUT: a SUSPECT path becomes DOWN (R324). -/
def execProbeTimeout (id path : Nat) (s : State) : Out :=
  match s.dev.conn id with
  | none => s.same
  | some c =>
    match c.paths[path]? with
    | none => s.same
    | some x => if x.st = 1 then s.done (s.dev.pathDown s.mem id path) else s.same

/-- PROBE_INTERVAL: a PROBE on a DOWN path whose port is up; an unanswered one breaks the row of answers (R324). -/
def execProbeInterval (id path : Nat) (s : State) : Out :=
  let d := s.dev
  match d.conn id with
  | none => s.same
  | some c =>
    match c.paths[path]? with
    | none => s.same
    | some x =>
      if x.st ≠ 2 ∨ !d.flag (.eth (x.port / 4) (x.port % 4)) Fld.ETH_STATE_UP then s.same
      else
        let x := { x with probesOk := if x.probeOut then 0 else x.probesOk, probeOut := true }
        s.done ((d.setConn id (c.setPath path x)).sendCtl s.mem id 0x12 0 0 path [] [])

/-- The least recently used context of an I-die that may be evicted (R320). -/
def Device.lruConn (d : Device) (i : Nat) : Option Nat :=
  (d.conns.foldl (fun (best : Option (Nat × Nat)) (kv : Nat × Conn) =>
    if kv.2.owner = i && kv.2.cached && decide (2 < kv.2.cls) then
      (match best with
       | some b => if kv.2.used < b.2 then some (kv.1, kv.2.used) else best
       | none => some (kv.1, kv.2.used))
    else best) none).map Prod.fst

/-- A context enters the cache; a full cache first spills its least recently used one (R320). -/
def Device.cacheConn (d : Device) (i id : Nat) : Device :=
  let full := decide (65536 ≤ d.fld (.gft i) Fld.GFT_STATE_CACHED)
  let d := if full then
      (match d.lruConn i with
       | some v => (match d.conn v with
         | some c => (d.setConn v { c with cached := false }).tick (.gft i) 17
         | none => d)
       | none => d)
    else d
  (match d.conn id with
   | some c => d.setConn id { c with cached := true, used := d.clk.now }
   | none => d).showCached i

/-- CONTEXT_FETCH_DONE: the context is cached and the packets held for it proceed (R320). -/
def execContextFetchDone (i id : Nat) (s : State) : Out :=
  let d := s.dev
  let g := d.gftDie i
  let mine := fun (x : RxPkt) => match parseGft x.bytes with
    | some h => decide (h.conn = id)
    | none => false
  if !(g.miss.any mine) then s.same
  else
    let d := d.setGftDie i { g with rx := g.miss.filter mine ++ g.rx, miss := g.miss.filter fun x => !mine x }
    s.done (d.cacheConn i id)

/-- CONN_MOVE: firmware moves a connection without a usable path to the other I-die (R325): `ports` are the paths there (port, UDP source port), `slots` the
key slots to which MIGRATE moved an encrypted connection's, none where it failed (R448). -/
def execConnMove (id : Nat) (ports : List (Nat × Nat)) (slots : Option (Nat × Nat)) (s : State) : Out :=
  let d := s.dev
  match d.conn id with
  | none => s.same
  | some c =>
    let j := 1 - c.owner
    if d.model.idies.length ≠ 2 ∨ c.st = 2 ∨ c.paths.any (fun x => decide (x.st ≠ 2)) then s.same
    else if c.enc.isSome && slots.isNone then s.done (d.connError s.mem id 0x010A)
    else if ports = [] ∨ (ports.all fun p => !d.flag (.eth j (p.1 % 4)) Fld.ETH_STATE_UP) then s.done (d.connError s.mem id 0x010A)
    else
      let old := c.paths.getD 0 ⟨0, 0, 0, 0, 0, 0, false⟩
      let paths := (List.range ports.length).map fun k =>
        let p := ports.getD k (0, 0)
        let o := c.paths.getD k old
        { o with port := 4 * j + p.1 % 4, udp := p.2, st := 0, probesOk := 0, probeOut := true }
      let mine := fun (x : RxPkt) => match parseGft x.bytes with
        | some h => decide (h.conn = id)
        | none => false
      let g := d.gftDie c.owner
      let h := d.gftDie j
      let i := c.owner
      let c := { c with owner := j, paths := paths, cur := none, enc := if c.enc.isSome then slots else none }
      let d := d.setGftDie i ⟨g.rx.filter (fun x => !mine x), g.miss.filter (fun x => !mine x), g.hold.filter fun x => decide (x.1 ≠ id)⟩
      let d := d.setGftDie j ⟨h.rx ++ g.rx.filter mine, h.miss ++ g.miss.filter mine, h.hold ++ g.hold.filter fun x => decide (x.1 = id)⟩
      let d := ((((d.setConn id c).showCached i).showCached j).showOutstanding i).showOutstanding j
      let d := (d.showSummit i).showSummit j
      let d := d.fabricEvent s.mem (.gft j) c.func 0x0B12 [id, j]
      s.done ((List.range paths.length).foldl (fun (d : Device) k => d.sendCtl s.mem id 0x12 0 0 k [] []) d)

end Sys2Proof.Machine
end

