-- ==== Sys2Proof/Machine/Packet.lean ====
section
/-!
DEFINITION. Frames as the pipeline reads and edits them (spec/11, R355 to R358, R371): the headers a parse engine recognises, the causes of the slow path,
and pops, rewrites, pushes and TTL_DEC. A frame is its bytes from the destination MAC address to the last before the FCS.
-/
namespace Sys2Proof.Machine

/-- The big-endian number of `n` bytes at an offset. -/
def beAt (bs : List Byte) (o n : Nat) : Nat := beNat ((bs.drop o).take n)

/-- Bytes replaced at an offset. -/
def setAt (bs : List Byte) (o : Nat) (v : List Byte) : List Byte := bs.take o ++ v ++ bs.drop (o + v.length)

/-- What a parse depends on (R355, R382): PRS_TPID.EXTRA, the valid PRS_ETYPE entries, MPLS_INNER and GFT_CFG.UDP_PORT. -/
structure ParseCfg where
  extra : Nat
  etypes : List Nat
  mplsInner : Bool
  gftPort : Nat

/-- How a parse ends: the frame goes on, is malformed, fails its IPv4 checksum, or goes to the slow path with a cause (R356, R357). -/
inductive Verdict where
  | ok | malformed | badSum
  | slow (cause : Nat)
deriving DecidableEq, Repr

/-- What a parse engine finds (R355, R363): VLAN IDs outermost first, labels, the last EtherType, L3 kind and offset, protocol, DSCP, L4 and payload
offsets, and the end of the L3 payload. -/
structure PktView where
  verdict : Verdict
  vids : List Nat
  labels : List Nat
  etype : Nat
  kind : Nat
  l3 : Option Nat
  proto : Nat
  dscp : Nat
  l4 : Option Nat
  pay : Option Nat
  fin : Nat

/-- Tags from the offset of an EtherType: where the EtherType after them lies, and their VLAN IDs. A third tag and a frame that ends early stop. -/
def scanTags (c : ParseCfg) (bs : List Byte) : Nat → Nat → List Nat → Except Verdict (Nat × List Nat)
  | 0, _, _ => .error (.slow 4)
  | k + 1, o, vids =>
    if bs.length < o + 2 then .error .malformed
    else
      let t := beAt bs o 2
      if t = 0x8100 ∨ t = 0x88A8 ∨ t = c.extra then
        (if vids.length = 2 then .error (.slow 4)
         else if bs.length < o + 4 then .error .malformed
         else scanTags c bs k (o + 4) (vids ++ [beAt bs (o + 2) 2 % 4096]))
      else .ok (o, vids)

/-- MPLS label entries from an offset to the bottom of the stack. -/
def scanLabels (bs : List Byte) : Nat → Nat → List Nat → Except Verdict (Nat × List Nat)
  | 0, _, _ => .error (.slow 4)
  | k + 1, o, ls =>
    if ls.length = 4 then .error (.slow 4)
    else if bs.length < o + 4 then .error .malformed
    else
      let l := beAt bs o 4
      if bit l 8 then .ok (o + 4, ls ++ [l]) else scanLabels bs k (o + 4) (ls ++ [l])

/-- IPv6 extension headers from an offset: where the protocol's own header begins. -/
def scanExts (bs : List Byte) : Nat → Nat → Nat → Except Verdict (Nat × Nat)
  | 0, _, _ => .error (.slow 5)
  | k + 1, o, nh =>
    if nh = 44 then .error (.slow 1)
    else if nh = 0 ∨ nh = 43 ∨ nh = 60 then
      (if bs.length < o + 8 then .error .malformed
       else
         let n := 8 * (beAt bs (o + 1) 1 + 1)
         if bs.length < o + n then .error .malformed else scanExts bs k (o + n) (beAt bs o 1))
    else .ok (o, nh)

/-- L4 from its offset (log entry 20 gives the lengths of the TCP, ICMP and ICMPv6 headers): the offset of its payload and the end of the headers. -/
def scanL4 (c : ParseCfg) (bs : List Byte) (o proto : Nat) : Except Verdict (Option Nat × Nat × Nat) :=
  let need := fun (n : Nat) => if bs.length < o + n then Except.error Verdict.malformed else .ok (some o, o + n, o + n)
  if proto = 17 then
    (if bs.length < o + 8 then .error .malformed
     else if beAt bs (o + 2) 2 = c.gftPort then (if bs.length < o + 40 then .error .malformed else .ok (some o, o + 8, o + 40))
     else .ok (some o, o + 8, o + 8))
  else if proto = 6 then (if bs.length < o + 20 then .error .malformed else need (4 * max 5 (beAt bs (o + 12) 1 / 16)))
  else if proto = 1 then need 8
  else if proto = 58 then need 4
  else .ok (none, o, o)

/-- L3 and L4 from the offset of an IPv4 header. -/
def scanV4 (c : ParseCfg) (bs : List Byte) (o : Nat) (v : PktView) : Except Verdict (PktView × Nat) := do
  if bs.length < o + 20 then throw .malformed
  let ihl := beAt bs o 1 % 16
  if beAt bs o 1 / 16 ≠ 4 ∨ ihl < 5 ∨ bs.length < o + 4 * ihl ∨ bs.length < o + beAt bs (o + 2) 2 then throw .malformed
  if inetSum (words16 ((bs.drop o).take (4 * ihl))) ≠ 0 then throw .badSum
  let frag := beAt bs (o + 6) 2
  if frag % 0x4000 ≠ 0 then throw (.slow 1)
  if 5 < ihl then throw (.slow 2)
  let proto := beAt bs (o + 9) 1
  let (l4, pay, fin) ← scanL4 c bs (o + 20) proto
  pure ({ v with kind := 1, l3 := some o, proto := proto, dscp := beAt bs (o + 1) 1 / 4, l4 := l4, pay := some pay, fin := o + beAt bs (o + 2) 2 }, fin)

/-- L3 and L4 from the offset of an IPv6 header. -/
def scanV6 (c : ParseCfg) (bs : List Byte) (o : Nat) (v : PktView) : Except Verdict (PktView × Nat) := do
  if bs.length < o + 40 ∨ bs.length < o + 40 + beAt bs (o + 4) 2 then throw .malformed
  let (p, nh) ← scanExts bs 64 (o + 40) (beAt bs (o + 6) 1)
  let (l4, pay, fin) ← scanL4 c bs p nh
  pure ({ v with kind := 2, l3 := some o, proto := nh, dscp := beAt bs o 2 / 64 % 64, l4 := l4, pay := some pay, fin := o + 40 + beAt bs (o + 4) 2 }, fin)

/-- The headers from the EtherType on. -/
def scanL3 (c : ParseCfg) (bs : List Byte) (o : Nat) (v : PktView) : Except Verdict (PktView × Nat) := do
  let t := beAt bs o 2
  let v := { v with etype := t }
  if t = 0x0800 then scanV4 c bs (o + 2) v
  else if t = 0x86DD then scanV6 c bs (o + 2) v
  else if t = 0x8847 ∨ t = 0x8848 then
    let (p, ls) ← scanLabels bs 5 (o + 2) []
    let v := { v with labels := ls }
    let nib := beAt bs p 1 / 16
    if c.mplsInner && decide (p < bs.length) && decide (nib = 4) then scanV4 c bs p v
    else if c.mplsInner && decide (p < bs.length) && decide (nib = 6) then scanV6 c bs p v
    else pure (v, p)
  else if c.etypes.contains t then pure ({ v with kind := 3, l3 := some (o + 2), fin := bs.length }, o + 2)
  else throw (.slow 3)

/-- A view of nothing. -/
def PktView.blank : PktView := ⟨.ok, [], [], 0, 0, none, 0, 0, none, none, 0⟩

/-- Parse a frame (R355, R356, R357). -/
def parseFrame (c : ParseCfg) (bs : List Byte) : PktView :=
  let r : Except Verdict (PktView × Nat) := do
    let (o, vids) ← scanTags c bs 3 12 []
    let (v, fin) ← scanL3 c bs o { PktView.blank with vids := vids }
    if 512 < fin then throw (.slow 5)
    pure (v, fin)
  match r with
  | .ok (v, _) => v
  | .error e => { PktView.blank with verdict := e }

/-- The ECN field of an IPv4 or IPv6 frame. -/
def PktView.ecn (v : PktView) (bs : List Byte) : Option Nat :=
  match v.kind, v.l3 with
  | 1, some o => some (beAt bs (o + 1) 1 % 4)
  | 2, some o => some (beAt bs o 2 / 16 % 4)
  | _, _ => none

/-! ### Edits -/

/-- A frame taken apart: the addresses, tags outermost first, EtherType, labels outermost first, and what follows. -/
structure Parts where
  macs : List Byte
  tags : List (List Byte)
  et : List Byte
  labels : List (List Byte)
  tail : List Byte

/-- Pieces of four bytes. -/
def fours (bs : List Byte) (n : Nat) : List (List Byte) := (List.range n).map fun k => (bs.drop (4 * k)).take 4

/-- Take a parsed frame apart. -/
def partsOf (v : PktView) (bs : List Byte) : Parts :=
  let t := v.vids.length
  let l := v.labels.length
  { macs := bs.take 12, tags := fours (bs.drop 12) t, et := (bs.drop (12 + 4 * t)).take 2, labels := fours (bs.drop (14 + 4 * t)) l,
    tail := bs.drop (14 + 4 * t + 4 * l) }

/-- Put it together. -/
def Parts.bytes (p : Parts) : List Byte := p.macs ++ p.tags.flatten ++ p.et ++ p.labels.flatten ++ p.tail

/-- The checksum of an IPv4 header of 20 bytes. -/
def fixV4 (tail : List Byte) : List Byte :=
  setAt tail 10 (beBytes 2 (inetSum (words16 ((setAt tail 10 [0, 0]).take 20))))

/-- A pop of VLAN tags or of labels (R371); none where the last label has no IPv4 or IPv6 beneath. -/
def Parts.pop (p : Parts) (kind count : Nat) : Option Parts :=
  if kind = 1 then some { p with tags := p.tags.drop count }
  else if kind = 2 ∧ p.labels ≠ [] ∧ count ≠ 0 then
    (if count < p.labels.length then some { p with labels := p.labels.drop count }
     else match p.tail with
       | b :: _ =>
         if b.toNat / 16 = 4 then some { p with labels := [], et := beBytes 2 0x0800 }
         else if b.toNat / 16 = 6 then some { p with labels := [], et := beBytes 2 0x86DD }
         else none
       | [] => none)
  else some p

/-- A push (R371). -/
def Parts.push (p : Parts) (kind : Nat) (bs : List Byte) : Parts :=
  let q := fours bs (bs.length / 4)
  if kind = 1 then { p with tags := q ++ p.tags }
  else if kind = 2 ∧ q ≠ [] then { p with labels := q ++ p.labels, et := if p.labels = [] then beBytes 2 0x8847 else p.et }
  else p

/-- DSCP of the IP header. -/
def Parts.setDscp (p : Parts) (kind x : Nat) : Option Parts :=
  if kind = 1 then some { p with tail := setAt p.tail 1 [BitVec.ofNat 8 (x % 64 * 4 + beAt p.tail 1 1 % 4)] }
  else if kind = 2 then some { p with tail := setAt p.tail 0 (beBytes 2 (putBits (beAt p.tail 0 2) 6 6 x)) }
  else none

/-- One rewrite of a field by a value of 16 bytes; none where the frame lacks the field (R371). `l4` is the offset of a UDP or TCP header in the tail. -/
def Parts.rewrite (p : Parts) (kind : Nat) (l4 : Option Nat) (field : Nat) (v : List Byte) : Option Parts :=
  let tci := fun (f : Nat → Nat) => match p.tags with
    | t :: ts => some { p with tags := setAt t 2 (beBytes 2 (f (beAt t 2 2))) :: ts }
    | [] => none
  let tail := fun (ok : Bool) (o n : Nat) => if ok then some { p with tail := setAt p.tail o (v.take n) } else none
  match field with
  | 0x01 => some { p with macs := setAt p.macs 0 (v.take 6) }
  | 0x02 => some { p with macs := setAt p.macs 6 (v.take 6) }
  | 0x03 => tci fun x => putBits x 0 12 (beAt v 0 2)
  | 0x04 => tail (decide (kind = 1)) 12 4
  | 0x05 => tail (decide (kind = 1)) 16 4
  | 0x06 => tail (decide (kind = 2)) 8 16
  | 0x07 => tail (decide (kind = 2)) 24 16
  | 0x08 => tail l4.isSome (l4.getD 0) 2
  | 0x09 => tail l4.isSome (l4.getD 0 + 2) 2
  | 0x0A => p.setDscp kind (beAt v 0 1)
  | 0x0B => tci fun x => putBits x 13 3 (beAt v 0 1)
  | _ => none

/-- The addresses and ports that a UDP or TCP checksum covers. -/
def sumWords (kind o : Nat) (tail : List Byte) : List Byte :=
  (if kind = 1 then (tail.drop 12).take 8 else (tail.drop 8).take 32) ++ (tail.drop o).take 4

/-- The IPv4 checksum recomputed, and a UDP or TCP checksum updated for changed addresses and ports (R371). -/
def fixSums (kind proto : Nat) (l4 : Option Nat) (old new : List Byte) : List Byte :=
  let new := match l4 with
    | none => new
    | some o =>
      let a := sumWords kind o old
      let b := sumWords kind o new
      let at_ := o + (if proto = 17 then 6 else 16)
      let ck := beAt new at_ 2
      if a = b ∨ (proto = 17 ∧ kind = 1 ∧ ck = 0) then new
      else
        let r := inetSum ((65535 - ck) + (65535 * (a.length / 2) - words16 a) + words16 b)
        setAt new at_ (beBytes 2 (if proto = 17 ∧ r = 0 then 65535 else r))
  if kind = 1 then fixV4 new else new

/-- TTL_DEC (R357, R371): the TTL or hop limit, and the TTL of the top label; none where one of them is 0 or 1. -/
def Parts.ttlDec (p : Parts) (kind : Nat) : Option Parts :=
  let at_ := if kind = 1 then 8 else 7
  let ip := decide (kind = 1 ∨ kind = 2)
  let top := beAt (p.labels.headD []) 3 1
  if (ip && decide (beAt p.tail at_ 1 ≤ 1)) || (!p.labels.isEmpty && decide (top ≤ 1)) then none
  else
    let p := if ip then { p with tail := setAt p.tail at_ [BitVec.ofNat 8 (beAt p.tail at_ 1 - 1)] } else p
    some (match p.labels with
      | l :: ls => { p with labels := setAt l 3 [BitVec.ofNat 8 (top - 1)] :: ls }
      | [] => p)

/-- Mark an IP frame CE (R389). -/
def markCe (v : PktView) (bs : List Byte) : List Byte :=
  match v.kind, v.l3 with
  | 1, some o => bs.take o ++ fixV4 (setAt (bs.drop o) 1 [BitVec.ofNat 8 (beAt bs (o + 1) 1 / 4 * 4 + 3)])
  | 2, some o => setAt bs o (beBytes 2 (putBits (beAt bs o 2) 4 2 3))
  | _, _ => bs

end Sys2Proof.Machine
end

