-- ==== Sys2Proof/Machine/Egress.lean ====
section
/-!
DEFINITION. The traffic manager (spec/12, R386 to R410): queue records, admission, the choice of the next frame, shapers, time gates, policers and depth
sampling, with the Ethernet transmit entry (R509). Every frame length counts the 4 bytes of the FCS, which no list of bytes holds.
-/
namespace Sys2Proof.Machine

/-- A frame's length with its FCS. -/
def wireLen (bs : List Byte) : Nat := bs.length + 4

/-- Byte `o` of a loaded table of an I-die under a generation of its page: 0 edits, 1 placements, 2 patterns, 3 rules, 4 queue records, 5 policers. -/
def Device.loadedByte (d : Device) (i table : Nat) (p : Page) (gen o : Nat) : Byte :=
  (Tbl.lookD d.loaded (32 * i + 2 * table + (if gen = d.fld p Fld.GEN_APPLIED then 0 else 1)) []).rdByte o

/-- Bytes of a loaded table. -/
def Device.loadedBytes (d : Device) (i table : Nat) (p : Page) (gen o n : Nat) : List Byte :=
  (List.range n).map fun k => d.loadedByte i table p gen (o + k)

/-! ### Queue records (R409) -/

/-- The record of a queue or of a port shaper. -/
structure QRec where
  rate : Nat
  burst : Nat
  extra : Int
  zero : Bool
  ecn : Bool
  weight : Nat
  limit : Nat
  reserve : Nat
  thresh : Nat
deriving DecidableEq

/-- An eight-bit two's complement number. -/
def s8 (x : Nat) : Int := if x < 128 then (x : Int) else (x : Int) - 256

/-- The bytes of a record as R409 lays them out. -/
def qrecOf (bs : List Byte) : QRec :=
  let n := fun off len => leNat ((bs.drop off).take len)
  ⟨n 0 4, n 4 4, s8 (n 8 1), bit (n 9 1) 0, bit (n 9 1) 1, n 10 1, n 12 4, n 16 4, n 20 4⟩

/-- The Default column. -/
def qrecDefault (k : Nat) : QRec :=
  let q := k % 32
  ⟨0, 65536, 20, false, false, if 128 ≤ k then 0 else if 28 ≤ q then 1 else if 4 ≤ q then 4 else if q = 1 then 8 else 0, 8192, 0, 0⟩

/-- Record `k` under a generation: 32 p + q for a queue, 128 + p for the shaper of a port. -/
def Device.qrec (d : Device) (i k gen : Nat) : QRec :=
  let p := Page.tmg i
  if d.genVal p Fld.TMG_QTAB_BASE_VALID 0 gen = 0 then qrecDefault k else qrecOf (d.loadedBytes i 4 p gen (32 * k) 32)

/-- The record in force. -/
def Device.qrecNow (d : Device) (i k : Nat) : QRec := d.qrec i k (d.fld (.tmg i) Fld.GEN_APPLIED)

/-- The queue that TMG_CLASS_MAP[0] names. -/
def Device.class0Queue (d : Device) (i : Nat) : Nat := d.app (.tmg i) Fld.TMG_CLASS_MAP0_QBASE

/-- The cells a queue holds in reserve: at least 72 for the class 0 queue (R388). -/
def Device.reserveOf (d : Device) (i k : Nat) : Nat :=
  let r := (d.qrecNow i k).reserve
  if k % 32 = d.class0Queue i then max 72 r else r

/-! ### Queues -/

/-- A queue that has held nothing: its bucket full (log entry 20). -/
def Device.tmq (d : Device) (i p q : Nat) : TmQueue :=
  Tbl.lookD d.tmQueues (128 * i + 32 * p + q) ⟨[], 0, 8000 * (d.qrecNow i (32 * p + q)).burst, d.clk.now, List.replicate 6 0, [], 0, 0⟩

def Device.setTmq (d : Device) (i p q : Nat) (x : TmQueue) : Device := d.setTmQueues (Tbl.put d.tmQueues (128 * i + 32 * p + q) x)

def Device.tmp (d : Device) (i p : Nat) : TmPort :=
  Tbl.lookD d.tmPorts (4 * i + p) ⟨8000 * (d.qrecNow i (128 + p)).burst, d.clk.now, [], 4, false, none, 0, none, 0⟩

def Device.setTmp (d : Device) (i p : Nat) (x : TmPort) : Device := d.setTmPorts (Tbl.put d.tmPorts (4 * i + p) x)

/-- Count `n` in counter `k` of a queue (R410). -/
def Device.qcount (d : Device) (i p q k n : Nat) : Device :=
  let x := d.tmq i p q
  d.setTmq i p q { x with cnts := x.cnts.set k ((x.cnts.getD k 0 + n) % 2 ^ 64) }

/-- The cells of a frame and of a queue (R388). -/
def cellsOf (bs : List Byte) : Nat := (wireLen bs + 255) / 256
def TmQueue.cells (x : TmQueue) : Nat := (x.frames.map fun f : TmFrame => cellsOf f.bytes).sum
def TmQueue.bytes (x : TmQueue) : Nat := (x.frames.map fun f : TmFrame => wireLen f.bytes).sum

/-- TMG_STATE.CELLS. -/
def Device.tmCells (d : Device) (i : Nat) : Nat :=
  ((d.tmQueues.filter fun kv : Nat × TmQueue => decide (kv.1 / 128 = i)).map fun kv : Nat × TmQueue => kv.2.cells).sum

def Device.showCells (d : Device) (i : Nat) : Device := d.put (.tmg i) Fld.TMG_STATE_CELLS (d.tmCells i)

/-- How a frame stands at a queue: admitted, above the queue's limit, or without room in the unreserved cells (R388). -/
inductive Admit where
  | yes | limit | room
deriving DecidableEq, Repr

def Device.admits (d : Device) (i p q : Nat) (bs : List Byte) : Admit :=
  let k := 32 * p + q
  let now := (d.tmq i p q).cells
  let after := now + cellsOf bs
  if (d.qrecNow i k).limit < after then .limit
  else if after ≤ d.reserveOf i k then .yes
  else
    let reserved := ((List.range 128).map (d.reserveOf i)).sum
    let shared := ((d.tmQueues.filter fun kv : Nat × TmQueue => decide (kv.1 / 128 = i)).map fun kv : Nat × TmQueue =>
      kv.2.cells - d.reserveOf i (kv.1 % 128)).sum
    let mine := (after - d.reserveOf i k) - (now - d.reserveOf i k)
    if reserved + shared + mine ≤ 131072 then .yes else .room

/-- The parse of a frame that the traffic manager marks: its own headers only. -/
def plainCfg : ParseCfg := ⟨0x9100, [], true, 65536⟩

/-- A transmit entry's end (R509). -/
def Device.txDone (d : Device) (m : Memory) (f : TmFrame) (status : Nat) : Device :=
  match f.tx with
  | some (func, q, head, cid) => d.complete m func q head (leBytes 2 cid ++ leBytes 2 status)
  | none => d

/-- An admitted frame joins its queue, marked CE where the queue's depth asks for it (R389). -/
def Device.tmPush (d : Device) (m : Memory) (f : TmFrame) : Device :=
  let i := f.port / 4
  let p := f.port % 4
  let x := d.tmq i p f.queue
  let r := d.qrecNow i (32 * p + f.queue)
  let v := parseFrame plainCfg f.bytes
  let e := v.ecn f.bytes
  let mark := r.ecn && decide (r.thresh ≤ x.bytes) && (decide (e = some 1) || decide (e = some 2))
  let f' := { f with bytes := if mark then markCe v f.bytes else f.bytes, at_ := d.clk.now, waited := false }
  let d := d.setTmq i p f.queue { x with frames := x.frames ++ [f'] }
  let d := if mark then (d.qcount i p f.queue 4 1).tick (.tmg i) 23 else d
  (d.showCells i).txDone m f 0

/-- Replace the frame at a place of the list of those that have not reached a queue. -/
def Device.tmTake (d : Device) (f : TmFrame) : Device := d.setTmWait (d.tmWait.erase f)

/-- TM_ENQUEUE: the oldest frame on its way into the traffic manager reaches its queue: it is admitted, refused (R387), dropped, or waits (R388). -/
def execTmEnqueue (i : Nat) (s : State) : Out :=
  let d := s.dev
  let t := Page.tmg i
  if !d.present t || d.stopped t.island then s.same else
  match d.tmWait.find? (fun f => decide (f.port / 4 = i) && !f.waited) with
  | none => s.same
  | some f =>
    let p := f.port % 4
    let d1 := d.tmTake f
    if f.queue = d.class0Queue i && !(decide (f.src = 3) && f.cls0) then
      let d1 := (d1.tick t 20).errNoCairn t 16 (Config.blockErrCode 0x10 16)
      let d1 := if f.src = 1 then d1.tick (.cls i) 13 else d1
      s.done (d1.txDone s.mem f 0x0A10)
    else
      let behindOthers := decide (2 ≤ f.src) && d1.tmWait.any fun g : TmFrame => g.waited && decide (g.port = f.port ∧ g.queue = f.queue ∧ g.src = f.src)
      let a := d.admits i p f.queue f.bytes
      let d1 := if a = .room then d1.errNoCairn t 18 (Config.blockErrCode 0x10 18) else d1
      if a = .yes && !behindOthers then s.done (d1.tmPush s.mem f)
      else if 2 ≤ f.src then
        s.done (((d1.setTmWait (d.tmWait.map fun g : TmFrame => if g = f then { g with waited := true } else g)).tick t (12 + p)).qcount i p f.queue 3 1)
      else
        let d1 := (d1.tick t (8 + p)).qcount i p f.queue 2 1
        s.done (if f.src = 1 then d1.tick (.cls i) 13 else d1)

/-- TM_ADMIT_RETRY: room returns and the oldest waiting frame of a queue is admitted (R388). -/
def execTmAdmitRetry (i p q : Nat) (s : State) : Out :=
  let d := s.dev
  if !d.present (.tmg i) || d.stopped (Page.tmg i).island then s.same else
  match d.tmWait.find? (fun f => decide (f.port = 4 * i + p ∧ f.queue = q) && f.waited) with
  | none => s.same
  | some f => if d.admits i p q f.bytes = .yes then s.done ((d.tmTake f).tmPush s.mem f) else s.same

/-! ### Shapers (R393) -/

/-- A bucket's level now, in 1/8000 byte. -/
def levelAt (r : QRec) (tokens : Int) (since now : Nat) : Int :=
  min ((8000 * r.burst : Nat) : Int) (tokens + ((r.rate * (now - since) : Nat) : Int))

/-- The charge of a frame in bytes (R392). -/
def chargeOf (r : QRec) (bs : List Byte) : Nat := ((wireLen bs : Int) + r.extra).toNat

/-- The record whose OVERHEAD charges a frame: that of its epoch. -/
def Device.qrecFor (d : Device) (i k : Nat) (f : TmFrame) : QRec := d.qrec i k (d.genFor (.tmg i) f.epoch)

/-! ### Gates (R395 to R398) -/

/-- The cycle time. -/
def GateList.cycle (g : GateList) : Nat := (g.entries.map Prod.fst).sum

/-- The entry at an offset in the cycle, with the time left in it. -/
def entryAt : List (Nat × Nat) → Nat → Nat → Nat × Nat
  | [], _, k => (k, 0)
  | (n, _) :: es, off, k => if off < n then (k, n - off) else entryAt es (off - n) (k + 1)

/-- The port's PTP time. -/
def Device.ptpNow (d : Device) (x : TmPort) : Int := (d.clk.now : Int) + x.ptp

/-- The offset of a PTP time in the cycle. -/
def GateList.offset (g : GateList) (t : Int) : Nat := if g.cycle = 0 then 0 else ((t - (g.base : Int)) % (g.cycle : Int)).toNat

/-- The time until the gate of a queue next goes from open to closed, from an entry on with `left` in it; none where it never does. -/
def closesIn (es : List (Nat × Nat)) (q : Nat) : Nat → Nat → Nat → Option Nat
  | 0, _, _ => none
  | fuel + 1, k, left =>
    let nxt := (k + 1) % es.length
    let here := bit (es.getD k (0, 0)).2 q
    let there := bit (es.getD nxt (0, 0)).2 q
    if here && !there then some left
    else (closesIn es q fuel nxt (es.getD nxt (0, 0)).1).map (left + ·)

/-- The port rate in bits per nanosecond, and the automatic guard band (R309, R396). -/
def portRate (speed : Nat) : Nat := 1600 / 2 ^ speed
def autoGuard (speed : Nat) : Nat := if speed = 0 then 47 else if speed = 1 then 93 else if speed = 2 then 185 else 370

/-- May a frame of the queue start as far as the gates go? The second answer says whether the length-aware test let it. -/
def Device.gateOk (d : Device) (i p q : Nat) (x : TmPort) (charge : Nat) : Bool × Bool :=
  match x.gate with
  | none => (true, false)
  | some g =>
    if !bit (g.entries.getD x.entry (0, 0)).2 q then (false, false)
    else
      let speed := d.fld (.eth i p) Fld.ETH_STATE_SPEED
      let here := entryAt g.entries (g.offset (d.ptpNow x)) 0
      match closesIn g.entries q g.entries.length here.1 here.2 with
      | none => (true, g.guardMode)
      | some left =>
        if g.guardMode then (decide (8 * charge < left * portRate speed), true)
        else (decide ((if g.guardNs = 0 then autoGuard speed else g.guardNs) ≤ left), false)

/-- TMG_GATE_STAT. -/
def Device.showGate (d : Device) (i p : Nat) : Device :=
  let x := d.tmp i p
  let t := Page.tmg i
  ((d.putI t Fld.TMG_GATE_STAT_ENTRY p x.entry).putI t Fld.TMG_GATE_STAT_ACTIVE p (b2n x.gate.isSome)).putI t
    Fld.TMG_GATE_STAT_PENDING p (b2n x.pend.isSome)

/-- GATE_ENTRY_CHANGE: PTP time has reached another entry of the list in force, and the gates change (R395). -/
def execGateEntryChange (i p : Nat) (s : State) : Out :=
  let d := s.dev
  let x := d.tmp i p
  match x.gate with
  | none => s.same
  | some g =>
    let k := (entryAt g.entries (g.offset (d.ptpNow x)) 0).1
    if !d.present (.eth i p) || decide (k = x.entry) then s.same else s.done ((d.setTmp i p { x with entry := k }).showGate i p)

/-- GATE_LIST_TAKEOVER: the pending list takes over at its first cycle start at or after its commit (R397). -/
def execGateListTakeover (i p : Nat) (s : State) : Out :=
  let d := s.dev
  let x := d.tmp i p
  match x.pend with
  | none => s.same
  | some (g, since) =>
    let wait := if g.cycle = 0 then 0 else (((g.base : Int) - (since : Int)) % (g.cycle : Int)).toNat
    if !d.present (.eth i p) || decide (d.ptpNow x < ((since + wait : Nat) : Int)) then s.same
    else s.done (((d.setTmp i p { x with gate := some g, entry := 0, pend := none }).tick (.tmg i) (16 + p)).showGate i p)

/-- PTP_STEP: the port's PTP clock steps by `delta` nanoseconds (R398). A step of at most 1 µs moves the clock and is not counted. -/
def execPtpStep (i p : Nat) (delta : Int) (s : State) : Out :=
  let d := s.dev
  if !d.present (.eth i p) then s.same
  else
    let x := d.tmp i p
    let x := { x with ptp := x.ptp + delta }
    if delta.natAbs ≤ 1000 then s.done (d.setTmp i p x)
    else
      let k := match x.gate with
        | some g => (entryAt g.entries (g.offset (d.ptpNow x)) 0).1
        | none => x.entry
      s.done ((((d.setTmp i p { x with entry := k }).tick (.tmg i) 21).cairnOpen (.tmg i) 0x1001).errNoCairn (.tmg i) 17 0x1001 |>.showGate i p)

/-! ### The choice of the next frame (R390, R391) -/

/-- Is the queue eligible? `blocked`: the queues for whose head frame's class the port transmit buffer holds no credit (R78). -/
def Device.eligible (d : Device) (i p q : Nat) (x : TmPort) (blocked : List Nat) : Bool :=
  let y := d.tmq i p q
  match y.frames with
  | [] => false
  | f :: _ =>
    let r := d.qrecNow i (32 * p + q)
    let pr := d.qrecNow i (128 + p)
    !blocked.contains q && (d.gateOk i p q x (chargeOf (d.qrecFor i (32 * p + q) f) f.bytes)).1 &&
      (decide (r.rate = 0) || decide (0 < levelAt r y.tokens y.since d.clk.now)) &&
      (decide (pr.rate = 0) || decide (q = d.class0Queue i) || decide (0 < levelAt pr x.tokens x.since d.clk.now))

/-- Has the queue used up its cap of the last 64 starts while a lower queue is eligible? -/
def Device.capped (d : Device) (i p q : Nat) (x : TmPort) (elig : List Nat) : Bool :=
  let cap := (d.qrecNow i (32 * p + q)).weight
  decide (q ≠ 0) && decide (cap ≠ 0) && decide (cap ≤ (x.starts.filter (· = q)).length) && elig.any fun r => decide (q < r)

/-- The turn of the group (R391): the queue that sends, with the turn and the deficits as they then stand. -/
def dwrr (weight charge : Nat → Nat) (elig : List Nat) : Nat → Nat → Bool → Tbl Nat → Option (Nat × Tbl Nat)
  | 0, _, _, _ => none
  | fuel + 1, q, granted, ds =>
    let nxt := if q = 31 then 4 else q + 1
    if !elig.contains q then dwrr weight charge elig fuel nxt false ds
    else
      let dq := Tbl.lookD ds q 0 + (if granted then 0 else weight q * 1024)
      let ds := Tbl.put ds q dq
      if charge q ≤ dq then some (q, ds) else dwrr weight charge elig fuel nxt false ds

/-- Start a frame: it leaves its queue and charges its shapers. -/
def Device.startFrame (d : Device) (i p q : Nat) : Device :=
  let x := d.tmp i p
  let y := d.tmq i p q
  match y.frames with
  | [] => d
  | f :: rest =>
    let now := d.clk.now
    let r := d.qrecNow i (32 * p + q)
    let pr := d.qrecNow i (128 + p)
    let c := chargeOf (d.qrecFor i (32 * p + q) f) f.bytes
    let pc := chargeOf (d.qrecFor i (128 + p) f) f.bytes
    let aware := (d.gateOk i p q x c).2
    let y := { y with
      frames := rest, tokens := levelAt r y.tokens y.since now - ((8000 * c : Nat) : Int), since := now,
      deficit := if rest = [] then 0 else if 4 ≤ q then y.deficit - c else y.deficit }
    let x := { x with
      tokens := levelAt pr x.tokens x.since now - ((8000 * pc : Nat) : Int), since := now, starts := (q :: x.starts).take 64,
      turn := if 4 ≤ q ∧ rest = [] then (if q = 31 then 4 else q + 1) else x.turn, granted := x.granted && !(decide (4 ≤ q) && rest.isEmpty) }
    let d := (d.setTmq i p q y).setTmp i p x
    let n := wireLen f.bytes
    let d := (((d.tick (.tmg i) p).count (.tmg i) (4 + p) n).qcount i p q 0 1).qcount i p q 1 n
    let d := if aware then d.qcount i p q 5 1 else d
    ((d.tick (.eth i p) 0).showCells i).emit (.bytes "eth-frame" (4 * i + p) f.bytes)

/-- TM_TRANSMIT: the port transmit buffer can take a frame, and the traffic manager chooses and starts one (R390, R391). At a belay stop no frame
starts (R406). -/
def execTmTransmit (i p : Nat) (blocked : List Nat) (s : State) : Out :=
  let d := s.dev
  let t := Page.tmg i
  if !d.present (.eth i p) || !d.flag (.eth i p) Fld.ETH_STATE_UP || d.stopped t.island then s.same
  else
    let x := d.tmp i p
    let elig := (List.range 32).filter fun q => d.eligible i p q x blocked
    match [0, 1, 2, 3].find? (fun q => elig.contains q && !d.capped i p q x elig) with
    | some q => s.done (d.startFrame i p q)
    | none =>
      let ds : Tbl Nat := ((List.range 28).map fun k => (k + 4, (d.tmq i p (k + 4)).deficit))
      let charge := fun q => match (d.tmq i p q).frames with
        | f :: _ => chargeOf (d.qrecFor i (32 * p + q) f) f.bytes
        | [] => 0
      match dwrr (fun q => (d.qrecNow i (32 * p + q)).weight) charge elig 512 x.turn x.granted ds with
      | none => s.same
      | some (q, ds) =>
        let d := (List.range 28).foldl (fun (d : Device) k =>
          let y := d.tmq i p (k + 4)
          if y.deficit = Tbl.lookD ds (k + 4) 0 then d else d.setTmq i p (k + 4) { y with deficit := Tbl.lookD ds (k + 4) 0 }) d
        s.done ((d.setTmp i p { x with turn := q, granted := true }).startFrame i p q)

/-! ### Policers (R400 to R402) -/

/-- A policer's record. -/
structure PolRec where
  cir : Nat
  pir : Nat
  cbs : Nat
  pbs : Nat
  aware : Bool
  yAct : Nat
  rAct : Nat
  yDscp : Nat
  rDscp : Nat

/-- Policer record `k` under a generation; none while TMG_POL_BASE is not valid. -/
def Device.polRec (d : Device) (i k gen : Nat) : Option PolRec :=
  let p := Page.tmg i
  if d.genVal p Fld.TMG_POL_BASE_VALID 0 gen = 0 then none
  else
    let bs := d.loadedBytes i 5 p gen (32 * k) 32
    let n := fun off len => leNat ((bs.drop off).take len)
    some ⟨n 0 4, n 4 4, n 8 4, n 12 4, bit (n 16 1) 0, bits (n 16 1) 1 2, bits (n 16 1) 3 2, n 17 1, n 18 1⟩

/-- The colours: 0 green, 1 yellow, 2 red. One policer colours a frame of `b` bytes. -/
def Device.police (d : Device) (i k gen prev b : Nat) : Device × Nat × Option PolRec :=
  let key := 4096 * i + k
  match d.polRec i k gen with
  | none =>
    let x := Tbl.lookD d.policers key ⟨0, 0, d.clk.now, [0, 0, 0]⟩
    (d.setPolicers (Tbl.put d.policers key { x with cnts := x.cnts.set 0 (x.cnts.getD 0 0 + 1) }), 0, none)
  | some r =>
    let x := Tbl.lookD d.policers key ⟨8000 * r.cbs, 8000 * r.pbs, d.clk.now, [0, 0, 0]⟩
    let dt := d.clk.now - x.since
    let tc := min (8000 * r.cbs) (x.tc + r.cir * dt)
    let tp := min (8000 * r.pbs) (x.tp + r.pir * dt)
    let c := if r.aware then prev else 0
    let need := 8000 * b
    let out : Nat × Nat × Nat :=
      if c = 2 ∨ tp < need then (2, tc, tp)
      else if c = 1 ∨ tc < need then (1, tc, tp - need)
      else (0, tc - need, tp - need)
    (d.setPolicers (Tbl.put d.policers key ⟨out.2.1, out.2.2, d.clk.now, x.cnts.set out.1 (x.cnts.getD out.1 0 + 1)⟩), out.1, some r)

/-- The policers of a chain in order (R401): whether the frame is dropped, and the DSCP of the last remark. The first policer is colour-blind, since the
colour before it is green. -/
def Device.policeChain (d : Device) (i gen b : Nat) (ks : List Nat) : Device × Bool × Option Nat :=
  let r := ks.foldl (fun (acc : Device × Nat × Bool × Option Nat) k =>
    let (d, c, rec) := acc.1.police i k gen acc.2.1 b
    match rec with
    | none => (d, c, acc.2.2)
    | some r =>
      let drop := (decide (c = 1) && decide (r.yAct = 2)) || (decide (c = 2) && decide (r.rAct = 0))
      let mark := if c = 1 ∧ r.yAct = 1 then some r.yDscp else if c = 2 ∧ r.rAct = 1 then some r.rDscp else acc.2.2.2
      (d, c, acc.2.2.1 || drop, mark)) (d, 0, false, none)
  (r.1, r.2.2)

/-! ### Sampling (R403, R404) -/

/-- One queue's sample. -/
def Device.sampleQueue (d : Device) (i k : Nat) : Device :=
  let p := k / 32
  let q := k % 32
  let x := d.tmq i p q
  let w := satAdd 24 x.written 1
  let hol := match x.frames with
    | f :: _ => min (d.clk.now - f.at_) (2 ^ 32 - 1)
    | [] => 0
  let e : TmSample := ⟨d.cycles (Page.tmg i).island % 2 ^ 32, x.bytes % 2 ^ 32, min x.frames.length 65535, w % 65536, hol⟩
  d.setTmq i p q { x with ring := Tbl.put x.ring x.next e, next := (x.next + 1) % 64, written := w }

/-- TM_SAMPLE: the sampling interval expires, and every queue's depth is recorded (R403). -/
def execTmSample (i : Nat) (s : State) : Out :=
  let d := s.dev
  if !d.present (.tmg i) || decide (d.app (.tmg i) Fld.TMG_SAMPLE_ENABLE = 0) then s.same
  else s.done ((List.range 128).foldl (fun (d : Device) k => d.sampleQueue i k) d)

/-- An entry of a sample ring as 128 bits. -/
def TmSample.word (e : TmSample) : Nat := e.stamp + 2 ^ 32 * e.depth + 2 ^ 64 * e.frames + 2 ^ 80 * e.seq + 2 ^ 96 * e.hol

/-- TMG_SAMP_DATA_READ: a read at 0x108 latches the whole selected entry for its requester (R404). -/
def execTmgSampDataRead (r : Req) (i : Nat) (s : State) : Out :=
  let d := s.dev
  let p := Page.tmg i
  if !d.mayAccess r p then s.done ((d.answer r 0).hostReadDone r)
  else
    let x := d.tmq i (d.selOf p Fld.TMG_SAMP_SEL_PORT r) (d.selOf p Fld.TMG_SAMP_SEL_QUEUE r)
    let w := ((Tbl.look x.ring (d.selOf p Fld.TMG_SAMP_SEL_ENTRY r)).map TmSample.word).getD 0
    let d := d.setReg { d.reg with latch := Tbl.put d.reg.latch ((p.base + 2) * 512 + r.id) (0, w) }
    s.done ((d.answer r (w % 2 ^ 32)).hostReadDone r)

/-! ### Transmit entries (R509) -/

/-- ETH_TX: an Ethernet TX entry hands its frame to the traffic manager, which completes it when the frame is admitted or refused. The statuses of an
entry that names no port, queue or length, or memory outside the grants, are those of R338 (log entry 20). -/
def execEthTx (f q : Nat) (s : State) : Out :=
  let d := s.dev
  match d.oldest f q with
  | none => s.same
  | some x =>
    let a := x.num 0 8
    let len := x.num 8 2
    let port := x.num 10 1
    let cid := x.num 12 2
    let stop := fun (d : Device) st => s.done ((d.dropFetched x.id).completeStatus s.mem x cid st)
    if d.queueTyp f q ≠ 2 then s.same
    else if !(decide (port < 8) && d.present (.eth (port / 4) (port % 4))) || decide (32 ≤ x.num 11 1) || decide (len = 0) || decide (9212 < len) then stop d 0x010F
    else if !d.funcMem f a len then stop d 0x010E
    else
      match d.sourceData s.mem x a len with
      | .notNow => s.same
      | .asked d => s.done d
      | .failed d st => stop d st
      | .ready d bs bad =>
        if !bad.isEmpty then stop d 0x0106
        else
          let d := d.dropFetched x.id
          s.done (d.setTmWait (d.tmWait ++ [⟨port, x.num 11 1, 2, false, bs, some (f, q, x.head, cid), false, 0, d.fld .pkg Fld.PKG_WAVE_EPOCH⟩]))

end Sys2Proof.Machine
end

