-- ==== Sys2Proof/Machine/Rope.lean ====
section
/-!
DEFINITION. The rope (spec/07, R205 to R242, R636, R637): engines and their lists, the check of an entry at fetch, stored blocks with their checks,
alternates and repairs, deliveries at the cluster taps, selections, and the engine faults.
-/
namespace Sys2Proof.Machine

/-! ### Entries (R212, R230) -/

/-- The sixteen words of a list entry. -/
def ropeWords (e : List Byte) : List Nat := (List.range 16).map fun k => leNat ((e.drop (4 * k)).take 4)

/-- A 52-bit address in words `k` and `k + 1`. -/
def rAddr (w : List Nat) (k : Nat) : Nat := w.getD k 0 + dw w (k + 1) 0 20 * 2 ^ 32

def rType (w : List Nat) : Nat := dw w 0 0 4
def rFmtSt (w : List Nat) : Nat := dw w 0 4 4
def rFmtDl (w : List Nat) : Nat := dw w 0 8 4
def rCheck (w : List Nat) : Nat := dw w 0 12 2
def rDst (w : List Nat) : Nat := dw w 0 14 2
def rPrefetch (w : List Nat) : Bool := bit (w.getD 0 0) 16
def rToken (w : List Nat) : Bool := bit (w.getD 0 0) 17
def rChannel (w : List Nat) : Nat := dw w 0 24 8
def rLength (w : List Nat) : Nat := dw w 1 0 24
def rMcast (w : List Nat) : Nat := dw w 1 24 7
def rDstOff (w : List Nat) : Nat := dw w 2 0 21
def rScaleOff (w : List Nat) : Nat := dw w 3 0 21
def rTscale (w : List Nat) : Nat := dw w 3 24 8
def rSrc (w : List Nat) : Nat := rAddr w 4
def rSrcRs (w : List Nat) : Nat := dw w 5 21 6
def rSrcRemote (w : List Nat) : Bool := bit (w.getD 5 0) 27
def rSide (w : List Nat) : Nat := rAddr w 6
def rAlt (w : List Nat) : Nat := rAddr w 8
def rAltRs (w : List Nat) : Nat := dw w 9 21 6
def rAltRemote (w : List Nat) : Bool := bit (w.getD 9 0) 27
def rAltSide (w : List Nat) : Nat := rAddr w 10
def rModel (w : List Nat) : Nat := w.getD 12 0
def rTagBase (w : List Nat) : Nat := w.getD 1 0
def rNSub (w : List Nat) : Nat := dw w 2 0 8
def rSubBase (w : List Nat) : Nat := dw w 3 0 24
def rRec (w : List Nat) : Nat := rAddr w 4
def rSubLen (w : List Nat) : Nat := dw w 6 0 16

/-- Words 13 to 15 and the unlisted bits of a DELIVER or STAGE are zero, and so is what the type does not use (R212, R230). -/
def ropeReservedOk (w : List Nat) : Bool :=
  let z := fun k lo n => decide (dw w k lo n = 0)
  let tail := z 13 0 32 && z 14 0 32 && z 15 0 32
  let common := z 0 18 6 && z 1 31 1 && z 5 20 1 && z 5 28 4 && z 7 20 12 && z 9 20 1 && z 9 28 4 && z 11 20 12 && tail
  match rType w with
  | 1 => common && z 2 21 11 && z 3 21 3
  | 2 => common && z 2 0 32 && z 3 0 32 && z 9 21 7
  | 3 => z 0 4 28 && z 2 8 24 && z 3 24 8 && z 5 20 12 && z 6 16 16 && (List.range 6).all (fun k => z (7 + k) 0 32) && tail
  | _ => z 0 4 28 && (List.range 12).all (fun k => z (1 + k) 0 32) && tail

/-- Element and scale bytes of a segment (R214): zero for a format that is not stored by segments. -/
def segmentOf (fmt : Nat) : Nat × Nat :=
  match fmt with
  | 1 => (4096, 0)
  | 2 => (3968, 124)
  | 3 => (3968, 124)
  | 4 => (3840, 240)
  | 6 => (3840, 240)
  | 7 => (3840, 240)
  | 8 => (3640, 455)
  | _ => (0, 0)

/-- Delivered element and scale bytes of one K2 block (R216). -/
def k2Sizes (fmtDl : Nat) : Nat × Nat :=
  (if fmtDl = 4 ∨ fmtDl = 8 then 64 else 128, if fmtDl = 6 ∨ fmtDl = 8 then 8 else 4)

/-- Delivered element and scale bytes of a DELIVER. -/
def deliveredLen (w : List Nat) : Nat × Nat :=
  if rFmtSt w = 5 then
    let (e, s) := k2Sizes (rFmtDl w)
    (rLength w / 36 * e, rLength w / 36 * s)
  else
    let (e, s) := segmentOf (rFmtSt w)
    (rLength w / 4096 * e, rLength w / 4096 * s)

/-- The pairings of formats, addresses and lengths (R215). -/
def ropePairOk (w : List Nat) : Bool :=
  if rFmtSt w = 5 then
    decide (rLength w ≠ 0 ∧ rLength w % 36 = 0) &&
      (if rType w = 1 then decide (rFmtDl w = 2 ∨ rFmtDl w = 6 ∨ rFmtDl w = 4 ∨ rFmtDl w = 8) else decide (rFmtDl w = 5))
  else
    decide ((segmentOf (rFmtSt w)).1 ≠ 0) && decide (rFmtDl w = rFmtSt w) && decide (rSrc w % 4096 = 0) &&
      decide (rLength w ≠ 0 ∧ rLength w % 4096 = 0)

/-- The delivered ranges lie in the destination and do not overlap (R216). -/
def ropeRangesOk (w : List Nat) : Bool :=
  let (el, sl) := deliveredLen w
  let size := if rDst w = 2 then 2 ^ 21 else 32768
  decide (rDstOff w % 16 = 0) && decide (rDstOff w + el ≤ size) && decide (rScaleOff w + sl ≤ size) &&
    (decide (sl = 0) || decide (rDstOff w + el ≤ rScaleOff w) || decide (rScaleOff w + sl ≤ rDstOff w))

/-- The first stored block of a byte range and how many blocks it touches (R220). -/
def blocksOf (a len : Nat) : Nat × Nat := (a / 4096 * 4096, (a % 4096 + len + 4095) / 4096)

/-- What an engine checks in the words of an entry of a list of `len` entries, in or out of a sub-list (R212, R215, R216, R231, R233); the
multicast table is that of the list's epoch. -/
def ropeWordsOk (w : List Nat) (len : Nat) (inSub mcastValid : Bool) : Bool :=
  ropeReservedOk w &&
  (match rType w with
   | 1 => decide (rCheck w ≠ 3) && decide (rDst w ≠ 3) && ropePairOk w && ropeRangesOk w && mcastValid &&
       !(rPrefetch w && decide (rDst w ≠ 2))
   | 2 => decide (rCheck w ≠ 3) && decide (rDst w = 3) && ropePairOk w && decide (rAlt w % 4096 = 0)
   | 3 => !inSub && decide (1 ≤ rNSub w ∧ rNSub w ≤ 128) && decide (rSubLen w ≠ 0) && decide (rRec w % 64 = 0) &&
       decide (rSubBase w + rNSub w * rSubLen w ≤ len)
   | 15 => !inSub
   | _ => false)

/-! ### Engines -/

/-- The page of a package engine (R205). -/
def ropePage (engine : Nat) : Page := .rope (engine / 48) (engine / 16 % 3)

/-- ROPE_ENG_STATE.E[e] (R239). -/
def engStateField (e : Nat) : Field := { Fld.ROPE_ENG_STATE_E0 with lo := 2 * e }

def Device.engState (d : Device) (engine : Nat) : Nat := d.fld (ropePage engine) (engStateField (engine % 16))

/-- A new state, where the engine is not FENCED. -/
def Device.setEng (d : Device) (engine st : Nat) : Device :=
  if d.engState engine = 3 then d else d.put (ropePage engine) (engStateField (engine % 16)) st

/-- A staged field of the page as it stood when the list began (R209). -/
def RopeCtx.confI (x : RopeCtx) (d : Device) (p : Page) (f : Field) (i : Nat) : Nat := Tbl.lookD x.conf (fkey p f i) (d.rst f)

/-- The data of an engine's cairn entry (R242). -/
def ropeData (key : Nat) (blk : Option Nat) : Nat := key / 2 % 16 + key % 2 * 16 + (blk.getD 0 / 4096) * 256

/-- The index of the context's current entry in its list. -/
def RopeCtx.cur (x : RopeCtx) : Nat :=
  match x.subs with
  | (i, _) :: _ => i
  | [] => x.pos

/-- The context goes on to its next entry. -/
def RopeCtx.advance (x : RopeCtx) : RopeCtx :=
  match x.subs with
  | (i, n) :: rest => { x with subs := if n ≤ 1 then rest else (i + 1, n - 1) :: rest, opened := none }
  | [] => { x with pos := x.pos + 1, opened := none }

def Device.setRope (d : Device) (key : Nat) (x : RopeCtx) : Device := d.setRopes (Tbl.put d.ropes key x)

/-- A delivery leaves the taps. -/
def Device.dropTaps (d : Device) (p : TapDel → Bool) : Device := d.setTapQ (d.tapQ.filter fun t => !p t)

/-- CLU_STATE (R162): delivering, waiting, holding or idle. -/
def Device.cluState (d : Device) (n c : Nat) : Device :=
  let here := d.tapQ.filter fun t => t.die = n && t.cluster = c
  let dst := fun (t : TapDel) => ((Tbl.look d.flows t.flow).map Flow.dst).getD 0
  let st := match here.find? (fun (t : TapDel) => decide (t.st = TapState.delivering)) with
    | some t => (1, dst t)
    | none =>
      match here.find? (fun (t : TapDel) => decide (t.st = TapState.waiting)) with
      | some t => (2, dst t)
      | none => (if here.any (fun (t : TapDel) => decide (t.st = TapState.held)) then 3 else 0, 0)
  (d.put (.clu n c) Fld.CLU_STATE_TAP st.1).put (.clu n c) Fld.CLU_STATE_LB st.2

/-- Every stored byte of the delivery has been sent. -/
def Flow.sent (f : Flow) : Bool := decide (f.elemDone = f.elemLen ∧ f.scaleDone = f.scaleLen)

/-- Remove the deliveries that no tap has any more and that are wholly sent; the entry is then complete. -/
def Device.reapFlow (d : Device) (k : Nat) : Device :=
  match Tbl.look d.flows k with
  | none => d
  | some f =>
    if f.sent && !d.tapQ.any (fun t => t.flow = k) then (d.setFlows (Tbl.del d.flows k)).tick (ropePage f.engine) 2 else d

/-- A list is abandoned (R235): issue stops, writes already issued complete, the stage buffer is released and the context is idle. A delivery
that the engine has not wholly sent ends with what was sent: in the cluster buffer those bytes are written. -/
def Device.abandonList (d : Device) (key : Nat) : Device :=
  let engine := key / 2
  let cut := d.flows.filter fun kv => kv.2.engine = engine && kv.2.ctx = key % 2 && !kv.2.sent
  let d := each (fun d kv =>
    let here := d.tapQ.filter fun t => t.flow = kv.1
    let d := if kv.2.dst = 2 then each (fun d t =>
        if t.st = .coming then d else each (fun d pc => d.st (cbufMem t.die t.cluster + pc.1) pc.2) d kv.2.pieces) d here else d
    let d := d.dropTaps (fun t => t.flow = kv.1)
    each (fun d t => d.cluState t.die t.cluster) (d.setFlows (Tbl.del d.flows kv.1)) here) d cut
  (d.setRopes (Tbl.del d.ropes key)).setEng engine 0

/-- An engine fault (R237): the list of the context stops, the capture, the entry, bit 16 and a belay stop with cause ROPE_FAULT; ROPE_STAGE_UE and
ROPE_INTERNAL fence the engine. `blk`: the block of a ROPE_SRC_LOST (R242). -/
def Device.ropeFault (d : Device) (key code : Nat) (blk : Option Nat := none) : Device :=
  let engine := key / 2
  let p := ropePage engine
  let x := Tbl.look d.ropes key
  let d := (((d.put p Fld.ROPE_FAULT_CODE code).put p Fld.ROPE_FAULT_ENGINE (engine % 16)).put p Fld.ROPE_FAULT_CTX (key % 2)).put p
    Fld.ROPE_FAULT_VALID 1
  let d := d.put p Fld.ROPE_FAULT_ENTRY_INDEX ((x.map RopeCtx.cur).getD 0)
  let d := ((d.cairn p code (ropeData key blk)).errNoCairn p 16 code).irq p 16
  let d := if code = 0x0501 then d.tick p 9 else d
  let d := match x with
    | none => d
    | some x =>
      (match Tbl.look d.parts x.part with
       | none => d
       | some q => d.setParts (Tbl.put d.parts x.part { q with ropeCodes := q.ropeCodes ++ [code], selTimeouts :=
           if code = 0x0504 then q.selTimeouts + 1 else q.selTimeouts }))
  let d := d.abandonList key
  let d := if 0x0505 ≤ code then (d.abandonList (2 * engine + 1 - key % 2)).put p (engStateField (engine % 16)) 3 else d
  d.raiseHw 0x02

/-- The engine may work in a context: it is present and enabled, its page runs, and no stop holds it or its partition (R235, R239). -/
def Device.ropeLive (d : Device) (key : Nat) : Bool :=
  let engine := key / 2
  let p := ropePage engine
  d.present p && decide (d.engState engine ≠ 3) && !d.stopped p.island && !d.flag p Fld.STATUS_HALTED &&
    (match Tbl.look d.ropes key with
     | some x => !d.partStopped x.part
     | none => false)

/-- The key of context `c` of engine `e` of stack `s` of die `n`. -/
def ropeKey (n s e c : Nat) : Nat := 2 * (16 * (3 * n + s) + e % 16) + c % 2

/-- A device address whose whole range has an attribute that the rope may use (R217). -/
def Device.ropeMem (d : Device) (a n : Nat) : Bool := d.inMemory a n

/-- A whole range of HBM (R230). -/
def Device.ropeHbm (d : Device) (a n : Nat) : Bool := decide (d.memKind a = .hbm) && d.inMemory a n

/-- The attributes of an entry (R218): false gives ROPE_ATTR. -/
def Device.ropeAttrOk (d : Device) (p : Page) (x : RopeCtx) (w : List Nat) : Bool :=
  let side := fun (a blocks : Nat) => d.ropeMem (a / 64 * 64) (a % 64 + 4 * blocks)
  let src := fun (remote : Bool) (rs a sd : Nat) =>
    let (b, n) := blocksOf a (rLength w)
    if remote then decide (x.confI d p Fld.ROPE_RSRC_VALID rs = 1)
    else d.ropeMem b (4096 * n) && (decide (rCheck w = 0) || side sd n)
  let (_, n) := blocksOf (rSrc w) (rLength w)
  match rType w with
  | 1 => src (rSrcRemote w) (rSrcRs w) (rSrc w) (rSide w) &&
      (decide (rCheck w ≠ 2) || src (rAltRemote w) (rAltRs w) (rAlt w) (rAltSide w))
  | 2 => src (rSrcRemote w) (rSrcRs w) (rSrc w) (rSide w) && d.ropeMem (rAlt w) (4096 * n) && side (rAltSide w) n
  | 3 => d.ropeHbm (rRec w) 64
  | _ => true

/-- What an engine finds when it fetches the context's current entry. -/
inductive RopeFetch where
  | idle
  | fault (code : Nat)
  | entry (x : RopeCtx) (w : List Nat)
deriving DecidableEq, Repr

/-- The fetch of the context's current entry, with its checks (R212, R218). A context that only prefetches holds at the first entry without
PREFETCH (R233). -/
def Device.ropeFetch (d : Device) (key : Nat) : RopeFetch :=
  let p := ropePage (key / 2)
  match Tbl.look d.ropes key with
  | none => .idle
  | some x =>
    if !d.ropeLive key || x.done || x.opened.isSome then .idle
    else match x.entries[x.cur]? with
      | none => .fault 0x0503
      | some e =>
        let w := ropeWords e
        if x.pre && !(rPrefetch w && decide (rType w = 1 ∨ rType w = 2)) then .idle
        else if !ropeWordsOk w x.entries.length (!x.subs.isEmpty) (decide (x.confI d p Fld.ROPE_MCAST_VALID (rMcast w) = 1)) then .fault 0x0503
        else if !d.ropeAttrOk p x w then .fault 0x0502
        else .entry x w

/-- A fetch command: the fault of an entry that fails its checks, or the entry's beginning where it has the command's type. -/
def ropeBegin (key typ : Nat) (body : Device → RopeCtx → List Nat → Device) (s : State) : Out :=
  match s.dev.ropeFetch key with
  | .idle => s.same
  | .fault code => s.done (s.dev.ropeFault key code)
  | .entry x w => if rType w = typ then s.done (body (s.dev.setEng (key / 2) 1) x w) else s.same

/-- The clusters of a multicast set on a die, with the tile mask (R213). -/
def Device.mcastClusters (d : Device) (p : Page) (x : RopeCtx) (i : Nat) : List Nat :=
  let rm := x.confI d p Fld.ROPE_MCAST_REGION i
  let cm := x.confI d p Fld.ROPE_MCAST_CLUSTER i
  (List.range 128).filter fun c => bit rm (c / 8) && bit cm (c % 8)

/-- ROPE_DELIVER: the engine fetches a DELIVER entry and begins reading it (R212, R216, R225): a delivery is on its way to the tap of every
cluster of the set. -/
def execRopeDeliver (n st e c : Nat) (s : State) : Out :=
  let key := ropeKey n st e c
  ropeBegin key 1 (fun d x w =>
    let p := ropePage (key / 2)
    let (el, sl) := deliveredLen w
    let k := d.nextFlow
    let f : Flow := ⟨key / 2, key % 2, x.part, x.pitch, x.attempt, rDst w, rDstOff w, el, rScaleOff w, sl, 0, 0,
      if rToken w then some (rChannel w) else none, x.confI d p Fld.ROPE_MCAST_TILE (rMcast w), []⟩
    let d := ((d.setFlows (Tbl.put d.flows k f)).setNextFlow (k + 1)).setTapQ
      (d.tapQ ++ (d.mcastClusters p x (rMcast w)).map fun cl => ⟨k, n, cl, .coming⟩)
    d.setRope key { x with opened := some ⟨w, x.cur, 0, (blocksOf (rSrc w) (rLength w)).2, k, [], false⟩ }) s

/-- ROPE_STAGE: the engine fetches a STAGE entry and begins copying its blocks (R227). -/
def execRopeStage (n st e c : Nat) (s : State) : Out :=
  let key := ropeKey n st e c
  ropeBegin key 2 (fun d x w =>
    d.setRope key { x with opened := some ⟨w, x.cur, 0, (blocksOf (rSrc w) (rLength w)).2, 0, [], false⟩ }) s

/-- ROPE_SELECT: the engine fetches a SELECT entry and begins polling its record (R231). -/
def execRopeSelect (n st e c : Nat) (s : State) : Out :=
  let key := ropeKey n st e c
  ropeBegin key 3 (fun d x w =>
    (d.setRope key { x with opened := some ⟨w, x.cur, 0, 0, 0, [], false⟩, poll := none }).setEng (key / 2) 2) s

/-! ### Stored blocks -/

/-- A stored block as a source returns it: its bytes, its side-table entry, and whether a line of either came back poisoned or the remote read
failed. -/
structure BlockRead where
  bytes : List Byte
  side : Nat
  poisoned : Bool
deriving DecidableEq, Repr

/-- The part of block `i` of an entry that is read (R221, R222, R227), as its place in the block and its length: all of it, but for a DELIVER without a
check, which reads only the entry's bytes. -/
def rPart (w : List Nat) (i : Nat) : Nat × Nat :=
  let base := rSrc w / 4096 * 4096 + 4096 * i
  let lo := max (rSrc w) base - base
  if rType w = 1 ∧ rCheck w = 0 then (lo, min (rSrc w + rLength w) (base + 4096) - base - lo) else (0, 4096)

/-- The local reads of a block's part and its side-table entry (R217, R221): counted by attribute, in requests of 512 bytes; the side table is read in
units of 64 bytes. The latency sum takes a free value. -/
def Device.readLocal (d : Device) (m : Memory) (p : Page) (a side : Nat) (part : Nat × Nat) (withSide : Bool) (finds : List (Nat × Nat)) :
    Device × BlockRead :=
  let (d, bad) := d.memReads (a + part.1) part.2 finds
  let d := (d.count p 0 part.2).count p 5 bad.length
  let reqs := (part.2 + 511) / 512
  let d := match d.memKind a with
    | .ddr => d.count p 18 reqs
    | _ => (((d.count p 21 reqs).count p 20 d.freeVal).freeNext).count p 19 (if a / 0x4000000000 = p.die then 0 else reqs)
  let bytes := d.memBytes m a 4096
  if withSide then
    let (d, bad2) := d.memReads (side / 64 * 64) 64 finds
    (d.count p 5 bad2.length, ⟨bytes, d.rdN m side 4, !bad.isEmpty || !bad2.isEmpty⟩)
  else (d, ⟨bytes, 0, !bad.isEmpty⟩)

/-- A read of a remote package's block and side entry (R217): `ans` is what the fabric answers, nothing where the read fails. -/
def Device.readRemote (d : Device) (p : Page) (pkg mkey a : Nat) (part : Nat × Nat) (ans : Option (List Byte × Nat)) : Device × BlockRead :=
  let d := (d.tick p 16).msg "gft-read" pkg [mkey, a + part.1, part.2]
  match ans with
  | some (bs, sd) => ((d.count p 0 part.2), ⟨List.replicate part.1 0 ++ (List.range part.2).map (fun k => bs.getD k 0), sd, false⟩)
  | none => (d.tick p 17, ⟨[], 0, true⟩)

/-- What the checking of a block comes to: the bytes to deliver, or no good copy. -/
structure BlockOutcome where
  dev : Device
  bytes : Option (List Byte)
deriving DecidableEq, Repr

/-- A read from one source of the entry, local or remote; the answers of remote reads are taken in order. -/
def Device.readFrom (d : Device) (m : Memory) (p : Page) (x : RopeCtx) (remote : Bool) (rs a side : Nat) (part : Nat × Nat)
    (withSide : Bool) (finds : List (Nat × Nat)) (answers : List (Option (List Byte × Nat))) :
    Device × BlockRead × List (Option (List Byte × Nat)) :=
  if remote then
    let (d, b) := d.readRemote p (x.confI d p Fld.ROPE_RSRC_PKG rs) (x.confI d p Fld.ROPE_RSRC_KEY rs) a part (answers.headD none)
    (d, b, answers.drop 1)
  else
    let (d, b) := d.readLocal m p a side part withSide finds
    (d, b, answers)

/-- The check of a block (R220). -/
def BlockRead.good (b : BlockRead) (a model : Nat) : Bool := !b.poisoned && decide (blockCrc b.bytes a model = b.side)

/-- A check of a block is counted (ROPE_CNT3), and its failure where no line came poisoned (ROPE_CNT4, R223). -/
def Device.countCheck (d : Device) (p : Page) (b : BlockRead) (ok : Bool) : Device := (d.tick p 3).count p 4 (b2n (!ok && !b.poisoned))

/-- The next stored block of the open entry is read and checked, with retry, alternate and repair (R221 to R223). `transient`: the first read was
damaged on its way. A STAGE has no alternate: its words hold the destination (R212, log entry 34). -/
def Device.checkBlock (d : Device) (m : Memory) (key : Nat) (x : RopeCtx) (w : List Nat) (i : Nat) (finds : List (Nat × Nat))
    (answers : List (Option (List Byte × Nat))) (transient : Bool) : BlockOutcome :=
  let p := ropePage (key / 2)
  let a := rSrc w / 4096 * 4096 + 4096 * i
  let side := rSide w + 4 * i
  let checked := decide (rCheck w ≠ 0)
  let (d, b, answers) := d.readFrom m p x (rSrcRemote w) (rSrcRs w) a side (rPart w i) checked finds answers
  if !checked then
    let d := d.tick p 11
    if b.poisoned then ⟨d, none⟩ else ⟨d, some b.bytes⟩
  else
    let ok1 := b.good a (rModel w) && !transient
    let d := d.countCheck p b ok1
    if ok1 then ⟨d, some b.bytes⟩
    else
      let (d, b, answers) := if b.poisoned then (d, b, answers) else
        let (d, b, answers) := d.readFrom m p x (rSrcRemote w) (rSrcRs w) a side (0, 4096) true [] answers
        (d.countCheck p b (b.good a (rModel w)), b, answers)
      let retried := b.good a (rModel w)
      if retried then ⟨(d.tick p 6).cairn p 0x0510 (ropeData key (some a)), some b.bytes⟩
      else if rCheck w ≠ 2 ∨ rType w = 2 then ⟨d, none⟩
      else
        let alt := rAlt w / 4096 * 4096 + 4096 * i
        let d := (d.tick p 7).cairn p 0x0511 (ropeData key (some a))
        let (d, g, _) := d.readFrom m p x (rAltRemote w) (rAltRs w) alt (rAltSide w + 4 * i) (0, 4096) true finds answers
        let d := d.countCheck p g (g.good alt (rModel w))
        if !g.good alt (rModel w) then ⟨d, none⟩
        else if d.flag p Fld.ROPE_CTRL_REPAIR && !rSrcRemote w && decide (d.memKind a = .hbm) then
          let d := (d.memWrite m a g.bytes).memWrite m side (leBytes 4 (blockCrc g.bytes a (rModel w)))
          ⟨((d.tick p 8).cairn p 0x0512 (ropeData key (some a))).errNoCairn p 17 0x0512, some g.bytes⟩
        else ⟨d, some g.bytes⟩

/-- The K2 blocks of a run of bytes. -/
def k2Split : Nat → List Byte → List (List Byte) × List Byte
  | 0, bs => ([], bs)
  | n + 1, bs => if bs.length < 36 then ([], bs) else
      let (l, r) := k2Split n (bs.drop 36)
      (bs.take 36 :: l, r)

/-- What one stored block delivers (R214, R216, R636, R637): element bytes, scale bytes, the bytes of a K2 block only begun, and the NaN blocks and
saturated entries. -/
structure Delivered where
  elems : List Byte
  scales : List Byte
  carry : List Byte
  nans : Nat
  sats : Nat
deriving DecidableEq, Repr

/-- Convert the part of block `i` that the entry covers. -/
def deliverBlock (w : List Nat) (i : Nat) (bytes carry : List Byte) : Delivered :=
  if rFmtSt w = 5 then
    let base := rSrc w / 4096 * 4096 + 4096 * i
    let lo := max (rSrc w) base - base
    let hi := min (rSrc w + rLength w) (base + 4096) - base
    let run := carry ++ (bytes.drop lo).take (hi - lo)
    let (blocks, rest) := k2Split run.length run
    let p4 := decide (rFmtDl w = 4 ∨ rFmtDl w = 8)
    let outs := blocks.map (k2Deliver p4 (rTscale w))
    ⟨outs.flatMap fun o => packCodes (rFmtDl w) o.codes,
      outs.flatMap fun o => List.replicate (k2Sizes (rFmtDl w)).2 (BitVec.ofNat 8 o.scale), rest,
      (outs.filter K2Out.nan).length, (outs.map K2Out.sats).sum⟩
  else
    let (e, sc) := segmentOf (rFmtSt w)
    ⟨bytes.take e, (bytes.drop e).take sc, [], 0, 0⟩

/-- Pieces join the delivery. -/
def Flow.send (f : Flow) (o : Delivered) : Flow :=
  let put := fun (at_ : Nat) (bs : List Byte) (l : List (Nat × List Byte)) => if bs.isEmpty then l else l ++ [(at_, bs)]
  { f with
    pieces := put (f.scaleOff + f.scaleDone) o.scales (put (f.elemOff + f.elemDone) o.elems f.pieces),
    elemDone := f.elemDone + o.elems.length, scaleDone := f.scaleDone + o.scales.length }

/-- The tokens of a STAGE (R227, R240): one to every tile of its set in a region of the partition, as token writes of the engine. -/
def Device.stageTokens (d : Device) (key : Nat) (x : RopeCtx) (w : List Nat) : Device :=
  let p := ropePage (key / 2)
  let tm := x.confI d p Fld.ROPE_MCAST_TILE (rMcast w)
  if !rToken w || decide (x.confI d p Fld.ROPE_MCAST_VALID (rMcast w) = 0) then d
  else each (fun d c =>
    if d.regionPart p.die (c / 8) = some x.part then
      each (fun d t => d.sendTokens (some x.part) p.die (16 * c + t) (rChannel w) 1 x.pitch x.attempt (key / 2 + 1)) d
        ((List.range 16).filter (bit tm))
    else d) d (d.mcastClusters p x (rMcast w))

/-- ROPE_BLOCK_CHECK: the next stored block of the context's open entry completes in the stage buffer (R221 to R223, R227). `finds`: the lines
in error; `answers`: what remote reads return; `transient`: the first read came damaged. A block checked last and read again by the next entry is
used without another read. -/
def execRopeBlockCheck (n st e c : Nat) (finds : List (Nat × Nat)) (answers : List (Option (List Byte × Nat))) (transient : Bool)
    (s : State) : Out :=
  let d := s.dev
  let key := ropeKey n st e c
  let p := ropePage (key / 2)
  if !d.ropeLive key then s.same
  else match Tbl.look d.ropes key with
    | none => s.same
    | some x =>
      match x.opened with
      | none => s.same
      | some o =>
        let w := o.words
        if o.total ≤ o.next ∨ rType w = 3 then s.same
        else
          let i := o.next
          let a := rSrc w / 4096 * 4096 + 4096 * i
          let tag := a + (if rSrcRemote w then 2 ^ 52 * (1 + rSrcRs w) else 0)
          let kept := match x.lastBlk with
            | some (t, bs) => if t = tag ∧ i = 0 ∧ rCheck w ≠ 0 then some bs else none
            | none => none
          let r : BlockOutcome := match kept with
            | some bs => ⟨d, some bs⟩
            | none => d.checkBlock s.mem key x w i finds answers transient
          match r.bytes with
          | none => s.done (r.dev.ropeFault key 0x0501 (some a))
          | some bytes =>
            let d := r.dev
            let x := if rCheck w ≠ 0 then { x with lastBlk := some (tag, bytes) } else x
            let last := decide (i + 1 = o.total)
            if rType w = 2 then
              let to_ := rAlt w + 4096 * i
              let d := (d.memWrite s.mem to_ bytes).memWrite s.mem (rAltSide w + 4 * i) (leBytes 4 (blockCrc bytes to_ (rModel w)))
              let d := if last then (d.stageTokens key x w).tick p 2 else d
              s.done (d.setRope key (if last then x.advance else { x with opened := some { o with next := i + 1 } }))
            else
              let out := deliverBlock w i bytes o.carry
              let d := (((d.count p 10 out.nans).count p 22 out.sats).count p 1 (out.elems.length + out.scales.length))
              let d := if decide (out.nans ≠ 0) && !o.nanSeen then d.cairn p 0x0513 (ropeData key (some a)) else d
              let d := match Tbl.look d.flows o.flow with
                | none => d
                | some f => d.setFlows (Tbl.put d.flows o.flow (f.send out))
              let o := { o with next := i + 1, carry := out.carry, nanSeen := o.nanSeen || decide (out.nans ≠ 0) }
              let d := d.setRope key (if last then x.advance else { x with opened := some o })
              s.done (if last then d.reapFlow o.flow else d)

/-! ### Selections -/

/-- ROPE_SELECT_POLL: the engine reads the selection record; one whose TAG matches with CONSUMED 0 is accepted, CONSUMED becomes 1 and the
sub-lists of its MASK follow in ascending order (R231). `finds`: the lines in error. -/
def execRopeSelectPoll (n st e c : Nat) (finds : List (Nat × Nat)) (s : State) : Out :=
  let d := s.dev
  let key := ropeKey n st e c
  let p := ropePage (key / 2)
  if !d.ropeLive key then s.same
  else match Tbl.look d.ropes key with
    | none => s.same
    | some x =>
      match x.opened with
      | none => s.same
      | some o =>
        let w := o.words
        if rType w ≠ 3 then s.same
        else
          let (d, bad) := (d.tick p 14).memReads (rRec w) 64 finds
          let x := { x with poll := some (x.poll.getD d.clk.now) }
          if bad = [] ∧ d.rdN s.mem (rRec w) 4 = (rTagBase w + x.pitch) % 2 ^ 32 ∧ d.rdN s.mem (rRec w + 4) 4 = 0 then
            let mask := d.rdN s.mem (rRec w + 8) 16
            let d := d.memWrite s.mem (rRec w + 4) (leBytes 4 1)
            let subs := ((List.range (rNSub w)).filter (bit mask)).map fun k => (rSubBase w + k * rSubLen w, rSubLen w)
            let d := (d.tick p 2).setEng (key / 2) 1
            s.done (d.setRope key { (RopeCtx.advance { x with poll := none }) with subs := subs })
          else s.done (d.setRope key x)

/-- ROPE_SEL_TIMEOUT: no record is accepted in ROPE_SEL_LIMIT after the first poll (R231). -/
def execRopeSelTimeout (n st e c : Nat) (s : State) : Out :=
  let d := s.dev
  let key := ropeKey n st e c
  match Tbl.look d.ropes key with
  | none => s.same
  | some x => if d.ropeLive key && x.poll.isSome then s.done (d.ropeFault key 0x0504) else s.same

/-! ### The end of a list -/

/-- The sequence index of the pitch that follows, where the pitch controller knows it (R263). -/
def Partition.nextSeq (q : Partition) : Option Nat :=
  match q.runs with
  | [] => none
  | r :: rest =>
    if r.done + 1 < r.count then some (r.start + r.done + 1)
    else match rest with
      | [] => none
      | r2 :: _ => if r2.start = r.start + r.count then some r2.start else none

/-- The pitch number of the pitch that follows pitch `p`. -/
def Partition.nextPitch (q : Partition) (p : Nat) : Nat :=
  match q.runs with
  | r :: r2 :: _ => if r.count ≤ r.done + 1 then r2.setPitch.getD ((p + 1) % 2 ^ 32) else (p + 1) % 2 ^ 32
  | _ => (p + 1) % 2 ^ 32

/-- The rope records of the placement in force (R255, R276): those of the fallback body replace the records of the same engine and template. -/
def Image.ropesIn (im : Image) (fb : Option Nat) : List RopeRec :=
  match fb.bind fun r => im.fallbacks.find? fun b => b.region = r with
  | none => im.ropes
  | some b => (im.ropes.filter fun x => !b.ropes.any fun y => y.engine = x.engine && y.template = x.template) ++ b.ropes

/-- The excluded region of a partition on a fallback placement (R277). -/
def Device.fallbackOf (d : Device) (q : Nat) : Option Nat :=
  if d.fldI .pkg Fld.PKG_PART_FALLBACK_ACTIVE q = 1 then some (d.fldI .pkg Fld.PKG_PART_FALLBACK_REGION q) else none

/-- The engine whose lists context `key` runs (R238): its own in context 0, those of the fenced engine it serves in context 1. -/
def Device.servedEngine (d : Device) (key : Nat) : Option Nat :=
  if key % 2 = 0 then some (key / 2) else ((d.ropeMoved.find? fun kv => kv.2 = key / 2)).map Prod.fst

/-- A context begins a list (R209): with the page's applied configuration. -/
def Device.beginList (d : Device) (key part pitch attempt : Nat) (entries : List (List Byte)) (pre : Bool) : Device :=
  let p := ropePage (key / 2)
  (d.setRope key ⟨entries, 0, [], part, pitch, attempt, stagedOf p d.reg.applied, none, none, none, pre, false⟩).setEng (key / 2) 1

/-- After LIST_DONE the engine begins the PREFETCH entries of its list for the next known pitch (R233), if that list opens with any. -/
def Device.prefetch (d : Device) (key : Nat) (x : RopeCtx) : Device :=
  match Tbl.look d.parts x.part, d.servedEngine key with
  | some q, some engine =>
    (match q.image, q.nextSeq with
     | some im, some k =>
       let t := im.seq.getD k 0
       (match (im.ropesIn (d.fallbackOf x.part)).find? fun r => r.engine = engine && r.template = t with
        | some r =>
          if rPrefetch (ropeWords (r.entries.headD [])) then d.beginList key x.part (q.nextPitch x.pitch) 0 r.entries true else d
        | none => d)
     | _, _ => d)
  | _, _ => d

/-- ROPE_END: the engine performs END and, every write and token of the list being acknowledged, reports LIST_DONE (R210). -/
def execRopeEnd (n st e c : Nat) (s : State) : Out :=
  let d := s.dev
  let key := ropeKey n st e c
  let busy := d.flows.any (fun kv => decide (kv.2.engine = key / 2 ∧ kv.2.ctx = key % 2)) ||
    d.mesh.tokens.any (fun t => decide (t.src = key / 2 + 1))
  match d.ropeFetch key with
  | .idle => s.same
  | .fault code => s.done (d.ropeFault key code)
  | .entry x w =>
    if rType w ≠ 15 || busy then s.same
    else
      let d := ((d.setRope key { x with done := true }).setEng (key / 2) 0).tick (ropePage (key / 2)) 2
      let d := match Tbl.look d.parts x.part with
        | none => d
        | some q => d.setParts (Tbl.put d.parts x.part { q with listsDone := insSet key q.listsDone })
      s.done (d.prefetch key x)

/-- ROPE_FAULT: an uncorrectable stage-buffer error or a parity error of the engine's control state (R237). -/
def execRopeFault (n st e c code : Nat) (s : State) : Out :=
  let key := ropeKey n st e c
  if s.dev.present (ropePage (key / 2)) && decide (code = 0x0505 ∨ code = 0x0506) && decide (s.dev.engState (key / 2) ≠ 3) then
    s.done (s.dev.ropeFault key code)
  else s.same

/-- ROPE_ENGINE_READMIT: firmware re-admits a fenced engine that has passed its self-test (R238). -/
def execRopeEngineReadmit (n st e : Nat) (s : State) : Out :=
  let d := s.dev
  let engine := 16 * (3 * n + st) + e % 16
  let p := ropePage engine
  if !d.present p || decide (d.engState engine ≠ 3) then s.same
  else
    let d := d.put p (engStateField (engine % 16)) 0
    match Tbl.look d.ropeMoved engine with
    | none => s.done d
    | some t =>
      let d := d.setRopeMoved (Tbl.del d.ropeMoved engine)
      s.done (if Tbl.has d.ropes (2 * t + 1) then d
        else d.put p Fld.ROPE_CTX1_MASK (d.fld p Fld.ROPE_CTX1_MASK - 2 ^ (t % 16) * b2n (bit (d.fld p Fld.ROPE_CTX1_MASK) (t % 16))))

/-! ### Deliveries at the taps -/

/-- The tiles of a cluster that a delivery names. -/
def Flow.tilesOf (f : Flow) (c : Nat) : List Nat := ((List.range 16).filter (bit f.tiles)).map fun t => 16 * c + t

/-- How the delivery's tags stand against the tiles of a cluster (R225). -/
def Device.flowFit (d : Device) (n c : Nat) (f : Flow) : TagFit := d.tagFit n ((f.tilesOf c).headD (16 * c)) f.pitch f.attempt

/-- A difference as an 8-bit two's-complement value that saturates (R162). -/
def diff8 (w a b : Nat) : Nat :=
  let x : Int := ((a + 2 ^ w - b % 2 ^ w) % 2 ^ w : Nat)
  let x := if 2 ^ (w - 1) ≤ x then x - 2 ^ w else x
  (clampI x (-128) 127 % 256).toNat

/-- A tap discards a delivery (R162, R225, R240): counted by the engine's page and the cluster's, with TAP_DISCARD and bit 17; where its tags are
stale, the engine writes STALE_DROP. -/
def Device.tapDiscard (d : Device) (n c k : Nat) (f : Flow) (stale : Bool) : Device :=
  let i := (f.tilesOf c).headD (16 * c)
  let clu := Page.clu n c
  let d := d.dropTaps (fun t => t.flow = k && t.die = n && t.cluster = c)
  let d := (d.tick (ropePage f.engine) 15).tick clu 2
  let d := d.cairnRgn clu (c / 8) 0x0203 (f.engine % 65536 + diff8 32 f.pitch (d.tilePitch n i) * 2 ^ 16 +
    diff8 8 f.attempt (d.tileAttempt n i) * 2 ^ 24)
  let d := (d.errNoCairn clu 17 0x0203).irq clu 17
  let d := if stale then d.cairn (ropePage f.engine) 0x0514 (ropeData (2 * f.engine + f.ctx) none) else d
  (d.reapFlow k).cluState n c

/-- The delivery's entry in a cluster's tap becomes another state. -/
def Device.setTap (d : Device) (n c k : Nat) (st : TapState) : Device :=
  (d.setTapQ (d.tapQ.map fun t => if t.flow = k && t.die = n && t.cluster = c then { t with st := st } else t)).cluState n c

/-- TAP_DELIVERY_ARRIVE: delivery `k` arrives at the tap of a cluster, behind the same engine's earlier ones: discarded where its region is not in
the partition (R240) or its tags are stale, held where they are early, else it waits for its buffers (R225). -/
def execTapDeliveryArrive (n c k : Nat) (s : State) : Out :=
  let d := s.dev
  match Tbl.look d.flows k with
  | none => s.same
  | some f =>
    let here := fun (t : TapDel) => t.die = n && t.cluster = c && decide (t.st = .coming)
    let first := (d.tapQ.find? fun t => here t && ((Tbl.look d.flows t.flow).map Flow.engine) = some f.engine).map TapDel.flow
    if first ≠ some k ∨ d.stopped (n * 256 + c / 8) then s.same
    else if d.regionPart n (c / 8) ≠ some f.part then s.done (d.tapDiscard n c k f false)
    else if f.dst = 2 then s.done (d.setTap n c k .waiting)
    else match d.flowFit n c f with
      | .equal => s.done (d.setTap n c k .waiting)
      | .early => s.done (d.setTap n c k .held)
      | .stale => s.done (d.tapDiscard n c k f true)

/-- TAP_DELIVERY_BEGIN: the delivery is the first for its landing buffer at the tap, its tiles run its pitch and attempt, and the buffer is EMPTY
in every one of them (R159, R225): they become FILLING. A delivery into the cluster buffer begins at once. -/
def execTapDeliveryBegin (n c k : Nat) (s : State) : Out :=
  let d := s.dev
  match Tbl.look d.flows k with
  | none => s.same
  | some f =>
    let mine := d.tapQ.find? fun t => t.flow = k && t.die = n && t.cluster = c
    let first := (d.tapQ.find? fun t => t.die = n && t.cluster = c && ((Tbl.look d.flows t.flow).map Flow.dst) = some f.dst).map TapDel.flow
    let ready := match mine with
      | some t => decide (t.st = .waiting ∨ t.st = .held)
      | none => false
    if !ready || d.stopped (n * 256 + c / 8) then s.same
    else if f.dst = 2 then s.done (d.setTap n c k .delivering)
    else match d.flowFit n c f with
      | .early => s.same
      | .stale => s.done (d.tapDiscard n c k f true)
      | .equal =>
        if first ≠ some k || (f.tilesOf c).any (fun i => decide (d.lbState n i f.dst ≠ 0)) then s.same
        else s.done ((each (fun d i => d.setLb n i f.dst 1 0) d (f.tilesOf c)).setTap n c k .delivering)

/-- The part of a piece that lies in a range. -/
def pieceIn (lo hi : Nat) (pc : Nat × List Byte) : Option (Nat × List Byte) :=
  let a := max lo pc.1
  let b := min hi (pc.1 + pc.2.length)
  if a < b then some (a, (pc.2.drop (a - pc.1)).take (b - a)) else none

/-- Has every byte that the delivery puts in a range been sent? -/
def Flow.settled (f : Flow) (lo hi : Nat) : Bool :=
  let ok := fun (off len done_ : Nat) => decide (min hi (off + len) ≤ max lo off) || decide (min hi (off + len) ≤ off + done_)
  ok f.elemOff f.elemLen f.elemDone && ok f.scaleOff f.scaleLen f.scaleDone

/-- Does the delivery put bytes in a range? -/
def Flow.touches (f : Flow) (lo hi : Nat) : Bool :=
  decide (max lo f.elemOff < min hi (f.elemOff + f.elemLen)) || decide (max lo f.scaleOff < min hi (f.scaleOff + f.scaleLen))

/-- The tokens of a completed delivery at a tap (R226, R240). -/
def Device.landTokens (d : Device) (m : Memory) (n c : Nat) (f : Flow) : Device :=
  match f.token with
  | none => d
  | some ch =>
    let ts := f.tilesOf c
    let d := d.count (.clu n c) 9 ts.length
    if f.dst = 2 then each (fun d i => d.sendTokens (some f.part) n i ch 1 f.pitch f.attempt (f.engine + 1)) d ts
    else each (fun d i => d.applyTokens m n i ch 1) d ts

/-- The delivery is complete at a tap. -/
def Device.tapDone (d : Device) (m : Memory) (n c k : Nat) (f : Flow) : Device :=
  let clu := Page.clu n c
  let early := decide (f.dst = 2) && decide (d.flowFit n c f ≠ .equal)
  let d := (d.tick clu 0).count clu 10 (b2n early)
  let d := d.dropTaps (fun t => t.flow = k && t.die = n && t.cluster = c)
  ((d.landTokens m n c f).reapFlow k).cluState n c

/-- GRANULE_VALID: every byte of granule `g` of a delivery in progress has been sent, its blocks having passed, and is written: the granule becomes
valid; with the last one the buffer is FULL and the tokens are raised (R226). A delivery into the cluster buffer is written whole. -/
def execGranuleValid (n c k g : Nat) (s : State) : Out :=
  let d := s.dev
  match Tbl.look d.flows k with
  | none => s.same
  | some f =>
    let mine := d.tapQ.any fun t => t.flow = k && t.die = n && t.cluster = c && decide (t.st = .delivering)
    if !mine || d.stopped (n * 256 + c / 8) then s.same
    else if f.dst = 2 then
      (if !f.sent then s.same
       else
         let d := each (fun d pc => d.st (cbufMem n c + pc.1) pc.2) d f.pieces
         s.done ((d.count (.clu n c) 5 (f.elemLen + f.scaleLen)).tapDone s.mem n c k f))
    else if d.flowFit n c f ≠ .equal then s.done (d.tapDiscard n c k f true)
    else
      let lo := 4096 * g
      let hi := lo + 4096
      let ts := f.tilesOf c
      let was := d.lbGran n (ts.headD 0) f.dst
      if 8 ≤ g || bit was g || !f.touches lo hi || !f.settled lo hi then s.same
      else
        let bits_ := setBit was g
        let pcs := f.pieces.filterMap (pieceIn lo hi)
        let last := (List.range 8).all fun h => !f.touches (4096 * h) (4096 * h + 4096) || bit bits_ h
        let d := each (fun d i =>
          let d := each (fun d pc => d.st (tileMem n i + 0x80000 + 0x8000 * f.dst + pc.1) pc.2) d pcs
          d.setLb n i f.dst (if last then 2 else 1) bits_) d ts
        let d := d.count (.clu n c) 1 ((pcs.map fun pc => pc.2.length).sum * ts.length)
        if last then s.done (each (fun d i => d.wake s.mem n i) (d.tapDone s.mem n c k f) ts) else s.done d

end Sys2Proof.Machine
end

