-- ==== Sys2Proof/Machine/Images.lean ====
section
/-!
DEFINITION. Schedule images (spec/08, R246 to R259): the parsing of an image and the checks of a LOAD, in the order of R258.
-/
namespace Sys2Proof.Machine

/-! ### Parsing -/

/-- A little-endian field of a byte string. -/
def u (bs : List Byte) (off n : Nat) : Nat := leNat ((bs.drop off).take n)

/-- Are `n` bytes at an offset zero? -/
def zeros (bs : List Byte) (off n : Nat) : Bool := ((bs.drop off).take n).all fun b => decide (b = 0)

/-- A reader of one record: the record and the bytes after it. -/
abbrev Rd (α : Type) := List Byte → Option (α × List Byte)

/-- Read exactly `n` records that fill the bytes: they, or the number of the record that fails. -/
def readAll {α : Type} (f : Rd α) : Nat → Nat → List Byte → Except Nat (List α)
  | 0, i, bs => if bs.isEmpty then .ok [] else .error i
  | n + 1, i, bs =>
    match f bs with
    | none => .error i
    | some (x, rest) =>
      match readAll f n (i + 1) rest with
      | .ok l => .ok (x :: l)
      | .error k => .error k

/-- Read `n` records from the front of the bytes. -/
def readSome {α : Type} (f : Rd α) : Nat → List Byte → Option (List α × List Byte)
  | 0, bs => some ([], bs)
  | n + 1, bs =>
    match f bs with
    | none => none
    | some (x, rest) => (readSome f n rest).map fun r => (x :: r.1, r.2)

/-- Bytes rounded up to 64. -/
def pad64 (n : Nat) : Nat := (n + 63) / 64 * 64

/-- A rotation record (R249): its template with the strands and their entry addresses. -/
def readRotation : Rd (Nat × List (Nat × Nat)) := fun bs =>
  let n := u bs 2 2
  if n < 1 ∨ 256 < n ∨ bs.length < 4 + 4 * n then none
  else
    let ws := (List.range n).map fun k => u bs (4 + 4 * k) 4
    let strands := ws.map (· % 256)
    if ws.any (fun w => decide (2 ^ 23 ≤ w)) || !strands.Nodup then none
    else some ((u bs 0 2, ws.map fun w => (w % 256, bits w 8 15)), bs.drop (4 + 4 * n))

/-- A TILE record (R249). -/
def readTile : Rd TileRec := fun bs =>
  let parcels := u bs 4 2
  let nd := u bs 6 2
  let rest := bs.drop (32 + pad64 (2 * parcels) + 64 * nd)
  if bs.length < 32 + pad64 (2 * parcels) + 64 * nd ∨ 32768 < parcels ∨ 512 < nd ∨ 7 < u bs 0 1 ∨ 2047 < u bs 2 2 ∨ u bs 10 2 = 0 ∨
      16 < u bs 12 1 ∨ !zeros bs 1 1 ∨ !zeros bs 13 19 then none
  else (readSome readRotation (u bs 8 2) rest).map fun r =>
    (⟨u bs 0 1, u bs 2 2, (bs.drop 32).take (2 * parcels), (bs.drop (32 + pad64 (2 * parcels))).take (64 * nd), u bs 10 2, u bs 12 1, r.1⟩, r.2)

/-- A TEMPLATE entry (R250). -/
def readTemplate : Rd (Nat × Nat) := fun bs =>
  if bs.length < 16 ∨ 3 < u bs 2 2 ∨ !zeros bs 4 12 then none else some ((u bs 0 2, u bs 2 2), bs.drop 16)

/-- A SEQUENCE entry (R250) of an image of `nt` templates. -/
def readSeq (nt : Nat) : Rd Nat := fun bs => if bs.length < 2 ∨ nt ≤ u bs 0 2 then none else some (u bs 0 2, bs.drop 2)

/-- A ROPE record (R251). -/
def readRope (nt : Nat) : Rd RopeRec := fun bs =>
  let n := u bs 4 4
  if bs.length < 16 + 64 * n ∨ nt ≤ u bs 2 2 ∨ !zeros bs 8 8 then none
  else some (⟨u bs 0 2, u bs 2 2, (List.range n).map fun k => (bs.drop (16 + 64 * k)).take 64⟩, bs.drop (16 + 64 * n))

/-- A ROPE_TABLES record (R251). -/
def readTables : Rd RopeTabRec := fun bs =>
  if bs.length < 392 ∨ 3 < u bs 2 1 ∨ !zeros bs 3 5 then none
  else some (⟨u bs 0 2, u bs 2 1, (List.range 32).map fun k => u bs (8 + 8 * k) 8, (List.range 16).map fun k => u bs (264 + 8 * k) 8⟩,
    bs.drop 392)

/-- A HANDSHAKE consumer record with its producers (R254). -/
def readShake (nt : Nat) : Rd ShakeRec := fun bs =>
  let n := u bs 7 1
  if bs.length < 16 + 8 * n ∨ nt ≤ u bs 0 2 then none
  else some (⟨u bs 0 2, u bs 2 1, u bs 3 1, u bs 4 2, u bs 6 1, u bs 8 4, u bs 12 4, (List.range n).map fun k => u bs (16 + 8 * k) 8⟩,
    bs.drop (16 + 8 * n))

/-- A CBUF record (R253). -/
def readCbuf (nt : Nat) : Rd CbufRec := fun bs =>
  if bs.length < 16 ∨ nt ≤ u bs 0 2 ∨ 1 < u bs 2 1 ∨ !zeros bs 3 1 ∨ 128 ≤ u bs 4 2 ∨ 8 ≤ u bs 6 2 then none
  else some (⟨u bs 0 2, u bs 2 1, u bs 4 4, u bs 8 4, u bs 12 4⟩, bs.drop 16)

/-- An AREAS entry (R252). -/
def readArea : Rd AreaRec := fun bs =>
  if bs.length < 32 ∨ !zeros bs 2 6 then none
  else some (⟨u bs 0 1, u bs 1 1, u bs 8 8, u bs 16 8, u bs 24 8⟩, bs.drop 32)

/-- Bytes as numbers. -/
def nats (bs : List Byte) : List Nat := bs.map BitVec.toNat

/-- A fallback body (R255), its sub-records told apart by the open layout. -/
def readBody (nt region : Nat) (body : List Byte) : Option FallbackRec :=
  (Config.fallbackIndex (nats body)).foldlM (fun (acc : FallbackRec) s =>
    let at_ := body.drop s.2.1
    match s.1 with
    | 0 => (readTile at_).map fun r => { acc with tiles := acc.tiles ++ [r.1] }
    | 1 => (readRope nt at_).map fun r => { acc with ropes := acc.ropes ++ [r.1] }
    | 2 => (readTables at_).map fun r => { acc with tables := acc.tables ++ [r.1] }
    | _ => some { acc with takeovers := acc.takeovers ++ [((s.2.2.1 % 8, s.2.2.2.1 % 2048), (s.2.2.2.2.1 % 8, s.2.2.2.2.2 % 2048))] })
    ⟨region, [], [], [], []⟩

/-- A FALLBACK section of `n` index entries (R255). -/
def readFallback (nt n : Nat) (bs : List Byte) : Except Nat (List FallbackRec) :=
  if bs.length < 16 * n then .error 0
  else (List.range n).foldlM (fun (acc : List FallbackRec) k =>
    let e := (bs.drop (16 * k)).take 16
    if 127 < u e 0 1 ∨ !zeros e 9 7 ∨ bs.length < u e 1 4 + u e 5 4 then .error k
    else match readBody nt (u e 0 1) ((bs.drop (u e 1 4)).take (u e 5 4)) with
      | some r => .ok (acc ++ [r])
      | none => .error k) []

/-- The INIT section (R248), by the open layout. -/
def readInit (bs : List Byte) : List InitRec :=
  (Config.initIndex (nats bs)).map fun r => ⟨r.1 % 8, r.2.1 % 2048, r.2.2.1, (bs.drop r.2.2.2.1).take r.2.2.2.2⟩

/-! ### The header, the directory and the sections -/

/-- Why a LOAD fails: its status with the index of the failing section and record, where there is one (R257). -/
structure LoadErr where
  status : Nat
  at_ : Option (Nat × Nat)
deriving DecidableEq, Repr

/-- A section: its place in the directory, type, record count and bytes. -/
structure Sect where
  idx : Nat
  typ : Nat
  count : Nat
  bytes : List Byte
deriving DecidableEq, Repr

/-- The fields of the header that have one value or a range (R247). -/
def headerOk (bs : List Byte) (srcLen : Nat) : Bool :=
  decide (u bs 8 8 = srcLen) && decide (u bs 6 2 < 16) && decide (1 ≤ u bs 24 2 ∧ u bs 24 2 ≤ 4096) && decide (1 ≤ u bs 26 2 ∧ u bs 26 2 ≤ 64) &&
    decide (1 ≤ u bs 28 4 ∧ u bs 28 4 ≤ 65536) && zeros bs 40 212

/-- One directory entry (R248). -/
def readSect (bs : List Byte) (k : Nat) : Except LoadErr Sect :=
  let e := (bs.drop (256 + 32 * k)).take 32
  let off := u e 8 8
  let len := u e 16 8
  if e.length < 32 ∨ !zeros e 2 2 ∨ !zeros e 28 4 ∨ off % 64 ≠ 0 ∨ bs.length < off + len ∨ u e 0 2 = 0 ∨ 10 < u e 0 2 then .error ⟨1, some (k, 0)⟩
  else
    let body := (bs.drop off).take len
    if crc32c body ≠ u e 24 4 then .error ⟨2, some (k, 0)⟩ else .ok ⟨k, u e 0 2, u e 4 4, body⟩

/-- The required types are there once and the others at most once (R248). -/
def sectsOk (ss : List Sect) : Bool :=
  (List.range 10).all fun t =>
    let n := (ss.filter fun s => s.typ = t + 1).length
    if t + 1 = 1 ∨ t + 1 = 2 ∨ t + 1 = 3 ∨ t + 1 = 6 ∨ t + 1 = 8 then decide (n = 1) else decide (n ≤ 1)

/-- The section of a type. -/
def sectOf (ss : List Sect) (t : Nat) : Option Sect := ss.find? fun s => s.typ = t

/-- The records of the section of a type; none where the image has no such section. -/
def recs {α : Type} (ss : List Sect) (t : Nat) (f : Rd α) : Except LoadErr (List α) :=
  match sectOf ss t with
  | none => .ok []
  | some s =>
    match readAll f s.count 0 s.bytes with
    | .ok l => .ok l
    | .error k => .error ⟨1, some (s.idx, k)⟩

/-- The whole image, or its first fault of layout or check value (R258, step 2), where a record appears once for its key (R248). -/
def parseImage (bs : List Byte) (srcLen : Nat) : Except LoadErr (Image × List Sect) := do
  if bs.length < 256 ∨ u bs 0 4 ≠ 0x49535247 ∨ u bs 5 1 ≠ 1 then .error ⟨1, none⟩
  if crc32c (bs.take 252) ≠ u bs 252 4 then .error ⟨2, none⟩
  if !headerOk bs srcLen then .error ⟨1, none⟩
  let nt := u bs 24 2
  let ss ← (List.range (u bs 26 2)).mapM (readSect bs)
  if !sectsOk ss then .error ⟨1, none⟩
  let tiles ← recs ss 1 readTile
  let templates ← recs ss 2 readTemplate
  let seq ← recs ss 3 (readSeq nt)
  let ropes ← recs ss 4 (readRope nt)
  let tables ← recs ss 5 readTables
  let shakes ← recs ss 6 (readShake nt)
  let cbufs ← recs ss 7 (readCbuf nt)
  let areas ← recs ss 8 readArea
  let fallbacks ← (match sectOf ss 9 with
    | none => .ok []
    | some s => (match readFallback nt s.count s.bytes with
      | .ok l => .ok l
      | .error k => .error ⟨1, some (s.idx, k)⟩))
  let inits := match sectOf ss 10 with
    | none => []
    | some s => readInit s.bytes
  if templates.length ≠ nt ∨ seq.length ≠ u bs 28 4 then .error ⟨1, none⟩
  if !(tiles.map fun t => (t.die, t.inst)).Nodup || !(ropes.map fun r => (r.engine, r.template)).Nodup || !(tables.map fun t => (t.stack, t.quarter)).Nodup ||
    !(fallbacks.map FallbackRec.region).Nodup then .error ⟨1, none⟩
  .ok (⟨u bs 6 2, u bs 8 8, u bs 16 4, u bs 20 4, u bs 32 8, templates, seq, tiles, ropes, tables, shakes, cbufs, areas, fallbacks, inits,
    (Config.shake256 (nats bs) 32).map (BitVec.ofNat 8)⟩, ss)

/-! ### Placements -/

/-- A placement of the image: the primary one, or that of a fallback body (R255). -/
structure Placement where
  tiles : List TileRec
  ropes : List RopeRec
  tables : List RopeTabRec
deriving DecidableEq, Repr

/-- Replace the records of the same key. -/
def overlay {α : Type} (same : α → α → Bool) (base new : List α) : List α := (base.filter fun x => !new.any fun y => same x y) ++ new

/-- The placement that excludes a region, or the primary one. -/
def Image.placement (im : Image) (fb : Option Nat) : Placement :=
  match fb.bind fun r => im.fallbacks.find? fun b => b.region = r with
  | none => ⟨im.tiles, im.ropes, im.tables⟩
  | some b =>
    ⟨overlay (fun x y => x.die = y.die && x.inst = y.inst) im.tiles b.tiles,
      overlay (fun x y => x.engine = y.engine && x.template = y.template) im.ropes b.ropes,
      overlay (fun x y => x.stack = y.stack && x.quarter = y.quarter) im.tables b.tables⟩

/-- The primary placement and every fallback placement. -/
def Image.placements (im : Image) : List Placement := im.placement none :: im.fallbacks.map fun b => im.placement (some b.region)

/-- The multicast entry that an engine's MCAST index names in a placement (R251): 0 where no table holds it. -/
def Placement.mcast (pl : Placement) (engine i : Nat) : Nat :=
  match pl.tables.find? fun t => t.stack = engine / 16 && t.quarter = i / 32 with
  | some t => t.mcast.getD (i % 32) 0
  | none => 0

/-! ### The checks of a LOAD (R258) -/

/-- The first record that fails a test. -/
def failAt {α : Type} (ok : α → Bool) (l : List α) : Option Nat := (l.zipIdx.find? fun x => !ok x.1).map Prod.snd

/-- The error of a section's failing record. -/
def secErr (ss : List Sect) (t status : Nat) (k : Option Nat) : Option LoadErr :=
  k.map fun k => ⟨status, (sectOf ss t).map fun s => (s.idx, k)⟩

/-- A tile lies in the partition. -/
def Device.tileIn (d : Device) (q die inst : Nat) : Bool := d.hasTdie die && decide (inst < 2048) && d.regionIn q die (inst / 128)

/-- A T-die has a quarter in the partition. -/
def Device.dieIn (d : Device) (q die : Nat) : Bool := d.hasTdie die && decide (bits (d.qmask q) (4 * die) 4 ≠ 0)

/-- The owner ID of a partition's lease (R57, R236). -/
def partOwner (q : Nat) : Nat := 0x3000 + q

/-- An engine that the image may name: in the partition, enabled, not leased to another (R239, R257). -/
def Device.engineOk (d : Device) (q engine : Nat) : Bool :=
  let p := ropePage engine
  d.dieIn q (engine / 48) && bit (d.fld p Fld.ROPE_ENG_EN_MASK) (engine % 16) &&
    (decide (d.fldI p Fld.LEASE_STATE_STATE (engine % 16) = 0) || decide (d.fldI p Fld.LEASE_OWNER_OWNER (engine % 16) = partOwner q))

/-- The table entries that a list's entries name lie in the partition's own quarters (R251). -/
def Device.entryIndexOk (d : Device) (q die : Nat) (e : List Byte) : Bool :=
  let w := ropeWords e
  let mine := fun (k : Nat) => bit (d.qmask q) (4 * die + k)
  match rType w with
  | 1 => mine (rMcast w / 32) && (!rSrcRemote w || mine (rSrcRs w / 16)) && (!rAltRemote w || decide (rCheck w ≠ 2) || mine (rAltRs w / 16))
  | 2 => (!rToken w || mine (rMcast w / 32)) && (!rSrcRemote w || mine (rSrcRs w / 16))
  | _ => true

/-- A rope record's engine and table entries (SHAPE). -/
def Device.ropeShapeOk (d : Device) (q : Nat) (r : RopeRec) : Bool :=
  d.engineOk q r.engine && r.entries.all (d.entryIndexOk q (r.engine / 48))

/-- A table record's stack and quarter (SHAPE). -/
def Device.tabShapeOk (d : Device) (q : Nat) (t : RopeTabRec) : Bool :=
  d.hasTdie (t.stack / 3) && bit (d.qmask q) (4 * (t.stack / 3) + t.quarter)

/-- SHAPE over every record (R258, step 3). -/
def Device.shapeErr (d : Device) (q : Nat) (im : Image) (ss : List Sect) : Option LoadErr :=
  if im.qmask ≠ d.qmask q then some ⟨3, none⟩
  else
    let tileOk := fun (t : TileRec) => d.tileIn q t.die t.inst
    (secErr ss 1 3 (failAt tileOk im.tiles)).or <|
    (secErr ss 4 3 (failAt (d.ropeShapeOk q) im.ropes)).or <|
    (secErr ss 5 3 (failAt (d.tabShapeOk q) im.tables)).or <|
    (secErr ss 7 3 (failAt (fun c => d.tileIn q (c.cluster / 65536) (c.cluster % 128 * 16)) im.cbufs)).or <|
    (secErr ss 10 3 (failAt (fun t => d.tileIn q t.die t.inst) im.inits)).or <|
    secErr ss 9 3 (failAt (fun b => d.tileIn q (b.region / 16) (b.region % 16 * 128) && b.tiles.all tileOk && b.ropes.all (d.ropeShapeOk q) && b.tables.all (d.tabShapeOk q) &&
      b.takeovers.all fun t => d.tileIn q t.1.1 t.1.2 && d.tileIn q t.2.1 t.2.2) im.fallbacks)

/-- The formats of a tile descriptor (R96). -/
def descFormatOk (x : List Nat) : Bool :=
  match dOp x with
  | 1 => (kSlice (dFmtA x) (dFmtB x)).isSome && vecFmt (dFmtOut x)
  | 2 => if dVfn x = 0x13 then tileFmt (dFmtA x) && tileFmt (dFmtOut x)
      else vecFmt (dFmtA x) && (!vecUsesB (dVfn x) || vecFmt (dFmtB x)) && vecFmt (dFmtOut x)
  | 4 => vecFmt (dFmtA x) && vecFmt (dFmtB x) && vecFmt (dFmtOut x)
  | 5 => decide (dFmtA x = 0) && decide (dFmtOut x = 0)
  | _ => true

/-- The descriptors of a TILE record. -/
def TileRec.descsOk (t : TileRec) : Bool :=
  (List.range (t.descs.length / 64)).all fun k => descFormatOk ((List.range 16).map fun w => u t.descs (64 * k + 4 * w) 4)

/-- The entries that a list's SELECTs name as sub-lists. -/
def subEntries (ws : List (List Nat)) : List Nat :=
  ws.flatMap fun w => if rType w = 3 then (List.range (rNSub w * rSubLen w)).map (rSubBase w + ·) else []

/-- A list under R212, R215, R216, R223, R231 and R233, with the image's model identifier (R247). -/
def RopeRec.descsOk (model : Nat) (r : RopeRec) : Bool :=
  let ws := r.entries.map ropeWords
  let subs := subEntries ws
  ws.any (fun w => decide (rType w = 15)) && ws.zipIdx.all fun x =>
    ropeWordsOk x.1 r.entries.length (subs.contains x.2) true &&
    (decide (rType x.1 ≠ 1 ∨ rCheck x.1 ≠ 2) || decide (rAlt x.1 % 4096 = rSrc x.1 % 4096)) &&
    (decide (3 ≤ rType x.1) || decide (rModel x.1 = model))

/-- DESC_FORMAT (R258, step 4). -/
def descErr (im : Image) (ss : List Sect) : Option LoadErr :=
  (secErr ss 1 4 (failAt TileRec.descsOk im.tiles)).or <|
  (secErr ss 4 4 (failAt (RopeRec.descsOk im.modelId) im.ropes)).or <|
  secErr ss 9 4 (failAt (fun b => b.tiles.all TileRec.descsOk && b.ropes.all (RopeRec.descsOk im.modelId)) im.fallbacks)

/-- An address of the DDR5 range (R288). -/
def ddrAddr (a : Nat) : Bool := decide (0x80000000000 ≤ a ∧ a < 0x100000000000)

/-- A list that names no DDR5 source or destination (R30). -/
def RopeRec.noDdr (r : RopeRec) : Bool :=
  r.entries.all fun e =>
    let w := ropeWords e
    match rType w with
    | 1 => (rSrcRemote w || !ddrAddr (rSrc w)) && (rAltRemote w || decide (rCheck w ≠ 2) || !ddrAddr (rAlt w))
    | 2 => (rSrcRemote w || !ddrAddr (rSrc w)) && !ddrAddr (rAlt w)
    | _ => true

/-- A table without valid remote-source entries (R37, R239). -/
def RopeTabRec.noRemote (t : RopeTabRec) : Bool := t.rsrc.all fun e => !bit e 31

/-- UNIT_ABSENT (R258, step 5). -/
def Device.absentErr (d : Device) (im : Image) (ss : List Sect) : Option LoadErr :=
  let tier := d.cfg.part.noDdr
  let noId := !d.flag .pkg Fld.PKG_ID_VALID
  (secErr ss 4 5 (failAt (fun r => !tier || r.noDdr) im.ropes)).or <|
  (secErr ss 5 5 (failAt (fun t => !noId || t.noRemote) im.tables)).or <|
  (secErr ss 8 5 (failAt (fun a => !tier || decide (a.attr ≠ 1 ∨ a.kind ≠ 5)) im.areas)).or <|
  secErr ss 9 5 (failAt (fun b => b.ropes.all (fun r => !tier || r.noDdr) && b.tables.all (fun t => !noId || t.noRemote)) im.fallbacks)

/-- An area's KIND, ATTR and place (R252). -/
def Device.areaOk (d : Device) (q : Nat) (a : AreaRec) : Bool :=
  decide (1 ≤ a.kind ∧ a.kind ≤ 7) &&
    (match a.attr with
     | 0 => decide (d.memKind a.addr = .hbm) && d.granted q a.addr a.len
     | 1 => decide (d.memKind a.addr = .ddr) && d.granted q a.addr a.len
     | 2 => decide (a.kind = 6) && decide (d.memKind a.addr = .host)
     | _ => false)

/-- AREA (R258, step 6). -/
def Device.areaErr (d : Device) (q : Nat) (im : Image) (ss : List Sect) : Option LoadErr := secErr ss 8 9 (failAt (d.areaOk q) im.areas)

/-- The regions of a die that a placement uses, as a mask: those of the partition (R240) but for the excluded one. -/
def Device.regionMask (d : Device) (q : Nat) (skip : Option Nat) (die : Nat) : Nat :=
  (((List.range 16).filter fun r => d.regionIn q die r && decide (skip ≠ some (16 * die + r))).map (2 ^ ·)).sum

/-- Two multicast sets of a die meet in the regions of a mask (R213, R240); an entry that is not valid delivers nothing (R239). -/
def mcastMeet (mask a b : Nat) : Bool :=
  bit a 63 && bit b 63 && decide (bits a 0 16 &&& bits b 0 16 &&& mask ≠ 0) && decide (bits a 16 8 &&& bits b 16 8 ≠ 0) && decide (bits a 24 16 &&& bits b 24 16 ≠ 0)

/-- The landing-buffer deliveries of a list: die, engine, buffer and multicast entry. -/
def Placement.landings (pl : Placement) (r : RopeRec) : List (Nat × Nat × Nat × Nat) :=
  r.entries.filterMap fun e =>
    let w := ropeWords e
    if rType w = 1 ∧ rDst w ≤ 1 then some (r.engine / 48, r.engine, rDst w, pl.mcast r.engine (rMcast w)) else none

/-- R211 and R230 for a record of a placement against every other list of its template. `mask`: the regions in use of each die. -/
def Placement.ropeOk (pl : Placement) (mask : Nat → Nat) (r : RopeRec) : Bool :=
  let mine := pl.landings r
  let recOf := fun (x : RopeRec) => (x.entries.map ropeWords).filterMap fun w => if rType w = 3 then some (rRec w) else none
  (recOf r).Nodup &&
  pl.ropes.all fun o =>
    decide (o.template ≠ r.template) || decide (o.engine = r.engine) ||
      ((pl.landings o).all (fun y => mine.all fun x => decide (x.1 ≠ y.1) || decide (x.2.2.1 ≠ y.2.2.1) || !mcastMeet (mask x.1) x.2.2.2 y.2.2.2) &&
        (recOf o).all fun a => !(recOf r).contains a)

/-- Two cluster-buffer areas meet. -/
def CbufRec.meets (a b : CbufRec) : Bool := decide (a.cluster = b.cluster) && decide (a.off < b.off + b.len) && decide (b.off < a.off + a.len)

/-- R234 for a record against the pitches that follow one another in the sequence. -/
def Image.cbufOk (im : Image) (c : CbufRec) : Bool :=
  c.use ≠ 1 || (im.seq.zip (im.seq.drop 1)).all fun tt =>
    decide (tt.2 ≠ c.template) || im.cbufs.all fun o => decide (o.use ≠ 0) || decide (o.template ≠ tt.1) || !c.meets o

/-- ROPE_CONFLICT (R258, step 7). -/
def Device.conflictErr (d : Device) (q : Nat) (im : Image) (ss : List Sect) : Option LoadErr :=
  (secErr ss 4 6 (failAt ((im.placement none).ropeOk (d.regionMask q none)) im.ropes)).or <|
  (secErr ss 7 6 (failAt im.cbufOk im.cbufs)).or <|
  secErr ss 9 6 (failAt (fun b => let pl := im.placement (some b.region); pl.ropes.all (pl.ropeOk (d.regionMask q (some b.region)))) im.fallbacks)

/-- A producer record (R254). -/
def Device.producerOk (d : Device) (q x : Nat) : Bool :=
  let kind := bits x 0 8
  match kind with
  | 0 => d.tileIn q (bits x 8 8) (bits x 16 16)
  | 1 => d.dieIn q (bits x 16 16 / 48) && decide (bits x 8 8 = bits x 16 16 / 48) && decide (bits x 32 8 = 0)
  | 2 => decide (bits x 30 2 = 0) && decide (bits x 32 8 = 0)
  | 3 => decide (bits x 21 11 = 0) && decide (bits x 32 8 = 0)
  | 4 => decide (bits x 19 13 = 0) && decide (bits x 32 8 = 0)
  | _ => false

/-- A consumer record (R254). -/
def Device.shakeOk (d : Device) (q : Nat) (im : Image) (x : ShakeRec) : Bool :=
  d.tileIn q x.die x.inst && decide (x.consumed ≤ x.raised ∧ x.raised ≤ 65535) && decide (1 ≤ x.prods.length) &&
    decide ((x.prods.map fun p => bits p 40 24).sum = x.raised) && x.prods.all (d.producerOk q) &&
    decide ((im.shakes.filter fun y => y.template = x.template && y.die = x.die && y.inst = x.inst && y.chan = x.chan).length = 1)

/-- HANDSHAKE (R258, step 8). -/
def Device.shakeErr (d : Device) (q : Nat) (im : Image) (ss : List Sect) : Option LoadErr := secErr ss 6 7 (failAt (d.shakeOk q im) im.shakes)

/-- PITCH_TOO_LONG (R258, step 9). -/
def longErr (im : Image) (ss : List Sect) : Option LoadErr := secErr ss 2 8 (failAt (fun t => decide (1 ≤ t.1 ∧ t.1 ≤ 1000)) im.templates)

/-- The checks of R258 from step 2 on, in order: the image, or the first failure. -/
def Device.checkImage (d : Device) (q : Nat) (bs : List Byte) (srcLen : Nat) : Except LoadErr Image :=
  match parseImage bs srcLen with
  | .error e => .error e
  | .ok (im, ss) =>
    match (d.shapeErr q im ss).or <| (descErr im ss).or <| (d.absentErr im ss).or <| (d.areaErr q im ss).or <|
        (d.conflictErr q im ss).or <| (d.shakeErr q im ss).or (longErr im ss) with
    | some e => .error e
    | none => .ok im

end Sys2Proof.Machine
end

