-- ==== Sys2Proof/Machine/Pitch.lean ====
section
/-!
DEFINITION. Pitch controllers (spec/08, R256 to R277): the compute commands, the boundary, the start of a pitch, replays, and partitions that
fail.
-/
namespace Sys2Proof.Machine

/-! ### Partitions -/

def Device.part (d : Device) (q : Nat) : Option Partition := Tbl.look d.parts q
def Device.setPart (d : Device) (q : Nat) (x : Partition) : Device := d.setParts (Tbl.put d.parts q x)

/-- PKG_PART_STATE.STATE (R277). -/
def Device.pState (d : Device) (q : Nat) : Nat := d.fldI .pkg Fld.PKG_PART_STATE_STATE q
def Device.setPState (d : Device) (q v : Nat) : Device := d.putI .pkg Fld.PKG_PART_STATE_STATE q v

/-- PKG_PART_PITCH (R277). -/
def Device.pPitch (d : Device) (q : Nat) : Nat := d.fldI .pkg Fld.PKG_PART_PITCH q

/-- A compute completion (R257): CID, STATUS, the handle or pitch, DETAIL. -/
def Device.computeDone (d : Device) (m : Memory) (func queue head cid status value detail : Nat) : Device :=
  d.complete m func queue head (leBytes 2 cid ++ leBytes 2 status ++ leBytes 4 value ++ leBytes 4 detail)

/-- The number of the last committed pitch; before any commit, a free value. -/
def Device.lastPitchOf (d : Device) (x : Partition) : Device × Nat :=
  match x.lastPitch with
  | some p => (d, p)
  | none => (d.freeNext, d.freeVal)

/-- The completion of a RUN, or of one of its pitches (R257). -/
def Device.runDone (d : Device) (m : Memory) (q : Nat) (x : Partition) (r : RunCmd) (status : Nat) : Device :=
  let (d, p) := d.lastPitchOf x
  d.computeDone m r.func r.queue r.head r.cid status p (((d.fldI .pkg Fld.PKG_PART_STATE_ATTEMPT q + 1) % 256) + r.replays * 256)

/-- A page is committed by firmware at once (R259): the shadow group takes effect as the next generation, and the commit ends (R52, R54). -/
def Device.fwCommit (d : Device) (p : Page) : Device :=
  let d := d.put p Fld.COMMIT_TARGET (d.fld p Fld.GEN_APPLIED + 1)
  let d := d.installCopy p (stagedOf p d.reg.cur)
  (d.put p Fld.GEN_OLDEST (d.fld p Fld.GEN_APPLIED)).endCommit p 1 0

/-- A checked, unarmed pending copy takes effect at its boundary (R54, R55). -/
def Device.boundaryCommit (d : Device) (p : Page) : Device :=
  match d.commitOf p with
  | some c => if c.checked && !d.flag p Fld.COMMIT_ARMED && d.oneGeneration p then (d.installCopy p c.copy).endCommit p 1 0 else d
  | none => d

/-- The package engines of a partition: those whose lease it holds (R236). -/
def Device.enginesOf (d : Device) (q : Nat) : List Nat :=
  (d.model.tdies.flatMap fun n => (List.range 48).map (48 * n + ·)).filter fun e =>
    decide (d.fldI (ropePage e) Fld.LEASE_OWNER_OWNER (e % 16) = partOwner q) && decide (d.fldI (ropePage e) Fld.LEASE_STATE_STATE (e % 16) = 1)

/-- The engines that an image uses, in any placement. -/
def Image.engines (im : Image) : List Nat :=
  (im.placements.flatMap fun pl => pl.ropes.map RopeRec.engine).foldl (fun l e => insSet e l) []

/-- Firmware takes the rope leases of an image (R236). -/
def Device.takeRopes (d : Device) (q : Nat) (im : Image) : Device :=
  each (fun d e => if d.fldI (ropePage e) Fld.LEASE_STATE_STATE (e % 16) = 0 then d.takeLease (ropePage e) (e % 16) (partOwner q) else d) d im.engines

/-- The lists of a partition are abandoned (R235). -/
def Device.abandonLists (d : Device) (q : Nat) : Device :=
  each (fun d kv => if kv.2.part = q then d.abandonList kv.1 else d) d d.ropes

/-- The tiles of a region. -/
def regionTiles (r : Nat) : List Nat := (List.range 128).map (128 * r + ·)

/-- Every dirty bit of the partition's tiles clears (R132). -/
def Device.clearDirty (d : Device) (q : Nat) : Device :=
  d.setTiles (Tbl.mapV d.tiles fun k t => if d.regionIn q (k / 2048) (k % 2048 / 128) then { t with dirty := [] } else t)

/-! ### Failure of a partition (R274, R275) -/

/-- The partition enters FAILED: the pending RUN completes with its status, every later one with ABORTED, STOPs with SUCCESS, its lists are abandoned and
the partition's lease watchdog fires (R550). -/
def Device.failPart (d : Device) (m : Memory) (q status : Nat) : Device :=
  match d.part q with
  | none => d
  | some x =>
    let d := match x.runs with
      | [] => d
      | r :: rest => each (fun d r => d.runDone m q x r 0x0013) (d.runDone m q x r status) rest
    let d := each (fun d st =>
      let (d, p) := d.lastPitchOf x
      d.computeDone m st.1 st.2.1 st.2.2.1 st.2.2.2 0 p 0) d x.stops
    let d := ((d.setPart q { x with runs := [], stops := [], doneRegions := [], committed := [], listsDone := [] }).abandonLists q).clearDirty q
    let d := (d.setPState q 7).orphanLeases (fun o => decide (o = partOwner q))
    each (fun d nr => if d.flag (.rgn nr.1 nr.2) Fld.STATUS_FENCED then d else d.put (.rgn nr.1 nr.2) Fld.RGN_STATE_STATE 0) d (d.regionsOf q)

/-! ### The start of a pitch (R149, R161, R164, R209) -/

/-- A tile begins a pitch or an attempt (R149, R161 step 5, R164): pitch number, rotation, strands and token counters. -/
def Device.startTile (d : Device) (n i pitch t : Nat) (rec_ : Option TileRec) : Device :=
  let p := Page.tile n i
  let rot := (((rec_.map TileRec.rots).getD []).find? fun r => r.1 = t).map Prod.snd |>.getD []
  let x := d.tile n i
  let strands := rot.foldl (fun s r => Tbl.put s r.1 (Strand.fresh r.2 .ready)) ([] : Tbl Strand)
  let d := d.setTile n i { x with
    strands := strands, rotation := rot, last := none, chans := [], arrQ := [], vecQ := [], movQ := [], unacked := [], sigs := [], seen := [] }
  let d := (((d.put p Fld.TILE_PITCH_NUM_PITCH pitch).put p Fld.TILE_RUN_RUNNING 1).put p Fld.TILE_RUN_DONE (b2n rot.isEmpty)).put p
    Fld.TILE_RUN_READY strands.length
  d.anchorForget n i (2 * d.bankSize n i) 262144

/-- Tokens in a region's hold whose pitch and attempt have come are applied; those that have become stale are discarded (R189). -/
def Device.applyHeld (d : Device) (m : Memory) (n r : Nat) : Device :=
  let held := d.heldTokens n r
  let d := d.setHeldTokens n r (held.filter fun w => decide (d.tagFit n w.inst w.pitch w.attempt = .early))
  each (fun d w => match d.tagFit n w.inst w.pitch w.attempt with
    | .equal => d.applyTokens m n w.inst w.chan w.count
    | .early => d
    | .stale => d.staleToken w) d held

/-- A region begins a pitch or an attempt. -/
def Device.startRegion (d : Device) (m : Memory) (pl : Placement) (n r pitch attempt t : Nat) : Device :=
  let p := Page.rgn n r
  if d.flag p Fld.STATUS_FENCED then d
  else
    let d := ((d.put p Fld.RGN_STATE_STATE 1).put p Fld.RGN_HOLD_ATTEMPT attempt).put p Fld.RGN_PITCH_PITCH pitch
    let d := if attempt = 0 then d else d.tick p 1
    let d := each (fun d i => d.startTile n i pitch t (pl.tiles.find? fun x => x.die = n && x.inst = i)) d (regionTiles r)
    let d := d.applyHeld m n r
    if d.regionTilesDone n r then d.regionDone n r else d

/-- The context that runs the lists of an engine (R238): its own context 0, or context 1 of the engine that serves it while it is fenced. -/
def Device.listKey (d : Device) (engine : Nat) : Option Nat :=
  if d.engState engine = 3 then (Tbl.look d.ropeMoved engine).map fun t => 2 * t + 1 else some (2 * engine)

/-- An engine begins its list of the pitch (R209, R233, R239): prefetched entries stand where the context began them for this pitch; for an
engine disabled after loading, ROPE_DESC is recorded and the list is not run. -/
def Device.startList (d : Device) (q pitch attempt : Nat) (r : RopeRec) : Device :=
  match d.listKey r.engine with
  | none => d
  | some key =>
    if !bit (d.fld (ropePage (key / 2)) Fld.ROPE_ENG_EN_MASK) (key / 2 % 16) then
      (d.beginList key q pitch attempt r.entries false).ropeFault key 0x0503
    else match Tbl.look d.ropes key with
      | some x => if x.pre ∧ x.pitch = pitch ∧ attempt = 0 then d.setRope key { x with pre := false } else d.beginList key q pitch attempt r.entries false
      | none => d.beginList key q pitch attempt r.entries false

/-- The pitch controller sends START(p, a, template) and the regions and engines begin it (R266 steps 5 and 6). -/
def Device.sendStart (d : Device) (m : Memory) (q : Nat) (x : Partition) (im : Image) (pitch attempt seq : Nat) : Device :=
  let t := im.seq.getD seq 0
  let pl := im.placement (d.fallbackOf q)
  let d := ((d.putI .pkg Fld.PKG_PART_STATE_ATTEMPT q attempt).putI .pkg Fld.PKG_PART_STATE_TEMPLATE q t).putI .pkg Fld.PKG_PART_PITCH q pitch
  let d := (d.putI .pkg Fld.PKG_PART_SEQ q seq).setPState q (if attempt = 0 then 3 else 5)
  let d := d.setPart q { x with
    doneRegions := [], committed := [], listsDone := [], faulted := [], ropeCodes := [], selTimeouts := if attempt = 0 then 0 else x.selTimeouts, epoch := d.fld .pkg Fld.PKG_WAVE_EPOCH }
  let d := each (fun d nr => d.startRegion m pl nr.1 nr.2 pitch attempt t) d (d.regionsOf q)
  let d := each (fun d kv => if kv.2.part = q && !(kv.2.pre && decide (kv.2.pitch = pitch ∧ attempt = 0)) then d.abandonList kv.1 else d) d d.ropes
  each (fun d r => d.startList q pitch attempt r) d (pl.ropes.filter fun r => r.template = t)

/-! ### The boundary (R265 to R267) -/

/-- The regions of the partition that run its pitches: those not fenced. -/
def Device.liveRegions (d : Device) (q : Nat) : List (Nat × Nat) := (d.regionsOf q).filter fun nr => !d.flag (.rgn nr.1 nr.2) Fld.STATUS_FENCED

/-- The contexts that hold a list of the running pitch. -/
def Device.pitchLists (d : Device) (q : Nat) : List Nat :=
  (d.ropes.filter fun kv => kv.2.part = q && !kv.2.pre).map Prod.fst

/-- The belay copy of the previous pitch is acknowledged, where it must be (R265, R559, R560). -/
def Device.copyReady (d : Device) (q pitch : Nat) (x : Partition) : Bool :=
  let st := d.fldI .bly Fld.BLY_COPY_STATE_STATE q
  let wait := match x.seedFinal with
    | some f => decide ((f + 1) % 2 ^ 32 = pitch)
    | none => false
  if (decide (st = 2 ∨ st = 4) || wait) && x.lastPitch.isSome then
    decide ((d.fldI .bly Fld.BLY_COPY_ACKED_PITCH q + 1) % 2 ^ 32 = pitch)
  else true

/-- Every condition of R265. -/
def Device.boundaryMet (d : Device) (q : Nat) (x : Partition) : Bool :=
  (d.liveRegions q).all (fun nr => x.doneRegions.contains (16 * nr.1 + nr.2)) && x.faulted.isEmpty && x.ropeCodes.isEmpty &&
    (d.pitchLists q).all (fun k => x.listsDone.contains k) &&
    decide (x.gftOpen = 0) && d.copyReady q (d.pPitch q) x

/-- PITCH_COMMIT: every condition of R265 holds and the pitch controller sends COMMIT (R266 step 3, R267). -/
def execPitchCommit (q : Nat) (s : State) : Out :=
  let d := s.dev
  match d.part q with
  | none => s.same
  | some x =>
    if (d.pState q ≠ 3 ∧ d.pState q ≠ 5) || d.partStopped q || d.packageStopped || !d.boundaryMet q x then s.same
    else s.done ((d.setPState q 4).setPart q { x with
      committed := [], lastPitch := some (d.pPitch q), lastSeq := d.fldI .pkg Fld.PKG_PART_SEQ q })

/-- A page copies its counters into its last-pitch registers and resets them at one instant (R270). -/
def Device.capture (d : Device) (p : Page) (pitch attempts : Nat) : Device :=
  let d := each (fun d i => d.putI p Fld.LAST_CNT i (if i < p.counters then d.cntOf p i else 0)) d (List.range 24)
  ((((d.put p Fld.LAST_PITCH_PITCH pitch).put p Fld.LAST_INFO_ATTEMPTS attempts).put p Fld.LAST_INFO_VALID 1)).zeroCounters p

/-- A tile at the pitch commit (R132, R161): its dirty lines' bank bits are inverted, its dirty bits clear, its counters are captured, its staged
commit applies, and its landing buffers become EMPTY. -/
def Device.commitTile (d : Device) (n i pitch attempts : Nat) : Device :=
  let p := Page.tile n i
  let t := d.tile n i
  let d := if t.dirty = [] ∧ t.lastDirty = [] then d else d.setTile n i { t with
    bank := t.dirty.foldl (fun b l => if b.contains l then delSet l b else insSet l b) t.bank,
    dirty := [], lastDirty := t.dirty, seedDirty := t.dirty.foldl (fun b l => insSet l b) t.seedDirty }
  let d := ((d.capture p pitch attempts).boundaryCommit p).put p Fld.TILE_RUN_RUNNING 0
  let d := if d.flag p Fld.TILE_CAIRN_EN_COMMIT then d.cairnTile n i 0x0112 0x100 t.dirty.length else d
  if d.lbState n i 0 = 0 ∧ d.lbState n i 1 = 0 then d else d.emptyLbs n i

/-- The write logs of a partition begin anew at its commit (R555). -/
def Device.turnLogs (d : Device) (q : Nat) : Device :=
  d.setWlogs (Tbl.mapV d.wlogs fun k l => if k % 32 = q then ⟨[], false, l.runs, l.ovf, l.union ++ l.runs, l.unionOvf || l.ovf⟩ else l)

/-- REGION_COMMIT: a region controller receives COMMIT (R161 steps 1 to 4, R266 step 4): it applies it in one cycle and answers COMMITTED. A region whose
clock or supply is lost cannot apply it: bit 18, and its partition's committed state is lost (R163, R267). -/
def execRegionCommit (n r : Nat) (s : State) : Out :=
  let d := s.dev
  let p := Page.rgn n r
  match d.regionPart n r with
  | none => s.same
  | some q =>
    match d.part q with
    | none => s.same
    | some x =>
      if !d.present p || d.pState q ≠ 4 || x.committed.contains (16 * n + r) || d.partStopped q || d.packageStopped then s.same
      else if !(d.isl p.island).on then
        s.done ((((d.cairnRgn p r 0x0306 (d.pPitch q)).errNoCairn p 18 0x0306).irq p 18).setPart q { x with lost := true })
      else
        let pitch := d.pPitch q
        let attempts := d.fldI .pkg Fld.PKG_PART_STATE_ATTEMPT q + 1
        let lines := ((regionTiles r).map fun i => (d.tile n i).dirty.length).sum
        let d := each (fun d i => d.commitTile n i pitch attempts) d (regionTiles r)
        let d := each (fun d c => (d.capture (.clu n c) pitch attempts).boundaryCommit (.clu n c)) d ((List.range 8).map (8 * r + ·))
        let d := (((d.capture p pitch attempts).boundaryCommit p).tick p 0).count p 14 lines
        let done_ := insSet (16 * n + r) x.committed
        let d := d.setPart q { x with committed := done_, gateAt := d.clk.now }
        s.done (if (d.regionsOf q).all fun nr => done_.contains (16 * nr.1 + nr.2) then d.turnLogs q else d)

/-- The coupled set's gate (R561): every other member's report and the partition's own acknowledgement of pitch `c` are there. -/
def Device.gateOpen (d : Device) (q c : Nat) (x : Partition) : Bool :=
  decide (d.fldI .bly Fld.BLY_COPY_STATE_STATE q ≠ 2) || x.coupled.isEmpty ||
    (decide (d.fldI .bly Fld.BLY_COPY_ACKED_PITCH q = c) && x.coupled.all fun m => decide (m.2 = c) || behind c m.2)

/-- The RUNs after a commit: what completes, and what remains (R261, R264); a pitch that ran again after a step back counts in none. -/
def Device.afterCommit (d : Device) (m : Memory) (q : Nat) (x : Partition) : Device × Partition :=
  match x.runs with
  | [] => (d, { x with redo := false })
  | r :: rest =>
    let r := if x.redo then r else { r with done := r.done + 1 }
    let ended := !x.redo && decide (r.count ≤ r.done)
    let d := if ended || (r.each && !x.redo) then d.runDone m q x r 0 else d
    let d := if r.stop && !ended then d.runDone m q x r 0x0013 else d
    let keep := if ended || r.stop then rest else r :: rest
    let d := each (fun d r => d.runDone m q x r 0x0013) d (rest.filter RunCmd.stop)
    let d := each (fun d st =>
      let (d, p) := d.lastPitchOf x
      d.computeDone m st.1 st.2.1 st.2.2.1 st.2.2.2 0 p 0) d x.stops
    (d, { x with runs := keep.filter fun r => !r.stop, stops := [], redo := false })

/-! ### DEVICE_FATAL (R570) -/

/-- PKG_FW_STATE.STATE. -/
def Device.fwState (d : Device) : Nat := d.fld .pkg Fld.PKG_FW_STATE_STATE
def Device.setFwState (d : Device) (v : Nat) : Device := d.put .pkg Fld.PKG_FW_STATE_STATE v

/-- This member's record of the crew, and its designated partner (R38). -/
def Device.crewRec (d : Device) (k : Nat) : Option CrewRec := d.crew.members.find? fun x => decide (x.index = k)
def Device.ownIndex (d : Device) : Nat := d.fld .pkg Fld.PKG_CREW_INDEX
def Device.partner (d : Device) : Option Nat := (d.crewRec d.ownIndex).bind CrewRec.partner

/-- Where a member's class 0 connections of R349 go: the stroke package and its partner. -/
def Device.pulseTo (d : Device) : List Nat :=
  if d.crew.members = [] then [] else ((if d.ownIndex = 0 then [] else [0]) ++ (d.partner.toList.filter (· ≠ 0)))

/-- CID of an entry of a queue type (R256, R334, R421, R509, R535). -/
def Fetched.cid (x : Fetched) (typ : Nat) : Nat := if typ = 2 then x.num 12 2 else x.num 2 2

/-- Every pending entry completes with a status, where its queue can still be written. -/
def Device.failPending (d : Device) (m : Memory) (status : Nat) : Device :=
  let d := each (fun (d : Device) (x : Fetched) =>
    let typ := d.queueTyp x.func x.queue
    if typ = 3 then d.dropFetched x.id else (d.dropFetched x.id).completeStatus m x (x.cid typ) status) d d.fetched
  let d := each (fun (d : Device) (kv : Nat × Partition) => each (fun (d : Device) r => d.runDone m kv.1 kv.2 r status) d kv.2.runs) d d.parts
  let d := each (fun (d : Device) (b : BlockCmd) => d.complete m b.func b.queue b.head (leBytes 2 b.cid ++ leBytes 2 status)) d d.blocks
  let d := each (fun (d : Device) (kv : Nat × Conn) => each (fun (d : Device) (r : GftReq) => match r.client with
    | .queue f q head cid _ => d.complete m f q head (leBytes 2 cid ++ leBytes 2 status)
    | _ => d) d kv.2.reqs) d d.conns
  ((d.setBlocks []).setParts (Tbl.mapV d.parts fun _ x => { x with runs := [] })).setConns
    (Tbl.mapV d.conns fun _ c => { c with reqs := [], msgs := [] })

/-- DEVICE_FATAL (R570, R573): the event and entry, the package belay, FATAL to the crew, the fence with the entries that still complete, FW_STATE
FATAL. -/
def Device.fatal (d : Device) (m : Memory) (cause i : Nat) : Device :=
  if d.fwState = 15 then d
  else
    let st := d.stamp 0xF00
    let d := (d.event m 0 0x1503 0xF00 [cause, i, st % 2 ^ 32, st / 2 ^ 32]).cairnPkg 0x1503 (cause + i * 2 ^ 32)
    let d := each (fun (d : Device) k => d.msg "FATAL" k [d.fld .pkg Fld.PKG_CREW_INDEX, cause]) (d.raiseHw 0x0B) d.pulseTo
    (d.setFwState 15).failPending m 0x1801

/-! ### Placements (R23, R24, R272, R276) -/

/-- A TILE record is loaded (R249, R259): its program and descriptors, through the region load path. -/
def Device.loadTile (d : Device) (t : TileRec) : Device :=
  let d := d.count (rgnOf t.die t.inst) 8 (t.prog.length + t.descs.length)
  let d := if t.prog = [] then d else d.st (tileMem t.die t.inst) t.prog
  if t.descs = [] then d else d.st (tileMem t.die t.inst + 0x10000) t.descs

/-- A ROPE_TABLES record is written in its page (R251). -/
def Device.loadTables (d : Device) (t : RopeTabRec) : Device :=
  let p := Page.rope (t.stack / 3) (t.stack % 3)
  let d := each (fun d e =>
      let i := 32 * t.quarter + e.2
      (((d.putI p Fld.ROPE_MCAST_REGION i (bits e.1 0 16)).putI p Fld.ROPE_MCAST_CLUSTER i (bits e.1 16 8)).putI p
        Fld.ROPE_MCAST_TILE i (bits e.1 24 16)).putI p Fld.ROPE_MCAST_VALID i (bits e.1 63 1)) d t.mcast.zipIdx
  each (fun d e =>
      let i := 16 * t.quarter + e.2
      ((d.putI p Fld.ROPE_RSRC_PKG i (bits e.1 0 14)).putI p Fld.ROPE_RSRC_VALID i (bits e.1 31 1)).putI p
        Fld.ROPE_RSRC_KEY i (bits e.1 32 32)) d t.rsrc.zipIdx

/-- The tables of a placement are written and their pages committed (R259, R272). -/
def Device.loadAllTables (d : Device) (ts : List RopeTabRec) : Device :=
  let d := each Device.loadTables d ts
  each (fun d st => d.fwCommit (.rope (st / 3) (st % 3))) d ((ts.map RopeTabRec.stack).foldl (fun l e => insSet e l) [])

/-- The committed lines of an excluded tile are copied to the tile that takes over its anchors (R243, R272 step 4), into its committed banks. -/
def Device.takeover (d : Device) (m : Memory) (tk : (Nat × Nat) × (Nat × Nat)) : Device :=
  let (n, i) := tk.1
  let (n', i') := tk.2
  let p := d.bankSize n i
  let p' := d.bankSize n' i'
  each (fun d l =>
    let b := (d.tile n i).bankOf l
    let b' := (d.tile n' i').bankOf l
    (d.count (rgnOf n' i') 8 256).anchorSt n' i' (b' * p' + 256 * l) (d.anchorBytes m n i (b * p + 256 * l) 256)) d (List.range (min p p' / 256))

/-- The fenced regions on which the placement in force still has tiles, other than the one that it excludes (R23, R24). -/
def Device.unplaced (d : Device) (q : Nat) (im : Image) : List Nat :=
  ((d.regionsOf q).filter fun nr => d.flag (.rgn nr.1 nr.2) Fld.STATUS_FENCED && decide (d.fallbackOf q ≠ some (16 * nr.1 + nr.2)) &&
    (im.placement (d.fallbackOf q)).tiles.any fun t => decide (t.die = nr.1 ∧ t.inst / 128 = nr.2)).map fun nr => 16 * nr.1 + nr.2

/-- The placement on which the partition can go on when some regions can no longer hold work: the one in force, or, for one region and with none
excluded yet, its fallback placement; else PLACEMENT_EXHAUSTED (R23, R24, R276). -/
def Device.placeFor (d : Device) (q : Nat) (im : Image) (out : List Nat) : Except Nat (Option Nat) :=
  match out, d.fallbackOf q with
  | [], fb => .ok fb
  | [r], none => if im.fallbacks.any fun b => b.region = r then .ok (some r) else .error 0x0010
  | _, _ => .error 0x0010

/-- The placement of the next pitch, by the regions that stand fenced (R23, R24, R275). -/
def Device.placePlan (d : Device) (q : Nat) (im : Image) : Except Nat (Option Nat) := d.placeFor q im (d.unplaced q im)

/-- The partition goes over to a placement (R272 steps 3 and 4, R276): a fallback placement's records are loaded and its anchors copied. -/
def Device.switchTo (d : Device) (m : Memory) (q : Nat) (im : Image) (fb : Option Nat) : Device :=
  if fb = d.fallbackOf q then d
  else match fb.bind fun r => im.fallbacks.find? fun b => b.region = r with
    | none => d
    | some b =>
      let d := (d.putI .pkg Fld.PKG_PART_FALLBACK_REGION q b.region).putI .pkg Fld.PKG_PART_FALLBACK_ACTIVE q 1
      each (fun d t => d.takeover m t) ((each Device.loadTile d b.tiles).loadAllTables b.tables) b.takeovers

/-- A partition cannot go on: with PLACEMENT_EXHAUSTED and a designated partner the crew recovers as for the loss of the package, else the partition
fails with its status (R24, R275). -/
def Device.endPart (d : Device) (m : Memory) (q status : Nat) : Device :=
  if status = 0x0010 ∧ d.partner.isSome then d.fatal m 0x06 0 else d.failPart m q status

/-- The next pitch of the first pending RUN begins, on the fallback placement of a region that was fenced between pitches, or the partition stands
READY with its regions idle (R23, R261). -/
def Device.nextPitch (d : Device) (m : Memory) (q : Nat) (x : Partition) : Device :=
  match x.image, x.runs with
  | some im, r :: _ =>
    if x.park ≠ 0 then ((each (fun d nr => if d.flag (.rgn nr.1 nr.2) Fld.STATUS_FENCED then d else d.put (.rgn nr.1 nr.2) Fld.RGN_STATE_STATE 0) d (d.regionsOf q)).setPart q { x with runs := if x.park = 1 then x.runs else [] }).setPState q 6
    else
      let pitch := if r.done = 0 then r.setPitch.getD (d.pPitch q) else d.pPitch q
      (match d.placePlan q im with
       | .error status => (d.setPart q x).endPart m q status
       | .ok fb => (d.switchTo m q im fb).sendStart m q x im pitch 0 (r.start + r.done))
  | _, _ =>
    each (fun d nr => if d.flag (.rgn nr.1 nr.2) Fld.STATUS_FENCED then d else d.put (.rgn nr.1 nr.2) Fld.RGN_STATE_STATE 0)
      ((d.setPart q x).setPState q (if x.park ≠ 0 then 6 else 2)) (d.regionsOf q)

/-! ### Replay (R272 to R276) -/

/-- What a replay must do with the faults of the pitch (R24, R237, R274): go on on a placement, or end with a status. -/
def Device.replayPlan (d : Device) (q : Nat) (x : Partition) (im : Image) : Except Nat (Option Nat) :=
  match d.placeFor q im ((x.faulted.filter fun r => decide (d.fallbackOf q ≠ some r)).foldl (fun l r => insSet r l) (d.unplaced q im)) with
  | .error status => .error status
  | .ok fb =>
    if x.ropeCodes.any (fun c => decide (c = 0x0502 ∨ c = 0x0503)) || decide (2 ≤ x.selTimeouts) then .error 0x0011
    else if 3 ≤ d.fldI .pkg Fld.PKG_PART_STATE_ATTEMPT q then .error 0x0012
    else .ok fb

/-- Writes in flight into the partition's tiles are discarded with the abandoned attempt, and counted (R585). -/
def Device.dropMesh (d : Device) (q : Nat) : Device :=
  let mine := fun (w : MeshWrite) => d.regionIn q w.die (w.inst / 128)
  let d := d.count .bly 3 (d.mesh.writes.filter mine).length
  d.setMesh { d.mesh with writes := d.mesh.writes.filter fun w => !mine w }

/-- The running pitch is abandoned (R272 step 2): lists, dirty bits, landing buffers and writes in flight. -/
def Device.abandonPitch (d : Device) (q : Nat) : Device :=
  let d := ((d.abandonLists q).clearDirty q).dropMesh q
  each (fun d kv => if d.regionIn q (kv.1 / 2048) (kv.1 % 2048 / 128) then d.emptyLbs (kv.1 / 2048) (kv.1 % 2048) else d) d d.tiles

/-- Firmware lets the hardware's stop go, whose cause it has dealt with (R585). -/
def Device.endHwStop (d : Device) : Device :=
  if d.fldI .bly Fld.BLY_HOLD_CTL_ACTIVE 0 = 1 then d.releaseSlot 0 else d

/-- The partition's pitch runs again from its start (R272 steps 2 to 5, R273): on the fallback placement of a region that has just been
fenced, after loading its records and copying its anchors, else on the placement in force. -/
def Device.replayPitch (d : Device) (m : Memory) (q : Nat) : Device :=
  match d.part q with
  | none => d
  | some x =>
    match x.image, x.runs with
    | some im, r :: rest =>
      let plan := d.replayPlan q x im
      let d := (d.abandonPitch q).endHwStop
      (match plan with
       | .error status => d.endPart m q status
       | .ok fb =>
         let d := d.switchTo m q im fb
         let x := { x with runs := { r with replays := r.replays + 1 } :: rest }
         d.sendStart m q x im (d.pPitch q) (d.fldI .pkg Fld.PKG_PART_STATE_ATTEMPT q + 1) (d.fldI .pkg Fld.PKG_PART_SEQ q))
    | _, _ => d

/-- The partition runs a pitch that can be replayed: not yet committed, and the cut of the stop that its fault raised is complete. -/
def Device.replayable (d : Device) (q : Nat) : Bool :=
  decide (d.pState q = 3 ∨ d.pState q = 5) && (decide (d.fldI .bly Fld.BLY_HOLD_CTL_ACTIVE 0 = 0) || decide (d.fldI .bly Fld.BLY_HOLD_STAT_DONE 0 = 1))

/-- PITCH_REPLAY: firmware replays the partition's pitch (R272 to R276). `blocks`: weight blocks that firmware first restores from the image's storage copy
(R223, R237), as device address and bytes. -/
def execPitchReplay (q : Nat) (blocks : List (Nat × List Byte)) (s : State) : Out :=
  let d := s.dev
  match d.part q with
  | none => s.same
  | some x =>
    if !d.replayable q || x.image.isNone || x.runs.isEmpty || x.lost || !d.dutyUp 2 then s.same
    else
      let d := each (fun d b => if d.inMemory b.1 b.2.length then d.memWrite s.mem b.1 b.2 else d) d blocks
      s.done (d.replayPitch s.mem q)

/-- ROPE_LIST_MOVE: firmware loads a fenced engine's lists into context 1 of the lowest-numbered engine of the same stack that the same partition
leases with context 1 free, and replays; without one, PLACEMENT_EXHAUSTED (R238). -/
def execRopeListMove (n st e : Nat) (s : State) : Out :=
  let d := s.dev
  let engine := 16 * (3 * n + st) + e % 16
  let p := ropePage engine
  let owner := d.fldI p Fld.LEASE_OWNER_OWNER (e % 16)
  let q := owner % 4096
  if !d.present p || d.engState engine ≠ 3 || decide (owner / 4096 ≠ 3) || Tbl.has d.ropeMoved engine || !d.replayable q || !d.dutyUp 2 then s.same
  else
    let free := fun (k : Nat) =>
      let g := 16 * (3 * n + st) + k
      decide (g ≠ engine) && decide (d.fldI p Fld.LEASE_OWNER_OWNER k = owner) && decide (d.engState g ≠ 3) && !bit (d.fld p Fld.ROPE_CTX1_MASK) k
    match (List.range 16).find? free with
    | none =>
      let d := (d.abandonPitch q).endHwStop
      s.done (d.endPart s.mem q 0x0010)
    | some k =>
      let d := (d.setRopeMoved (Tbl.put d.ropeMoved engine (16 * (3 * n + st) + k))).put p Fld.ROPE_CTX1_MASK (setBit (d.fld p Fld.ROPE_CTX1_MASK) k)
      s.done (d.replayPitch s.mem q)

/-! ### The compute commands (R256 to R264) -/

/-- FLAGS of a compute entry (R256). -/
def cEach (x : Fetched) : Bool := bit (x.num 1 1) 0
def cSetPitch (x : Fetched) : Bool := bit (x.num 1 1) 1
def cSrcHost (x : Fetched) : Bool := bit (x.num 1 1) 2
def cResume (x : Fetched) : Bool := bit (x.num 1 1) 3

/-- The bytes that the opcode does not use are zero (R256). -/
def computeReservedOk (x : Fetched) : Bool :=
  let z := fun off len => zeros x.entry off len
  let flags := x.num 1 1
  z 5 3 && z 28 36 &&
    (match x.num 0 1 with
     | 1 => decide (flags = 0 ∨ flags = 4) && z 24 4
     | 2 => decide (flags % 16 = flags) && !cSrcHost x && (cSetPitch x || z 16 4) && z 20 4
     | 3 => decide (flags = 0) && z 8 16
     | 4 => decide (flags = 0) && z 8 16
     | _ => false)

/-- BAD_ENTRY (R257, R512): an unknown opcode, a tag without a partition or of another function, or reserved bytes. -/
def Device.badEntry (d : Device) (x : Fetched) : Bool :=
  !computeReservedOk x ||
    (match d.part (x.num 4 1) with
     | some p => decide (p.func ≠ x.func)
     | none => true)

/-- The oldest entry of a compute queue where its opcode is the command's, or where it is a bad entry that any of the four commands refuses. -/
def computeCmd (op f qn : Nat) (body : Device → Fetched → Partition → Out) (s : State) : Out :=
  let d := s.dev
  match d.oldest f qn with
  | none => s.same
  | some x =>
    if d.queueTyp f qn ≠ 1 then s.same
    else if d.badEntry x then
      (if x.num 0 1 = op ∨ x.num 0 1 = 0 ∨ 4 < x.num 0 1 then
         s.done ((d.dropFetched x.id).computeDone s.mem f qn x.head (x.num 2 2) 0x000D 0 0)
       else s.same)
    else if x.num 0 1 ≠ op then s.same
    else match d.part (x.num 4 1) with
      | some p => body d x p
      | none => s.same

/-- The completion of a command with the last committed pitch. -/
def Device.simpleDone (d : Device) (m : Memory) (x : Fetched) (p : Partition) (status : Nat) : Device :=
  let (d, v) := (d.dropFetched x.id).lastPitchOf p
  d.computeDone m x.func x.queue x.head (x.num 2 2) status v 0

/-- A failed LOAD: DETAIL holds the section and record where the failure has them, else a free value (R257). -/
def Device.loadFail (d : Device) (m : Memory) (x : Fetched) (e : LoadErr) : Device :=
  let d := d.dropFetched x.id
  match e.at_ with
  | some (sec, rec_) => d.computeDone m x.func x.queue x.head (x.num 2 2) e.status 0 (sec % 256 + rec_ * 256)
  | none => (d.computeDone m x.func x.queue x.head (x.num 2 2) e.status 0 d.freeVal).freeNext

/-- A change of the bank size clears the line map and leaves both banks undefined (R129). -/
def Device.setSplit (d : Device) (n i v : Nat) : Device :=
  let p := Page.tile n i
  if d.fld p Fld.TILE_ANCHOR_SPLIT_PAIR_8K = v then d
  else
    let d := d.put p Fld.TILE_ANCHOR_SPLIT_PAIR_8K v
    let d := d.setTile n i { d.tile n i with bank := [], dirty := [], lastDirty := [], seedDirty := [] }
    d.anchorForget n i 0 (2 * d.bankSize n i)

/-- An INIT record goes to bank 0 of a pair area (R248). -/
def Device.loadInit (d : Device) (r : InitRec) : Device :=
  (d.count (rgnOf r.die r.inst) 8 r.bytes.length).anchorSt r.die r.inst r.off r.bytes

/-- An image that has passed is loaded (R259). -/
def Device.loadImage (d : Device) (q : Nat) (x : Partition) (im : Image) : Device :=
  let d := each (fun d (t : TileRec) => d.setSplit t.die t.inst t.pair8k) d im.tiles
  let d := each Device.loadInit (each Device.loadTile d im.tiles) im.inits
  let d := each (fun d (t : TileRec) =>
    let p := Page.tile t.die t.inst
    ((d.put p Fld.TILE_STALL_LIMIT_LIMIT t.stallLimit).put p Fld.TILE_SR_KEY_KEY im.srKey).fwCommit p) d im.tiles
  let d := (d.loadAllTables im.tables).takeRopes q im
  let d := each (fun d nr => each (fun d i => d.put (.tile nr.1 i) Fld.LAST_INFO_VALID 0) d (regionTiles nr.2)) d (d.regionsOf q)
  let loads := x.loads % (2 ^ 24 - 1) + 1
  let d := ((d.putI .pkg Fld.PKG_PART_HANDLE q (q * 2 ^ 24 + loads)).putI .pkg Fld.PKG_PART_PITCH q 0).putI .pkg Fld.PKG_PART_COMMITS q 0
  let d := (((d.putI .pkg Fld.PKG_PART_FALLBACK_ACTIVE q 0).putI .pkg Fld.PKG_PART_FALLBACK_REGION q 0).putI .pkg Fld.PKG_PART_SEQ q 0).setPState q 2
  d.setPart q { x with image := some im, loads := loads, lastPitch := none, faulted := [], ropeCodes := [], selTimeouts := 0, lost := false }

/-- LOAD: the compute queue's oldest entry loads a schedule image, or fails with the first check that it breaks (R256 to R259). An image in host memory is read
first (R475). -/
def execLoad (f qn : Nat) (s : State) : Out :=
  computeCmd 1 f qn (fun d x p =>
    let q := x.num 4 1
    let src := if cSrcHost x then hostMem + x.num 8 8 else x.num 8 8
    let len := x.num 16 8
    if p.image.isSome then s.done (d.loadFail s.mem x ⟨0x000A, none⟩)
    else if !isHost src && !(d.inMemory src len && d.granted q src len) then s.done (d.loadFail s.mem x ⟨0x0009, none⟩)
    else match d.sourceData s.mem x src len with
      | .notNow => s.same
      | .asked d => s.done (d.setPState q 1)
      | .failed d st => s.done ((d.loadFail s.mem x ⟨st, none⟩).setPState q 0)
      | .ready d bs _ =>
        match d.checkImage q bs len with
        | .error e => s.done ((d.loadFail s.mem x e).setPState q 0)
        | .ok im =>
          let d := d.loadImage q p im
          s.done ((d.dropFetched x.id).computeDone s.mem f qn x.head (x.num 2 2) 0 (d.fldI .pkg Fld.PKG_PART_HANDLE q) 0)) s

/-- The handle names the partition's image. -/
def Device.handleOk (d : Device) (x : Fetched) (p : Partition) : Bool :=
  p.image.isSome && decide (x.num 24 4 = d.fldI .pkg Fld.PKG_PART_HANDLE (x.num 4 1)) && decide (x.num 24 4 ≠ 0)

/-- A crew's recovery ends with the RUN that takes its pitches up again at r + 1 (R567 step 7): CREW_RECOVERED (R573). -/
def Device.crewRecovered (d : Device) (m : Memory) (r : RunCmd) : Device :=
  match d.crew.recovering with
  | none => d
  | some (k, rp) =>
    if r.setPitch ≠ some ((rp + 1) % 2 ^ 32) then d
    else
      let us := (d.clk.now - Tbl.lookD d.crew.lost k d.clk.now) / 1000
      ((d.setCrew { d.crew with recovering := none }).event m 0 0x1811 0xF00 [k, rp, us]).cairnPkg 0x1811 (packFields [k, rp, us])

/-- RUN: pitches of the sequence are queued behind those pending; RESUME returns a FAILED partition to READY (R256, R261, R275). -/
def execRun (f qn : Nat) (s : State) : Out :=
  computeCmd 2 f qn (fun d x p =>
    let q := x.num 4 1
    let count := x.num 12 4
    match p.image with
    | none => s.done (d.simpleDone s.mem x p 0x000B)
    | some im =>
      if !d.handleOk x p then s.done (d.simpleDone s.mem x p 0x000B)
      else if count = 0 then s.done (d.simpleDone s.mem x p 0x000D)
      else if im.seq.length < x.num 8 4 + count then s.done (d.simpleDone s.mem x p 0x000C)
      else
        let r : RunCmd := ⟨f, qn, x.head, x.num 2 2, x.num 8 4, count, cEach x, if cSetPitch x then some (x.num 16 4) else none, 0, 0, false⟩
        let queued := fun (d : Device) => ((d.dropFetched x.id).setPart q { p with runs := p.runs ++ [r] }).crewRecovered s.mem r
        if d.pState q = 7 then
          if !cResume x then s.done (d.simpleDone s.mem x p 0x0013)
          else
            match d.placePlan q im with
            | .error status => s.done (d.simpleDone s.mem x p status)
            | .ok _ => s.done ((queued (d.takeRopes q im)).setPState q 2)
        else s.done (queued d)) s

/-- STOP: the running pitch commits and later pitches end ABORTED (R264). -/
def execStop (f qn : Nat) (s : State) : Out :=
  computeCmd 3 f qn (fun d x p =>
    let q := x.num 4 1
    if !d.handleOk x p then s.done (d.simpleDone s.mem x p 0x000B)
    else if d.pState q = 3 ∨ d.pState q = 4 ∨ d.pState q = 5 then
      s.done ((d.dropFetched x.id).setPart q { p with
        runs := p.runs.map (fun r => { r with stop := true }), stops := p.stops ++ [(f, qn, x.head, x.num 2 2)] })
    else
      let d := each (fun d r => d.runDone s.mem q p r 0x0013) d p.runs
      s.done ((d.setPart q { p with runs := [] }).simpleDone s.mem x p 0)) s

/-- The leases, the image and what it left in the partition's record go (R260). -/
def Device.unloadImage (d : Device) (q : Nat) (p : Partition) : Device :=
  let d := each (fun d e => d.releaseLease (ropePage e) (e % 16)) (d.abandonLists q) (d.enginesOf q)
  let d := each (fun d e => match Tbl.look d.ropeMoved e with
    | some t => (d.setRopeMoved (Tbl.del d.ropeMoved e)).put (ropePage t) Fld.ROPE_CTX1_MASK
        (d.fld (ropePage t) Fld.ROPE_CTX1_MASK - 2 ^ (t % 16) * b2n (bit (d.fld (ropePage t) Fld.ROPE_CTX1_MASK) (t % 16)))
    | none => d) d ((p.image.map Image.engines).getD [])
  let d := (d.putI .pkg Fld.PKG_PART_HANDLE q 0).putI .pkg Fld.PKG_PART_FALLBACK_ACTIVE q 0
  (((d.putI .pkg Fld.PKG_PART_FALLBACK_REGION q 0).putI .bly Fld.BLY_COPY_STATE_STATE q 0).setPState q 0).setPart q
    { p with image := none, runs := [], stops := [], coupled := [], seedFinal := none, lost := false, redo := false }

/-- UNLOAD: the partition's leases and image area are released when no RUN is pending (R260). -/
def execUnload (f qn : Nat) (s : State) : Out :=
  computeCmd 4 f qn (fun d x p =>
    let q := x.num 4 1
    if !d.handleOk x p then s.done (d.simpleDone s.mem x p 0x000B)
    else if !p.runs.isEmpty then s.done (d.simpleDone s.mem x p 0x000A)
    else s.done ((d.unloadImage q p).simpleDone s.mem x p 0)) s

end Sys2Proof.Machine
end

