-- ==== Sys2Proof/Machine/Startup.lean ====
section
/-!
DEFINITION. Supplies, resets, clocks, power and temperature (spec/20, R603 to R633; R73, R74, R479, R480): the fundamental and the warm reset as
operations that every cause shares.
-/
namespace Sys2Proof.Machine

/-! ### What resets keep -/

/-- Is a BAR0 offset in the pages of the package-global island (PKG_, BLY_, TEL_)? -/
def globalAt (b : Nat) : Bool := decide (Page.pkg.base ≤ b ∧ b < Page.pkg.base + 0x3000)

/-- Is a field key one of a page's given fields? -/
def keyIn (p : Page) (fs : List Field) (k : Nat) : Bool :=
  fs.any fun f => (List.range (f.count * f.count2)).any fun i => decide (fkey p f i = k)

/-- Every field of a table whose offset lies in a range. -/
def fieldsAt (t : List Field) (lo hi : Nat) : List Field := t.filter fun f => decide (lo ≤ f.off ∧ f.off < hi)

/-- The fields of the package-global pages that a warm reset clears: firmware's state and versions (R617), host loss, the wave, the crew that firmware
formed, training, BAR4_WIN and MBR_SEL (R480), partitions (R541), and holds and copies (log entry 23). -/
def warmClears (k : Nat) : Bool :=
  keyIn .pkg (([Fld.PKG_FW_STATE_STATE, Fld.PKG_FW_STATE_DETAIL, Fld.PKG_FW_VER_MIN_MAJOR, Fld.PKG_FW_VER_MAX_MAJOR, Fld.PKG_FW_VER_MINOR,
      Fld.PKG_FW_VER_AGREED, Fld.PKG_HOST_STATE_CAUSE, Fld.PKG_HOST_STATE_DETACHED, Fld.PKG_HOST_STATE_REMAIN_S, Fld.PKG_WAVE_BUSY] : List Field) ++
    [Fld.PKG_CREW_SIZE, Fld.PKG_CREW_INDEX, Fld.PKG_CREW_MASK_MEMBERS, Fld.PKG_TRAIN_PHASE, Fld.PKG_TRAIN_PRESERVED, Fld.PKG_TRAIN_FENCED,
      Fld.PKG_TRAIN_D2D_DEGRADED, Fld.PKG_TRAIN_FAILED, Fld.PKG_MBR_SEL_SLICE, Fld.PKG_BAR4_WIN_ENABLE, Fld.PKG_BAR4_WIN_BASE] ++
    [Fld.PKG_PART_STATE_STATE, Fld.PKG_PART_STATE_ATTEMPT, Fld.PKG_PART_STATE_TEMPLATE, Fld.PKG_PART_PITCH, Fld.PKG_PART_SEQ, Fld.PKG_PART_HANDLE,
      Fld.PKG_PART_QMASK, Fld.PKG_PART_FALLBACK_REGION, Fld.PKG_PART_FALLBACK_ACTIVE, Fld.PKG_PART_BOUNDARY, Fld.PKG_PART_COMMITS]) k ||
  keyIn .bly ([Fld.BLY_HOLD_CTL_ACTIVE, Fld.BLY_HOLD_CTL_KIND, Fld.BLY_HOLD_CTL_SCOPE, Fld.BLY_HOLD_CTL_PART, Fld.BLY_HOLD_CTL_DISCARD,
      Fld.BLY_HOLD_CTL_CAUSE, Fld.BLY_HOLD_STAT_DONE, Fld.BLY_HOLD_STAT_RELEASING, Fld.BLY_HOLD_STAT_SMEARED, Fld.BLY_STATE_WAVE,
      Fld.BLY_STATE_STOPPED, Fld.BLY_STATE_FROZEN] ++ [Fld.BLY_VF_FREEZE, Fld.BLY_PF_FREEZE, Fld.BLY_COPY_STATE_STATE, Fld.BLY_COPY_STATE_DDR,
      Fld.BLY_COPY_STATE_LOG_OVF, Fld.BLY_COPY_STATE_PARTNER, Fld.BLY_COPY_ACKED_PITCH]) k

/-- The vault fields that every reset keeps: fuses and lifecycle (R480). -/
def fuseFields : List Field := [Fld.KVT_FUSE_KEY_REVOKED, Fld.KVT_FUSE_SVN, Fld.KVT_STATE_LIFECYCLE]

/-- The registers outside the package-global pages that a warm reset keeps (R480, R614, R617): fuses, alarms and the open debug port, the DDR5 channels'
cipher settings, and while the link stays up its state. -/
def warmKeeps (hot : Bool) (k : Nat) : Bool :=
  ([0, 1] : List Nat).any fun i =>
    keyIn (.kvt i) (fuseFields ++ [Fld.KVT_ALARM_CAUSE, Fld.KVT_STATE_DEBUG_OPEN]) k ||
    ((List.range 8).any fun ch => keyIn (.ddr i ch) [Fld.DDR_XTS_ENABLE, Fld.DDR_XTS_SLOT, Fld.DDR_XTS_KCV_KCV, Fld.DDR_STATE_KEY_LOST] k) ||
    (!hot && keyIn (.pcie i) [Fld.PCIE_LINK_STATE_GEN, Fld.PCIE_LINK_STATE_WIDTH, Fld.PCIE_LINK_STATE_FLIT, Fld.PCIE_LINK_STATE_ACTIVE,
      Fld.PCIE_LINK_STATE_DSTATE] k)

/-- The register file after a warm reset. -/
def Device.warmRegs (d : Device) (hot : Bool) : RegFile :=
  let at_ := fun (k : Nat) => (globalAt (k / 32) && !warmClears k) || warmKeeps hot k
  { cur := d.reg.cur.filter fun kv => at_ kv.1
    applied := d.reg.applied.filter fun kv => at_ kv.1
    older := d.reg.older.filter fun kv => at_ kv.1
    commits := d.reg.commits.filter fun kv => globalAt kv.1
    cnt := d.reg.cnt.filter fun kv => globalAt kv.1
    snap := d.reg.snap.filter fun kv => globalAt kv.1
    latch := d.reg.latch.filter fun kv => globalAt (kv.1 / 512)
    sel := d.reg.sel.filter fun kv => globalAt (kv.1 / 16384) }

/-- The boot ROM's self-tests (R454): the vaults start; where a test fails the boot ROM refuses to start firmware and stays in SELFTEST, else it waits for
firmware. A vault with an alarm latched stays ALARMED (R458, R617). `failed`: the failing test of an I-die's vault. -/
def Device.bootTests (d : Device) (failed : List (Nat × Nat)) : Device :=
  let d := each (fun (d : Device) i =>
    if d.fld (.kvt i) Fld.KVT_ALARM_CAUSE ≠ 0 then (d.put (.kvt i) Fld.KVT_STATE_VAULT 2).approve i
    else d.vaultStart i (((failed.find? fun x => decide (x.1 = i)).map Prod.snd).getD 0)) d d.model.idies
  d.put .pkg Fld.PKG_FW_STATE_STATE (if d.model.idies.any fun i => decide (d.fld (.kvt i) Fld.KVT_STATE_VAULT = 3) then 1 else 2)

/-- REFUSED holds until a hot or a fundamental reset, with both versions readable (R524): after any other warm reset, whose self-tests passed, the package
`d0` that was REFUSED is REFUSED again (log entry 39). -/
def Device.staysRefused (d d0 : Device) (hot : Bool) : Device :=
  if !hot && decide (d0.fld .pkg Fld.PKG_FW_STATE_STATE = 5 ∧ d.fld .pkg Fld.PKG_FW_STATE_STATE = 2) then
    each (fun (d : Device) f => d.put .pkg f (d0.fld .pkg f)) d
      [Fld.PKG_FW_STATE_STATE, Fld.PKG_FW_VER_MIN_MAJOR, Fld.PKG_FW_VER_MAX_MAJOR, Fld.PKG_FW_VER_MINOR]
  else d

/-- A warm reset (R616, R617). `cause`: the code of PKG_RESET_CAUSE. A stroke package's hot reset first reaches its crew (R482). -/
def Device.warmReset (d : Device) (cause : Nat) (failed : List (Nat × Nat)) : Device :=
  let hot := decide (cause = 2)
  let d0 := d
  let d := if d.cfg.straps.crewRole = 1 then each (fun d m => d.msg "crew-reset" m []) d (d.crewMembers.filter (· ≠ 0)) else d
  let d := each (fun (d : Device) i => d.vaultErase i) d d.model.idies
  let d := { Device.reset with
    cfg := d.cfg
    clk := d.clk
    reg := d.warmRegs hot
    rings := d.rings
    out := d.out
    wr := d.wr
    poison := d.poison
    ddrUndef := d.ddrUndef
    msix := if hot then Device.reset.msix else ⟨d.msix.bme.filter (fun f => decide (f = 0)), d.msix.fmask.filter (fun f => decide (f = 0)), []⟩
    link := if hot then { Device.reset.link with pmeStatus := d.link.pmeStatus }
      else { d.link with vfEnable := false, holding := [], expired := [], flr := [] }
    vaults := Tbl.mapV d.vaults fun _ v => { freshVault with dbgTries := v.dbgTries, blocked := v.blocked, alarmed := v.alarmed }
    corrs := d.corrs
    tel := d.tel
    pwr := d.pwr }
  let d := (d.put .pkg Fld.PKG_RESET_CAUSE_LAST cause).incSat .pkg Fld.PKG_RESET_CAUSE_WARM_COUNT 1
  ((d.stZero (2 ^ 56) (2 ^ 58)).bootTests failed).staysRefused d0 hot

/-- What remains when the package is in reset under PERST# or without its main rails: the fuses, what VAUX holds (TRIPPED, the wake logic's
enables, an ID given there), and the model's own record (R480, R606, R607, R626). -/
def Device.dark (d : Device) : Device :=
  let keep := fun (k : Nat) => keyIn .pkg [Fld.PKG_THERM_READ_TRIPPED] k || keyIn (.pcie 0) [Fld.PCIE_WAKE_MGMT] k ||
    ([0, 1] : List Nat).any fun i => keyIn (.kvt i) fuseFields k
  let d := { Device.reset with
    cfg := d.cfg
    clk := ⟨d.clk.now, d.clk.free, d.clk.t0, false, []⟩
    reg := { Device.reset.reg with cur := d.reg.cur.filter fun kv => keep kv.1 }
    out := d.out
    wr := d.wr
    link := { Device.reset.link with pmeEn := d.link.pmeEn, pmeStatus := d.link.pmeStatus }
    pwr := { Device.reset.pwr with
      aux := d.pwr.aux
      groups := d.pwr.groups
      pwrok := d.pwr.pwrok
      perst := d.pwr.perst
      pendId := d.pwr.pendId
      wake := d.pwr.wake
      cold := d.pwr.cold } }
  d.stZero 0 (2 ^ 60)

/-! ### Supplies (R603 to R607) -/

/-- RAIL_GROUP_UP: the next supply group has risen above 95 % (R605); VDD_T starts at 0.80 V, and with group 1 the wake logic. -/
def execRailGroupUp (group : Nat) (s : State) : Out :=
  let d := s.dev
  if group ≠ d.pwr.groups + 1 ∨ 6 < group then s.same
  else
    let vdd : Tbl Nat := if group = 3 then d.model.tdies.foldl (fun t n => Tbl.put t n 800) [] else d.pwr.vdd
    s.done (d.setPwr { d.pwr with groups := group, aux := true, vdd := vdd })

/-- PWROK_ASSERT: the board asserts PKG_PWROK with every rail up and the clocks stable (R605). -/
def execPwrokAssert (s : State) : Out :=
  if s.dev.pwr.groups = 6 then s.done (s.dev.setPwr { s.dev.pwr with pwrok := true }) else s.same

/-- PWROK_LOSS: PKG_PWROK falls; with PERST# deasserted it is a loss of power: every island stops and only what VAUX holds is kept (R607). -/
def execPwrokLoss (s : State) : Out :=
  let d := s.dev
  let p := { d.pwr with pwrok := false, cold := true }
  if d.pwr.perst then s.done (d.setPwr p) else s.done (d.setPwr p).dark

/-- MAIN_RAILS_REMOVED: the board removes the main rails, once PERST# is asserted and PKG_PWROK low (R606) or after a thermal trip (R626), and
with `aux` VAUX too, which clears TRIPPED. -/
def execMainRailsRemoved (aux : Bool) (s : State) : Out :=
  let d := s.dev
  if !(d.pwr.perst && !d.pwr.pwrok) && d.fld .pkg Fld.PKG_THERM_READ_TRIPPED = 0 then s.same
  else
    let d := (d.setPwr { d.pwr with groups := 1, pwrok := false, perst := true, cold := true }).dark
    s.done (if aux then
      ((d.setPwr { d.pwr with groups := 0, aux := false, pendId := none, wake := false }).put .pkg Fld.PKG_THERM_READ_TRIPPED 0).setLink Device.reset.link
      else d)

/-! ### Resets (R479, R480, R609, R610, R615 to R618) -/

/-- PERST_ASSERT: PERST# is asserted; the package enters reset (R606, R618). -/
def execPerstAssert (s : State) : Out :=
  s.done ((s.dev.setPwr { s.dev.pwr with perst := true }).dark)

/-- The package ID in force is set, once per fundamental reset (R610). -/
def Device.setPkgId (d : Device) (id src : Nat) : Device :=
  ((d.put .pkg Fld.PKG_ID_ID id).put .pkg Fld.PKG_ID_VALID 1).put .pkg Fld.PKG_ID_SRC src

/-- FUNDAMENTAL_RESET: PERST# is deasserted with every rail up: the straps are sampled, the island counters begin at zero, the link trains and the boot
ROM self-tests (R73, R479, R609, R610). -/
def execFundamentalReset (crewRole idSrc idie1Mode pinsId gen width : Nat) (flit : Bool) (failed : List (Nat × Nat)) (s : State) : Out :=
  let d := s.dev
  if !d.pwr.perst || !d.pwr.pwrok || decide (d.pwr.groups ≠ 6) then s.same
  else
    let pins : Straps := ⟨crewRole % 4, idSrc % 4, idie1Mode % 2, pinsId % 2 ^ 14⟩
    let straps : Straps := ⟨if crewRole % 4 = 3 then 0 else crewRole % 4, if idSrc % 4 = 3 then 0 else idSrc % 4, idie1Mode % 2, pinsId % 2 ^ 14⟩
    let woke := d.pwr.wake
    let cold := d.pwr.cold
    let d := ((d.setCfg ⟨d.cfg.part, pins, straps, decide (crewRole % 4 = 3)⟩).put (.pcie 0) Fld.PCIE_WAKE_MGMT Fld.PCIE_WAKE_MGMT.reset).dark
    let d := (d.setClk ⟨d.clk.now, d.clk.free, d.clk.now, true, []⟩).setLink { Device.reset.link with pmeStatus := woke }
    let d := d.setPwr { d.pwr with perst := false, wake := false, cold := false, pendId := none, vdd := s.dev.pwr.vdd }
    let d := if straps.idSrc = 1 then d.setPkgId straps.pkgId 1
      else match straps.idSrc, s.dev.pwr.pendId with
        | 2, some id => d.setPkgId id 2
        | _, _ => d.put .pkg Fld.PKG_ID_SRC straps.idSrc
    let d := d.put .pkg Fld.PKG_RESET_CAUSE_LAST (if cold then 0 else 1)
    let d := ((d.put (.pcie 0) Fld.PCIE_LINK_STATE_GEN gen).put (.pcie 0) Fld.PCIE_LINK_STATE_WIDTH width).put (.pcie 0) Fld.PCIE_LINK_STATE_ACTIVE width
    let d := if woke then d.pin "WAKE#" true else d
    s.done ((d.put (.pcie 0) Fld.PCIE_LINK_STATE_FLIT (b2n flit)).bootTests failed)

/-- The package is out of reset: PERST# is deasserted and the boot ROM has run. -/
def Device.live (d : Device) : Bool := !d.pwr.perst && d.pwr.pwrok

/-- HOT_RESET: an in-band hot reset or DL_Down: a warm reset, with the link retrained and configuration space at its defaults (R480, R615). -/
def execHotReset (gen width : Nat) (flit : Bool) (failed : List (Nat × Nat)) (s : State) : Out :=
  let d := s.dev
  if !d.live then s.same
  else
    let d := d.warmReset 2 failed
    let d := ((d.put (.pcie 0) Fld.PCIE_LINK_STATE_GEN gen).put (.pcie 0) Fld.PCIE_LINK_STATE_WIDTH width).put (.pcie 0) Fld.PCIE_LINK_STATE_ACTIVE width
    s.done (d.put (.pcie 0) Fld.PCIE_LINK_STATE_FLIT (b2n flit))

/-- CREW_RESET: a member receives a crew reset (R482, R615). -/
def execCrewReset (failed : List (Nat × Nat)) (s : State) : Out :=
  if s.dev.live && decide (s.dev.cfg.straps.crewRole = 2) then s.done (s.dev.warmReset 6 failed) else s.same

/-- PKG_WARM: a write of PKG_WARM.GO by the PF (R615, R633). -/
def execPkgWarm (r : Req) (value : Nat) (failed : List (Nat × Nat)) (s : State) : Out :=
  if s.dev.live && decide (r = .pf) && bit value 0 then s.done (s.dev.warmReset 5 failed) else s.same

/-- A management message is answered NOT_READY while only VAUX is present (R632). -/
def Device.notReady (d : Device) : Device := d.msg "mgmt-not-ready" 0 []

/-- MGMT_WARM_RESET: the WARM_RESET message (R615, R632). -/
def execMgmtWarmReset (failed : List (Nat × Nat)) (s : State) : Out :=
  if !s.dev.pwr.aux then s.same
  else if s.dev.pwr.groups < 6 then s.done s.dev.notReady
  else if s.dev.live then s.done ((s.dev.msg "mgmt-ok" 0 []).warmReset 7 failed)
  else s.same

/-- MGMT_SET_PKG_ID: the SET_PKG_ID message (R610, R632): with management as the source the ID is set once, then BUSY; on VAUX alone it is kept for the next
fundamental reset. -/
def execMgmtSetPkgId (id : Nat) (s : State) : Out :=
  let d := s.dev
  if !d.pwr.aux then s.same
  else if d.pwr.groups < 6 || d.pwr.perst then s.done ((d.setPwr { d.pwr with pendId := some (id % 2 ^ 14) }).msg "mgmt-ok" 0 [])
  else if d.cfg.straps.idSrc ≠ 2 then s.same
  else if d.flag .pkg Fld.PKG_ID_VALID then s.done (d.msg "mgmt-busy" 0 [])
  else s.done ((d.setPkgId (id % 2 ^ 14) 2).msg "mgmt-ok" 0 [])

/-- CLEAR_TRIP: the message clears PKG_THERM_READ.TRIPPED (R626, R632). -/
def execClearTrip (s : State) : Out :=
  if s.dev.pwr.aux then s.done ((s.dev.put .pkg Fld.PKG_THERM_READ_TRIPPED 0).msg "mgmt-ok" 0 []) else s.same

/-- GET_STATE: the message returns PKG_FW_STATE, the power state, PKG_RESET_CAUSE and PKG_THERM_READ (R632). The power state is DSTATE, 4 with the main
rails off (log entry 24). -/
def execGetState (s : State) : Out :=
  let d := s.dev
  if !d.pwr.aux then s.same
  else
    let w := fun off => d.word .pf .pkg off
    s.done (d.msg "mgmt-state" 0
      [w 0x100, if d.pwr.groups < 6 then 4 else d.fld (.pcie 0) Fld.PCIE_LINK_STATE_DSTATE, w 0x1CC, w 0x1EC])

/-! ### Clocks and power (R619 to R623) -/

/-- PKG_CLK.TARGET_MHZ as it applies (R633). -/
def Device.targetMhz (d : Device) : Nat := clamp 800 1600 (d.fld .pkg Fld.PKG_CLK_TARGET_MHZ) / 25 * 25

/-- The power cap; before the limiter has computed one there is none (log entry 24). -/
def Device.powerCap (d : Device) : Nat :=
  if d.fld .pkg Fld.PKG_CLK_CAP_POWER_MHZ = 0 then 1600 else d.fld .pkg Fld.PKG_CLK_CAP_POWER_MHZ

/-- A region's thermal cap. -/
def Device.thermalCap (d : Device) (isl : Nat) : Nat := Tbl.lookD d.pwr.caps isl 1600

/-- The clock that R620 gives a region. -/
def Device.regionClock (d : Device) (isl : Nat) : Nat := min d.targetMhz (min d.powerCap (d.thermalCap isl))

/-- The voltage between two neighbouring points of R619, rounded up to 5 mV. -/
def mvBetween (f0 v0 f1 v1 f : Nat) : Nat := (v0 * (f1 - f0) + (f - f0) * (v1 - v0) + 5 * (f1 - f0) - 1) / (5 * (f1 - f0)) * 5

/-- A region's voltage in mV at a clock (R619). -/
def regionMv (f : Nat) : Nat :=
  if f ≤ 800 then 700
  else if f ≤ 1000 then mvBetween 800 700 1000 720 f
  else if f ≤ 1200 then mvBetween 1000 720 1200 750 f
  else if f ≤ 1450 then mvBetween 1200 750 1450 780 f
  else if f ≤ 1600 then mvBetween 1450 780 1600 850 f
  else 850

/-- The regions that run, as (T-die, region). -/
def Device.runningRegions (d : Device) : List (Nat × Nat) :=
  (d.model.tdies.flatMap fun n => (List.range 16).map fun r => (n, r)).filter fun nr => (d.isl (nr.1 * 256 + nr.2)).on

/-- VDD_T[n] holds the highest voltage that a region of die n needs (R604), and PKG_CLK_CAP shows the lowest region clock. -/
def Device.showClocks (d : Device) (n : Nat) : Device :=
  let mv := (d.runningRegions.filter fun nr => decide (nr.1 = n)).foldl (fun v nr => max v (regionMv (d.isl (nr.1 * 256 + nr.2)).mhz)) 700
  let lo := d.runningRegions.foldl (fun v nr => min v (d.isl (nr.1 * 256 + nr.2)).mhz) 1600
  (d.setPwr { d.pwr with vdd := Tbl.put d.pwr.vdd n mv }).put .pkg Fld.PKG_CLK_CAP_MIN_REGION_MHZ lo

/-- REGION_CLOCK_CHANGE: a region goes over to the clock of R620 at a cycle boundary; VF_CHANGE carries the stamp of the last cycle at the old frequency and
the new one (R74, R619). -/
def execRegionClockChange (n r : Nat) (s : State) : Out :=
  let d := s.dev
  let p := Page.rgn n r
  let isl := n * 256 + r
  let x := d.isl isl
  let f := d.regionClock isl
  if !d.present p || !x.on || decide (x.mhz = f) then s.same
  else
    let d := d.cairnRaw p (d.stamp isl) 0x0301 (0x100 + ((if d.flag p Fld.RGN_STATE_PVALID then d.fld p Fld.RGN_STATE_PTAG * 1024 + 32768 else 0)) + f * 65536)
    let d := d.setClk { d.clk with islands := Tbl.put d.clk.islands isl ⟨d.cycles isl, d.clk.now, f, true⟩ }
    s.done ((((d.tick p 7).put p Fld.RGN_CLK_MHZ f).put p Fld.RGN_CLK_MV (regionMv f)).showClocks n)

/-- The page in whose ring an island writes for itself (R73, R589): a region's, a T-die block's, an I-die block's, a core's, or the package's. -/
def islandPage (isl : Nat) : Page :=
  let n := isl / 256
  let k := isl % 256
  if n < 8 then
    (if k < 16 then .rgn n k else if k = 16 then .tdie n else if k < 0x14 then .hbmc n (k - 0x11) else .d2d n (k - 0x14))
  else if n < 10 then
    let i := n - 8
    (if k = 0 then .pcie i else if k < 5 then .eth i (k - 1) else if k = 5 then .prs i else if k = 6 then .tmg i else if k = 7 then .gft i
     else if k = 8 then .kvt i else if k < 0x11 then .cox i (k - 9) else .ddr i (k - 0x11))
  else .pkg

/-- An island's clock stops: its counter holds (R73). -/
def Device.stopClock (d : Device) (isl : Nat) : Device :=
  let x := d.isl isl
  d.setClk { d.clk with islands := Tbl.put d.clk.islands isl ⟨d.cycles isl, d.clk.now, x.mhz, false⟩ }

/-- An island's clock runs on from where it held, and the island writes STAMP_RESUME (R73). -/
def Device.startClock (d : Device) (isl : Nat) : Device :=
  let x := d.isl isl
  if x.on then d
  else
    let d := d.setClk { d.clk with islands := Tbl.put d.clk.islands isl ⟨x.base, d.clk.now, x.mhz, true⟩ }
    if isl / 256 < 8 ∧ isl % 256 < 16 then d.cairn (islandPage isl) 0x0302 0x100 else d.cairn (islandPage isl) 0x0302 0

/-- PLL_RESTART: an island's PLL restarts (R73). -/
def execPllRestart (isl : Nat) (s : State) : Out :=
  let d := s.dev
  if d.present (islandPage isl) && !(d.isl isl).on && d.clk.up then s.done (d.startClock isl) else s.same

/-- PKG_POWER.LIMIT_W as it applies (R622, R633). -/
def Device.limitW (d : Device) : Nat := clamp 500 d.model.designW (d.fld .pkg Fld.PKG_POWER_LIMIT_W)

/-- POWER_LIMITER_TICK: the limiter has computed the averages over 1 ms and 100 ms: the cap falls by 25 MHz above 97 %, or rises by 25 MHz every 1 ms
while both stay below 93 % (R621); POWER_CAPPED after 100 ms below the target. -/
def execPowerLimiterTick (avg1ms avg100ms : Nat) (s : State) : Out :=
  let d := s.dev
  if !d.live then s.same
  else
    let d := (d.put .pkg Fld.PKG_POWER_READ_AVG1MS_W avg1ms).put .pkg Fld.PKG_POWER_READ_AVG100MS_W avg100ms
    let now := d.clk.now
    let tooHigh := decide (97 * d.model.excursionW < 100 * avg1ms ∨ 97 * d.limitW < 100 * avg100ms)
    let under := decide (100 * avg1ms < 93 * d.model.excursionW ∧ 100 * avg100ms < 93 * d.limitW)
    let since := if under then (match d.pwr.below with
      | some t => t
      | none => now) else now
    let rise := under && decide (1000000 ≤ now - since)
    let cap := if tooHigh then max 800 (d.powerCap - 25) else if rise then min 1600 (d.powerCap + 25) else d.powerCap
    let d := (d.setPwr { d.pwr with below := if !under then none else if rise then some now else some since }).put .pkg Fld.PKG_CLK_CAP_POWER_MHZ cap
    if d.targetMhz ≤ cap then s.done (d.setPwr { d.pwr with capped := none, cappedSaid := false })
    else
      let from_ := (match d.pwr.capped with
        | some t => t
        | none => now)
      let d := d.setPwr { d.pwr with capped := some from_ }
      if !d.pwr.cappedSaid && decide (100000000 ≤ now - from_) then
        s.done (((d.setPwr { d.pwr with cappedSaid := true }).event s.mem 0 0x1904 0xF00 [cap, avg100ms]).cairnPkg 0x1904 (cap + avg100ms * 2 ^ 32))
      else s.done d

/-- REGION_GATE: the quarter has belonged to no partition for GATE_IDLE_MS: its regions are powered off, their contents lost and their counters held
(R623). -/
def execRegionGate (n quarter : Nat) (s : State) : Out :=
  let d := s.dev
  let used := d.parts.any fun kv => bit (d.qmask kv.1) (4 * n + quarter)
  if !d.hasTdie n || decide (4 ≤ quarter) || used || decide (d.fld .pkg Fld.PKG_THERM_GATE_IDLE_MS = 0) then s.same
  else
    let rs := (List.range 16).filter fun r => decide (quarterOf r = quarter) && (d.isl (n * 256 + r)).on
    s.done (each (fun (d : Device) r =>
      let d := (d.stopClock (n * 256 + r)).setPwr { d.pwr with gated := insSet (n * 256 + r) d.pwr.gated }
      let d := d.stZero (tileMem n (128 * r)) (128 * 2 ^ 20)
      let d := d.stZero (cbufMem n (8 * r)) (8 * 2 ^ 21)
      d.setTiles (Tbl.drop d.tiles fun k => decide (k / 2048 = n ∧ k % 2048 / 128 = r))) d rs)

/-- AVS_CURRENT_READ: the package reads a VDD_T regulator's current (R604, R621). -/
def execAvsCurrentRead (n amps : Nat) (s : State) : Out :=
  if s.dev.hasTdie n && s.dev.live then s.done (s.dev.setPwr { s.dev.pwr with amps := Tbl.put s.dev.pwr.amps n amps }) else s.same

/-! ### Temperature (R624 to R627) -/

/-- PKG_THERM.THROTTLE_C as it applies. -/
def Device.throttleC (d : Device) : Int := (clamp 85 104 (d.fld .pkg Fld.PKG_THERM_THROTTLE_C) : Nat)

/-- A temperature in two's complement of 8 bits. -/
def tempByte (t : Int) : Nat := (t % 256).toNat

/-- A thermal cap or the half rate is in force. -/
def Device.throttling (d : Device) : Bool := !d.pwr.caps.isEmpty || !d.pwr.half.isEmpty

/-- A sensor's reading: PKG_THERM_READ shows the highest and its island (R633). -/
def Device.readTemp (d : Device) (isl : Nat) (temp : Int) : Device :=
  let d := d.setPwr { d.pwr with temps := Tbl.put d.pwr.temps isl temp }
  let top := d.pwr.temps.foldl (fun (acc : Option (Nat × Int)) kv => match acc with
    | none => some kv
    | some a => if a.2 < kv.2 then some kv else acc) none
  match top with
  | none => d
  | some (i, t) => (d.put .pkg Fld.PKG_THERM_READ_MAX_C (tempByte t)).put .pkg Fld.PKG_THERM_READ_MAX_ISLAND i

/-- An event of R627 that occurs at most once per second. -/
def secondPassed (now : Nat) : Option Nat → Bool
  | none => true
  | some t => decide (t + 1000000000 ≤ now)

/-- THERMAL_CAP_TICK: a region's or a stack's sensor is read at the period of R625: the region's cap falls by 50 MHz, to 800 MHz at once at 105 °C, or rises
by 25 MHz; a stack above 95 °C issues at half its rate. -/
def execThermalCapTick (isl : Nat) (temp : Int) (s : State) : Out :=
  let d := s.dev
  let n := isl / 256
  let k := isl % 256
  if !d.live || !d.present (islandPage isl) then s.same
  else
    let was := d.throttling
    let d := d.readTemp isl temp
    let d :=
      if n < 8 ∧ k < 16 then
        let cap := d.thermalCap isl
        let cap' := if 105 ≤ temp then 800 else if d.throttleC < temp then max 800 (cap - 50)
          else if temp ≤ d.throttleC - 2 then min 1600 (cap + 25) else cap
        d.setPwr { d.pwr with caps := if cap' = 1600 then Tbl.del d.pwr.caps isl else Tbl.put d.pwr.caps isl cap' }
      else if n < 8 ∧ 0x11 ≤ k ∧ k ≤ 0x13 then
        d.setPwr { d.pwr with half := if 95 < temp then insSet isl d.pwr.half else delSet isl d.pwr.half }
      else d
    let d := d.put .pkg Fld.PKG_THERM_READ_THROTTLING (b2n d.throttling)
    let t := tempByte temp
    if d.throttling && !was && secondPassed d.clk.now d.pwr.throttleAt then
      s.done (((d.setPwr { d.pwr with throttleAt := some d.clk.now }).event s.mem 0 0x1901 0xF00 [isl, t]).cairnPkg 0x1901 (isl + t * 2 ^ 32))
    else if was && !d.throttling && secondPassed d.clk.now d.pwr.normalAt then
      let c := d.fld .pkg Fld.PKG_THERM_READ_MAX_C
      s.done (((d.setPwr { d.pwr with normalAt := some d.clk.now }).event s.mem 0 0x1902 0xF00 [c]).cairnPkg 0x1902 c)
    else s.done d

/-- THERMAL_TRIP: a trip threshold is reached: THERMTRIP#, TRIPPED, the entry and event, and every region clock and HBM interface stops (R626, R627). -/
def execThermalTrip (isl : Nat) (temp : Int) (s : State) : Out :=
  let d := s.dev
  if !d.live || !d.present (islandPage isl) then s.same
  else
    let t := tempByte temp
    let d := (((d.readTemp isl temp).pin "THERMTRIP#" false).put .pkg Fld.PKG_THERM_READ_TRIPPED 1).cairnPkg 0x1903 (isl + t * 2 ^ 32)
    let d := (d.event s.mem 0 0x1903 0xF00 [isl, t]).msg "mgmt-thermal-trip" 0 [isl, t]
    let stops := d.model.tdies.flatMap fun n => ((List.range 16) ++ [0x11, 0x12, 0x13]).map (256 * n + ·)
    s.done (each (fun (d : Device) i => if (d.isl i).on then d.stopClock i else d) d stops)

end Sys2Proof.Machine
end

