-- ==== Sys2Proof/Machine/Firmware.lean ====
section
/-!
DEFINITION. Firmware's life (spec/17 and R570, R611 to R614): loading, the handshake, training, the cox cores' crashes, journals and debug halts, the
loss of the host and reattachment, and DEVICE_FATAL.
-/
namespace Sys2Proof.Machine

/-! ### Shared steps -/

/-- Send a message to every other member from the stroke package (R482, R486, R492, R542). -/
def Device.toMembers (d : Device) (kind : String) (args : List Nat) : Device :=
  if d.cfg.straps.crewRole = 1 then each (fun (d : Device) m => d.msg kind m args) d (d.crewMembers.filter (· ≠ 0)) else d

/-- The first inactive slot that firmware may use (R577). -/
def Device.fwSlot (d : Device) : Nat :=
  ((List.range 16).find? fun s => decide (6 ≤ s) && decide (d.fldI .bly Fld.BLY_HOLD_CTL_ACTIVE s = 0)).getD 15

/-- The regions of a partition stand idle. -/
def Device.idleRegions (d : Device) (q : Nat) : Device :=
  each (fun (d : Device) nr => if d.flag (.rgn nr.1 nr.2) Fld.STATUS_FENCED then d else d.put (.rgn nr.1 nr.2) Fld.RGN_STATE_STATE 0) d (d.regionsOf q)

/-- A running pitch is cut with a stop scoped to its partition and abandoned, its dirty bits cleared; the stop is then released (R235, R515 step 4). -/
def Device.cutPart (d : Device) (q cause : Nat) : Device :=
  let s := d.fwSlot
  (((d.raiseSlot s 1 1 q cause false).abandonPitch q).idleRegions q).releaseSlot s

/-- VALID clears on every registered memory key that a test selects (R515, R538). -/
def Device.clearKeys (d : Device) (m : Memory) (sel : KeyEntry → Bool) : Device :=
  each (fun (d : Device) kv => match d.keyEntry m kv.1 with
    | some k => if bit k.perm 7 && sel k then d.memWrite m (d.keyAddr kv.1 + 16) [BitVec.ofNat 8 (k.perm - 128)] else d
    | none => d) d d.keyTime

/-- The bivouac that holds a connection's context is in host memory (R320): its home is I-die c[21], I-die 0 on a part with one. -/
def Device.hostBivouac (d : Device) (id : Nat) : Bool :=
  let home := if d.model.idies.length = 2 then id / 2 ^ 21 % 2 else 0
  isHost (d.fld (.gft home) Fld.GFT_BIVOUAC_ADDR * 4096)

/-- The admin queue and its completion queue stand as PKG_ADMIN_SQ, PKG_ADMIN_CQ and PKG_ADMIN_CFG give them, once the driver has placed both (R535). -/
def Device.adminSetup (d : Device) : Device :=
  let sq := d.fld .pkg Fld.PKG_ADMIN_SQ_ADDR * 4096
  let cq := d.fld .pkg Fld.PKG_ADMIN_CQ_ADDR * 4096
  let size := fun (f : Field) => 2 ^ clamp 4 12 (d.fld .pkg f)
  if sq = 0 ∨ cq = 0 ∨ d.fwState ≠ 7 then d
  else
    let d1 := d.setQueue 0 0 ⟨7, sq, size Fld.PKG_ADMIN_CFG_SQ_LOG2, 1, 0, 0, 0, 1, 0, 0, 0, 1, false, false, [], 0, 0, 0⟩
    d1.setQueue 0 1 ⟨8, cq, size Fld.PKG_ADMIN_CFG_CQ_LOG2, 0, d.fld .pkg Fld.PKG_ADMIN_CFG_VECTOR, 0, 0, 1, 0, 0, 0, 1, false, false, [], 0, 0, 0⟩

/-! ### DEVICE_FATAL (R570) -/

/-- DEVICE_FATAL: a condition of R570 is met. -/
def execDeviceFatal (cause i : Nat) (s : State) : Out :=
  if s.dev.live && decide (1 ≤ cause ∧ cause ≤ 8) && decide (s.dev.fwState ≠ 15) then s.done (s.dev.fatal s.mem cause i) else s.same

/-! ### The loss of the host (R537 to R542) -/

/-- An image declares a host area (R252). -/
def Image.hostArea (im : Image) : Bool := im.areas.any fun a => isHost a.addr

/-- A partition at the loss of the host (R538): it lets its pitch reach its boundary, or is cut and abandoned, and enters PARKED. `keep`: on D3hot compute
stops at the boundary whatever the image declares, and RUNs stay (R490). -/
def Device.parkPart (d : Device) (q : Nat) (keep : Bool) : Device :=
  match d.part q with
  | none => d
  | some x =>
    match x.image with
    | none => d
    | some im =>
      let park := if keep then 1 else 2
      let st := d.pState q
      if (decide (st = 3 ∨ st = 5) && (keep || !im.hostArea)) || decide (st = 4) then
        d.setPart q { x with park := park, runs := if keep then x.runs else x.runs.take 1 }
      else
        let d := if st = 3 ∨ st = 5 then d.cutPart q 0x0A else d
        (match d.part q with
         | some x => d.setPart q { x with park := park, runs := if keep then x.runs else [] }
         | none => d).setPState q 6

/-- The host is lost (R537, R538, R539, R550): the fence, the fetch stop, the keys, the connections, the partitions and the functions' leases.
`cause` is PKG_HOST_STATE.CAUSE; after a PF function-level reset R515 has ended the partitions, and DETACH_HOLD runs only for causes 1 and 2 (R539). -/
def Device.hostLoss (d : Device) (m : Memory) (cause : Nat) : Device :=
  if d.fwState ≠ 7 then d
  else
    let d := (d.setFwState 8).put .pkg Fld.PKG_HOST_STATE_CAUSE cause
    let d := d.clearKeys m fun k => isHost k.base
    let d := d.setConns (Tbl.mapV d.conns fun id c => if decide (c.st = 0 ∧ 2 < c.cls) && d.hostBivouac id then { c with st := 1 } else c)
    let d := if cause = 3 then d else each (fun (d : Device) kv => d.parkPart kv.1 (decide (cause = 4))) d d.parts
    let d := d.orphanLeases fun o => decide (o / 4096 = 2)
    let d := d.setFw { d.fw with pulse := none }
    if cause = 1 ∨ cause = 2 then
      (d.setFw { d.fw with detach := some d.clk.now }).put .pkg Fld.PKG_HOST_STATE_DETACHED 1 |>.put .pkg Fld.PKG_HOST_STATE_REMAIN_S
        (clamp 1 3600 (d.fld .pkg Fld.PKG_HOST_CFG_DETACH_S))
    else d

/-- HOST_PULSE: any write of PKG_HOST_PULSE in READY restarts the timeout (R537). -/
def execHostPulse (r : Req) (value : Nat) (s : State) : Out :=
  let d := s.dev
  if !d.mayAccess r .pkg then s.same
  else
    let d := d.put .pkg Fld.PKG_HOST_PULSE_VALUE value
    s.done (if d.fwState = 7 then d.setFw { d.fw with pulse := some d.clk.now } else d)

/-- HOST_PULSE_TIMEOUT: TIMEOUT_MS has passed since the last pulse (R537). -/
def execHostPulseTimeout (s : State) : Out :=
  let d := s.dev
  if d.fwState = 7 && d.fw.pulse.isSome then s.done ((d.hostLoss s.mem 1).toMembers "HOST_LOST" [1]) else s.same

/-- DETACH_HOLD_EXPIRY: no driver has attached (R539). -/
def execDetachHoldExpiry (failed : List (Nat × Nat)) (s : State) : Out :=
  if s.dev.fwState = 8 && s.dev.flag .pkg Fld.PKG_HOST_STATE_DETACHED then s.done (s.dev.warmReset 3 failed) else s.same

/-- The driver's version is compatible (R523). -/
def Device.compatible (d : Device) : Bool :=
  decide (d.fld .pkg Fld.PKG_FW_VER_MIN_MAJOR ≤ d.fld .pkg Fld.PKG_DRV_VER_MAJOR ∧ d.fld .pkg Fld.PKG_DRV_VER_MAJOR ≤ d.fld .pkg Fld.PKG_FW_VER_MAX_MAJOR)

/-- The held state is adopted (R540, R541): queues are destroyed, suspended connections enter ERROR, partitions stay PARKED and may run, the fence
lifts. -/
def Device.adopt (d : Device) (m : Memory) : Device :=
  let d := ((d.setQueues []).setFetched []).setHeldW []
  let d := each (fun (d : Device) (kv : Nat × Conn) => if kv.2.st = 1 then d.connError m kv.1 0x010A else d) d d.conns
  let d := d.setParts (Tbl.mapV d.parts fun _ x => { x with park := 0 })
  let d := (d.setLink { d.link with expired := [] }).put (.pcie 0) Fld.PCIE_BME_STATE_HOLDING (b2n (!d.link.holding.isEmpty))
  let d := ((d.put .pkg Fld.PKG_HOST_STATE_DETACHED 0).put .pkg Fld.PKG_HOST_STATE_REMAIN_S 0).setFw { d.fw with pulse := some d.clk.now, detach := none }
  (d.put .pkg Fld.PKG_FW_VER_AGREED (d.fld .pkg Fld.PKG_DRV_VER_MAJOR)).setFwState 7

/-- PKG_ATTACH: a driver reattaches (R540); outside DETACHED the write is ignored and sets ERR_STAT.ACCESS. -/
def execPkgAttach (r : Req) (value : Nat) (failed : List (Nat × Nat)) (s : State) : Out :=
  let d := s.dev
  if !d.mayAccess r .pkg then s.same
  else if d.fwState ≠ 8 then s.done (d.hdrErr .pkg 1)
  else if !bit value 0 then s.same
  else if bit value 1 && d.compatible then s.done ((d.adopt s.mem).toMembers "HOST_ADOPT" [])
  else s.done (d.warmReset 4 failed)

/-- HOST_LOST: a member applies the loss of the stroke package's host to its own traffic (R542). -/
def execHostLost (cause : Nat) (s : State) : Out :=
  if s.dev.cfg.straps.crewRole = 2 then s.done (s.dev.hostLoss s.mem cause) else s.same

/-- HOST_ADOPT: a member adopts its held state (R542). -/
def execHostAdopt (s : State) : Out :=
  if s.dev.cfg.straps.crewRole = 2 && decide (s.dev.fwState = 8) then s.done (s.dev.adopt s.mem) else s.same

/-! ### Loading firmware (R460, R461, R520 to R524) -/

/-- The duties of a core at start, as COX_STATE.DUTY (R525). -/
def Device.dutyOf (d : Device) (i c : Nat) : Nat :=
  match c with
  | 0 => if i = 0 then 1 else 0
  | 1 => 2
  | 2 => 4
  | 4 => if i = 1 ∨ d.model.idies.length = 1 then 8 else 0
  | 5 => 16
  | 6 => 32
  | 7 => 64
  | _ => 0

/-- The cores of an I-die start Tiller with their duties (R521, R525). -/
def Device.startCores (d : Device) (i : Nat) : Device :=
  each (fun (d : Device) c => (d.put (.cox i c) Fld.COX_STATE_STATE 1).put (.cox i c) Fld.COX_STATE_DUTY (d.dutyOf i c)) d (List.range 8)

/-- A delivery ends REJECTED or the handshake REFUSED: FW_LOAD, bit 19 of the PKG_ page (R70). -/
def Device.fwLoadErr (d : Device) : Device := (d.err .pkg 19 (Config.blockErrCode 0x18 19) d.fwState).irq .pkg 19

/-- The version handshake (R523, R524): TRAINING, or REFUSED. -/
def Device.handshake (d : Device) (img : List Byte) : Device :=
  let v := Config.fwRange (img.map BitVec.toNat)
  let d := ((d.put .pkg Fld.PKG_FW_VER_MIN_MAJOR v.1).put .pkg Fld.PKG_FW_VER_MAX_MAJOR v.2.1).put .pkg Fld.PKG_FW_VER_MINOR v.2.2
  if d.compatible then
    ((d.put .pkg Fld.PKG_FW_VER_AGREED (d.fld .pkg Fld.PKG_DRV_VER_MAJOR)).put .pkg Fld.PKG_TRAIN_PHASE 1).setFwState 6
  else (d.setFwState 5).fwLoadErr

/-- The boot ROMs take an image through R461 and start it (R521, R522): REJECTED with its check, or the cores and the handshake. -/
def Device.bootFirmware (d : Device) (img : List Byte) : Device :=
  let bytes := img.map BitVec.toNat
  let reject := fun (d : Device) (i n : Nat) => (d.put .pkg Fld.PKG_FW_STATE_DETAIL (16 * i + n)).setFwState 4 |>.fwLoadErr
  let r0 := d.bootImage 0 bytes
  let r1 := if d.hasIdie 1 then r0.1.bootImage 1 bytes else (r0.1, 0)
  if r0.2 ≠ 0 then reject r0.1 0 r0.2
  else if r1.2 ≠ 0 then reject r1.1 1 r1.2
  else
    let d := r1.1.setFw { r1.1.fw with sram := r1.1.model.idies.map fun i => (i, img) }
    (each (fun (d : Device) i => d.startCores i) d d.model.idies).handshake img

/-- FW_LOAD_GO: a write of PKG_FW_CTL.GO (R520, R521): accepted in WAIT_FW or REJECTED with Bus Master Enable of the PF and a length in range; the
boot ROM reads the image from the host, and the command's second run takes it. -/
def execFwLoadGo (r : Req) (value : Nat) (s : State) : Out :=
  let d := s.dev
  let len := d.fld .pkg Fld.PKG_FW_LEN_BYTES
  let w := HostWant.unit "fw" 0 0
  let take := fun (d : Device) => match d.dataAt s.mem 0 w (hostMem + d.fld .pkg Fld.PKG_FW_ADDR_ADDR * 4096) len with
    | .ready d bs _ => s.done (d.bootFirmware bs)
    | .asked d => s.done d
    | .failed d _ => s.done ((d.put .pkg Fld.PKG_FW_STATE_DETAIL d.freeVal).freeNext.setFwState 4).fwLoadErr
    | .notNow => s.same
  if !d.mayAccess r .pkg || !bit value 0 then s.same
  else if d.fwState = 3 then
    (match d.xferOf w with
     | some x => if x.left = 0 then take d else s.done (d.hdrErr .pkg 1)
     | none => s.done (d.hdrErr .pkg 1))
  else if (d.fwState ≠ 2 ∧ d.fwState ≠ 4) || !d.busMaster 0 || decide (len < 4096 ∨ 16777216 < len) || decide (d.tagRoom = 0) then s.done (d.hdrErr .pkg 1)
  else take ((d.setFwState 3).put .pkg Fld.PKG_FW_STATE_DETAIL 0)

/-- MEMBER_FW_DELIVERY: a member receives its image and the stroke package's PKG_DRV_VER, verifies it itself and performs the handshake (R495, R522); the
stroke package learns the outcome. -/
def execMemberFwDelivery (image : List Byte) (drvVer : Nat) (s : State) : Out :=
  let d := s.dev
  if d.cfg.straps.crewRole ≠ 2 ∨ (d.fwState ≠ 2 ∧ d.fwState ≠ 4) then s.same
  else
    let d := (d.put .pkg Fld.PKG_DRV_VER_MINOR (drvVer % 256)).put .pkg Fld.PKG_DRV_VER_MAJOR (drvVer / 256)
    let d := d.bootFirmware image
    s.done (d.msg "member-firmware" 0 [d.fld .pkg Fld.PKG_CREW_INDEX, d.fwState])

/-! ### Training (R611 to R614) -/

/-- A region is re-initialised (R22). -/
def Device.reinitRegion (d : Device) (n r : Nat) : Device :=
  let lo := (Page.tile n (128 * r)).base
  let inTiles := fun (b : Nat) => decide (lo ≤ b ∧ b < lo + 0x100000)
  let inClu := fun (b : Nat) => decide ((Page.clu n (8 * r)).base ≤ b ∧ b < (Page.clu n (8 * r)).base + 8 * 0x2000)
  let inRgn := fun (b : Nat) => decide ((Page.rgn n r).base ≤ b ∧ b < (Page.rgn n r).base + 0x1000)
  let run := fun (k : Nat) => inTiles (k / 32) && decide (k / 32 % 0x2000 = Fld.TILE_RUN_RUNNING.off)
  let lb := fun (k : Nat) => inTiles (k / 32) && decide (k / 32 % 0x2000 = Fld.TILE_LB_LB0_STATE.off)
  let d := each (fun (d : Device) i => d.stZero (tileMem n i + 0x40000) 0x50000) d (regionTiles r)
  let d := d.stZero (cbufMem n (8 * r)) (8 * 2 ^ 21)
  let d := d.setTiles (Tbl.drop d.tiles fun k => decide (k / 2048 = n ∧ k % 2048 / 128 = r))
  let d := d.setTokHold (Tbl.del d.tokHold (16 * n + r))
  let d := d.setReg { d.reg with
    cur := Tbl.drop d.reg.cur fun k => lb k || run k
    cnt := Tbl.drop d.reg.cnt fun k => inTiles k || inClu k || inRgn k }
  d.put (.rgn n r) Fld.RGN_HOLD_USED 0

/-- The edges of a T-die whose links run, with the die at the other end. -/
def Device.upEdges (d : Device) (n : Nat) : List (Nat × Nat) :=
  ((List.range 4).filter fun e => d.flag (.d2d n e) Fld.D2D_STATE_UP).map fun e => (e, d.peerDie n e)

/-- One round of shortening distances to a die, in hops between T-dies. -/
def Device.relax (d : Device) (t : Tbl Nat) : Tbl Nat :=
  d.model.tdies.foldl (fun t n =>
    (d.upEdges n).foldl (fun t ep =>
      match Tbl.look t ep.2 with
      | some h => if (ep.2 < 8 ∨ h = 0) ∧ h + 1 < Tbl.lookD t n 99 then Tbl.put t n (h + 1) else t
      | none => t) t) t

/-- The first-hop edge of the shortest route from T-die n to die `dst`; among equal routes the one whose first hop has the lower die number (R17). -/
def Device.routeEdge (d : Device) (n dst : Nat) : Option Nat :=
  let t := (List.range 8).foldl (fun t _ => d.relax t) ([(dst, 0)] : Tbl Nat)
  match Tbl.look t n with
  | none => none
  | some h =>
    let ok := (d.upEdges n).filter fun ep => decide (Tbl.lookD t ep.2 99 + 1 = h) && decide (ep.2 < 8 ∨ ep.2 = dst)
    (ok.foldl (fun (acc : Option (Nat × Nat)) ep => match acc with
      | none => some ep
      | some a => if ep.2 < a.2 then some ep else some a) none).map Prod.fst

/-- Firmware writes the route tables and commits them (R17, R18, R557); a route that changed is recorded. -/
def Device.writeRoutes (d : Device) : Device :=
  each (fun (d : Device) n =>
    let p := Page.tdie n
    let d := each (fun (d : Device) x =>
      let v := match (if x = n then none else d.routeEdge n x) with
        | some e => (e * (1 + 4 + 16 + 64 + 256), 1)
        | none => (0, 0)
      let changed := decide (d.appI p Fld.TDIE_ROUTE_EDGE x ≠ v.1) || decide (d.appI p Fld.TDIE_ROUTE_VALID x ≠ v.2)
      let d := (d.putI p Fld.TDIE_ROUTE_EDGE x v.1).putI p Fld.TDIE_ROUTE_VALID x v.2
      if changed then d.cairn p 0x0403 x else d) d (List.range 10)
    (d.fwCommit p).put p Fld.TDIE_STATE_EDGES_UP ((d.upEdges n).foldl (fun m ep => setBit m ep.1) 0)) d d.model.tdies

/-- A D2D link as training leaves it (R16): its running modules and those at half width. -/
def Device.trainLink (d : Device) (n e modules half : Nat) : Device :=
  let p := Page.d2d n e
  if d.peerDie n e = 15 then d.put p Fld.D2D_STATE_POWERED_DOWN 1
  else ((d.put p Fld.D2D_STATE_UP (b2n (decide (modules ≠ 0)))).put p Fld.D2D_STATE_MODULES modules).put p Fld.D2D_STATE_HALF half

/-- The transfer rates of R298, fastest first. -/
def ddrRates : List Nat := [8800, 8000, 7200, 6400, 5600, 4800]

/-- The rate at which a channel trains (R298); none where its population is not supported. -/
def dimmRate (x : Dimm) : Option Nat :=
  if (x.count ≠ 1 ∧ x.count ≠ 2) || !([32, 64, 96, 128, 256] : List Nat).contains x.sizeGib then none
  else ddrRates.find? fun r => decide (r ≤ x.rated ∧ r ≤ (if x.count = 1 then 8800 else 6400))

/-- What makes channels identical (R299). -/
def dimmKind (x : Dimm) : Nat := b2n x.mrdimm + 2 * x.count + 8 * x.sizeGib + 8192 * (dimmRate x).getD 0

def dimmChan (x : Dimm) : Nat := 8 * x.i + x.ch

/-- A set of identical channels that reaches N_CH, as (tier size in GiB, rate, lowest channel, kind); the better of two by R299. -/
def betterSet (a b : Nat × Nat × Nat × Nat) : Bool :=
  decide (b.1 < a.1) || (decide (a.1 = b.1) && (decide (b.2.1 < a.2.1) || (decide (a.2.1 = b.2.1) && decide (a.2.2.1 < b.2.2.1))))

/-- The channels that firmware selects for the tier (R299), by number. -/
def selectTier (xs : List Dimm) : List Nat :=
  let ok := xs.filter fun x => (dimmRate x).isSome
  let of := fun (k : Nat) => (ok.filter fun x => decide (dimmKind x = k)).foldl (fun l x => insSet (dimmChan x) l) []
  let kinds := ok.foldl (fun l x => insSet (dimmKind x) l) []
  match ([16, 8, 4, 2, 1] : List Nat).find? fun n => kinds.any fun k => decide (n ≤ (of k).length) with
  | none => []
  | some n =>
    let sets := (kinds.filter fun k => decide (n ≤ (of k).length)).map fun k =>
      (n * (k / 2 % 4) * (k / 8 % 1024), k / 8192, (of k).headD 0, k)
    match sets.foldl (fun (acc : Option (Nat × Nat × Nat × Nat)) x => match acc with
      | none => some x
      | some a => if betterSet x a then some x else some a) none with
    | none => []
    | some b => (of b.2.2.2).take n

/-- The DDR5 channels train and the tier is selected (R298, R299, R614). -/
def Device.trainDdr (d : Device) (dimms : List Dimm) (unsupported : List (Nat × Nat × Nat × Nat)) : Device :=
  if d.cfg.part.noDdr then d
  else
    let dimms := dimms.filter fun x => d.hasIdie x.i && decide (x.ch < 8)
    let sel := selectTier dimms
    let d := each (fun (d : Device) (u : Nat × Nat × Nat × Nat) =>
      if d.hasIdie u.1 then d.cairn (.ddr u.1 u.2.1) 0x0801 (u.2.2.1 + u.2.2.2 * 2 ^ 32) else d) d unsupported
    let d := each (fun (d : Device) x =>
      let p := Page.ddr x.i x.ch
      let d := ((d.put p Fld.DDR_CFG_DIMMS x.count).put p Fld.DDR_CFG_MRDIMM (b2n x.mrdimm)).put p Fld.DDR_CFG_SIZE_GIB x.sizeGib
      match dimmRate x with
      | none => d.cairnOpen p 0x0801
      | some r =>
        let used := sel.contains (dimmChan x)
        (((d.put p Fld.DDR_CFG_RATE (r / 100)).put p Fld.DDR_STATE_TRAINED 1).put p Fld.DDR_STATE_USED (b2n used)).put p
          Fld.DDR_STATE_UNUSED (b2n (!used))) d dimms
    let size := (dimms.filter fun x => sel.contains (dimmChan x)).foldl (fun t x => t + x.count * x.sizeGib) 0
    (d.put .pkg Fld.PKG_DDR_TIER_CHANNELS sel.length).put .pkg Fld.PKG_DDR_TIER_SIZE_GIB size

/-- TRAINING_COMPLETE: the last parallel training step ends (R611 to R614): links and routes, regions self-tested and re-initialised, stacks and channels
trained, READY; or DEVICE_FATAL. `links`: links not at full width as (T-die, edge, modules, half); `fenced`: regions that fail their self-test, with
the test; `failedStacks`; `dimms` and `unsupported` channels as training finds them. -/
def execTrainingComplete (links : List (Nat × Nat × Nat × Nat)) (fenced : List (Nat × Nat × Nat)) (failedStacks : List (Nat × Nat))
    (dimms : List Dimm) (unsupported : List (Nat × Nat × Nat × Nat)) (s : State) : Out :=
  let d := s.dev
  if d.fwState ≠ 6 then s.same
  else
    let warm := decide (d.fld .pkg Fld.PKG_RESET_CAUSE_WARM_COUNT ≠ 0)
    let found := fun (n e : Nat) => ((links.find? fun l => decide (l.1 = n ∧ l.2.1 = e)).map fun l => (l.2.2.1 % 16, l.2.2.2 % 16)).getD (15, 0)
    let d := each (fun (d : Device) n => each (fun (d : Device) e => d.trainLink n e (found n e).1 (found n e).2) d (List.range 4)) d d.model.tdies
    let d := d.writeRoutes
    let degraded := (links.filter fun l => d.peerDie l.1 l.2.1 ≠ 15 && decide (l.2.2.1 % 16 ≠ 15 ∨ l.2.2.2 % 16 ≠ 0)).length
    let d := (d.put .pkg Fld.PKG_TRAIN_PHASE 2).put .pkg Fld.PKG_TRAIN_D2D_DEGRADED degraded
    let d := each (fun (d : Device) n => each (fun (d : Device) r =>
        let d := (d.startClock (256 * n + r)).reinitRegion n r
        (d.put (.rgn n r) Fld.RGN_CLK_MHZ (d.isl (256 * n + r)).mhz).put (.rgn n r) Fld.RGN_CLK_MV (regionMv (d.isl (256 * n + r)).mhz))
      d (List.range 16)) (d.setPwr { d.pwr with gated := [] }) d.model.tdies
    let fenced := fenced.filter fun f => d.hasTdie f.1 && decide (f.2.1 < 16)
    let d := each (fun (d : Device) (f : Nat × Nat × Nat) =>
      (d.fenceRegion f.1 f.2.1 f.2.2).cairnRgn (.rgn f.1 f.2.1) f.2.1 0x0305 f.2.2) d fenced
    let d := d.put .pkg Fld.PKG_TRAIN_FENCED fenced.length
    let d := each (fun (d : Device) n => each (fun (d : Device) k =>
      if failedStacks.contains (n, k) then d.put (.hbmc n k) Fld.HBMC_STATE_FAILED 1
      else (d.put (.hbmc n k) Fld.HBMC_STATE_TRAINED 1).put (.hbmc n k) Fld.HBMC_STATE_SELF_REFRESH 0) d (List.range 3)) d d.model.tdies
    let d := (d.trainDdr dimms unsupported).put .pkg Fld.PKG_TRAIN_PRESERVED (b2n warm)
    let d := each (fun (d : Device) n => d.put (.tdie n) Fld.TDIE_STATE_TRAINED 1) d d.model.tdies
    if d.model.tdies.any fun n => (d.upEdges n).isEmpty then s.done ((d.put .pkg Fld.PKG_TRAIN_FAILED 1).fatal s.mem 0x03 0)
    else if d.model.tdies.any fun n => (List.range 3).any fun k => d.flag (.hbmc n k) Fld.HBMC_STATE_FAILED then
      s.done ((d.put .pkg Fld.PKG_TRAIN_FAILED 1).fatal s.mem 0x02 0)
    else s.done ((d.put .pkg Fld.PKG_TRAIN_PHASE 3).setFwState 7).adminSetup

/-! ### Cox cores (R527 to R533, R593 to R595) -/

def Device.core (d : Device) (i c : Nat) : CoreSt := Tbl.lookD d.cores (8 * i + c) ⟨[], none, none⟩
def Device.setCore (d : Device) (i c : Nat) (x : CoreSt) : Device := d.setCores (Tbl.put d.cores (8 * i + c) x)

/-- COX_STATE.STATE. -/
def Device.coxState (d : Device) (i c : Nat) : Nat := d.fld (.cox i c) Fld.COX_STATE_STATE

/-- The partner of a core (R525). -/
def Device.coxPartner (d : Device) (i c : Nat) : Option Nat :=
  let x := if c % 2 = 0 then c + 1 else c - 1
  if d.coxState i x = 1 then some x
  else if d.coxState i x = 3 then (List.range 8).find? fun k => decide (k ≠ c) && decide (d.coxState i k = 1)
  else none

/-- The duties of a core pass to another. -/
def Device.addDuty (d : Device) (i c duty : Nat) : Device :=
  d.put (.cox i c) Fld.COX_STATE_DUTY (d.fld (.cox i c) Fld.COX_STATE_DUTY ||| duty)

/-- A cox core crashes (R526, R527, R529, R531, R532): it restarts, or, within 1 s of its previous crash, enters DOWN and its partner takes its duties. -/
def Device.coxCrash (d : Device) (m : Memory) (i c cause pc : Nat) : Device :=
  let p := Page.cox i c
  let x := d.core i c
  let now := d.clk.now
  let again := match x.crashed with
    | some t => decide (now < t + 1000000000)
    | none => false
  let d := ((d.put p Fld.COX_CRASH_CAUSE cause).put p Fld.COX_CRASH_VALID 1).put p Fld.COX_CRASH_PC pc
  let d := (d.incSat p Fld.COX_STATE_CRASHES 1).orphanLeases fun o => decide (o = ownerId (.cox i c))
  let count := d.fld p Fld.COX_STATE_CRASHES
  let d := (d.event m 0 0x1501 p.island [8 * i + c, cause, count]).cairn p 0x1501 (8 * i + c + cause * 2 ^ 16 + count * 2 ^ 32)
  if !again then
    let d := (d.put p Fld.COX_STATE_STATE 2).setCore i c { x with crashed := some now, restart := some (now + 5000000) }
    if bit (d.fld p Fld.COX_STATE_DUTY) 2 && decide (d.coxState i (if c % 2 = 0 then c + 1 else c - 1) = 1) then
      d.addDuty i (if c % 2 = 0 then c + 1 else c - 1) 4
    else d
  else
    let duty := d.fld p Fld.COX_STATE_DUTY
    let d := (d.put p Fld.COX_STATE_STATE 3).setCore i c { x with crashed := some now, restart := none }
    let d := match d.coxPartner i c with
      | none => d
      | some k =>
        let d := ((d.addDuty i k duty).put (.cox i k) Fld.COX_STATE_MOVED 1).put p Fld.COX_STATE_DUTY 0
        (d.event m 0 0x1502 p.island [8 * i + c, 8 * i + k]).cairn p 0x1502 (8 * i + c + (8 * i + k) * 2 ^ 32)
    if ((List.range 8).filter fun k => decide (d.coxState i k = 3)).length = 3 then
      (d.fatal m 0x01 i).msg "mgmt-device-fatal" 0 [0x01, i]
    else d

/-- A cause of R527 at a core that runs. -/
def coxCrashCmd (i c cause pc : Nat) (s : State) : Out :=
  if s.dev.present (.cox i c) && decide (s.dev.coxState i c = 1 ∨ s.dev.coxState i c = 2) then s.done (s.dev.coxCrash s.mem i c cause pc) else s.same

/-- COX_WATCHDOG_EXPIRY: TIMEOUT_US passed without a kick by the core (R527, R544). -/
def execCoxWatchdogExpiry (i c pc : Nat) (s : State) : Out :=
  if s.dev.present (.cox i c) && decide (s.dev.coxState i c = 1) then s.done ((s.dev.tick (.cox i c) 1).coxCrash s.mem i c 1 pc) else s.same

/-- COX_WDT_KICK: only the core itself restarts its watchdog (R527); the watchdog's running time is not in the model (log entry 26). -/
def execCoxWdtKick (r : Req) (i c : Nat) (s : State) : Out :=
  if !s.dev.mayAccess r (.cox i c) || decide (r = .cox i c) then s.same else s.done (s.dev.hdrErr (.cox i c) 1)

/-- COX_PANIC: Tiller's write crashes the core (R527, R544). -/
def execCoxPanic (r : Req) (i c pc : Nat) (s : State) : Out := if s.dev.mayAccess r (.cox i c) then coxCrashCmd i c 4 pc s else s.same

/-- TCM_UE (R527). -/
def execTcmUe (i c pc : Nat) (s : State) : Out := coxCrashCmd i c 3 pc s

/-- DOUBLE_TRAP (R527). -/
def execDoubleTrap (i c pc : Nat) (s : State) : Out := coxCrashCmd i c 2 pc s

/-- SRAM_WRITE: the write is refused and the core crashes (R522, R527). -/
def execSramWrite (i c pc : Nat) (s : State) : Out := coxCrashCmd i c 5 pc s

/-- A restarting core's 5 ms have passed: it resumes its duties (R529). -/
def Device.coxResume (d : Device) (k : Nat) (x : CoreSt) : Device :=
  (((d.put (.cox (k / 8) (k % 8)) Fld.COX_STATE_STATE 1).tick (.cox (k / 8) (k % 8)) 0).setCore (k / 8) (k % 8) { x with restart := none })

/-- One nanosecond of package time passes (log entry 4): a core whose restart has ended runs. -/
def Device.idle (d : Device) : Device :=
  let d := d.setClk { d.clk with now := d.clk.now + 1 }
  each (fun (d : Device) kv => match kv.2.restart with
    | some t => if t ≤ d.clk.now then d.coxResume kv.1 kv.2 else d
    | none => d) d d.cores

/-- The status that poison gives a command of a queue type (R338, R422); none for a type whose chapter names no such status. -/
def poisonStatus (typ : Nat) : Option Nat := if typ = 4 then some 0x020B else if typ = 5 then some 0x0106 else none

/-- COX_POISON_LOAD: a load of Tiller meets poison, and the command that made it fails with its poison status (R528, R544). -/
def execCoxPoisonLoad (i c f q : Nat) (s : State) : Out :=
  let d := s.dev
  if !d.present (.cox i c) || decide (d.coxState i c ≠ 1) then s.same
  else
    let d := d.tick (.cox i c) 2
    match d.oldest f q with
    | none => s.done d
    | some x =>
      let typ := d.queueTyp f q
      (match poisonStatus typ with
       | some st => s.done ((d.dropFetched x.id).completeStatus s.mem x (x.cid typ) st)
       | none => s.done ((d.dropFetched x.id).completeStatus s.mem x (x.cid typ) d.freeVal).freeNext)

/-- COX_JRNL_APPEND: the core appends a record to its own journal (R533, R544). A record that the 256 KiB do not hold is not appended (log entry 26). -/
def execCoxJrnlAppend (r : Req) (i c : Nat) (record : List Byte) (s : State) : Out :=
  let d := s.dev
  let p := Page.cox i c
  let x := d.core i c
  let used := (x.journal.map List.length).sum
  if r ≠ .cox i c || !d.present p || decide (262144 < used + record.length) then s.same
  else s.done (((d.setCore i c { x with journal := x.journal ++ [record] }).put p Fld.COX_JRNL_USED (used + record.length)).tick p 3)

/-- BLY_STATE.DEBUG shows whether any core is HALTED (R594). -/
def Device.showDebug (d : Device) : Device :=
  d.put .bly Fld.BLY_STATE_DEBUG (b2n (d.model.idies.any fun i => (List.range 8).any fun c => decide (d.coxState i c = 4)))

/-- COX_TRIGGER_HALT: a trigger fires while debug is open; the core halts, with the action of COX_DBG_CFG (R593, R595, R577). -/
def execCoxTriggerHalt (i c : Nat) (s : State) : Out :=
  let d := s.dev
  if !d.present (.cox i c) || decide (d.coxState i c ≠ 1) || !d.debugOpen then s.same
  else
    let act := d.fld (.cox i c) Fld.COX_DBG_CFG_ON_HALT
    let d := d.put (.cox i c) Fld.COX_STATE_STATE 4
    let d := if bit act 0 then each (fun (d : Device) k => if d.coxState i k = 1 then d.put (.cox i k) Fld.COX_STATE_STATE 4 else d) d (List.range 8) else d
    let d := if bit act 1 && decide (d.fldI .bly Fld.BLY_HOLD_CTL_ACTIVE 2 = 0) then d.raiseSlot 2 1 0 0 0x06 false else d
    s.done d.showDebug

/-- COX_DEBUG_RESUME: the debug port resumes a halted core (R593). -/
def execCoxDebugResume (i c : Nat) (s : State) : Out :=
  let d := s.dev
  if !d.present (.cox i c) || decide (d.coxState i c ≠ 4) || !d.debugOpen then s.same
  else s.done (d.put (.cox i c) Fld.COX_STATE_STATE 1).showDebug

end Sys2Proof.Machine
end

