-- ==== Sys2Proof/Machine/Hostlink.lean ====
section
/-!
DEFINITION. The PCIe endpoint (spec/15, R469 to R501, R515, R516): completions of host reads, Bus Master Enable, power and link states, virtual functions and
function-level resets, and with them the start of a pitch, whose boundary a reset or D3hot may wait for.
-/
namespace Sys2Proof.Machine

/-! ### Host reads that complete (R475, R477) -/

/-- PCIE_TAGS shows the tags in use (R499). -/
def Device.showTags (d : Device) : Device := d.put (.pcie 0) Fld.PCIE_TAGS_OUTSTANDING d.hostReads.length

/-- A transfer whose pieces have all ended: a submission entry is handed to its block, or its failure completes an entry whose CID never arrived; other
transfers wait for the unit that asked. -/
def Device.endRead (d : Device) (m : Memory) (x : Xfer) : Device :=
  match x.want with
  | .entry f q =>
    let d := d.endXfer x.want
    if x.status = 0 then d.hand f q x.bytes
    else
      (match d.queue f q with
       | none => d
       | some y =>
         let h := (y.head + 1) % y.size
         ((d.setQueue f q { y with head := h, stopped := false }).complete m f q h (leBytes 2 d.freeVal ++ leBytes 2 x.status)).freeNext)
  | _ => d

/-- A piece has ended, with a status of R501 or 0: its tag is free, its transfer takes the bytes or the failure, and pieces that waited are issued. -/
def Device.endPiece (d : Device) (m : Memory) (tag : Nat) (r : HostRead) (status : Nat) : Device :=
  let d := (d.setHostReads (Tbl.del d.hostReads tag)).showTags
  let d := if r.dead then d else
    let d := d.setXfers (d.xfers.map fun y : Xfer => if y.want = r.want then
      { y with
        got := if status = 0 then y.got ++ [(r.off, r.got)] else y.got
        left := y.left - 1
        status := if y.status = 0 then status else y.status } else y)
    match d.xferOf r.want with
    | some x => if x.left = 0 then d.endRead m x else d
    | none => d
  d.issueMore

/-- HOST_COMPLETION: bytes arrive for a tag, or its read ends with an error; a completion for a tag that is free or abandoned is discarded and counted
(R475, R477, R515). -/
def execHostCompletion (tag : Nat) (data : List Byte) (result : CplResult) (poisoned : Bool) (s : State) : Out :=
  let d := s.dev
  match Tbl.look d.hostReads tag with
  | none => s.done (d.tick (.pcie 0) 6)
  | some r =>
    let data := data.take (r.len - r.got.length)
    let d := d.linkWake.count (.pcie 0) 3 data.length
    let d := if r.late then d.tick (.pcie 0) 6 else d
    let d := if poisoned then d.linkErr 18 8 else d
    let r := { r with got := r.got ++ data, poisoned := r.poisoned || poisoned }
    match result with
    | .success =>
      if r.got.length < r.len then s.done (d.setHostReads (Tbl.put d.hostReads tag r))
      else s.done (d.endPiece s.mem tag r (if r.poisoned then 0x0905 else 0))
    | .unsupported => s.done ((d.linkErr 17 5).endPiece s.mem tag r 0x0902)
    | .abort => s.done ((d.linkErr 17 5).endPiece s.mem tag r 0x0903)

/-- COMPLETION_TIMEOUT: the tag's completion timeout expires (R475, R477). -/
def execCompletionTimeout (tag : Nat) (s : State) : Out :=
  match Tbl.look s.dev.hostReads tag with
  | none => s.same
  | some r => s.done ((s.dev.linkErr 16 4).endPiece s.mem tag r 0x0904)

/-! ### MSI-X and Bus Master Enable (R483 to R487) -/

/-- The pending bits of a function whose vectors may now send are sent (R484, R487). -/
def Device.sendPending (d : Device) (f : Nat) : Device :=
  let go := fun (k : Nat) => decide (k / 2048 = f) && d.vectorOpen f (k % 2048)
  let now := d.msix.pba.filter go
  let d := d.setMsix { d.msix with pba := d.msix.pba.filter fun k => !now.contains k }
  each (fun (d : Device) k => d.sendMsix f (k % 2048)) d now

/-- MSIX_FUNCTION_MASK_CLEAR: the Function Mask clears and what it held is sent (R487). -/
def execMsixFunctionMaskClear (f : Nat) (s : State) : Out :=
  if !s.dev.funcLive f then s.same
  else s.done ((s.dev.setMsix { s.dev.msix with fmask := delSet f s.dev.msix.fmask }).sendPending f)

/-- PCIE_BME_STATE shows the functions in hold (R499). -/
def Device.showHold (d : Device) : Device :=
  (d.put (.pcie 0) Fld.PCIE_BME_STATE_HOLDING (b2n (!d.link.holding.isEmpty))).put (.pcie 0) Fld.PCIE_BME_STATE_FUNC (d.link.holding.headD 0)

/-- A function's Bus Master Enable clears (R483): nothing new is issued for it, and posted writes and messages are held. -/
def Device.bmeOff (d : Device) (f : Nat) : Device := d.setMsix { d.msix with bme := delSet f d.msix.bme }

/-- It is set (R484, R485): what was discarded is issued again in full, held messages are sent, and waiting reads go out. While the host is lost only the
BME_LOST entries are written. -/
def Device.bmeOn (d : Device) (f : Nat) : Device :=
  let d := d.setMsix { d.msix with bme := insSet f d.msix.bme }
  let mine := d.heldW.filter fun w => decide (w.func = f)
  let d := d.setHeldW (d.heldW.filter fun w => decide (w.func ≠ f))
  let d := each (fun (d : Device) (w : HeldWrite) =>
    if d.hostGone f && !bmeLost w.bytes then d.tick (.pcie 0) 9 else d.hostIssue f w.addr w.bytes) d mine
  (d.sendPending f).issueMore

/-- BUS_MASTER_DISABLE: the hold starts, and a stroke package tells its crew (R483, R486). -/
def execBusMasterDisable (f : Nat) (s : State) : Out :=
  let d := s.dev
  if !d.funcLive f || !d.busMaster f then s.same
  else s.done ((((d.bmeOff f).setLink { d.link with holding := insSet f d.link.holding }).showHold).toMembers "BME_CLEAR" [f])

/-- BUS_MASTER_ENABLE: the hold ends, or after its expiry the BME_LOST entries are written (R484 to R486). -/
def execBusMasterEnable (f : Nat) (s : State) : Out :=
  let d := s.dev
  if !d.funcLive f || d.busMaster f then s.same
  else s.done (((((d.setLink { d.link with holding := delSet f d.link.holding }).showHold).bmeOn f)).toMembers "BME_RESTORE" [f])

/-- BME_CLEAR: a member fences the function's host-directed traffic (R486). -/
def execBmeClear (f : Nat) (s : State) : Out := if s.dev.cfg.straps.crewRole = 2 then s.done (s.dev.bmeOff f) else s.same

/-- BME_RESTORE: a member restarts the function's stalled queues (R486). -/
def execBmeRestore (f : Nat) (s : State) : Out := if s.dev.cfg.straps.crewRole = 2 then s.done (s.dev.bmeOn f) else s.same

/-- A held write as a completion entry of its queue that reports BME_LOST; none where it is no completion entry (R485). -/
def Device.lostEntry (d : Device) (w : HeldWrite) : Option HeldWrite :=
  match d.queue w.func w.queue with
  | none => none
  | some x =>
    let lo := x.base - hostMem
    if x.typ = 8 && isHost x.base && decide (w.bytes.length = 16 ∧ lo ≤ w.addr ∧ w.addr < lo + 16 * x.size) then
      some { w with bytes := w.bytes.take 2 ++ leBytes 2 0x0901 ++ w.bytes.drop 4 }
    else none

/-- BME_HOLD_EXPIRY: stalled transfers fail BME_LOST, bit 20 is set, and host loss starts (R485, R537). -/
def execBmeHoldExpiry (f : Nat) (s : State) : Out :=
  let d := s.dev
  if !d.link.holding.contains f then s.same
  else
    let d := d.setHeldW (d.heldW.filterMap fun w : HeldWrite => if w.func = f then d.lostEntry w else some w)
    let d := (d.setLink { d.link with holding := delSet f d.link.holding, expired := insSet f d.link.expired }).showHold
    let d := (d.put (.pcie 0) Fld.PCIE_BME_STATE_EXPIRED 1).cairnOpen (.pcie 0) (Config.blockErrCode 0x09 20)
    let d := (d.errNoCairn (.pcie 0) 20 (Config.blockErrCode 0x09 20)).irq (.pcie 0) 20
    s.done ((d.hostLoss s.mem 2).toMembers "HOST_LOST" [2])

/-! ### Power and link states (R489 to R494) -/

/-- In D3hot, once no pitch runs: region clocks stop, memory self-refreshes, and ports stay up only where a LINK wake is enabled (R489, R490). -/
def Device.sleep (d : Device) (m : Memory) : Device :=
  let runs := d.parts.any fun kv => decide (d.pState kv.1 = 3 ∨ d.pState kv.1 = 4 ∨ d.pState kv.1 = 5)
  if d.fld (.pcie 0) Fld.PCIE_LINK_STATE_DSTATE ≠ 3 || runs then d
  else
    let d := each (fun (d : Device) nr => d.stopClock (256 * nr.1 + nr.2)) d d.runningRegions
    let d := each (fun (d : Device) n => each (fun (d : Device) k => d.put (.hbmc n k) Fld.HBMC_STATE_SELF_REFRESH 1) d (List.range 3)) d d.model.tdies
    let d := each (fun (d : Device) i => each (fun (d : Device) ch =>
      if d.flag (.ddr i ch) Fld.DDR_STATE_TRAINED then d.put (.ddr i ch) Fld.DDR_STATE_SELF_REFRESH 1 else d) d (List.range 8)) d d.model.idies
    if d.flag (.pcie 0) Fld.PCIE_WAKE_LINK then d
    else each (fun (d : Device) i => each (fun (d : Device) p =>
      if d.flag (.eth i p) Fld.ETH_STATE_UP then d.portLost m i p 0 0 else d) d (List.range 4)) d d.model.idies

/-- The PF enters D3hot (R490, R492): as a loss of the host for firmware in READY. -/
def Device.enterD3 (d : Device) (m : Memory) : Device :=
  let d := d.put (.pcie 0) Fld.PCIE_LINK_STATE_DSTATE 3
  (if d.fwState = 7 then d.hostLoss m 4 else d).sleep m

/-- The PF returns to D0 (R490, R492): clocks and memory are restored, the fence lifts and parked RUNs may resume. -/
def Device.enterD0 (d : Device) : Device :=
  let d := d.put (.pcie 0) Fld.PCIE_LINK_STATE_DSTATE 0
  let off := (d.model.tdies.flatMap fun n => (List.range 16).map (256 * n + ·)).filter fun i => !(d.isl i).on && !d.pwr.gated.contains i
  let d := each (fun (d : Device) i => d.startClock i) d off
  let d := each (fun (d : Device) n => each (fun (d : Device) k => d.put (.hbmc n k) Fld.HBMC_STATE_SELF_REFRESH 0) d (List.range 3)) d d.model.tdies
  let d := each (fun (d : Device) i => each (fun (d : Device) ch => d.put (.ddr i ch) Fld.DDR_STATE_SELF_REFRESH 0) d (List.range 8)) d
    (if d.cfg.part.noDdr then [] else d.model.idies)
  if d.fwState = 8 ∧ d.fld .pkg Fld.PKG_HOST_STATE_CAUSE = 4 then
    let d := d.setParts (Tbl.mapV d.parts fun _ x => { x with park := 0 })
    let d := d.setConns (Tbl.mapV d.conns fun id c => if decide (c.st = 1 ∧ 2 < c.cls) && d.hostBivouac id then { c with st := 0 } else c)
    d.setFwState 7
  else d

/-- D3HOT_ENTRY: the PF is written to D3hot, for the whole crew (R489, R490, R492). -/
def execD3hotEntry (s : State) : Out :=
  let d := s.dev
  if !d.live || decide (d.fld (.pcie 0) Fld.PCIE_LINK_STATE_DSTATE = 3) then s.same
  else s.done ((d.enterD3 s.mem).toMembers "crew-dstate" [3])

/-- D0_ENTRY: the PF is written to D0 (R490, R492). -/
def execD0Entry (s : State) : Out :=
  let d := s.dev
  if !d.live || decide (d.fld (.pcie 0) Fld.PCIE_LINK_STATE_DSTATE = 0) then s.same
  else s.done (d.enterD0.toMembers "crew-dstate" [0])

/-- CREW_DSTATE: a member parks or resumes as the stroke package's PF does (R492). -/
def execCrewDstate (d3hot : Bool) (s : State) : Out :=
  let d := s.dev
  if d.cfg.straps.crewRole ≠ 2 then s.same
  else if d3hot then (if d.fld (.pcie 0) Fld.PCIE_LINK_STATE_DSTATE = 3 then s.same else s.done (d.enterD3 s.mem))
  else (if d.fld (.pcie 0) Fld.PCIE_LINK_STATE_DSTATE = 0 then s.same else s.done d.enterD0)

/-- PCIE_WAKE enables a source. -/
def Device.wakeOn (d : Device) : WakeSource → Bool
  | .mgmt => d.flag (.pcie 0) Fld.PCIE_WAKE_MGMT
  | .link => d.flag (.pcie 0) Fld.PCIE_WAKE_LINK
  | .alarm => d.flag (.pcie 0) Fld.PCIE_WAKE_ALARM
  | .crew => d.flag (.pcie 0) Fld.PCIE_WAKE_CREW

/-- A wake source fires (R491): in D3cold only a management wake, which asserts WAKE#; else PME_Status and PM_PME, with the link in L0. -/
def Device.wakeUp (d : Device) (source : WakeSource) : Device :=
  if !d.link.pmeEn || !d.wakeOn source then d
  else if d.pwr.groups < 6 then
    (if source = .mgmt && d.pwr.aux then (d.setPwr { d.pwr with wake := true }).pin "WAKE#" false else d)
  else if d.live then (d.linkWake.setLink { d.link with pmeStatus := true }).msg "PM_PME" 0 []
  else d

/-- WAKE_EVENT (R491). -/
def execWakeEvent (source : WakeSource) (s : State) : Out := s.done (s.dev.wakeUp source)

/-- WAKE: the WAKE message performs the management wake (R491, R632). -/
def execWake (s : State) : Out := if s.dev.pwr.aux then s.done ((s.dev.wakeUp .mgmt).msg "mgmt-ok" 0 []) else s.same

/-- L0P_NARROW: traffic stayed low through the window and the link narrows by one step (R493). -/
def execL0pNarrow (s : State) : Out :=
  let d := s.dev
  let p := Page.pcie 0
  let w := d.fld p Fld.PCIE_LINK_STATE_ACTIVE
  if !d.live || !d.flag p Fld.PCIE_LINK_STATE_FLIT || !d.link.l0pOk || !d.flag p Fld.PCIE_LINK_CTRL_L0P_EN || d.flag p Fld.PCIE_LINK_STATE_L1 ||
      decide (w < 4) then s.same
  else s.done ((d.put p Fld.PCIE_LINK_STATE_ACTIVE (w / 2)).tick p 13)

/-- L0P_WIDEN: the link returns to full width (R493). -/
def execL0pWiden (s : State) : Out :=
  let d := s.dev
  let p := Page.pcie 0
  if !d.live || decide (d.fld p Fld.PCIE_LINK_STATE_ACTIVE = d.fld p Fld.PCIE_LINK_STATE_WIDTH) then s.same
  else s.done ((d.put p Fld.PCIE_LINK_STATE_ACTIVE (d.fld p Fld.PCIE_LINK_STATE_WIDTH)).tick p 13)

/-- L1_ENTRY: the idle link enters L1, under ASPM or in D3hot (R494). -/
def execL1Entry (s : State) : Out :=
  let d := s.dev
  let p := Page.pcie 0
  if !d.live || d.flag p Fld.PCIE_LINK_STATE_L1 || !(d.link.l1Ok || decide (d.fld p Fld.PCIE_LINK_STATE_DSTATE = 3)) then s.same
  else s.done ((d.put p Fld.PCIE_LINK_STATE_L1 1).tick p 14)

/-- PME_TURN_OFF: answered with PME_TO_Ack, and the link enters L2/L3 Ready (R494). -/
def execPmeTurnOff (s : State) : Out :=
  let d := s.dev
  if !d.live then s.same else s.done ((d.linkWake.setLink { d.link with l2 := true }).msg "PME_TO_Ack" 0 [])

/-! ### Function-level resets (R480 to R482, R515, R516) -/

/-- A connection is gone with everything it holds. -/
def Device.dropConn (d : Device) (m : Memory) (id : Nat) : Device :=
  match d.conn id with
  | none => d
  | some c =>
    let g := d.gftDie c.owner
    let mine := fun (x : RxPkt) => match parseGft x.bytes with
      | some h => decide (h.conn = id)
      | none => false
    let d := d.setGftDie c.owner ⟨g.rx.filter (fun x => !mine x), g.miss.filter (fun x => !mine x), g.hold.filter fun x => decide (x.1 ≠ id)⟩
    ((((d.stallGroups m id).setConns (Tbl.del d.conns id)).showCached c.owner).showOutstanding c.owner).showSummit c.owner

/-- The partitions of a function. -/
def Device.partsOf (d : Device) (f : Nat) : List (Nat × Partition) := d.parts.filter fun kv => decide (kv.2.func = f)

/-- Steps 1 and 2 of R515: the fence; unissued writes and unsent frames are squashed; the memory keys and the mailbox request end; reads under way will
deliver nothing; each partition stops at its boundary; and the function's lease watchdog fires (R550). -/
def Device.flrBegin (d : Device) (m : Memory) (f : Nat) : Device :=
  if d.link.flr.contains f then d
  else
    let d := d.setLink { d.link with
      flr := insSet f d.link.flr
      holding := delSet f d.link.holding
      expired := delSet f d.link.expired }
    let d := if f = 0 then d else
      (((d.put (.vf f) Fld.VF_STATE_FLR 1).put (.vf f) Fld.VF_STATE_MBX_PENDING 0).put (.mbx f) Fld.VF_MBX_CTL_BUSY 0)
    let d := (d.setHeldW (d.heldW.filter fun w => decide (w.func ≠ f))).showHold
    let d := d.clearKeys m fun k => decide (k.func = f)
    let d := d.setFetched (d.fetched.filter fun x => decide (x.func ≠ f))
    let d := d.setBlocks (d.blocks.filter fun b => decide (b.func ≠ f))
    let d := d.setXfers (d.xfers.filter fun x => decide (x.func ≠ f))
    let d := d.setHostReads (Tbl.mapV d.hostReads fun _ (x : HostRead) => if x.func = f then { x with dead := true } else x)
    let d := d.setTmQueues (Tbl.mapV d.tmQueues fun _ (x : TmQueue) => { x with frames := x.frames.filter fun y : TmFrame => match y.tx with
      | some t => decide (t.1 ≠ f)
      | none => true })
    let d := d.setParts (Tbl.mapV d.parts fun q x => if x.func = f then
      { x with
        runs := if d.pState q = 3 ∨ d.pState q = 4 ∨ d.pState q = 5 then x.runs.take 1 else []
        stops := []
        park := 3 } else x)
    d.orphanLeases fun o => decide (o = 0x2000 + f)

/-- No pitch of the function runs. -/
def Device.flrDrained (d : Device) (f : Nat) : Bool :=
  (d.partsOf f).all fun kv => !decide (d.pState kv.1 = 3 ∨ d.pState kv.1 = 4 ∨ d.pState kv.1 = 5)

/-- A partition returns to the PF with its regions initialised (step 6 of R515). -/
def Device.flrPart (d : Device) (q : Nat) (x : Partition) : Device :=
  let d := d.unloadImage q x
  let d := each (fun (d : Device) nr => if d.flag (.rgn nr.1 nr.2) Fld.STATUS_FENCED then d else d.reinitRegion nr.1 nr.2) d (d.regionsOf q)
  match d.part q with
  | some x => d.setPart q { x with func := 0, park := 0 }
  | none => d

/-- Steps 5 to 7 of R515: connections, images, key slots and queues end; partitions return to the PF; configuration space resets; FLR_DONE. -/
def Device.flrFinish (d : Device) (m : Memory) (f : Nat) : Device :=
  let d := each (fun (d : Device) kv => if kv.2.func = f && !kv.2.crew then d.dropConn m kv.1 else d) d d.conns
  let d := each (fun (d : Device) i => d.eraseSlots i fun k => decide (k.owner = f) && !k.pkg) d d.model.idies
  let d := each (fun (d : Device) kv => d.flrPart kv.1 kv.2) d (d.partsOf f)
  let mine := fun (k : Nat) => decide (k / 65536 = f)
  let d := (d.setQueues (Tbl.drop d.queues mine)).setQueueMem (Tbl.del d.queueMem f)
  let d := d.setMsix ⟨delSet f d.msix.bme, delSet f d.msix.fmask, d.msix.pba.filter fun k => decide (k / 2048 ≠ f)⟩
  let d := d.setCur (Tbl.drop d.reg.cur fun k => decide ((Page.msix f).base ≤ k / 32 ∧ k / 32 < (Page.msix (f + 1)).base))
  let d := d.setHostReads (Tbl.mapV d.hostReads fun _ (x : HostRead) => if x.func = f then { x with late := true } else x)
  let link := { d.link with flr := delSet f d.link.flr }
  let d := d.setLink (if f = 0 then { Device.reset.link with flr := link.flr, pmeStatus := link.pmeStatus } else link)
  let d := if f = 0 then
      (List.range 64).foldl (fun (d : Device) w => d.putI .pkg Fld.PKG_MBR_SEL_SLICE w 0) ((d.put .pkg Fld.PKG_BAR4_WIN_ENABLE 0).put .pkg Fld.PKG_BAR4_WIN_BASE 0)
    else (d.put (.vf f) Fld.VF_STATE_FLR 0).irq (.vf f) 17
  d.event m 0 0x0A03 0xF00 [f]

/-- The reset ends once nothing runs. -/
def Device.flrCheck (d : Device) (m : Memory) (f : Nat) : Device := if d.link.flr.contains f && d.flrDrained f then d.flrFinish m f else d

/-- The VFs that exist. -/
def Device.liveVfs (d : Device) : List Nat := ((List.range 128).filter (1 ≤ ·)).filter fun n => d.flag (.vf n) Fld.VF_STATE_ENABLED

/-- VF_FLR: a function-level reset of a VF, on every member of a crew (R482, R515); one that runs already is not started again (R516). -/
def execVfFlr (n : Nat) (s : State) : Out :=
  let d := s.dev
  if n = 0 || !d.funcLive n || d.link.flr.contains n then s.same
  else s.done (((d.flrBegin s.mem n).toMembers "function-reset" [n]).flrCheck s.mem n)

/-- PF_FLR: a function-level reset of the PF and every VF, and a loss of the host (R480, R515, R516, R537). -/
def execPfFlr (s : State) : Out :=
  let d := s.dev
  if d.link.flr.contains 0 then s.same
  else
    let vfs := d.liveVfs
    let d := each (fun (d : Device) f => d.flrBegin s.mem f) d (0 :: vfs)
    let d := (d.hostLoss s.mem 3).toMembers "function-reset" [0]
    let d := each (fun (d : Device) f => (d.flrCheck s.mem f).put (.vf f) Fld.VF_STATE_ENABLED 0) d vfs
    s.done (d.flrCheck s.mem 0)

/-- FLR_DRAIN_LIMIT: VF_DRAIN_LIMIT has expired: pitches that have not sent COMMIT are cut and abandoned (R515, R516). -/
def execFlrDrainLimit (f : Nat) (s : State) : Out :=
  let d := s.dev
  if !d.link.flr.contains f then s.same
  else
    let d := each (fun (d : Device) kv => if d.pState kv.1 = 3 ∨ d.pState kv.1 = 5 then (d.cutPart kv.1 0x0C).setPState kv.1 6 else d) d (d.partsOf f)
    s.done (d.flrCheck s.mem f)

/-- VF_ENABLE_WRITE: the VFs come into being, or are removed and their lease watchdogs fire (R550). `count`: how many are enabled, as NumVFs gives. -/
def execVfEnableWrite (enable : Bool) (count : Nat) (s : State) : Out :=
  let d := s.dev
  let d1 := d.setLink { d.link with vfEnable := enable }
  if enable then
    (if d.link.vfEnable then s.same
     else s.done (each (fun (d : Device) k => d.put (.vf (k + 1)) Fld.VF_STATE_ENABLED 1) d1 (List.range (min 127 count))))
  else
    s.done (each (fun (d : Device) n => (d.put (.vf n) Fld.VF_STATE_ENABLED 0).orphanLeases fun o => decide (o = 0x2000 + n)) d1 d.liveVfs)

/-! ### The start of a pitch (R266) -/

/-- PITCH_START: on every COMMITTED the pitch controller increments the pitch number, posts what is due and sends START (R266 steps 5 and 6);
or a READY partition begins its first pending RUN (R261). A function-level reset or D3hot that waited for the boundary goes on (R490, R515). -/
def execPitchStart (q : Nat) (s : State) : Out :=
  let d := s.dev
  match d.part q with
  | none => s.same
  | some x =>
    if d.partStopped q || d.packageStopped then s.same
    else if d.pState q = 2 ∨ (d.pState q = 6 ∧ x.park = 0) then
      (if x.runs.isEmpty || decide (x.park ≠ 0) || !d.dutyUp 1 then s.same else s.done (d.nextPitch s.mem q x))
    else if d.pState q ≠ 4 || !(d.regionsOf q).all (fun nr => x.committed.contains (16 * nr.1 + nr.2)) || !d.gateOpen q (d.pPitch q) x || d.dutyHeld 1 then s.same
    else
      let c := d.pPitch q
      let d := d.putI .pkg Fld.PKG_PART_BOUNDARY q (min (d.clk.now - x.boundaryAt) (2 ^ 32 - 1))
      let d := d.putI .pkg Fld.PKG_PART_COMMITS q (d.fldI .pkg Fld.PKG_PART_COMMITS q + 1)
      let d := d.putI .bly Fld.BLY_COPY_GATE_NS q
        (if d.fldI .bly Fld.BLY_COPY_STATE_STATE q = 2 ∧ x.coupled ≠ [] then min (d.clk.now - x.gateAt) (2 ^ 32 - 1) else 0)
      let r := d.afterCommit s.mem q { x with boundaryAt := d.clk.now }
      let d := (r.1.putI .pkg Fld.PKG_PART_PITCH q (c + 1)).putI .pkg Fld.PKG_PART_SEQ q (d.fldI .pkg Fld.PKG_PART_SEQ q + 1)
      s.done (((d.nextPitch s.mem q r.2).flrCheck s.mem x.func).sleep s.mem)

end Sys2Proof.Machine
end

