-- ==== Sys2Proof/Machine/Pipeline.lean ====
section
/-!
DEFINITION. The packet pipeline (spec/11, R353 to R385): from the receive MAC through dispatch, parse, lookup, reorder, edit and the pattern matcher to
a frame's disposition, and the window to the exact-match tables.
-/
namespace Sys2Proof.Machine

/-! ### The frames of a pipeline -/

def Device.pipeDie (d : Device) (i : Nat) : PipeDie := Tbl.lookD d.pipes i ⟨0, 0, [], []⟩
def Device.setPipeDie (d : Device) (i : Nat) (x : PipeDie) : Device := d.setPipes (Tbl.put d.pipes i x)
def Device.setPipe (d : Device) (i input : Nat) (x : PipeIn) : Device := d.setPipeIn (Tbl.put d.pipeIn (8 * i + input) x)

/-- The pipeline's island. -/
def pipeIsland (i : Nat) : Nat := (8 + i) * 256 + 5

/-- The pipeline works: its I-die is present and its island not STOPPED. -/
def Device.pipeLive (d : Device) (i : Nat) : Bool := d.present (.prs i) && !d.stopped (pipeIsland i)

/-- A frame leaves the pipeline. -/
def Device.pipeDrop (d : Device) (i : Nat) (f : PipeFrame) : Device :=
  let x := d.pipeDie i
  d.setPipeDie i { x with frames := x.frames.filter fun y => !decide (y.input = f.input ∧ y.seq = f.seq) }

/-- A frame goes on to a stage, behind those that stand there. -/
def Device.pipeTo (d : Device) (i : Nat) (f : PipeFrame) (st : PipeStage) : Device :=
  let d := d.pipeDrop i f
  let x := d.pipeDie i
  d.setPipeDie i { x with frames := x.frames ++ [{ f with stage := st }] }

/-- The oldest frame at a stage. -/
def Device.pipeAt (d : Device) (i : Nat) (st : PipeStage) : Option PipeFrame := (d.pipeDie i).frames.find? fun f => f.stage = st

/-- Numbers that are already released are passed over. -/
def PipeIn.advance (x : PipeIn) : Nat → PipeIn
  | 0 => x
  | n + 1 => if x.gone.contains x.expect then PipeIn.advance { x with expect := x.expect + 1, gone := delSet x.expect x.gone } n else x

/-- A sequence number needs no frame any more (R359). -/
def Device.releaseSeq (d : Device) (i input seq : Nat) : Device :=
  let x := d.pipe i input
  if seq < x.expect then d
  else
    let x := { x with gone := insSet seq x.gone }
    d.setPipe i input (x.advance (x.gone.length + 1))

/-- What a parse of this frame depends on. -/
def Device.parseCfg (d : Device) (i gen input : Nat) : ParseCfg :=
  let p := Page.prs i
  { extra := d.genVal p Fld.PRS_TPID_EXTRA 0 gen
    etypes := ((List.range 8).filter fun k => decide (d.genVal p Fld.PRS_ETYPE_VALID k gen = 1)).map fun k => d.genVal p Fld.PRS_ETYPE_ETYPE k gen
    mplsInner := decide (d.genVal p Fld.PRS_PORT_CFG_MPLS_INNER input gen = 1)
    gftPort := d.fld (.gft i) Fld.GFT_CFG_UDP_PORT }

def Device.viewOf (d : Device) (i : Nat) (f : PipeFrame) : PktView := parseFrame (d.parseCfg i f.gPrs f.input) f.raw

/-- Is the frame local GFT (R358)? -/
def Device.localGft (d : Device) (i input : Nat) (v : PktView) (bs : List Byte) : Bool :=
  decide (input < 4) && decide (beAt bs 0 6 = d.app (.eth i input) Fld.ETH_MAC_ADDR_ADDR) && decide (v.proto = 17) &&
    (match v.l4 with
     | some o => decide (beAt bs (o + 2) 2 = d.fld (.gft i) Fld.GFT_CFG_UDP_PORT)
     | none => false) && decide (v.verdict = .ok)

/-! ### Host receive queues (R509) -/

/-- The posted buffer that a frame takes: one fetched already, else one that a ring in device memory gives now. -/
def Device.rxBuffer (d : Device) (m : Memory) (f q : Nat) : Option (Device × Fetched) :=
  match d.oldest f q with
  | some x => some (d, x)
  | none =>
    match d.queue f q with
    | none => none
    | some x =>
      let a := x.base + entrySize x.typ * x.head
      if isHost a || !d.mayFetch f q then none
      else
        let d := (d.memReads a (entrySize x.typ) []).1.hand f q (d.memBytes m a (entrySize x.typ))
        (d.oldest f q).map fun y => (d, y)

/-- Deliver a frame to a host receive queue; none where the queue is absent, disabled or full. A function in its reset drops it and counts it (R515). -/
def Device.deliverRx (d : Device) (m : Memory) (f q : Nat) (bs : List Byte) (cookie : Nat) (pat : Option Nat) (input : Nat) : Option Device :=
  match d.queue f q with
  | none => none
  | some qu =>
    if d.link.flr.contains f then some (d.tick (.vf f) 0)
    else if qu.typ ≠ 3 || qu.error || !d.funcLive f then none
    else
      match d.rxBuffer m f q with
      | none => none
      | some (d, x) =>
        let a := x.num 0 8
        let n := min bs.length (x.num 8 8)
        if n ≠ 0 && !d.funcMem f a n then none
        else
          let d := (d.dropFetched x.id).postAt m f q a (bs.take n)
          let p := match pat with
            | some k => 0x8000 + k % 0x8000
            | none => 0
          some (d.complete m f q x.head (leBytes 4 cookie ++ leBytes 2 bs.length ++ leBytes 2 p ++ leBytes 1 input ++ leBytes 1 (b2n (decide (n < bs.length)))))

/-! ### The slow path (R357) -/

/-- Send a frame to the slow path, as it was received; it leaves the pipeline. -/
def Device.slowPath (d : Device) (m : Memory) (i cause : Nat) (f : PipeFrame) : Device :=
  let p := Page.prs i
  let d := d.pipeDrop i f
  if bit (d.genVal p Fld.PRS_SLOW_HOST_MASK 0 f.gPrs) (cause - 1) then
    (match d.deliverRx m (d.genVal p Fld.PRS_SLOW_FUNC 0 f.gPrs) (d.genVal p Fld.PRS_SLOW_RXQ 0 f.gPrs) f.raw 0 f.pattern f.input with
     | some d => d.tick p 12
     | none => d.tick p 13)
  else
    let x := d.pipeDie i
    if 4096 ≤ x.slow.length then d.tick p 13
    else (d.setPipeDie i { x with slow := x.slow ++ [⟨cause, f.input, f.stamp, f.raw⟩] }).tick p 11

/-! ### Receive, dispatch and parse -/

/-- FRAME_RECEIVE: port `p` receives a frame; `bad` is 0 for a good one, 1 for a wrong FCS, 2 for an uncorrectable codeword (R310, R312, R354). -/
def execFrameReceive (i p : Nat) (bytes : List Byte) (bad : Nat) (s : State) : Out :=
  let d := s.dev
  let e := Page.eth i p
  if !d.present e || !d.flag e Fld.ETH_STATE_UP then s.same
  else if bad ≠ 0 then s.done (d.tick e 2)
  else if 9216 < wireLen bytes then s.done (d.tick e 3)
  else if wireLen bytes < 64 then s.same
  else if beAt bytes 12 2 = 0x8808 then s.done ((d.tick e 1).tick e 4)
  else
    let d := d.tick e 1
    if 262144 < (d.pipe i p).used + bytes.length then s.done (d.tick (.prs i) (4 + p)) else s.done (d.pipePush i p bytes)

/-- The next idle parse engine of the 64 in rotation. -/
def PipeDie.idleEngine (x : PipeDie) : Option Nat :=
  ((List.range 64).map fun k => (x.engine + k) % 64).find? fun e => !x.frames.any fun f => decide (f.stage = .parse ∧ f.engine = e)

/-- FRAME_DISPATCH: one whole frame of the input whose turn it is goes to the next idle parse engine (R354). -/
def execFrameDispatch (i : Nat) (s : State) : Out :=
  let d := s.dev
  let x := d.pipeDie i
  if !d.pipeLive i then s.same else
  match ((List.range 5).map fun k => (x.turn + k) % 5).find? (fun n => !(d.pipe i n).fifo.isEmpty), x.idleEngine with
  | some n, some e =>
    let y := d.pipe i n
    (match y.fifo with
     | [] => s.same
     | f :: rest =>
       let g : PipeFrame := ⟨n, f.seq, f.stamp, f.epoch, .parse, e, d.genFor (.prs i) f.epoch, 0, f.bytes, f.bytes, [], false, false, none, false⟩
       s.done ((d.setPipe i n { y with fifo := rest }).setPipeDie i { x with turn := (n + 1) % 5, engine := (e + 1) % 64, frames := x.frames ++ [g] }))
  | _, _ => s.same

/-- FRAME_PARSE: a parse engine parses its frame: dropped, sent to the slow path, passed to reorder as local GFT, or to be looked up (R355 to R358). -/
def execFrameParse (i engine : Nat) (s : State) : Out :=
  let d := s.dev
  let p := Page.prs i
  if !d.pipeLive i then s.same else
  match (d.pipeDie i).frames.find? (fun f => decide (f.stage = .parse ∧ f.engine = engine)) with
  | none => s.same
  | some f =>
    let v := d.viewOf i f
    match v.verdict with
    | .malformed => s.done (((d.pipeDrop i f).releaseSeq i f.input f.seq).tick p 2)
    | .badSum => s.done (((d.pipeDrop i f).releaseSeq i f.input f.seq).tick p 3)
    | .slow c => s.done (((d.slowPath s.mem i c f).releaseSeq i f.input f.seq).tick p 1)
    | .ok =>
      let d := d.tick p 1
      if d.localGft i f.input v f.raw && decide (d.genVal p Fld.PRS_PORT_CFG_GFT_CLASSIFY f.input f.gPrs = 0) then
        s.done ((d.pipeTo i { f with gft := true, gCls := d.genFor (.cls i) f.epoch } .reorder).tick p 14)
      else s.done (d.pipeTo i { f with gCls := d.genFor (.cls i) f.epoch } .lookup)

/-! ### Lookup (R361 to R364) -/

/-- The key bytes of a group (R362). -/
def Device.keyWidth (d : Device) (i g gen : Nat) : Nat := 16 * (1 + min 2 (d.genVal (.cls i) Fld.CLS_GRP_CFG_KEY_WIDTH g gen))

/-- The metadata of a frame (R363); its two-byte fields are little-endian (log entry 21). -/
def metaOf (input : Nat) (v : PktView) (gft : Bool) : List Byte :=
  [BitVec.ofNat 8 input, BitVec.ofNat 8 (v.vids.length + 4 * v.labels.length + 32 * b2n v.l4.isSome + 64 * b2n gft)] ++
    leBytes 2 (v.vids.getD 0 0) ++ leBytes 2 (v.vids.getD 1 0) ++ [BitVec.ofNat 8 v.kind, BitVec.ofNat 8 v.proto] ++ leBytes 2 v.etype ++
    [BitVec.ofNat 8 v.dscp, 0] ++ leBytes 4 (v.labels.getD 0 0)

/-- The key of a frame for a group (R363). -/
def Device.keyOf (d : Device) (i g : Nat) (f : PipeFrame) (v : PktView) : List Byte :=
  let p := Page.cls i
  let mb := metaOf f.input v (d.localGft i f.input v f.raw)
  let k := (List.range 12).flatMap fun j =>
    let e := j + 12 * g
    let n := min 16 (d.genVal p Fld.CLS_KEYSEL_LENGTH e f.gCls)
    let o := d.genVal p Fld.CLS_KEYSEL_OFFSET e f.gCls
    let base : Option Nat := match d.genVal p Fld.CLS_KEYSEL_BASE e f.gCls with
      | 1 => some 0
      | 2 => v.l3
      | 3 => v.l4
      | 4 => v.pay
      | _ => none
    let src := if d.genVal p Fld.CLS_KEYSEL_BASE e f.gCls = 0 then mb else f.raw
    let base := if d.genVal p Fld.CLS_KEYSEL_BASE e f.gCls = 0 then some 0 else base
    match base with
    | some b => (List.range n).map fun t => src.getD (b + o + t) 0
    | none => List.replicate n 0
  let w := d.keyWidth i g f.gCls
  (List.range w).map fun t => k.getD t 0

/-- The keys of `clsSlots`. -/
def slotKey (i slot : Nat) : Nat := 2 ^ 20 * i + slot
def stashKey (i g s : Nat) : Nat := 2 ^ 20 * i + 2 ^ 19 + 64 * g + s

def ClsSlot.valid (x : ClsSlot) : Bool := bit (x.words.getD 3 0) 63
def ClsSlot.keyBytes (x : ClsSlot) (n : Nat) : List Byte := (x.key.flatMap (leBytes 8)).take n

/-- The slots of a group that a key may lie in, in the order of R362. -/
def Device.candidates (d : Device) (i g gen : Nat) (k : List Byte) : List Nat :=
  let p := Page.cls i
  let lg := d.genVal p Fld.CLS_GRP_CFG_BUCKETS_LOG2 g gen
  if lg = 0 then []
  else
    let base := d.genVal p Fld.CLS_GRP_CFG_BASE_BUCKET g gen
    let b := fun seed => base + crc32cFrom seed k % 2 ^ lg
    let bucket := fun n => (List.range 4).map fun t => slotKey i (4 * n + t)
    bucket (b (d.genVal p Fld.CLS_GRP_SEED0 g gen)) ++ bucket (b (d.genVal p Fld.CLS_GRP_SEED1 g gen)) ++ (List.range 64).map (stashKey i g)

/-- One lookup: the entry that matches with its slot, or the group's miss entry (R362, R364). -/
def Device.lookupIn (d : Device) (i g : Nat) (f : PipeFrame) (v : PktView) : Device × List Nat × Option Nat :=
  let p := Page.cls i
  let k := d.keyOf i g f v
  let d := d.tick p 0
  match (d.candidates i g f.gCls k).find? (fun a => match Tbl.look d.clsSlots a with
    | some x => x.valid && decide (x.keyBytes k.length = k)
    | none => false) with
  | some a => (d.tick p (if a % 2 ^ 20 < 2 ^ 19 then 1 else 3), (Tbl.lookD d.clsSlots a ⟨[], []⟩).words, some a)
  | none =>
    let e := d.genVal p Fld.CLS_GRP_MISS g f.gCls
    (d.tick p 2, (List.range 4).map fun w => bits e (64 * w) 64, none)

/-- Fields of an entry (R365). -/
def ew (e : List Nat) (w lo n : Nat) : Nat := bits (e.getD w 0) lo n

/-- The lookups of a frame: while an entry's DISP is NEXT and names a higher group. -/
def Device.lookupChain (d : Device) (i : Nat) (f : PipeFrame) (v : PktView) : Nat → Nat → List (List Nat × Option Nat) → Device × List (List Nat × Option Nat)
  | 0, _, acc => (d, acc)
  | n + 1, g, acc =>
    let (d, e, a) := d.lookupIn i g f v
    let acc := acc ++ [(e, a)]
    if ew e 0 0 4 = 7 ∧ g < ew e 0 4 2 then d.lookupChain i f v n (ew e 0 4 2) acc else (d, acc)

/-- FRAME_LOOKUP: a frame is looked up in up to four table groups (R362, R364). -/
def execFrameLookup (i input seq : Nat) (s : State) : Out :=
  let d := s.dev
  if !d.pipeLive i then s.same else
  match (d.pipeDie i).frames.find? (fun f => decide (f.stage = .lookup ∧ f.input = input ∧ f.seq = seq)) with
  | none => s.same
  | some f =>
    let v := d.viewOf i f
    let (d, c) := d.lookupChain i f v 4 (d.genVal (.prs i) Fld.PRS_PORT_CFG_FIRST_GROUP input f.gPrs) []
    s.done (d.pipeTo i { f with chain := c } .reorder)

/-! ### Reorder (R359) -/

/-- The frames in the reorder stage. -/
def PipeDie.held (x : PipeDie) : List PipeFrame := x.frames.filter fun f => decide (f.stage = .reorder)

/-- A released frame: local GFT goes to its disposition, any other to be edited. -/
def Device.released (d : Device) (i : Nat) (f : PipeFrame) : Device := d.pipeTo i f (if f.gft then .dispose else .edit)

/-- REORDER_RELEASE: the frame of an input that is next in order is released, or one that comes late; with the stage full and its oldest frame of this
input, the missing number is skipped. -/
def execReorderRelease (i input : Nat) (s : State) : Out :=
  let d := s.dev
  let x := d.pipeDie i
  let y := d.pipe i input
  if !d.pipeLive i then s.same else
  match x.held.find? (fun f => decide (f.input = input ∧ f.seq < y.expect)), x.held.find? (fun f => decide (f.input = input ∧ f.seq = y.expect)) with
  | some f, _ => s.done ((d.released i f).tick (.prs i) 10)
  | none, some f => s.done ((d.released i f).releaseSeq i input f.seq)
  | none, none =>
    let oldest := match x.held with
      | f :: _ => decide (f.input = input)
      | [] => false
    if oldest && decide (16384 ≤ x.held.length) then s.done ((d.releaseSeq i input y.expect).tick (.prs i) 9) else s.same

/-- REORDER_TIMEOUT: an input's oldest missing sequence number has been missing for TIMEOUT_US and is skipped. -/
def execReorderTimeout (i input : Nat) (s : State) : Out :=
  let d := s.dev
  let y := d.pipe i input
  let held := (d.pipeDie i).held.filter fun f => decide (f.input = input)
  if !d.pipeLive i || held.any (fun f => decide (f.seq ≤ y.expect)) || held.isEmpty then s.same
  else s.done ((d.releaseSeq i input y.expect).tick (.prs i) 8)

/-! ### Meter, mirror and edit (R370, R371, R375) -/

/-- The copy of a mirror session (R375). -/
def Device.mirror (d : Device) (m : Memory) (i k : Nat) (f : PipeFrame) : Device :=
  let p := Page.cls i
  let g := fun (x : Field) => d.genVal p x k f.gCls
  let t := g Fld.CLS_MIRROR_TRUNC
  let bs := if t = 0 then f.raw else f.raw.take (64 * 2 ^ t)
  match g Fld.CLS_MIRROR_KIND with
  | 1 => (d.setTmWait (d.tmWait ++ [⟨4 * i + g Fld.CLS_MIRROR_PORT, g Fld.CLS_MIRROR_QUEUE, 1, false, bs, none, false, 0, f.epoch⟩])).tick p 12
  | 2 =>
    (match d.deliverRx m (g Fld.CLS_MIRROR_FUNC) (g Fld.CLS_MIRROR_RXQ) bs 0 none f.input with
     | some d => d.tick p 12
     | none => d.tick p 13)
  | _ => d

/-- Edit record `k` (R371). -/
def Device.editRec (d : Device) (i k gen : Nat) : List Byte :=
  if d.genVal (.cls i) Fld.CLS_EDIT_BASE_VALID 0 gen = 0 then [] else d.loadedBytes i 0 (.cls i) gen (128 * k) 128

/-- The rewrites of a record (R371), with how many were skipped. -/
def rewriteAll (p : Parts) (v : PktView) (rec : List Byte) : Parts × Nat :=
  let l4 := if v.proto = 6 ∨ v.proto = 17 then (match v.l3, v.l4 with
    | some a, some b => some (b - a)
    | _, _ => none) else none
  let n := min 4 ((rec.getD 32 0).toNat)
  let r := (List.range n).foldl (fun (acc : Parts × Nat) k =>
    match acc.1.rewrite v.kind l4 (rec.getD (40 + 20 * k) 0).toNat ((rec.drop (44 + 20 * k)).take 16) with
    | some q => (q, acc.2)
    | none => (acc.1, acc.2 + 1)) (p, 0)
  let fixed := if v.kind = 1 ∨ v.kind = 2 then fixSums v.kind v.proto l4 p.tail r.1.tail else r.1.tail
  ({ r.1 with tail := fixed }, r.2)

/-- The edits of an entry in the order of R371: pop, rewrite, push, TTL_DEC; the answer is the frame and the rewrites skipped, or the slow-path cause. -/
def editFrame (v : PktView) (e : List Nat) (rec : List Byte) (dscp : Option Nat) (bs : List Byte) : Except Nat (List Byte × Nat) :=
  let p := partsOf v bs
  let p := match dscp with
    | some x => (p.setDscp v.kind x).getD p
    | none => p
  match p.pop (ew e 2 0 2) (ew e 2 2 2) with
  | none => .error 7
  | some p =>
    let (p, skipped) := if bit (e.getD 2 0) 18 then rewriteAll p v rec else (p, 0)
    let p := p.push (ew e 2 4 2) ((rec.drop 16).take (min 16 (rec.getD 0 0).toNat))
    match (if bit (e.getD 2 0) 19 then p.ttlDec v.kind else some p) with
    | none => .error 6
    | some p => .ok (({ p with tail := if v.kind = 1 then fixV4 p.tail else p.tail } : Parts).bytes, skipped)

/-- The bytes in the pattern matcher's buffer (R379). -/
def PipeDie.pmeUsed (x : PipeDie) : Nat := ((x.frames.filter fun f => decide (f.stage = .pme)).map fun f : PipeFrame => f.raw.length).sum

/-- Rule record `k` of the pattern matcher (R376): SET_MASK, ON_MATCH and ON_OVERLOAD, where it is valid. -/
def Device.pmeRule (d : Device) (i k gen : Nat) : Option (Nat × Nat × Nat) :=
  let p := Page.pme i
  let bs := d.loadedBytes i 3 p gen (16 * k) 16
  if d.genVal p Fld.PME_RULE_BASE_VALID 0 gen = 0 || !bit (bs.getD 10 0).toNat 0 then none
  else some (leNat (bs.take 8), (bs.getD 8 0).toNat, (bs.getD 9 0).toNat)

/-- After its edits a frame goes to the pattern matcher, where its entry selects it and the buffer has room, or to its disposition (R353, R379). -/
def Device.afterEdit (d : Device) (i : Nat) (f : PipeFrame) (e : List Nat) (slot : Option Nat) : Device :=
  if !bit (e.getD 2 0) 30 then d.pipeTo i f .dispose
  else
    match d.pmeRule i (ew e 2 20 10) (d.genFor (.pme i) f.epoch) with
    | none => d.pipeTo i f .dispose
    | some (_, _, full) =>
      if (d.pipeDie i).pmeUsed + f.raw.length ≤ 1048576 then d.pipeTo i f .pme
      else if full = 1 then (d.pipeDrop i f).tick (.pme i) 4
      else
        let d := match slot with
          | some a => (match Tbl.look d.pmeFlows a with
            | some x => d.setPmeFlows (Tbl.put d.pmeFlows a { x with ended := true })
            | none => d)
          | none => d
        (d.pipeTo i { f with bypass := true } .dispose).tick (.pme i) 3

/-- FRAME_EDIT: counters, mirrors and policers of every matched entry, and the edits of the last (R370, R371, R401). -/
def execFrameEdit (i : Nat) (s : State) : Out :=
  let d := s.dev
  let c := Page.cls i
  if !d.pipeLive i then s.same else
  match d.pipeAt i .edit with
  | none => s.same
  | some f =>
    let v := d.viewOf i f
    let n := wireLen f.raw
    let d := f.chain.foldl (fun (d : Device) e =>
      let w := e.1.getD 1 0
      let d := if bit w 54 then
          let k := 16384 * i + bits w 40 14
          let x := Tbl.lookD d.flowCnts k (0, 0)
          d.setFlowCnts (Tbl.put d.flowCnts k ((x.1 + 1) % 2 ^ 64, (x.2 + n) % 2 ^ 64))
        else d
      if bit w 39 then d.mirror s.mem i (bits w 35 4) f else d) d
    let ks := (f.chain.filter fun e : List Nat × Option Nat => bit (e.1.getD 1 0) 34).map fun e : List Nat × Option Nat => bits (e.1.getD 1 0) 22 12
    let (d, drop, dscp) := d.policeChain i (d.genFor (.tmg i) f.epoch) n ks
    if drop then s.done ((d.pipeDrop i f).tick (.tmg i) 22)
    else
      let last := f.chain.getLastD ([], none)
      match editFrame v last.1 (d.editRec i (ew last.1 2 6 12) f.gCls) dscp f.raw with
      | .error cause => s.done (d.slowPath s.mem i cause f |> fun d => if cause = 6 then d.tick c 11 else d)
      | .ok (bs, skipped) =>
        let d := if skipped = 0 then d else d.count c 9 skipped
        if 9216 < wireLen bs then s.done ((d.pipeDrop i f).tick c 10)
        else s.done (d.afterEdit i { f with bytes := bs } last.1 last.2)

/-! ### The pattern matcher (R376 to R379) -/

/-- ASCII letters as lower case. -/
def lower (b : Byte) : Byte := if 65 ≤ b.toNat ∧ b.toNat ≤ 90 then b + 32 else b

/-- Does a pattern end in the new part of a stream? `tail` are the bytes before it, `start` whether they begin at flow offset 0. -/
def patternEnds (pat : List Byte) (nocase anchored start : Bool) (tail new : List Byte) : Bool :=
  let fold := fun (l : List Byte) => if nocase then l.map lower else l
  let text := fold (tail ++ new)
  let pat := fold pat
  let n := pat.length
  if anchored then start && decide (tail.length < n) && decide (text.take n = pat)
  else (List.range (text.length + 1 - n)).any fun k => decide (tail.length < k + n) && decide ((text.drop k).take n = pat)

/-- The lowest-numbered valid pattern of the rule's sets that ends in the bytes. -/
def Device.pmeMatch (d : Device) (i gen mask : Nat) (tail new : List Byte) (start : Bool) : Option Nat :=
  let p := Page.pme i
  if d.genVal p Fld.PME_PAT_BASE_VALID 0 gen = 0 then none
  else (List.range (d.genVal p Fld.PME_PAT_COUNT_COUNT 0 gen)).find? fun k =>
    let bs := d.loadedBytes i 2 p gen (80 * k) 80
    let len := (bs.getD 0 0).toNat
    let fl := (bs.getD 1 0).toNat
    bit fl 7 && decide (1 ≤ len ∧ len ≤ 64) && bit mask (bs.getD 2 0).toNat &&
      patternEnds ((bs.drop 16).take len) (bit fl 1) (bit fl 0) start tail new

/-- What a decided action does to a frame. -/
def Device.pmeAct (d : Device) (m : Memory) (i act : Nat) (f : PipeFrame) : Device :=
  let p := Page.pme i
  if act = 1 then (d.pipeDrop i f).tick p 6
  else if act = 2 then (d.tick p 7).slowPath m i 9 f
  else d.pipeTo i f .dispose

/-- PME_SCAN: the matcher scans the oldest frame's L4 payload for its flow and applies the rule's action (R377, R378). -/
def execPmeScan (i : Nat) (s : State) : Out :=
  let d := s.dev
  let p := Page.pme i
  if !d.pipeLive i then s.same else
  match d.pipeAt i .pme with
  | none => s.same
  | some f =>
    let last := f.chain.getLastD ([], none)
    let gen := d.genFor p f.epoch
    match d.pmeRule i (ew last.1 2 20 10) gen with
    | none => s.done (d.pipeTo i f .dispose)
    | some (mask, act, _) =>
      let f := { f with scanned := true }
      let fresh : PmeFlow := ⟨0, [], 0, 0, false⟩
      let known := match last.2 with
        | some a => Tbl.look d.pmeFlows a
        | none => some fresh
      let flows := (d.pmeFlows.filter fun kv : Nat × PmeFlow => decide (kv.1 / 2 ^ 20 = i)).length
      if known.isNone && decide (65536 ≤ flows) then s.done ((d.pipeTo i f .dispose).tick p 5)
      else
        let x := known.getD fresh
        if x.act ≠ 0 then s.done (d.pmeAct s.mem i x.act { f with pattern := some x.pattern })
        else if x.ended ∨ 9216 ≤ x.scanned then s.done (d.pipeTo i f .dispose)
        else
          let v := d.viewOf i f
          let pay := match v.pay with
            | some o => (f.raw.take v.fin).drop o
            | none => []
          let new := pay.take (9216 - x.scanned)
          let hit := d.pmeMatch i gen mask x.tail new (decide (x.scanned = x.tail.length))
          let all := x.tail ++ new
          let x' : PmeFlow := { x with
            scanned := x.scanned + new.length, tail := all.drop (all.length - min 63 all.length)
            act := if hit.isSome && decide (act = 1 ∨ act = 2) then act else 0, pattern := hit.getD 0 }
          let d := (d.tick p 0).count p 1 new.length
          let d := match last.2 with
            | some a => d.setPmeFlows (Tbl.put d.pmeFlows a x')
            | none => d
          match hit with
          | none => s.done (d.pipeTo i f .dispose)
          | some k => s.done ((d.tick p 2).pmeAct s.mem i (if act = 1 ∨ act = 2 then act else 0) { f with pattern := some k })

/-! ### Dispositions (R372 to R374) -/

/-- A placement record (R373). -/
structure PlaceRec where
  base : Nat
  slotLog : Nat
  countLog : Nat
  strip : Nat
  flags : Nat
  part : Nat
  chan : Nat
  inst : Nat
  die : Nat
  cons : Nat

/-- The bytes of a record as R373 lays them out. -/
def placeOf (bs : List Byte) : PlaceRec :=
  let n := fun off len => leNat ((bs.drop off).take len)
  ⟨n 0 8 % 2 ^ 52, n 8 1, n 9 1, n 10 1, n 11 1, n 12 1, n 13 1, n 14 2, n 16 1, n 24 8 % 2 ^ 52⟩

/-- Placement record `k`, where its table is in use and it is valid. -/
def Device.placeRec (d : Device) (i k gen : Nat) : Option PlaceRec :=
  let r := placeOf (d.loadedBytes i 1 (.cls i) gen (64 * k) 64)
  if d.genVal (.cls i) Fld.CLS_PLACE_BASE_VALID 0 gen = 0 || !bit r.flags 7 then none else some r

def Device.place (d : Device) (i k : Nat) : PlaceSt := Tbl.lookD d.places (1024 * i + k) ⟨0, 0, none, []⟩
def Device.setPlace (d : Device) (i k : Nat) (x : PlaceSt) : Device := d.setPlaces (Tbl.put d.places (1024 * i + k) x)

/-- The frame from the layer that STRIP names; a frame without that layer gives no bytes (log entry 21). -/
def stripOf (v : PktView) (strip : Nat) (bs : List Byte) : List Byte :=
  let from_ := fun (o : Option Nat) => match o with
    | some k => bs.drop k
    | none => []
  match strip % 4 with
  | 0 => bs
  | 1 => from_ v.l3
  | 2 => from_ v.l4
  | _ => from_ v.pay

/-- The producer count that the next frame takes: those whose headers are still to be written count. -/
def PlaceSt.head (x : PlaceSt) : Nat := x.p + x.heads.length

/-- The ring is full by its copy of C; the copy is read again when it looks full, at most once every 100 ns (R373). -/
def Device.placeFull (d : Device) (m : Memory) (i k : Nat) (r : PlaceRec) : Device × Bool :=
  let x := d.place i k
  let full := fun (c : Nat) => decide (2 ^ r.countLog ≤ (x.head + 2 ^ 64 - c) % 2 ^ 64)
  let due := match x.readAt with
    | some t => decide (t + 100 ≤ d.clk.now)
    | none => true
  if !full x.c then (d, false)
  else if !due then (d, true)
  else
    let c := leNat (d.memBytes m r.cons 8)
    ((d.memReads r.cons 8 []).1.setPlace i k { x with c := c, readAt := some d.clk.now }, full c)

/-- The frame's bytes go to the ring's slot (R373 step 1). -/
def Device.placeFrame (d : Device) (m : Memory) (i k : Nat) (r : PlaceRec) (f : PipeFrame) : Device :=
  let c := Page.cls i
  let x := d.place i k
  let slot := r.base + x.head % 2 ^ r.countLog * 2 ^ r.slotLog
  let bs := stripOf (parseFrame (d.parseCfg i f.gPrs f.input) f.bytes) r.strip f.bytes
  let n := min bs.length (2 ^ r.slotLog - 16)
  let trunc := decide (n < bs.length)
  let d := d.memWrite m (slot + 16) (bs.take n)
  let d := d.setPlace i k { x with heads := x.heads ++ [(f.input, n, trunc, f.stamp % 2 ^ 32, f.gCls)] }
  (if trunc then d.tick c 8 else d).tick c 6

/-- PLACEMENT_HEADER_WRITE: the writes of the oldest frame are acknowledged; its slot header is written, P advances, and the token is raised in partition
PART's pitch and attempt (R373). -/
def execPlacementHeaderWrite (i k : Nat) (s : State) : Out :=
  let d := s.dev
  let x := d.place i k
  match x.heads with
  | [] => s.same
  | (input, n, trunc, stamp, gen) :: rest =>
    if !d.pipeLive i then s.same
    else
      let r := placeOf (d.loadedBytes i 1 (.cls i) gen (64 * k) 64)
      let slot := r.base + x.p % 2 ^ r.countLog * 2 ^ r.slotLog
      let d := d.memWrite s.mem slot (leBytes 8 (x.p + 1) ++ leBytes 2 n ++ leBytes 1 input ++ leBytes 1 (b2n trunc) ++ leBytes 4 stamp)
      let d := d.setPlace i k { x with p := (x.p + 1) % 2 ^ 64, heads := rest }
      let t := Page.tile r.die r.inst
      s.done (if bit r.flags 0 && d.present t then
          d.sendTokens (some (r.part % 32)) r.die r.inst r.chan 1 (d.fldI .pkg Fld.PKG_PART_PITCH (r.part % 32)) (d.tileAttempt r.die r.inst) 0
        else d)

/-- The frames of an I-die in its tunnel queue: SENDs whose packets have not all been sent. -/
def Device.tunnelLen (d : Device) (i : Nat) : Nat :=
  (d.conns.map fun kv : Nat × Conn =>
    (kv.2.msgs.filter fun x : GftMsg => kv.2.reqs.any fun r : GftReq => decide (r.id = x.req ∧ r.client = .fw "tunnel" i)).length).sum

/-- TUNNEL (R374): the edited frame becomes one SEND. -/
def Device.tunnel (d : Device) (i id : Nat) (bs : List Byte) : Device :=
  let c := Page.cls i
  match d.conn id with
  | none => d.tick c 16
  | some x =>
    if x.st ≠ 0 || decide (1024 ≤ d.tunnelLen i) || !d.reqRoom x.owner then d.tick c 16
    else (d.addReq id (.fw "tunnel" i) { GftMsg.blank with op := 4, src := .held bs, len := bs.length } .none).tick c 15

/-- A frame goes to the transport's checks (R327): a packet that is not GFT is malformed; one for a connection that the other I-die owns is relayed. -/
def Device.toTransport (d : Device) (i : Nat) (f : PipeFrame) (bs : List Byte) : Device :=
  let v := parseFrame (d.parseCfg i f.gPrs f.input) bs
  match v.l3, v.l4 with
  | some a, some o =>
    let pkt := (bs.drop (o + 8)).take (beAt bs (o + 4) 2 - 8)
    if v.proto ≠ 17 then d.tick (.gft i) 4
    else
      (match parseGft pkt with
       | none => d.tick (.gft i) 4
       | some h =>
         let ip := if v.kind = 1 then beAt bs (a + 12) 4 else beAt bs (a + 8) 16
         let own := match d.conn h.conn with
           | some c => c.owner
           | none => i
         let g := d.gftDie own
         d.setGftDie own { g with rx := g.rx ++ [⟨4 * i + f.input % 4, ip, beAt bs 6 6, decide (v.ecn bs = some 3), pkt⟩] })
  | _, _ => d.tick (.gft i) 4

/-- A frame meets the disposition of its last entry (R372). -/
def Device.dispose (d : Device) (m : Memory) (i : Nat) (f : PipeFrame) : Device :=
  let c := Page.cls i
  let e := (f.chain.getLastD ([], none)).1
  let cookie := ew e 3 0 32
  let hostq := fun (d : Device) (none_ : Device → Device) (some_ : Device → Device) =>
    match d.deliverRx m (ew e 0 13 7) (ew e 0 20 14) f.bytes cookie f.pattern f.input with
    | some d => some_ d
    | none => none_ d
  let gone := d.pipeDrop i f
  if f.gft then gone.toTransport i f f.raw
  else match ew e 0 0 4 with
  | 0 => gone.setTmWait (gone.tmWait ++ [⟨4 * i + ew e 0 6 2, ew e 0 8 5, 0, false, f.bytes, none, false, 0, f.epoch⟩])
  | 1 => hostq gone (fun d => d.tick c 5) id
  | 2 =>
    let k := ew e 0 34 10
    let spill := fun (d : Device) => if bit (e.getD 0 0) 45 then hostq d (fun d => d.tick c 5) id else d.tick c 7
    (match gone.placeRec i k f.gCls with
     | none => spill gone
     | some r =>
       let (d, full) := gone.placeFull m i k r
       if full then spill d else d.placeFrame m i k r f)
  | 3 => gone.toTransport i f f.bytes
  | 4 => gone.tunnel i (ew e 1 0 22) f.bytes
  | 5 => gone.tick c 4
  | 6 => if bit (e.getD 0 0) 44 then hostq gone (fun d => d.tick (.prs i) 13) (fun d => d.tick (.prs i) 12) else d.slowPath m i 8 f
  | _ => gone.tick c 4

/-- FRAME_DISPOSITION: the oldest frame that stands at its disposition, of those that passed through the pattern matcher or of the others (R360, R372). -/
def execFrameDisposition (i : Nat) (scanned : Bool) (s : State) : Out :=
  let d := s.dev
  if !d.pipeLive i then s.same else
  match (d.pipeDie i).frames.find? (fun f => decide (f.stage = .dispose) && decide (f.scanned = scanned)) with
  | none => s.same
  | some f => s.done (d.dispose s.mem i f)

/-! ### The window to the tables (R366, R367, R383) -/

/-- CLS_GRP_STAT: the valid slots and stash entries of each group. -/
def Device.showGroups (d : Device) (i : Nat) : Device :=
  let p := Page.cls i
  let live := d.clsSlots.filter fun kv : Nat × ClsSlot => decide (kv.1 / 2 ^ 20 = i) && kv.2.valid
  (List.range 4).foldl (fun (d : Device) g =>
    let lg := d.appI p Fld.CLS_GRP_CFG_BUCKETS_LOG2 g
    let lo := 4 * d.appI p Fld.CLS_GRP_CFG_BASE_BUCKET g
    let n := (live.filter fun kv : Nat × ClsSlot => let a := kv.1 % 2 ^ 20; decide (lg ≠ 0) && decide (lo ≤ a ∧ a < lo + 4 * 2 ^ lg ∧ a < 2 ^ 19)).length
    let st := (live.filter fun kv : Nat × ClsSlot => let a := kv.1 % 2 ^ 20; decide (2 ^ 19 + 64 * g ≤ a ∧ a < 2 ^ 19 + 64 * g + 64)).length
    (d.putI p Fld.CLS_GRP_STAT_VALID g n).putI p Fld.CLS_GRP_STAT_STASH g st) d

/-- The key of the slot that a requester has selected, and its group, none for a slot in no enabled group. -/
def Device.selSlot (d : Device) (r : Req) (i : Nat) : Nat × Option Nat :=
  let p := Page.cls i
  let s := d.selOf p Fld.CLS_TBL_SEL_SLOT r
  let g := d.selOf p Fld.CLS_TBL_SEL_GROUP r
  if d.selOf p Fld.CLS_TBL_SEL_STASH r = 1 then
    (stashKey i g (s % 64), if d.appI p Fld.CLS_GRP_CFG_BUCKETS_LOG2 g = 0 then none else some g)
  else
    (slotKey i s, (List.range 4).find? fun g =>
      let lg := d.appI p Fld.CLS_GRP_CFG_BUCKETS_LOG2 g
      let lo := 4 * d.appI p Fld.CLS_GRP_CFG_BASE_BUCKET g
      decide (lg ≠ 0) && decide (lo ≤ s ∧ s < lo + 4 * 2 ^ lg))

/-- The check of a word-3 write (R367): 0 where the entry passes, 4 where it fails, 5 for an absent unit. The reserved kinds of a pop and of a push are
taken as reserved bits (log entry 21). -/
def Device.entryCheck (d : Device) (g : Option Nat) (e : List Nat) : Nat :=
  let disp := ew e 0 0 4
  let w := fun k => e.getD k 0
  match g with
  | none => 4
  | some g =>
    if 7 < disp ∨ (disp = 7 ∧ ew e 0 4 2 ≤ g) ∨ w 0 / 2 ^ 46 ≠ 0 ∨ w 1 / 2 ^ 55 ≠ 0 ∨ w 2 / 2 ^ 31 ≠ 0 ∨ bits (w 3) 32 31 ≠ 0 ∨ ew e 2 0 2 = 3 ∨ ew e 2 4 2 = 3 then 4
    else if bit (w 2) 30 && d.cfg.part.noDdr then 5
    else if disp = 4 then (match d.conn (ew e 1 0 22) with
      | some c => if c.reinject then 0 else 4
      | none => 4)
    else 0

/-- WORD advances after an access with AUTO_INC set (R366). -/
def Device.clsAdvance (d : Device) (r : Req) (i : Nat) : Device :=
  let p := Page.cls i
  let w := min 9 (d.selOf p Fld.CLS_TBL_SEL_WORD r)
  if d.selOf p Fld.CLS_TBL_SEL_AUTO_INC r = 0 then d
  else if w = 3 then (d.putSel p Fld.CLS_TBL_SEL_WORD r 4).putSel p Fld.CLS_TBL_SEL_SLOT r (d.selOf p Fld.CLS_TBL_SEL_SLOT r + 1)
  else d.putSel p Fld.CLS_TBL_SEL_WORD r (if w = 9 then 0 else w + 1)

/-- A refused table write. -/
def Device.clsRefuse (d : Device) (r : Req) (i result : Nat) : Device :=
  let p := Page.cls i
  ((d.putSel p Fld.CLS_TBL_STAT_RESULT r result).tick p 14).errNoCairn p 16 (Config.blockErrCode 0x0E 16)

/-- CLS_TBL_WRITE: a write of CLS_TBL_DATA of `width` bits (R366, R367). -/
def execClsTblWrite (r : Req) (i width value : Nat) (s : State) : Out :=
  let d := s.dev
  let p := Page.cls i
  if !d.mayAccess r p then s.same
  else if width ≠ 64 then s.done ((d.putSel p Fld.CLS_TBL_STAT_RESULT r 6).hdrErr p 1)
  else
    let w := min 9 (d.selOf p Fld.CLS_TBL_SEL_WORD r)
    let (a, g) := d.selSlot r i
    let x := Tbl.lookD d.clsSlots a ⟨[0, 0, 0, 0], [0, 0, 0, 0, 0, 0]⟩
    let v := value % 2 ^ 64
    let put := fun (d : Device) (y : ClsSlot) => d.setClsSlots (Tbl.put d.clsSlots a y)
    let d1 :=
      if w ≠ 3 then
        (if x.valid then d.clsRefuse r i 3
         else put d (if w < 4 then { x with words := x.words.set w v } else { x with key := x.key.set (w - 4) v }))
      else
        let y := { x with words := x.words.set 3 v }
        match x.valid, bit v 63 with
        | false, true =>
          let c := d.entryCheck g y.words
          if c = 0 then ((put d y).putSel p Fld.CLS_TBL_STAT_RESULT r 1).showGroups i else d.clsRefuse r i c
        | true, false =>
          (((put d y).setPmeFlows (Tbl.del d.pmeFlows a)).putSel p Fld.CLS_TBL_STAT_RESULT r 2).showGroups i
        | true, true => d.clsRefuse r i 3
        | false, false => d.putSel p Fld.CLS_TBL_STAT_RESULT r 0
    s.done (d1.clsAdvance r i)

/-- CLS_TBL_READ: a read of CLS_TBL_DATA of `width` bits (R366). -/
def execClsTblRead (r : Req) (i width : Nat) (s : State) : Out :=
  let d := s.dev
  let p := Page.cls i
  if !d.mayAccess r p then s.done ((d.answer r 0).hostReadDone r)
  else if width ≠ 64 then s.done ((((d.putSel p Fld.CLS_TBL_STAT_RESULT r 6).hdrErr p 1).answer r 0).hostReadDone r)
  else
    let w := min 9 (d.selOf p Fld.CLS_TBL_SEL_WORD r)
    let x := Tbl.lookD d.clsSlots (d.selSlot r i).1 ⟨[0, 0, 0, 0], [0, 0, 0, 0, 0, 0]⟩
    s.done (((d.answer r (if w < 4 then x.words.getD w 0 else x.key.getD (w - 4) 0)).hostReadDone r).clsAdvance r i)

/-- CLS_FCNT_READ: a read of CLS_FCNT_PKTS returns the frames of the selected flow counter and latches its bytes (R383). -/
def execClsFcntRead (r : Req) (i : Nat) (s : State) : Out :=
  let d := s.dev
  let p := Page.cls i
  if !d.mayAccess r p then s.done ((d.answer r 0).hostReadDone r)
  else
    let c := Tbl.lookD d.flowCnts (16384 * i + d.fld p Fld.CLS_FCNT_SEL_INDEX) (0, 0)
    s.done (((d.put p Fld.CLS_FCNT_BYTES c.2).answer r c.1).hostReadDone r)

end Sys2Proof.Machine
end

