-- ==== Sys2Proof/Machine/Storage.lean ====
section
/-!
DEFINITION. The storage path (spec/13, R411 to R426): root ports, NVMe under firmware, virtual namespaces and block commands.
-/
namespace Sys2Proof.Machine

/-- The NVR_ page. -/
def Device.nvr (d : Device) : Page := .nvr d.rootDie

/-! ### Namespaces (R417, R418) -/

/-- A record as R417 lays it out. -/
def vnsOf (bs : List Byte) : VnsRec :=
  let n := fun off len => leNat ((bs.drop off).take len)
  ⟨n 0 1, n 2 2, n 4 2, n 8 8, (List.range (min 14 (n 1 1))).map fun i => (n (32 + 16 * i) 4, n (36 + 16 * i) 4, n (40 + 16 * i) 6)⟩

/-- The valid record of a namespace in the table of an epoch. -/
def Device.vnsRec (d : Device) (v epoch : Nat) : Option VnsRec :=
  let p := d.nvr
  let g := d.genFor p epoch
  if d.genVal p Fld.NVR_VNS_BASE_VALID 0 g = 0 ∨ d.genVal p Fld.NVR_VNS_COUNT_COUNT 0 g ≤ v then none
  else
    let r := vnsOf (d.loadedBytes d.rootDie 6 p g (256 * v) 256)
    if bit r.flags 0 then some r else none

/-- The extent and backing block of a virtual block (R418). -/
def VnsRec.place (r : VnsRec) (v : Nat) : Nat × Nat :=
  let n := r.exts.length
  let start := fun i => (r.exts.getD i (0, 0, 0)).2.2
  if bit r.flags 1 then
    let i := if n = 0 then 0 else v / 256 % n
    (i, start i + (if n = 0 then 0 else v / 256 / n) * 256 + v % 256)
  else
    let i := if r.extLen = 0 then 0 else v / r.extLen
    (i, start i + (if r.extLen = 0 then 0 else v % r.extLen))

/-- The blocks from `v` to the next extent or stripe boundary. -/
def VnsRec.run (r : VnsRec) (v : Nat) : Nat := if bit r.flags 1 then 256 - v % 256 else if r.extLen = 0 then 1 else r.extLen - v % r.extLen

/-! ### Guards and encryption (R419, R420) -/

/-- The guard of a plaintext block. -/
def guardOf (v nsid : Nat) (bs : List Byte) : Nat := crc64 (leBytes 8 v ++ leBytes 4 nsid ++ bs)

/-- One block encrypted or decrypted. -/
def xtsBlock (key : List Nat) (v nsid : Nat) (enc : Bool) (bs : List Byte) : List Byte :=
  let out := Config.xtsCrypt key (v + 2 ^ 64 * nsid) enc (bs.map BitVec.toNat)
  (List.range bs.length).map fun k => BitVec.ofNat 8 (out.getD k 0)

/-- Does the namespace lack a usable key (R420, R440)? -/
def Device.vnsKeyLost (d : Device) (r : VnsRec) : Bool :=
  bit r.flags 3 && decide ((d.slot d.rootDie r.slot).use 4 r.func false ≠ 0)

/-! ### Stage slots (R413, R423) -/

/-- The slots in use: those of blocks of NVMe commands that are not done. -/
def NvmeCmd.live (c : NvmeCmd) : List Nat :=
  ((List.range c.slots.length).filter fun k => !c.done.contains k).map fun k => c.slots.getD k 0

def Device.slotsUsed (d : Device) : List Nat := d.nvmes.flatMap NvmeCmd.live

/-- Up to `n` free slots of the 4,096, lowest first. -/
def Device.freeSlots (d : Device) (n : Nat) : List Nat :=
  let used := d.slotsUsed
  ((List.range (min 4096 (used.length + n))).filter fun s => !used.contains s).take n

/-! ### Block commands -/

def Device.block (d : Device) (id : Nat) : Option BlockCmd := d.blocks.find? fun b => b.id = id
def Device.setBlock (d : Device) (b : BlockCmd) : Device := d.setBlocks (d.blocks.map fun x : BlockCmd => if x.id = b.id then b else x)
def Device.nvme (d : Device) (id : Nat) : Option NvmeCmd := d.nvmes.find? fun c => c.id = id
def Device.setNvme (d : Device) (c : NvmeCmd) : Device := d.setNvmes (d.nvmes.map fun x : NvmeCmd => if x.id = c.id then c else x)

/-- A block of the command fails: the lowest-numbered one gives STATUS and DETAIL, and nothing more is issued. -/
def BlockCmd.fail (b : BlockCmd) (status v : Nat) : BlockCmd :=
  if b.status = 0 ∨ v < b.detail then { b with status := status, detail := v } else b

/-- The SSD of a root port is ready. -/
def Device.ssdReady (d : Device) (p : Nat) : Bool :=
  decide (p < 8) && decide (d.fldI d.nvr Fld.NVR_PORT_STATE_UP p = 1 ∧ d.fldI d.nvr Fld.NVR_PORT_STATE_READY p = 1)

/-- Issue an NVMe command of a block command. -/
def Device.issueNvme (d : Device) (b : BlockCmd) (port nsid op slba first count : Nat) (slots : List Nat) (retry : Bool) : Device :=
  let id := d.nextNvme
  let d := (d.setNvmes (d.nvmes ++ [⟨id, b.id, port, nsid, op, slba, first, count, slots, [], retry, none⟩])).setNextNvme (id + 1)
  let d := (d.setBlock { b with left := b.left + 1 }).tick d.nvr 3
  d.msg "nvme" port ([id, op, nsid, slba, count, b2n (decide (op = 1) && bit b.flags 1)] ++ slots)

/-- A command with nothing outstanding ends once every block is issued or one has failed (R422). -/
def Device.endBlock (d : Device) (m : Memory) (id : Nat) : Device :=
  match d.block id with
  | none => d
  | some b =>
    if b.left ≠ 0 || (decide (b.status = 0) && decide (b.next < b.nlb)) then d
    else
      let d := (d.setBlocks (d.blocks.filter fun x => decide (x.id ≠ id))).tick d.nvr 0
      d.complete m b.func b.queue b.head (leBytes 2 b.cid ++ leBytes 2 b.status ++ leBytes 8 b.detail)

/-- Issue NVMe Reads for a READ while stage slots are free (R418, R423). -/
def Device.pumpRead (d : Device) (id : Nat) : Nat → Device
  | 0 => d
  | fuel + 1 =>
    match d.block id with
    | none => d
    | some b =>
      if b.status ≠ 0 ∨ b.nlb ≤ b.next then d
      else
        let v := b.lba + b.next
        let (i, blk) := b.rec_.place v
        let x := b.rec_.exts.getD i (0, 0, 0)
        let slots := d.freeSlots (min (b.rec_.run v) (b.nlb - b.next))
        if slots.isEmpty then d
        else if !d.ssdReady x.1 then d.setBlock (b.fail 0x0208 v)
        else (d.issueNvme { b with next := b.next + slots.length } x.1 x.2.1 2 blk v slots.length slots false).pumpRead id fuel

/-- A block with its metadata as it goes to a slot (R419, R424). -/
def Device.sealBlock (d : Device) (b : BlockCmd) (v : Nat) (bs : List Byte) : List Byte :=
  (if bit b.rec_.flags 3 then xtsBlock (d.slot d.rootDie b.rec_.slot).key v b.vns true bs else bs) ++
    leBytes 8 (guardOf v b.vns bs) ++ leBytes 4 b.vns ++ leBytes 4 0

/-- Fill slots and issue NVMe Writes for a WRITE while slots are free and its source is there (R424); a poisoned line ends it. -/
def Device.pumpWrite (d : Device) (m : Memory) (id : Nat) : Nat → Device
  | 0 => d
  | fuel + 1 =>
    match d.block id with
    | none => d
    | some b =>
      if b.status ≠ 0 ∨ b.nlb ≤ b.next then d
      else
        let v := b.lba + b.next
        let (i, blk) := b.rec_.place v
        let x := b.rec_.exts.getD i (0, 0, 0)
        let want := HostWant.unit "block" id b.next
        let n := match d.xferOf want with
          | some t => t.len / 4096
          | none => (d.freeSlots (min (b.rec_.run v) (b.nlb - b.next))).length
        let slots := d.freeSlots n
        let a := b.maddr + 4096 * b.next
        if n = 0 ∨ slots.length < n then d
        else if !d.ssdReady x.1 then (d.setBlock (b.fail 0x0208 v)).endXfer want
        else if d.vnsKeyLost b.rec_ then (d.setBlock (b.fail 0x020A v)).endXfer want
        else match d.dataAt m b.func want a (4096 * n) with
        | .notNow => d
        | .asked d => d
        | .failed d st => d.setBlock (b.fail st v)
        | .ready d bs bad =>
          let good := match bad with
            | line :: _ => (max a line - a) / 4096
            | [] => n
          let slots := slots.take good
          let d := (List.range good).foldl (fun (d : Device) k =>
            (d.setStage (Tbl.put d.stage (slots.getD k 0) (d.sealBlock b (v + k) ((bs.drop (4096 * k)).take 4096)))).cvuValue d.rootDie 3 4108 false) d
          let b := if bad.isEmpty then { b with next := b.next + n } else { b with next := b.next + good }.fail 0x020B (v + good)
          if good = 0 then d.setBlock b
          else (d.issueNvme b x.1 x.2.1 1 blk v good slots false).pumpWrite m id fuel

/-- The bytes of an entry that its opcode does not use are zero (R421). -/
def blockUnused (x : Fetched) (op : Nat) : Bool :=
  let z := fun off len => decide (x.num off len = 0)
  let side := bit (x.num 1 1) 0
  z 20 4 && z 44 20 &&
    (match op with
     | 1 => decide (x.num 1 1 < 2) && (side || (z 32 8 && z 40 4))
     | 2 => decide (x.num 1 1 = 0 ∨ x.num 1 1 = 2) && z 32 12
     | 3 => z 1 1 && z 8 12 && z 24 20
     | _ => z 1 1 && z 24 20)

/-- The check of a block command (R422; its order is log entry 22): a status, or the record of its namespace. -/
def Device.blockCheck (d : Device) (f : Nat) (x : Fetched) (op : Nat) : Except Nat VnsRec :=
  let lba := x.num 8 8
  let nlb := x.num 16 4
  let a := x.num 24 8
  let side := decide (op = 1) && bit (x.num 1 1) 0
  if op = 0 ∨ 4 < op ∨ !blockUnused x op ∨ (op ≠ 3 ∧ (nlb = 0 ∨ 16384 < nlb)) then .error 0x020D
  else match d.vnsRec (x.num 4 4) (d.fld .pkg Fld.PKG_WAVE_EPOCH) with
  | none => .error 0x0201
  | some r =>
    if r.func ≠ f then .error 0x0201
    else if (op = 2 ∨ op = 4) && bit r.flags 2 then .error 0x0203
    else if op ≠ 3 ∧ r.exts.length * r.extLen < lba + nlb then .error 0x0202
    else if (op = 1 ∨ op = 2) && (decide (a % (if side then 4096 else 64) ≠ 0) || !d.funcMem f a (4096 * nlb) ||
        (side && !d.funcMem f (x.num 32 8) (4 * nlb))) then .error 0x0204
    else if (op = 1 ∨ op = 2) && d.vnsKeyLost r then .error 0x020A
    else .ok r

/-- Accept the next entry of a block queue with an opcode; `go` begins its work. -/
def blockCmd (op f q : Nat) (go : Device → BlockCmd → Device) (s : State) : Out :=
  let d := s.dev
  match d.oldest f q with
  | none => s.same
  | some x =>
    let o := x.num 0 1
    if d.queueTyp f q ≠ 4 ∨ (o ≠ op ∧ 1 ≤ o ∧ o ≤ 4) then s.same
    else
      let d := d.dropFetched x.id
      match d.blockCheck f x o with
      | .error st =>
        let v := if st = 0x020D then 0 else x.num 8 8
        s.done ((d.complete s.mem f q x.head (leBytes 2 (x.num 2 2) ++ leBytes 2 st ++ leBytes 8 v)).tick d.nvr 0)
      | .ok r =>
        let b : BlockCmd := ⟨d.nextNvme, f, q, x.head, x.num 2 2, op, x.num 1 1, x.num 4 4, x.num 8 8, x.num 16 4, x.num 24 8, x.num 32 8, x.num 40 4, r, 0, 0, 0, 0⟩
        let d := (d.setBlocks (d.blocks ++ [b])).setNextNvme (d.nextNvme + 1)
        s.done ((go d b).endBlock s.mem b.id)

/-- BLOCK_READ: a READ issues NVMe reads into reserved stage slots (R423). -/
def execBlockRead (f q : Nat) (s : State) : Out := blockCmd 1 f q (fun d b => d.pumpRead b.id (b.nlb + 1)) s

/-- BLOCK_WRITE: the oldest WRITE of the queue that can go on does, else the next entry begins (R424). A source in host memory comes first in transfers. -/
def execBlockWrite (f q : Nat) (s : State) : Out :=
  let d := s.dev
  let go := fun (b : BlockCmd) => (d.pumpWrite s.mem b.id (b.nlb + 1)).endBlock s.mem b.id
  match d.blocks.find? (fun b => decide (b.func = f ∧ b.queue = q ∧ b.op = 2 ∧ b.status = 0 ∧ b.next < b.nlb) && decide (go b ≠ d)) with
  | some b => s.done (go b)
  | none => blockCmd 2 f q (fun d b => d.pumpWrite s.mem b.id (b.nlb + 1)) s

/-- BLOCK_FLUSH: Flush goes to every backing namespace of the record (R424). -/
def execBlockFlush (f q : Nat) (s : State) : Out :=
  blockCmd 3 f q (fun d b =>
    let spaces := (b.rec_.exts.map fun e => (e.1, e.2.1)).eraseDups
    let b := { b with nlb := 0 }
    if spaces.all fun e => d.ssdReady e.1 then
      spaces.foldl (fun (d : Device) e => d.issueNvme ((d.block b.id).getD b) e.1 e.2 0 0 b.lba 0 [] false) (d.setBlock b)
    else d.setBlock (b.fail 0x0208 0)) s

/-- Deallocate the mapped ranges of a command. -/
def Device.pumpDealloc (d : Device) (id : Nat) : Nat → Device
  | 0 => d
  | fuel + 1 =>
    match d.block id with
    | none => d
    | some b =>
      if b.status ≠ 0 ∨ b.nlb ≤ b.next then d
      else
        let v := b.lba + b.next
        let (i, blk) := b.rec_.place v
        let x := b.rec_.exts.getD i (0, 0, 0)
        let n := min (b.rec_.run v) (b.nlb - b.next)
        if !d.ssdReady x.1 then d.setBlock (b.fail 0x0208 v)
        else (d.issueNvme { b with next := b.next + n } x.1 x.2.1 9 blk v n [] false).pumpDealloc id fuel

/-- BLOCK_DEALLOCATE: the mapped ranges are deallocated (R424). -/
def execBlockDeallocate (f q : Nat) (s : State) : Out := blockCmd 4 f q (fun d b => d.pumpDealloc b.id (b.nlb + 1)) s

/-! ### What the SSDs do -/

/-- Every READ and WRITE that waits for slots goes on. -/
def Device.pumpAll (d : Device) (m : Memory) : Device :=
  (d.blocks.map BlockCmd.id).foldl (fun (d : Device) id =>
    match d.block id with
    | none => d
    | some b => ((if b.op = 1 then d.pumpRead id (b.nlb + 1) else if b.op = 2 then d.pumpWrite m id (b.nlb + 1) else d).endBlock m id)) d

/-- An NVMe command ends, with what it did to its block command. -/
def Device.endNvme (d : Device) (m : Memory) (c : NvmeCmd) (f : BlockCmd → BlockCmd) : Device :=
  let d := d.setNvmes (d.nvmes.filter fun x => decide (x.id ≠ c.id))
  let d := match d.block c.cmd with
    | some b => d.setBlock (f { b with left := b.left - 1 })
    | none => d
  (d.endBlock m c.cmd).pumpAll m

/-- The lease of the root port is orphaned or being broken, so what its commands bring is held (R416). -/
def Device.portOrphan (d : Device) (p : Nat) : Bool := decide (2 ≤ d.fldI d.nvr Fld.LEASE_STATE_STATE p)

/-- A block of a read command is done with; with the last, the command ends. -/
def Device.readDone (d : Device) (m : Memory) (c : NvmeCmd) (k : Nat) (f : BlockCmd → BlockCmd) : Device :=
  let c := { c with done := insSet k c.done }
  if c.count ≤ c.done.length then d.endNvme m c f
  else
    let d := d.setNvme c
    ((match d.block c.cmd with
     | some b => d.setBlock (f b)
     | none => d).endBlock m c.cmd).pumpAll m

/-- BLOCK_STAGE_ARRIVE: an SSD has delivered block `k` of read command `c` to its slot, in this command's `data` or by its memory requests; the guard is
checked, and the block written with its side-table entry, read once more, or failed (R423, R425). While the port's lease is orphaned it stays held. -/
def execBlockStageArrive (c k : Nat) (data : Option (List Byte)) (s : State) : Out :=
  let d := s.dev
  match d.nvme c with
  | none => s.same
  | some x =>
    if x.op ≠ 2 ∨ x.count ≤ k ∨ x.done.contains k then s.same
    else
      let slot := x.slots.getD k 0
      let d := match data with
        | some bs => d.setStage (Tbl.put d.stage slot ((List.range 4112).map fun t => bs.getD t 0))
        | none => d
      match d.block x.cmd with
      | none => s.done d
      | some b =>
        if d.portOrphan x.port then s.done d
        else
          let raw := (List.range 4112).map fun t => (Tbl.lookD d.stage slot []).getD t 0
          let v := x.first + k
          if d.vnsKeyLost b.rec_ then s.done (d.readDone s.mem x k fun b => b.fail 0x020A v)
          else
            let bs := raw.take 4096
            let bs := if bit b.rec_.flags 3 then xtsBlock (d.slot d.rootDie b.rec_.slot).key v b.vns false bs else bs
            let ok := decide (raw.drop 4096 = leBytes 8 (guardOf v b.vns bs) ++ leBytes 4 b.vns ++ leBytes 4 0)
            let d := d.cvuCheck d.rootDie 3 4108 (v % 2 ^ 32) ok
            if ok then
              let a := b.maddr + 4096 * (v - b.lba)
              let d := d.postAt s.mem b.func b.queue a bs
              let d := if bit b.flags 0 then
                  (d.cvuValue d.rootDie 3 4108 false).postAt s.mem b.func b.queue (b.saddr + 4 * (v - b.lba)) (leBytes 4 (blockCrc bs a b.model))
                else d
              let d := (if x.retry then d.tick d.nvr 5 else d).tick d.nvr 1
              s.done (d.readDone s.mem x k id)
            else
              let d := d.tick d.nvr 4
              if x.retry then s.done (d.readDone s.mem x k fun b => b.fail 0x0205 v)
              else
                let d := d.setNvme { x with done := insSet k x.done }
                let d := d.issueNvme b x.port x.nsid 2 (x.slba + k) v 1 [slot] true
                s.done (if x.count ≤ x.done.length + 1 then d.endNvme s.mem x id else d)

/-- NVME_COMPLETION: an SSD posts a completion of command `c`: `result` 0 success, 1 an error, 2 an unwritten block, with block `k` of the command that failed
(R424, R425). A Read that succeeds ends with its blocks. -/
def execNvmeCompletion (c result k : Nat) (s : State) : Out :=
  let d := s.dev
  match d.nvme c with
  | none => s.same
  | some x =>
    if x.op = 2 ∧ result = 0 ∧ x.held.isNone then s.same
    else if d.portOrphan x.port then (if x.held.isSome then s.same else s.done (d.setNvme { x with held := some (result, k) }))
    else
      let (result, k) := x.held.getD (result, k)
      let v := if x.op = 0 then 0 else x.first + k
      if result = 0 then s.done ((if x.op = 1 then d.count d.nvr 2 x.count else d).endNvme s.mem x id)
      else if result = 2 then s.done ((d.tick d.nvr 6).endNvme s.mem x fun b => b.fail 0x0206 v)
      else s.done ((d.tick d.nvr 7).endNvme s.mem x fun b => b.fail 0x0207 v)

/-- NVME_TIMEOUT: command `c` exceeds NVR_TIMEOUT.MS, and its block command completes TIMEOUT (R422). -/
def execNvmeTimeout (c : Nat) (s : State) : Out :=
  let d := s.dev
  match d.nvme c with
  | none => s.same
  | some x => s.done ((d.tick d.nvr 8).endNvme s.mem x fun b => b.fail 0x0209 x.first)

/-- SSD_MEMORY_REQUEST: an SSD's memory request is served in the stage slots of its own commands, or refused with Unsupported Request (R413). -/
def execSsdMemoryRequest (p : Nat) (write : Bool) (slot off len : Nat) (data : List Byte) (s : State) : Out :=
  let d := s.dev
  let n := if write then data.length else len
  if !d.rootPorts then s.same
  else if !d.nvmes.any (fun c : NvmeCmd => decide (c.port = p) && c.live.contains slot) || decide (4112 < off + n) then
    s.done ((d.tick d.nvr 9).msg "ssd-unsupported-request" p [slot, off])
  else
    let old := (List.range 4112).map fun t => (Tbl.lookD d.stage slot []).getD t 0
    s.done (if write then d.setStage (Tbl.put d.stage slot (setAt old off data)) else d.emit (.bytes "ssd-read" p ((old.drop off).take n)))

/-- SSD_UP: the SSD of root port `p` becomes ready on a link of `lanes` lanes at generation `gen` (R412). -/
def execSsdUp (p lanes gen : Nat) (s : State) : Out :=
  let d := s.dev
  let n := d.nvr
  let ports := if d.flag n Fld.NVR_CFG_WIDTH then 8 else 4
  if !d.rootPorts || decide (ports ≤ p) then s.same
  else
    let d := ((d.putI n Fld.NVR_PORT_STATE_UP p 1).putI n Fld.NVR_PORT_STATE_LANES p lanes).putI n Fld.NVR_PORT_STATE_GEN p gen
    let d := (d.putI n Fld.NVR_PORT_STATE_READY p 1).putI n Fld.NVR_PORT_STATE_FAILED p 0
    s.done (d.event s.mem 0 0x1401 n.island [p])

/-- SSD_LINK_DOWN: the link of root port `p` goes down and is retrained once: `retrained` gives its lanes and generation, none where that fails, which raises
SSD_LOST and fails the commands at the SSD (R412, R422). -/
def execSsdLinkDown (p : Nat) (retrained : Option (Nat × Nat)) (s : State) : Out :=
  let d := s.dev
  let n := d.nvr
  if !d.rootPorts || decide (8 ≤ p) || decide (d.fldI n Fld.NVR_PORT_STATE_UP p = 0) then s.same
  else match retrained with
  | some (lanes, gen) => s.done ((d.putI n Fld.NVR_PORT_STATE_LANES p lanes).putI n Fld.NVR_PORT_STATE_GEN p gen)
  | none =>
    let d := ((d.putI n Fld.NVR_PORT_STATE_UP p 0).putI n Fld.NVR_PORT_STATE_READY p 0).putI n Fld.NVR_PORT_STATE_FAILED p 1
    let d := (d.tick n 11).event s.mem 0 0x1402 n.island [p]
    s.done ((d.nvmes.filter fun c : NvmeCmd => decide (c.port = p)).foldl (fun (d : Device) c => d.endNvme s.mem c fun b => b.fail 0x0208 c.first) d)

end Sys2Proof.Machine
end

