-- ==== Sys2Proof/Machine/Commits.lean ====
section
/-!
DEFINITION. Commits (R52 to R56, R89 to R94): the consistency rules of every group, the tables that a commit loads into on-die memory, what a commit
changes besides the applied copy, and the package commit wave.
-/
namespace Sys2Proof.Machine

/-! ### The consistency rules -/

/-- The number of the first rule that does not hold, 0 where every rule holds. -/
def firstFailed (l : List (Nat × Bool)) : Nat := ((l.find? fun x => !x.2).map Prod.fst).getD 0

/-- No two of the ranges [a, b) meet. -/
def apart : List (Nat × Nat) → Bool
  | [] => true
  | (a, b) :: l => (l.all fun x => decide (x.2 ≤ a ∨ b ≤ x.1)) && apart l

/-- The values of a pending copy of a page. -/
abbrev CopyVal := Field → Nat → Nat

/-- The address that a table base gives. -/
def CopyVal.addr (g : CopyVal) (f : Field) (i : Nat) : Nat := g f i * 4096

/-- A base that is not in use, or lies in HBM. -/
def Device.baseOk (d : Device) (g : CopyVal) (valid addr : Field) : Bool :=
  decide (g valid 0 = 0) || decide (d.memKind (g.addr addr 0) = .hbm)

/-- The part of a memory from `a` on, as an on-die table holds it. -/
def Memory.window (a n : Nat) : Memory → Memory
  | [] => []
  | (k, b) :: m => if a ≤ k ∧ k < a + n then (k - a, b) :: Memory.window a n m else Memory.window a n m

/-- Bytes of an on-die table. -/
def tabBytes (t : Memory) (o n : Nat) : List Byte := (List.range n).map fun k => t.rdByte (o + k)

/-- The entries of a gate control list (R395). -/
def gateEntries (t : Memory) (len : Nat) : List (Nat × Nat) :=
  (List.range len).map fun k => (leNat (tabBytes t (8 * k) 4), leNat (tabBytes t (8 * k + 4) 4))

/-- A gate control list obeys R395. -/
def gateListOk (es : List (Nat × Nat)) : Bool :=
  decide (1 ≤ es.length ∧ es.length ≤ 256) && (es.all fun e => decide (64 ≤ e.1 ∧ e.1 ≤ 1000000000)) && decide ((es.map Prod.fst).sum ≤ 1000000000)

/-- The tables that a commit of a page loads, as (I-die, table, base, bytes): 0 edits, 1 placements, 2 patterns, 3 rules, 4 queue records, 5 policers, 6
namespaces, 8 + p the gate list of port p. A table that is not in use is empty. -/
def Device.tablesOf (d : Device) (p : Page) (g : CopyVal) : List (Nat × Nat × Nat × Nat) :=
  let tab := fun (i t : Nat) (valid addr : Field) (n : Nat) => (i, t, g.addr addr 0, if d.baseOk g valid addr then n * g valid 0 else 0)
  match p with
  | .cls i => [tab i 0 Fld.CLS_EDIT_BASE_VALID Fld.CLS_EDIT_BASE_ADDR (4096 * 128), tab i 1 Fld.CLS_PLACE_BASE_VALID Fld.CLS_PLACE_BASE_ADDR (1024 * 64)]
  | .pme i => [tab i 2 Fld.PME_PAT_BASE_VALID Fld.PME_PAT_BASE_ADDR (80 * g Fld.PME_PAT_COUNT_COUNT 0),
      tab i 3 Fld.PME_RULE_BASE_VALID Fld.PME_RULE_BASE_ADDR (1024 * 16)]
  | .tmg i => [tab i 4 Fld.TMG_QTAB_BASE_VALID Fld.TMG_QTAB_BASE_ADDR (132 * 32), tab i 5 Fld.TMG_POL_BASE_VALID Fld.TMG_POL_BASE_ADDR (4096 * 32)] ++
      (List.range 4).map fun t => (i, 8 + t, g.addr Fld.TMG_GATE_LIST_ADDR_ADDR t,
        if d.memKind (g.addr Fld.TMG_GATE_LIST_ADDR_ADDR t) = .hbm then g Fld.TMG_GATE_CTRL_ENABLE t * (8 * g Fld.TMG_GATE_CTRL_LEN t) else 0)
  | .nvr i => [tab i 6 Fld.NVR_VNS_BASE_VALID Fld.NVR_VNS_BASE_ADDR (256 * g Fld.NVR_VNS_COUNT_COUNT 0)]
  | _ => []

/-- The tables of a commit as loaded from memory, by table. -/
def Device.commitTables (d : Device) (m : Memory) (p : Page) (g : CopyVal) : Tbl Memory :=
  let now := m.storeAll d.wr.reverse
  (d.tablesOf p g).foldl (fun t x => Tbl.put t x.2.1 (Memory.window x.2.2.1 x.2.2.2 now)) []

/-- A table of a commit. -/
def tableAt (t : Tbl Memory) (k : Nat) : Memory := Tbl.lookD t k []

/-- A valid placement record keeps R373. -/
def Device.placeOk (d : Device) (r : PlaceRec) : Bool :=
  !bit r.flags 7 || (decide (d.memKind r.base = .hbm ∨ d.memKind r.base = .ddr) && decide (8 ≤ r.slotLog ∧ r.slotLog ≤ 14) &&
    decide (1 ≤ r.countLog ∧ r.countLog ≤ 24) && decide (r.base % 2 ^ r.slotLog = 0) && decide (r.strip ≤ 3))

/-- The rules of a CLS_ commit (R383). -/
def Device.clsRule (d : Device) (i : Nat) (g : CopyVal) (t : Tbl Memory) : Nat :=
  let p := Page.cls i
  let gs := List.range 4
  let ranges := (gs.filter fun k => decide (g Fld.CLS_GRP_CFG_BUCKETS_LOG2 k ≠ 0)).map fun k =>
    (g Fld.CLS_GRP_CFG_BASE_BUCKET k, g Fld.CLS_GRP_CFG_BASE_BUCKET k + 2 ^ g Fld.CLS_GRP_CFG_BUCKETS_LOG2 k)
  let width := fun k => 16 * (1 + min 2 (g Fld.CLS_GRP_CFG_KEY_WIDTH k))
  let sum := fun (k : Nat) => ((List.range 12).map fun e => min 16 (g Fld.CLS_KEYSEL_LENGTH (e + 12 * k))).sum
  let held := fun k => decide (d.fldI p Fld.CLS_GRP_STAT_VALID k ≠ 0 ∨ d.fldI p Fld.CLS_GRP_STAT_STASH k ≠ 0)
  let same := fun k => [Fld.CLS_GRP_CFG_BUCKETS_LOG2, Fld.CLS_GRP_CFG_BASE_BUCKET, Fld.CLS_GRP_CFG_KEY_WIDTH, Fld.CLS_GRP_SEED0, Fld.CLS_GRP_SEED1].all
    fun f => decide (g f k = d.appI p f k)
  firstFailed [
    (1, (ranges.all fun r => decide (r.2 ≤ 131072)) && apart ranges),
    (2, gs.all fun k => decide (sum k ≤ width k)),
    (3, gs.all fun k => !held k || same k),
    (4, gs.all fun k => decide (bits (g Fld.CLS_GRP_MISS k) 0 4 ≠ 7 ∨ k < bits (g Fld.CLS_GRP_MISS k) 4 2)),
    (5, d.baseOk g Fld.CLS_EDIT_BASE_VALID Fld.CLS_EDIT_BASE_ADDR && d.baseOk g Fld.CLS_PLACE_BASE_VALID Fld.CLS_PLACE_BASE_ADDR),
    (6, (List.range 1024).all fun k => d.placeOk (placeOf (tabBytes (tableAt t 1) (64 * k) 64)))]

/-- The class map of a TMG_ copy as (QBASE, QCOUNT, PCP). -/
def copyMap (g : CopyVal) : List (Nat × Nat × Nat) :=
  [(g Fld.TMG_CLASS_MAP0_QBASE 0, g Fld.TMG_CLASS_MAP0_QCOUNT 0, g Fld.TMG_CLASS_MAP0_PCP 0),
   (g Fld.TMG_CLASS_MAP1_QBASE 0, g Fld.TMG_CLASS_MAP1_QCOUNT 0, g Fld.TMG_CLASS_MAP1_PCP 0),
   (g Fld.TMG_CLASS_MAP2_QBASE 0, g Fld.TMG_CLASS_MAP2_QCOUNT 0, g Fld.TMG_CLASS_MAP2_PCP 0),
   (g Fld.TMG_CLASS_MAP3_QBASE 0, g Fld.TMG_CLASS_MAP3_QCOUNT 0, g Fld.TMG_CLASS_MAP3_PCP 0),
   (g Fld.TMG_CLASS_MAP4_QBASE 0, g Fld.TMG_CLASS_MAP4_QCOUNT 0, g Fld.TMG_CLASS_MAP4_PCP 0)]

/-- The rules of a TMG_ commit (R407). -/
def Device.tmgRule (d : Device) (g : CopyVal) (t : Tbl Memory) : Nat :=
  let cm := copyMap g
  let c0 := cm.headD (0, 1, 0)
  let qOk := decide (g Fld.TMG_QTAB_BASE_VALID 0 = 1) && d.baseOk g Fld.TMG_QTAB_BASE_VALID Fld.TMG_QTAB_BASE_ADDR
  let pOk := decide (g Fld.TMG_POL_BASE_VALID 0 = 1) && d.baseOk g Fld.TMG_POL_BASE_VALID Fld.TMG_POL_BASE_ADDR
  let rec_ := fun k => if qOk then qrecOf (tabBytes (tableAt t 4) (32 * k) 32) else qrecDefault k
  let lists := ((List.range 4).filter fun k => decide (g Fld.TMG_GATE_CTRL_ENABLE k = 1)).map fun k =>
    (d.memKind (g.addr Fld.TMG_GATE_LIST_ADDR_ADDR k), gateEntries (tableAt t (8 + k)) (g Fld.TMG_GATE_CTRL_LEN k))
  let pol := fun k => leNat (tabBytes (tableAt t 5) k 4)
  firstFailed [
    (1, (cm.all fun c => decide (1 ≤ c.2.1 ∧ c.1 + c.2.1 ≤ 32)) && decide (c0.1 = 0 ∧ c0.2.1 = 1) &&
      ((cm.drop 1).all fun c => decide (0 < c.1 ∧ c.2.2 ≠ c0.2.2))),
    (2, ((List.range 4).all fun p => decide ((rec_ (32 * p)).rate = 0)) && lists.all fun l => l.2.all fun e => bit e.2 0),
    (3, ((List.range 128).all fun k =>
        decide (k % 32 < 4 ∨ 1 ≤ (rec_ k).weight) && decide (k % 32 = 0 ∨ 4 ≤ k % 32 ∨ (rec_ k).weight ≤ 64) &&
        decide (36 ≤ (rec_ k).limit ∧ (rec_ k).reserve ≤ (rec_ k).limit)) &&
      (List.range 132).all fun k => decide (1 ≤ (rec_ k).burst ∧ (rec_ k).burst ≤ 16777216)),
    (4, decide (((List.range 128).map fun k => (rec_ k).reserve).sum ≤ 65536)),
    (5, lists.all fun l => decide (l.1 = .hbm) && gateListOk l.2),
    (6, !pOk || (List.range 4096).all fun k => decide (pol (32 * k) ≤ pol (32 * k + 4) ∧ 1 ≤ pol (32 * k + 8) ∧ 1 ≤ pol (32 * k + 12))),
    (7, decide (g Fld.TMG_SAMPLE_INTERVAL_US 0 ≠ 0) && d.baseOk g Fld.TMG_QTAB_BASE_VALID Fld.TMG_QTAB_BASE_ADDR &&
      d.baseOk g Fld.TMG_POL_BASE_VALID Fld.TMG_POL_BASE_ADDR)]

/-- Root ports that WIDTH provides (R411, R471). -/
def Device.portsOf (d : Device) (width : Nat) : Nat := if d.hasIdie 1 then 4 * (width + 1) else 2 * (width + 1)

/-- A valid namespace record keeps R417 and names root ports there are. -/
def Device.vnsOk (d : Device) (bs : List Byte) : Bool :=
  let r := vnsOf bs
  let n := (bs.getD 1 0).toNat
  !bit r.flags 0 || (decide (1 ≤ n ∧ n ≤ 14) && (!bit r.flags 1 || decide (r.extLen % 256 = 0)) && !(bit r.flags 3 && d.cfg.part.noCipher) &&
    r.exts.all fun e => decide (e.1 < d.portsOf (d.fld d.nvr Fld.NVR_CFG_WIDTH)))

/-- The rules of an NVR_ commit (R433). -/
def Device.nvrRule (d : Device) (g : CopyVal) (t : Tbl Memory) : Nat :=
  let n := g Fld.NVR_VNS_COUNT_COUNT 0
  firstFailed [
    (1, decide (g Fld.NVR_VNS_BASE_VALID 0 = 1) && decide (d.memKind (g.addr Fld.NVR_VNS_BASE_ADDR 0) = .hbm)),
    (2, decide (n ≤ 1024)),
    (3, (List.range (min n 1024)).all fun k => d.vnsOk (tabBytes (tableAt t 6) (256 * k) 256))]

/-- What a function holds that a quota counts: the queues, valid memory keys and connections, and the partitions attached (R514, R519). -/
def Device.heldBy (d : Device) (m : Memory) (f : Nat) : Nat × Nat × Nat × Nat :=
  ((d.partsOf f).length, (d.queues.filter fun kv => decide (kv.1 / 65536 = f)).length,
    (d.keyTime.filter fun kv => match d.keyEntry m kv.1 with
      | some k => bit k.perm 7 && decide (k.func = f)
      | none => false).length,
    (d.conns.filter fun kv : Nat × Conn => decide (kv.2.func = f)).length)

/-- The rule that a pending copy breaks, 0 where it passes (R53): the first of its block's chapter. A group without rules always passes. -/
def Device.commitRule (d : Device) (m : Memory) (p : Page) (g : CopyVal) (t : Tbl Memory) : Nat :=
  match p with
  | .tile _ _ => firstFailed [(1, decide (g Fld.TILE_STALL_LIMIT_LIMIT 0 ≠ 0))]
  | .rope _ _ => firstFailed [
      (1, (List.range 128).all fun k => decide (g Fld.ROPE_MCAST_VALID k = 0 ∨
        (g Fld.ROPE_MCAST_REGION k ≠ 0 ∧ g Fld.ROPE_MCAST_CLUSTER k ≠ 0 ∧ g Fld.ROPE_MCAST_TILE k ≠ 0))),
      (2, (List.range 64).all fun k => decide (g Fld.ROPE_RSRC_VALID k = 0) ||
        (d.flag .pkg Fld.PKG_ID_VALID && decide (g Fld.ROPE_RSRC_PKG k ≠ d.fld .pkg Fld.PKG_ID_ID))),
      (3, decide (50 ≤ g Fld.ROPE_POLL_NS 0 ∧ g Fld.ROPE_POLL_NS 0 ≤ 10000 ∧ g Fld.ROPE_SEL_LIMIT_US 0 ≠ 0))]
  | .gft _ =>
    let rmin := g Fld.GFT_RTO_RTO_MIN_US 0
    let rmax := g Fld.GFT_RTO_RTO_MAX_US 0
    let delay := g Fld.GFT_ACK_ACK_DELAY_NS 0
    firstFailed [
      (1, decide (4 ≤ rmin ∧ rmin ≤ 1000 ∧ rmin ≤ rmax ∧ rmax ≤ 10000)),
      (2, decide (100 ≤ delay ∧ delay ≤ 10000 ∧ delay < rmin * 1000)),
      (3, decide (1 ≤ g Fld.GFT_ACK_ACK_EVERY 0 ∧ g Fld.GFT_ACK_ACK_EVERY 0 ≤ 64 ∧ 2 ≤ g Fld.GFT_PROBE_TIMEOUT_US 0 ∧
        g Fld.GFT_PROBE_TIMEOUT_US 0 ≤ 255 ∧ 10 ≤ g Fld.GFT_PROBE_INTERVAL_US 0 ∧ g Fld.GFT_PROBE_INTERVAL_US 0 ≤ 10000)),
      (4, d.baseOk g Fld.GFT_WIN_BASE_VALID Fld.GFT_WIN_BASE_ADDR && d.baseOk g Fld.GFT_KEY_BASE_VALID Fld.GFT_KEY_BASE_ADDR &&
        d.baseOk g Fld.GFT_GROUP_BASE_VALID Fld.GFT_GROUP_BASE_ADDR),
      (5, decide (1 ≤ g Fld.GFT_CC_INIT_PKTS 0 ∧ g Fld.GFT_CC_INIT_PKTS 0 ≤ 2048 ∧ 1 ≤ g Fld.GFT_CC_TARGET_RTT_US 0))]
  | .prs _ =>
    let valid := (List.range 8).filter fun k => decide (g Fld.PRS_ETYPE_VALID k = 1)
    firstFailed [
      (1, valid.all fun k => !([0x0800, 0x86DD, 0x8847, 0x8848, 0x8100, 0x88A8, g Fld.PRS_TPID_EXTRA 0].contains (g Fld.PRS_ETYPE_ETYPE k))),
      (2, valid.all fun a => valid.all fun b => decide (a = b ∨ g Fld.PRS_ETYPE_ETYPE a ≠ g Fld.PRS_ETYPE_ETYPE b))]
  | .cls i => d.clsRule i g t
  | .pme _ => firstFailed [
      (1, decide (g Fld.PME_PAT_BASE_VALID 0 = 1 ∧ g Fld.PME_RULE_BASE_VALID 0 = 1) && d.baseOk g Fld.PME_PAT_BASE_VALID Fld.PME_PAT_BASE_ADDR &&
        d.baseOk g Fld.PME_RULE_BASE_VALID Fld.PME_RULE_BASE_ADDR),
      (2, decide (g Fld.PME_PAT_COUNT_COUNT 0 ≤ 16384))]
  | .tmg _ => d.tmgRule g t
  | .nvr _ => d.nvrRule g t
  | .cvu _ h =>
    let owners := (List.range 16).map fun u => g (ownerField h u) 0
    firstFailed [
      (1, owners.all fun o => decide (o < 5)),
      (2, decide (h = 0) || owners.all fun o => decide (o ≠ 1 ∧ o ≠ 2)),
      (3, decide (h = 1) || owners.all fun o => decide (o ≠ 3 ∧ o ≠ 4)),
      (4, decide (h = 1) || (owners.contains 1 && owners.contains 2))]
  | .vf n =>
    let h := d.heldBy m n
    firstFailed [(1, decide (h.1 ≤ g Fld.VF_QUOTA_PARTITIONS 0 ∧ h.2.1 ≤ g Fld.VF_QUOTA_QUEUES 0 ∧
      h.2.2.1 ≤ 1024 * g Fld.VF_QUOTA_KEYS_K 0 ∧ h.2.2.2 ≤ g Fld.VF_QUOTA_CONNS 0))]
  | .tdie n => firstFailed [(1, (List.range 10).all fun k => decide (g Fld.TDIE_ROUTE_VALID k = 0) ||
      (List.range 5).all fun c => d.flag (.d2d n (bits (g Fld.TDIE_ROUTE_EDGE k) (2 * c) 2)) Fld.D2D_STATE_UP)]
  | .tel => firstFailed [
      (1, decide (100 ≤ g Fld.TEL_CFG_SNAP_US 0 ∧ g Fld.TEL_CFG_SNAP_US 0 ≤ 1000000 ∧ g Fld.TEL_CFG_COUNT 0 ≤ 65536) &&
        (decide (g Fld.TEL_CFG_COUNT 0 = 0) || decide (d.memKind (g.addr Fld.TEL_LIST_BASE_ADDR 0) = .hbm))),
      (2, decide (g Fld.TEL_CFG_IPV6 0 = 1 ∨ (g Fld.TEL_DST_IP 0 < 2 ^ 32 ∧ g Fld.TEL_SRC_IP 0 < 2 ^ 32)))]
  | _ => 0

/-- The values of a pending copy. -/
def Device.copyVal (d : Device) (p : Page) (copy : Tbl Nat) : CopyVal := fun f i => d.copyI copy p f i

/-- The I-die whose on-die memory takes a page's tables. -/
def tableDie : Page → Nat
  | .cls i => i
  | .pme i => i
  | .tmg i => i
  | .nvr i => i
  | _ => 0

/-- The check of a pending copy: the rule it breaks, and its tables loaded (R53, R383, R384, R407, R433). -/
def Device.checkCopy (d : Device) (m : Memory) (p : Page) (copy : Tbl Nat) : Nat × Tbl Memory :=
  let g := d.copyVal p copy
  let t := d.commitTables m p g
  (d.commitRule m p g t, t)

/-- COMMIT_CHECK: the block checks the pending copy; a failed rule ends the commit with COMMIT_ERR and the old configuration stays (R53). -/
def execCommitCheck (p : Page) (s : State) : Out :=
  let d := s.dev
  match d.commitOf p with
  | none => s.same
  | some c =>
    if !d.present p || c.checked then s.same
    else
      let (rule, t) := d.checkCopy s.mem p c.copy
      if rule ≠ 0 then s.done (d.endCommit p 2 rule)
      else
        let i := (tableDie p)
        let d := d.setLoaded (t.foldl (fun l kv => Tbl.put l (128 + 32 * i + 2 * kv.1) kv.2) d.loaded)
        s.done (d.setCommit p { c with checked := true })

/-! ### What a commit does when it applies -/

/-- A stop is in force, whatever its scope. -/
def Device.anyStop (d : Device) : Bool := d.belay.inForce.any fun src => decide (d.holdLevel src = 2)

/-- A placement record whose ring geometry changed starts again at P = 0 (R373). -/
def Device.placesAfter (d : Device) (i : Nat) (old new : Memory) : Device :=
  let geo := fun (t : Memory) k =>
    let r := placeOf (tabBytes t (64 * k) 64)
    (r.base, r.slotLog, r.countLog)
  d.setPlaces (Tbl.mapV d.places fun k (x : PlaceSt) =>
    if k / 1024 = i ∧ geo old (k % 1024) ≠ geo new (k % 1024) then { x with p := 0 } else x)

/-- The shapers whose RATE, BURST or OVERHEAD changed set their tokens (R394); `was` are the records before. -/
def Device.shapersAfter (d : Device) (i : Nat) (was : List QRec) : Device :=
  (List.range 132).foldl (fun (d : Device) k =>
    let o := was.getD k (qrecDefault k)
    let n := d.qrecNow i k
    if o.rate = n.rate ∧ o.burst = n.burst ∧ o.extra = n.extra then d
    else
      let tokens : Int := if n.zero then 0 else ((8000 * n.burst : Nat) : Int)
      if k < 128 then
        let x := d.tmq i (k / 32) (k % 32)
        d.setTmq i (k / 32) (k % 32) { x with tokens := tokens, since := d.clk.now }
      else
        let x := d.tmp i (k - 128)
        d.setTmp i (k - 128) { x with tokens := tokens, since := d.clk.now }) d

/-- The policers whose records changed start full (R402): a policer that is not listed is one. -/
def Device.policersAfter (d : Device) (i : Nat) (old new : Memory) : Device :=
  d.setPolicers ((d.policers).map fun kv : Nat × Policer =>
    let k := kv.1 % 4096
    if kv.1 / 4096 = i ∧ tabBytes old (32 * k) 32 ≠ tabBytes new (32 * k) 32 then
      let n := fun o => leNat (tabBytes new (32 * k + o) 4)
      (kv.1, { kv.2 with tc := 8000 * n 8, tp := 8000 * n 12, since := d.clk.now })
    else kv)

/-- A changed TMG_GATE makes its list pending, and ENABLE 0 opens every gate (R397). `was`: the values before. -/
def Device.gatesAfter (d : Device) (i : Nat) (was : CopyVal) : Device :=
  (List.range 4).foldl (fun (d : Device) k =>
    let p := Page.tmg i
    let g : CopyVal := fun f j => d.appI p f j
    let x := d.tmp i k
    if [Fld.TMG_GATE_CTRL_ENABLE, Fld.TMG_GATE_CTRL_GUARD_MODE, Fld.TMG_GATE_CTRL_LEN, Fld.TMG_GATE_GUARD_GUARD_NS, Fld.TMG_GATE_LIST_ADDR_ADDR,
        Fld.TMG_GATE_BASE_TIME_NS_TIME].all fun f => decide (g f k = was f k) then d
    else if g Fld.TMG_GATE_CTRL_ENABLE k = 0 then (d.setTmp i k { x with gate := none, entry := 0, pend := none }).showGate i k
    else
      let list : GateList := ⟨gateEntries (tableAt d.loaded (32 * i + 2 * (8 + k))) (g Fld.TMG_GATE_CTRL_LEN k), g Fld.TMG_GATE_BASE_TIME_NS_TIME k,
        g Fld.TMG_GATE_GUARD_GUARD_NS k, decide (g Fld.TMG_GATE_CTRL_GUARD_MODE k = 1)⟩
      (d.setTmp i k { x with pend := some (list, (d.ptpNow x).toNat) }).showGate i k) d

/-- The tables of a commit come into force; those before them serve the older generation (R55). -/
def Device.turnTables (d : Device) (p : Page) (g : CopyVal) : Device :=
  let i := (tableDie p)
  (d.tablesOf p g).foldl (fun (d : Device) x =>
    let k := 32 * i + 2 * x.2.1
    let l := Tbl.put d.loaded (k + 1) (tableAt d.loaded k)
    d.setLoaded (Tbl.del (Tbl.put l k (tableAt d.loaded (128 + k))) (128 + k))) d

/-- A checked copy takes effect (R54): its values and tables, and what the block's chapter attaches to the change. -/
def Device.applyCommit (d : Device) (p : Page) (copy : Tbl Nat) : Device :=
  let was : CopyVal := fun f i => d.appI p f i
  let before := d
  let d := (d.installCopy p copy).turnTables p (d.copyVal p copy)
  match p with
  | .cls i => d.placesAfter i (tableAt before.loaded (32 * i + 2)) (tableAt d.loaded (32 * i + 2))
  | .tmg i =>
    let d := d.shapersAfter i ((List.range 132).map fun k => before.qrecNow i k)
    let d := if d.app p Fld.TMG_POL_BASE_VALID = 0 then d
      else d.policersAfter i (tableAt before.loaded (32 * i + 10)) (tableAt d.loaded (32 * i + 10))
    d.gatesAfter i was
  | .gft i =>
    if was Fld.GFT_GROUP_BASE_ADDR 0 = d.app p Fld.GFT_GROUP_BASE_ADDR ∧ was Fld.GFT_GROUP_BASE_VALID 0 = d.app p Fld.GFT_GROUP_BASE_VALID then d
    else d.setGroups (Tbl.drop d.groups fun k => decide (k / 4096 = i))
  | .tdie _ =>
    let d := (List.range 10).foldl (fun (d : Device) k =>
      if was Fld.TDIE_ROUTE_EDGE k = d.appI p Fld.TDIE_ROUTE_EDGE k ∧ was Fld.TDIE_ROUTE_VALID k = d.appI p Fld.TDIE_ROUTE_VALID k then d
      else d.cairn p 0x0403 k) d
    if d.anyStop then d else (d.errNoCairn p 18 (Config.blockErrCode 0x04 18)).irq p 18
  | _ => d

/-- The partition that a tile, cluster or region page serves. -/
def Device.pagePart (d : Device) (p : Page) : Option Nat :=
  match p with
  | .tile n i => d.regionPart n (i / 128)
  | .clu n c => d.regionPart n (c / 8)
  | .rgn n r => d.regionPart n r
  | _ => none

/-- The page waits for the pitch boundary of its partition (R54): a pitch runs, and its block is not halted. -/
def Device.awaitsBoundary (d : Device) (p : Page) : Bool :=
  match d.pagePart p with
  | some q => decide (d.pState q = 3 ∨ d.pState q = 4 ∨ d.pState q = 5) && !d.flag p Fld.STATUS_HALTED
  | none => false

/-- COMMIT_APPLY: at its next boundary a checked, unarmed pending copy takes effect, where the page holds one generation (R54, R55). -/
def execCommitApply (p : Page) (s : State) : Out :=
  let d := s.dev
  match d.commitOf p with
  | none => s.same
  | some c =>
    if !d.present p || !c.checked || d.flag p Fld.COMMIT_ARMED || !d.oneGeneration p || d.awaitsBoundary p then s.same
    else
      let d := d.setWaveEpoch (Tbl.del d.waveEpoch p.base)
      s.done ((d.applyCommit p c.copy).endCommit p 1 0)

/-! ### The package commit wave -/

/-- The armed pages. -/
def Device.armedPages (d : Device) : List Page :=
  (d.reg.cur.filterMap fun kv => if kv.2 = 1 ∧ kv.1 % 32 = Fld.COMMIT_ARMED.lo ∧ kv.1 / 32 % 4096 = Fld.COMMIT_ARMED.off then
    (Page.ofBar0 (kv.1 / 32 / 4096 * 4096)).map Prod.fst else none).filter d.present

/-- The page belongs to a fenced region. -/
def Device.inFenced (d : Device) (p : Page) : Bool :=
  match p with
  | .tile n i => d.flag (.rgn n (i / 128)) Fld.STATUS_FENCED
  | .clu n c => d.flag (.rgn n (c / 8)) Fld.STATUS_FENCED
  | .rgn n r => d.flag (.rgn n r) Fld.STATUS_FENCED
  | _ => false

/-- The wave does not wait for an armed page of a fenced region (R92). -/
def Device.dropFencedArmed (d : Device) : Device :=
  let gone := (d.wave.waiting ++ d.wave.accepted).filter d.inFenced
  let d := d.setWave ⟨d.wave.waiting.filter (fun p => !d.inFenced p), d.wave.accepted.filter fun p => !d.inFenced p⟩
  each (fun (d : Device) p => (d.put p Fld.COMMIT_ARMED 0).endCommit p 2 0xFF) d gone

/-- FLIP (R90 steps 3 to 6): entry points tag the next epoch, and every page that accepted takes its copy. -/
def Device.flip (d : Device) : Device :=
  let e := (d.fld .pkg Fld.PKG_WAVE_EPOCH + 1) % 65536
  let d := each (fun (d : Device) p => match d.commitOf p with
    | some c => (((d.applyCommit p c.copy).endCommit p 1 0).put p Fld.COMMIT_ARMED 0).setWaveEpoch (Tbl.put d.waveEpoch p.base e)
    | none => d) d d.wave.accepted
  let d := (d.setWave ⟨[], []⟩).put .pkg Fld.PKG_WAVE_EPOCH e
  ((d.put .pkg Fld.PKG_WAVE_RESULT 1).put .pkg Fld.PKG_WAVE_BUSY 0).tick .pkg 3

/-- ABORT (R90, R70): every armed page reports COMMIT_ERR and FAIL_ID names the page that failed or did not answer. -/
def Device.abortWave (d : Device) (bad : Page) (result : Nat) : Device :=
  let d := each (fun (d : Device) p => if (d.commitOf p).isSome then d.endCommit p 2 0 else d) d (d.wave.waiting ++ d.wave.accepted)
  let d := (d.setWave ⟨[], []⟩).put .pkg Fld.PKG_WAVE_FAIL_ID bad.idReg
  let d := ((d.put .pkg Fld.PKG_WAVE_RESULT result).put .pkg Fld.PKG_WAVE_BUSY 0).tick .pkg 4
  (d.err .pkg 18 (Config.blockErrCode 0x18 18) bad.idReg).irq .pkg 18

/-- The wave flips once every page it waits for has accepted. -/
def Device.waveOn (d : Device) : Device := if d.wave.waiting.isEmpty then d.flip else d

/-- WAVE_GO: a write of PKG_WAVE.GO starts a wave over the armed pages (R90 step 1); while BUSY it is ignored and sets COMMIT_OVERLAP (R88). -/
def execWaveGo (r : Req) (s : State) : Out :=
  let d := s.dev
  if !d.mayAccess r .pkg then s.same
  else if d.flag .pkg Fld.PKG_WAVE_BUSY then s.done (d.hdrErr .pkg 2)
  else
    let d := (d.put .pkg Fld.PKG_WAVE_BUSY 1).put .pkg Fld.PKG_WAVE_RESULT 0
    s.done ((d.setWave ⟨d.armedPages, []⟩).dropFencedArmed.waveOn)

/-- WAVE_ACCEPT: an armed page answers (R90 step 2): ACCEPT once its copy is checked and it holds one generation, FAIL where its check failed. While a
stop is in force the wave stands where it is (R93). -/
def execWaveAccept (p : Page) (s : State) : Out :=
  let d := s.dev
  if !d.wave.waiting.contains p || d.anyStop then s.same
  else if d.inFenced p then s.done d.dropFencedArmed.waveOn
  else
    match d.commitOf p with
    | some c =>
      if c.checked && d.oneGeneration p then
        s.done (d.setWave ⟨d.wave.waiting.filter (· ≠ p), d.wave.accepted ++ [p]⟩).dropFencedArmed.waveOn
      else s.same
    | none => if d.fld p Fld.COMMIT_RESULT = 2 then s.done (d.abortWave p 2) else s.same

/-- WAVE_TIMEOUT: an answer is missing 100 ms after GO, and the wave is aborted (R90 step 3); the limit does not run under a stop (R93). -/
def execWaveTimeout (s : State) : Out :=
  let d := s.dev
  if d.anyStop then s.same
  else
    let d := d.dropFencedArmed
    match d.wave.waiting with
    | p :: _ => s.done (d.abortWave p 3)
    | [] => if s.dev.wave.waiting.isEmpty then s.same else s.done d.flip

/-- WAVE_EPOCH_DRAINED: no item tagged with the epoch before remains at the page, and it keeps one generation (R90 step 7). -/
def execWaveEpochDrained (p : Page) (s : State) : Out :=
  let d := s.dev
  if d.present p && (Tbl.look d.waveEpoch p.base).isSome then s.done (d.put p Fld.GEN_OLDEST (d.fld p Fld.GEN_APPLIED)) else s.same

end Sys2Proof.Machine
end

