-- ==== Sys2Proof/Machine/Access.lean ====
section
/-!
DEFINITION. Register writes without a row of their own (R41, R50), with what a block's chapter attaches to them, and the break of a lease (R60, R552).
-/
namespace Sys2Proof.Machine

/-! ### Register writes -/

/-- A write of an active hold slot's CTL that changes another field than ACTIVE is ignored and sets bit 16 (R601). -/
def Device.writeHold (d : Device) (r : Req) (o w v : Nat) : Device :=
  let s := (o - 0x600) / 16
  if d.fldI .bly Fld.BLY_HOLD_CTL_ACTIVE s = 0 ∨ w < 32 ∨ o % 16 ≠ 0 then d.regWrite r .bly o w v
  else if bits v 1 1 = d.fldI .bly Fld.BLY_HOLD_CTL_KIND s ∧ bits v 2 2 = d.fldI .bly Fld.BLY_HOLD_CTL_SCOPE s ∧
      bits v 4 5 = d.fldI .bly Fld.BLY_HOLD_CTL_PART s ∧ bits v 9 1 = d.fldI .bly Fld.BLY_HOLD_CTL_DISCARD s then d
  else d.errNoCairn .bly 16 (Config.blockErrCode 0x17 16)

/-- A write to the registers of a CVU_ unit (R430, R431): ignored, with bit 17 on a unit that hardware owns or that is busy, and bit 18 from a requester
that does not hold the unit's lease. -/
def Device.writeUnit (d : Device) (r : Req) (i h o w v : Nat) : Device :=
  let p := Page.cvu i h
  let u := (o - 0x100) / 0x40
  if d.unitOwner i h u ≠ 0 then d.errNoCairn p 17 (Config.blockErrCode 0x11 17)
  else if !d.holdsLease r p u then d.errNoCairn p 18 (Config.blockErrCode 0x11 18)
  else if d.fldI p Fld.CVU_JOB_CTL_BUSY u = 1 then d.errNoCairn p 17 (Config.blockErrCode 0x11 17)
  else d.regWrite r p o w v

/-- A write to a cipher job channel: ignored while BUSY, with bit 17 (R452). -/
def Device.writeChannel (d : Device) (r : Req) (i o w v : Nat) : Device :=
  let p := Page.cph i
  if d.fldI p Fld.CPH_JOB_CTL_BUSY ((o - 0x100) / 0x40) = 1 then d.err p 17 (Config.blockErrCode 0x12 17) ((o - 0x100) / 0x40)
  else d.regWrite r p o w v

/-- A write of TILE_ANCHOR_SPLIT to a halted tile clears the line map where it changes the bank size (R129). -/
def Device.writeSplit (d : Device) (r : Req) (n i w v : Nat) : Device :=
  let p := Page.tile n i
  let d' := d.regWrite r p 0x110 w v
  let new := d'.fld p Fld.TILE_ANCHOR_SPLIT_PAIR_8K
  (d'.put p Fld.TILE_ANCHOR_SPLIT_PAIR_8K (d.fld p Fld.TILE_ANCHOR_SPLIT_PAIR_8K)).setSplit n i new

/-- A write to a page: its fields under their access types, and what the block's chapter attaches to them. -/
def Device.pageWrite (d : Device) (r : Req) (p : Page) (o w v : Nat) : Device :=
  match p with
  | .tile n i => if o = 0x110 ∧ 32 ≤ w then d.writeSplit r n i w v else d.regWrite r p o w v
  | .bly => if 0x600 ≤ o ∧ o < 0x700 then d.writeHold r o w v else d.regWrite r p o w v
  | .cvu i h => if 0x100 ≤ o ∧ o < 0x500 then d.writeUnit r i h o w v else d.regWrite r p o w v
  | .cph i => if 0x100 ≤ o ∧ o < 0x200 then d.writeChannel r i o w v else d.regWrite r p o w v
  | .eth _ _ =>
    let d' := d.regWrite r p o w v
    if o = 0x100 ∧ 32 ≤ w ∧ d.flag p Fld.STATUS_HALTED then d'.put p Fld.ETH_STATE_FAILED 0 else d'
  | .pkg =>
    let d' := d.regWrite r p o w v
    if 0x130 ≤ o ∧ o < 0x144 ∧ 32 ≤ w ∧ d.flag p Fld.STATUS_HALTED then d'.adminSetup else d'
  | .mbx n => if o < 0x100 ∧ d.flag p Fld.VF_MBX_CTL_BUSY then d.hdrErr (.vf n) 1 else d.regWrite r p o w v
  | .msix f => if w < 32 ∨ o % (w / 8) ≠ 0 then d else (d.regWrite r p o w v).sendPending f
  | _ => d.regWrite r p o w v

/-- A configuration setting (R469, R470, R487, R491, R494): sizes are bytes, as the codes of the PCI Express specification give them. -/
def Device.cfgWrite (d : Device) (f : Nat) (c : CfgField) (v : Nat) : Device :=
  match c with
  | .maxPayload => if f = 0 ∧ [128, 256, 512].contains v then d.setLink { d.link with mps := v } else d
  | .maxReadRequest => if f = 0 ∧ [128, 256, 512, 1024, 2048, 4096].contains v then d.setLink { d.link with mrrs := v } else d
  | .pmeEnable => if f = 0 then d.setLink { d.link with pmeEn := bit v 0 } else d
  | .pmeStatus => if f = 0 ∧ bit v 0 then d.setLink { d.link with pmeStatus := false } else d
  | .atomicEnable => if f = 0 then d.setLink { d.link with atomicEn := bit v 0 } else d
  | .l0pEnable => if f = 0 then d.setLink { d.link with l0pOk := bit v 0 } else d
  | .l1Enable => if f = 0 then d.setLink { d.link with l1Ok := bit v 0 } else d
  | .functionMask => if bit v 0 then d.setMsix { d.msix with fmask := insSet f d.msix.fmask } else d

/-- REGISTER_WRITE: a write that has no row of its own stores the fields of a register under their access types, or is refused (R41, R50). A clear of a
Function Mask has its own row. -/
def execRegisterWrite (r : Req) (t : RegTarget) (value : Nat) (s : State) : Out :=
  let d := s.dev
  match t with
  | .page p o w => if d.mayAccess r p then s.done (d.pageWrite r p o w value) else s.same
  | .cfg f c => if r = .pf ∧ d.funcLive f then s.done (d.cfgWrite f c value) else s.same

/-! ### Lease breaks -/

/-- What a break quiesces (R552): a rope engine's lists, a session's command, a cipher job, a software unit's job; an NVR_ lease holds completions. -/
def Device.quiesce (d : Device) (p : Page) (i : Nat) : Device :=
  match p with
  | .rope n st =>
    let e := 16 * (3 * n + st) + i
    (d.abandonList (2 * e)).abandonList (2 * e + 1)
  | .kvt j => if d.fldI p Fld.KVT_SESS_CTL_BUSY i = 1 then d.breakSession j i else d
  | .cph _ =>
    if d.fldI p Fld.CPH_JOB_CTL_BUSY i = 1 then ((d.putI p Fld.CPH_JOB_CTL_BUSY i 0).putI p Fld.CPH_JOB_CTL_RESULT i d.freeVal).freeNext else d
  | .cvu j h => if d.fldI p Fld.CVU_JOB_CTL_BUSY i = 1 then d.cvuEnd j h i 0 else d
  | _ => d

/-- LEASE_BREAK: a write with the current epoch on an ORPHAN lease enters BREAKING and quiesces its resource; any other is stale (R60). -/
def execLeaseBreak (r : Req) (p : Page) (i word : Nat) (s : State) : Out :=
  let d := s.dev
  if !d.mayAccess r p || decide (p.leases ≤ i) then s.same
  else if d.fldI p Fld.LEASE_STATE_STATE i = 2 ∧ word / 2 ^ 16 % 2 ^ 16 = d.fldI p Fld.LEASE_OWNER_EPOCH i then
    s.done (((d.putI p Fld.LEASE_STATE_STATE i 3).putI p Fld.LEASE_BREAK_AGENT i word).quiesce p i)
  else s.done (d.hdrErr p 3)

end Sys2Proof.Machine
end

