-- ==== Sys2Proof/Machine/Admin.lean ====
section
/-!
DEFINITION. The admin queue and the mailboxes (spec/16 and spec/17, R503 to R514, R535, R536; R319, R320, R331, R332 and R349 for what they create).
A request is performed by one operation, whether an admin command or a forwarded mailbox request asks for it. R506 and R536 do not lay the parameters
out: a command carries them decoded, with the numbers that firmware chooses.
-/
namespace Sys2Proof.Machine

/-! ### What a request comes to -/

/-- The end of a request: the status of an admin completion, that of a mailbox response, and the result. -/
structure Ending where
  admin : Nat
  mbx : Nat
  result : List Byte

def Ending.ok (r : List Byte) : Ending := ⟨0, 0, r⟩
/-- A status of an owning chapter, the same for both. -/
def Ending.code (c : Nat) : Ending := ⟨c, c, []⟩
def Ending.bad : Ending := ⟨0x1701, 0x1603, []⟩
def Ending.noRes : Ending := ⟨0x1702, 0x1605, []⟩
def Ending.busy : Ending := ⟨0x1703, 0x1605, []⟩
def Ending.quota : Ending := ⟨0x1702, 0x1602, []⟩
/-- A range outside the function's grants: LOCAL_ACCESS (R513), DENIED in a mailbox response (R506). -/
def Ending.denied : Ending := ⟨0x010E, 0x1601, []⟩

/-- What a request does: wait, or change the units and end. -/
inductive Act where
  | wait
  | run (d : Device)
  | fin (d : Device) (e : Ending)

/-! ### Queues (R508) -/

/-- The queue numbers of a function (R502). -/
def queueLimit (f : Nat) : Nat := if f = 0 then 16384 else 1024

/-- The number of a new queue: firmware's choice, where it is free, else the lowest free one. -/
def Device.newQueue (d : Device) (f q : Nat) : Option Nat :=
  let free := fun (k : Nat) => decide (k < queueLimit f) && !Tbl.has d.queues (qkey f k)
  if free q then some q else (List.range (min (queueLimit f) (d.queues.length + 1))).find? free

/-- Bytes of a ring. -/
def ringBytes (typ size : Nat) : Nat := size * (if isSq typ then entrySize typ else slotSize typ)

/-- The ring lies in host memory, or in the function's device-resident queue memory, which firmware maps at `mem` in a grant of the function where it has
not been mapped (R71, R508). -/
def Device.ringPlace (d : Device) (f base n mem : Nat) : Option Device :=
  let d := if f = 0 ∨ isHost base ∨ Tbl.has d.queueMem f ∨ mem % 0x1000 ≠ 0 ∨ d.memKind mem ≠ .hbm then d
    else if d.parts.any fun kv : Nat × Partition => decide (kv.2.func = f) && d.granted kv.1 mem 0x800000 then
      d.setQueueMem (Tbl.put d.queueMem f ⟨mem, 0x800000⟩)
    else d
  if isHost base then some d
  else match Tbl.look d.queueMem f with
    | some g => if g.addr ≤ base ∧ base + n ≤ g.addr + g.len then some d else none
    | none => none

/-- The parameters of R508 hold. -/
def Device.queueArgsOk (d : Device) (f : Nat) (a : QueueArgs) : Bool :=
  let ring := decide (a.typ = 6 ∨ a.typ = 8)
  (ring || decide (1 ≤ a.typ ∧ a.typ ≤ 5)) && decide (a.base % 4096 = 0) &&
    ((List.range 13).any fun k => decide (a.size = 2 ^ (k + 4))) &&
    (if ring then decide (a.vector < 2048) else decide (d.queueTyp f a.cq = 8)) &&
    (decide (a.typ ≠ 1) || (match Tbl.look d.parts a.part with
      | some x => decide (x.func = f)
      | none => false)) &&
    (decide (a.member = 0) || d.crewMembers.contains a.member) && decide (1 ≤ a.modCount ∧ a.modCount ≤ 256 ∧ a.modUs ≤ 1000)

/-- CREATE_QUEUE. -/
def Device.makeQueue (d : Device) (m : Memory) (f : Nat) (a : QueueArgs) (q mem : Nat) : Act :=
  if !d.queueArgsOk f a then .fin d .bad
  else if a.typ = 4 && !d.rootPorts then .fin d (.code 0x0005)
  else if f ≠ 0 ∧ d.app (.vf f) Fld.VF_QUOTA_QUEUES ≤ (d.heldBy m f).2.1 then .fin d .quota
  else match d.newQueue f q with
    | none => .fin d .noRes
    | some k =>
      match d.ringPlace f a.base (ringBytes a.typ a.size) mem with
      | none => .fin d .denied
      | some d =>
        .fin (d.setQueue f k ⟨a.typ, a.base, a.size, a.cq, a.vector, a.part, a.member, a.modCount, a.modUs, 0, 0, 1, false, false, [], 0, 0, 0⟩)
          (.ok (leBytes 8 k))

/-- Work of a submission queue is in progress. -/
def Device.queueBusy (d : Device) (f q : Nat) : Bool :=
  (d.fetched.any fun x => decide (x.func = f ∧ x.queue = q)) ||
  (d.parts.any fun kv : Nat × Partition => kv.2.runs.any (fun r => decide (r.func = f ∧ r.queue = q)) ||
    kv.2.stops.any fun t : Nat × Nat × Nat × Nat => decide (t.1 = f ∧ t.2.1 = q)) ||
  (d.conns.any fun kv : Nat × Conn => kv.2.reqs.any fun r => match r.client with
    | .queue g k _ _ _ => decide (g = f ∧ k = q)
    | _ => false) ||
  (d.blocks.any fun b => decide (b.func = f ∧ b.queue = q)) ||
  (d.tmWait.any fun t => match t.tx with
    | some x => decide (x.1 = f ∧ x.2.1 = q)
    | none => false)

/-- DESTROY_QUEUE: a queue is destroyed once it is idle (R536); posted RX buffers are dropped with their queue, and a completion queue that others still
use is refused. -/
def Device.endQueue (d : Device) (f q : Nat) : Act :=
  match d.queue f q with
  | none => .fin d .bad
  | some x =>
    let gone := fun (d : Device) => (d.setQueues (Tbl.del d.queues (qkey f q))).endXfer (.entry f q)
    if x.typ = 7 ∨ (f = 0 ∧ q ≤ 1) then .fin d .bad
    else if x.typ = 3 then
      .fin (gone (each (fun (d : Device) (y : Fetched) => d.dropFetched y.id) d (d.fetched.filter fun y => decide (y.func = f ∧ y.queue = q)))) (.ok [])
    else if isSq x.typ then
      (if x.head ≠ x.tail ∧ !x.error ∨ d.queueBusy f q then .wait else .fin (gone d) (.ok []))
    else if x.typ = 8 && d.queues.any fun kv : Nat × Queue => decide (kv.1 / 65536 = f ∧ kv.2.cq = q) && isSq kv.2.typ then .fin d .busy
    else .fin (gone d) (.ok [])

/-! ### Partitions (R512 to R514) -/

/-- A grant's form: 2 MiB aligned, in HBM or the DDR5 tier. -/
def Device.grantOk (d : Device) (g : Nat × Nat) : Bool :=
  decide (g.1 % 0x200000 = 0 ∧ g.2 % 0x200000 = 0 ∧ 0 < g.2) && d.inMemory g.1 g.2

/-- Quarters as regions. -/
def quarterRegions (mask : Nat) : List (Nat × Nat) :=
  ((List.range 128).filter fun k => bit mask (quarterBit (k / 16) (k % 16))).map fun k => (k / 16, k % 16)

/-- A region belongs to partition `q`, or to none, as its page and its tiles' pages show (R29, R155). -/
def Device.tagRegion (d : Device) (q : Option Nat) (nr : Nat × Nat) : Device :=
  let p := Page.rgn nr.1 nr.2
  let d := (d.put p Fld.RGN_STATE_PTAG (q.getD 0)).put p Fld.RGN_STATE_PVALID (b2n q.isSome)
  each (fun (d : Device) i => (d.put (.tile nr.1 i) Fld.TILE_PART_TAG (q.getD 0)).put (.tile nr.1 i) Fld.TILE_PART_VALID (b2n q.isSome)) d (regionTiles nr.2)

/-- A gated region returns for its partition: its supply and clock, then re-initialisation (R623). -/
def Device.wakeRegion (d : Device) (nr : Nat × Nat) : Device :=
  let i := 256 * nr.1 + nr.2
  if d.flag (.rgn nr.1 nr.2) Fld.STATUS_FENCED then d
  else ((d.setPwr { d.pwr with gated := delSet i d.pwr.gated }).startClock i).reinitRegion nr.1 nr.2

/-- CREATE_PARTITION: the tag, the quarters, up to 16 grants that meet no other partition's, and the area of a local belay store (R27, R28, R512, R553). -/
def Device.makePartition (d : Device) (tag mask : Nat) (grants : List (Nat × Nat)) (store : Nat × Nat) : Act :=
  let present := (List.range 32).all fun k => !bit mask k || d.hasTdie (k / 4)
  let ranges := (d.parts.flatMap fun kv : Nat × Partition => kv.2.grants.map fun g => (g.addr, g.addr + g.len)) ++
    grants.map fun g : Nat × Nat => (g.1, g.1 + g.2)
  if d.model.maxPart ≤ tag ∨ mask = 0 ∨ 2 ^ 32 ≤ mask ∨ !present ∨ 16 < grants.length ∨ !(grants.all d.grantOk) then .fin d .bad
  else if store.2 ≠ 0 ∧ !d.inMemory store.1 store.2 then .fin d .bad
  else if (d.part tag).isSome ∨ (d.parts.any fun kv : Nat × Partition => decide (d.qmask kv.1 &&& mask ≠ 0)) ∨ !apart ranges then .fin d .noRes
  else
    let d := d.setPart tag ⟨0, grants.map fun g : Nat × Nat => ⟨g.1, g.2⟩, ⟨store.1, store.2⟩, none, [], [], [], [], 0, [], [], 0, none, 0, 0, 0,
      d.fld .pkg Fld.PKG_WAVE_EPOCH, [], [], [], [], 0, none, false, 0, 0, false⟩
    let d := (d.putI .pkg Fld.PKG_PART_QMASK tag mask).setPState tag 0
    .fin (each (fun (d : Device) nr => (d.wakeRegion nr).tagRegion (some tag) nr) d (quarterRegions mask)) (.ok [])

/-- DESTROY_PARTITION: a partition of the PF without an image; the leases it still holds become orphans (R536, R550). -/
def Device.endPartition (d : Device) (tag : Nat) : Act :=
  match d.part tag with
  | none => .fin d .bad
  | some x =>
    if x.func ≠ 0 ∨ x.image.isSome then .fin d .busy
    else
      let d := each (fun (d : Device) nr => d.tagRegion none nr) d (d.regionsOf tag)
      let d := ((d.setParts (Tbl.del d.parts tag)).putI .pkg Fld.PKG_PART_QMASK tag 0).setPState tag 0
      .fin (d.orphanLeases fun o => decide (o = partOwner tag)) (.ok [])

/-- ATTACH_PARTITION: a partition of the PF goes to a function within its quota; the result is its quarter mask and its grants in units of 2 MiB. -/
def Device.attachPart (d : Device) (m : Memory) (f tag : Nat) : Act :=
  match d.part tag with
  | none => .fin d .bad
  | some x =>
    if x.func ≠ 0 ∨ x.image.isSome then .fin d .busy
    else if f ≠ 0 ∧ d.app (.vf f) Fld.VF_QUOTA_PARTITIONS ≤ (d.heldBy m f).1 then .fin d .quota
    else .fin (d.setPart tag { x with func := f })
      (.ok (leBytes 4 (d.qmask tag) ++ x.grants.flatMap fun g => leBytes 4 (g.addr / 0x200000) ++ leBytes 4 (g.len / 0x200000)))

/-- DETACH_PARTITION: a partition without an image returns to the PF (R514). `f`: the function that asks, none for the PF's driver. -/
def Device.detachPart (d : Device) (f : Option Nat) (tag : Nat) : Act :=
  match d.part tag with
  | none => .fin d .bad
  | some x =>
    if x.func = 0 ∨ (f.isSome ∧ f ≠ some x.func) then .fin d .bad
    else if x.image.isSome then .fin d .busy
    else .fin (d.setPart tag { x with func := 0 }) (.ok [])

/-! ### Ports, keys and connections -/

/-- SET_MAC: firmware writes ETH_MAC_ADDR of a port and commits it. -/
def Device.setMacAddr (d : Device) (port addr : Nat) : Act :=
  let p := Page.eth (port / 4) (port % 4)
  if 8 ≤ port ∨ !d.present p then .fin d .bad
  else if d.flag p Fld.COMMIT_BUSY then .wait
  else .fin ((d.put p Fld.ETH_MAC_ADDR_ADDR addr).fwCommit p) (.ok [])

/-- A memory key's entry as R331 lays it out. -/
def keyBytesOf (a : KeyArgs) (gen f : Nat) : List Byte :=
  leBytes 8 (a.addr % 2 ^ 52) ++ leBytes 8 a.len ++ leBytes 1 (a.perm % 8 + 128) ++ leBytes 1 gen ++ leBytes 2 f ++ leBytes 2 a.allow ++
    List.replicate 10 0

/-- Write an entry: the first GEN of an index is a free value, and a later registration of it increments GEN (R332). -/
def Device.putKey (d : Device) (m : Memory) (f idx : Nat) (a : KeyArgs) : Act :=
  let again := Tbl.has d.keyTime idx
  let gen := if again then (((d.keyEntry m idx).map KeyEntry.gen).getD 0 + 1) % 256 else d.freeVal % 256
  let d := if again then d else d.freeNext
  let d := (d.memWrite m (d.keyAddr idx) (keyBytesOf a gen f)).setKeyTime (Tbl.put d.keyTime idx d.clk.now)
  .fin d (.ok (leBytes 4 (idx + gen * 2 ^ 24)))

/-- An index was registered less than 1 ms ago (R332). -/
def Device.keyRecent (d : Device) (idx : Nat) : Bool :=
  match Tbl.look d.keyTime idx with
  | some t => decide (d.clk.now < t + 1000000)
  | none => false

/-- A valid entry of the function under the key that names it. -/
def Device.ownKey (d : Device) (m : Memory) (f key : Nat) : Option KeyEntry :=
  match d.keyEntry m (key % 2 ^ 24) with
  | some k => if bit k.perm 7 ∧ k.func = f ∧ k.gen = key / 2 ^ 24 then some k else none
  | none => none

/-- REGISTER_MEMORY (R331, R332, R513): a range in the function's memory gets a key, at the index that firmware chooses, or at that of the key that is
registered again. An index once registered serves its owner only. -/
def Device.makeKey (d : Device) (m : Memory) (f : Nat) (a : KeyArgs) (idx : Nat) : Act :=
  if a.len = 0 ∨ 8 ≤ a.perm ∨ 2 ^ 16 ≤ a.allow ∨ 2 ^ 52 ≤ a.addr then .fin d .bad
  else if !d.funcMem f a.addr a.len then .fin d .denied
  else match a.key with
    | some k =>
      if (d.ownKey m f k).isNone then .fin d .bad
      else if d.keyRecent (k % 2 ^ 24) then .fin d .busy
      else d.putKey m f (k % 2 ^ 24) a
    | none =>
      if f ≠ 0 ∧ 1024 * d.app (.vf f) Fld.VF_QUOTA_KEYS_K ≤ (d.heldBy m f).2.2.1 then .fin d .quota
      else match d.keyEntry m idx with
        | none => .fin d .noRes
        | some e =>
          if bit e.perm 7 ∨ (Tbl.has d.keyTime idx ∧ e.func ≠ f) then .fin d .noRes
          else if d.keyRecent idx then .fin d .busy
          else d.putKey m f idx a

/-- DEREGISTER_MEMORY: VALID clears. -/
def Device.endKey (d : Device) (m : Memory) (f key : Nat) : Act :=
  match d.ownKey m f key with
  | none => .fin d .bad
  | some k => .fin (d.memWrite m (d.keyAddr (key % 2 ^ 24) + 16) [BitVec.ofNat 8 (k.perm - 128)]) (.ok [])

/-- The home I-die of a connection and its place in that die's bivouac (R319, R320). -/
def Device.homeOf (d : Device) (id : Nat) : Nat := if d.model.idies.length = 2 then id / 2 ^ 21 % 2 else 0
def Device.bivouacIndex (d : Device) (id : Nat) : Nat := if d.model.idies.length = 2 then id % 2 ^ 21 else id

/-- A new context (R323, R330, R347): ACTIVE, with SRTT at RTO_MIN_US / 2, RTTVAR 0, cwnd at INIT_PKTS packets and alpha 0. -/
def Device.newConn (d : Device) (f : Nat) (crew : Bool) (id : Nat) (a : ConnArgs) : Conn :=
  let i := d.homeOf id
  let p := Page.gft i
  let mtu := 1024 * 2 ^ min 2 (d.fld p Fld.GFT_CFG_MAX_PAYLOAD)
  let path := fun (x : PathArgs) => (⟨x.port, x.udp, x.ip, x.mac,
    if d.flag (.eth (x.port / 4) (x.port % 4)) Fld.ETH_STATE_UP then 0 else 2, 0, false⟩ : GftPath)
  ⟨f, crew, a.peer, a.rconn, a.cls, a.strict, a.nonce, a.v6, a.ip, a.vlan, a.dscp, a.enc, a.reinject, a.tok, a.paths.map path, i, 0, false, d.clk.now,
    a.psn, 0, 0, [], [], [], a.peerPsn, [], [], [], 0, 0, none, 0, 0,
    Frac.nat (mtu * d.app p Fld.GFT_CC_INIT_PKTS), Frac.nat 0, Frac.nat 0, Frac.of (1000 * d.app p Fld.GFT_RTO_RTO_MIN_US) 2, Frac.nat 0, Frac.nat 0,
    0, none⟩

/-- The parameters of a connection hold (R322, R323, R337). -/
def Device.connArgsOk (d : Device) (a : ConnArgs) : Bool :=
  decide (a.cls ≤ 4) && decide (2 ≤ a.cls ∨ a.strict) && decide (1 ≤ a.paths.length ∧ a.paths.length ≤ 16) && decide (a.peer < 2 ^ 14) &&
    (a.paths.all fun x => decide (x.port < 8) && d.present (.eth (x.port / 4) (x.port % 4)))

/-- The connection can be numbered `id`: free, in its bivouac's area, and where it is pinned with room for it (R319, R320). -/
def Device.connFits (d : Device) (id cls : Nat) : Bool :=
  decide (id < 2 ^ 22) && (d.conn id).isNone && decide (d.bivouacIndex id < d.fld (.gft (d.homeOf id)) Fld.GFT_BIVOUAC_SIZE_COUNT) &&
    (decide (2 < cls) || decide ((d.conns.filter fun kv : Nat × Conn => decide (kv.2.owner = d.homeOf id ∧ kv.2.cls ≤ 2)).length < 16384))

/-- A connection's context is placed in the cache. -/
def Device.addConn (d : Device) (f : Nat) (crew : Bool) (id : Nat) (a : ConnArgs) : Device :=
  (d.setConn id (d.newConn f crew id a)).cacheConn (d.homeOf id) id

/-- CREATE_CONN (R318 to R323). -/
def Device.makeConn (d : Device) (m : Memory) (f : Nat) (a : ConnArgs) (id : Nat) : Act :=
  if !d.connArgsOk a then .fin d .bad
  else if a.enc.isSome && d.cfg.part.noCipher then .fin d (.code 0x010B)
  else if f ≠ 0 ∧ d.app (.vf f) Fld.VF_QUOTA_CONNS ≤ (d.heldBy m f).2.2.2 then .fin d .quota
  else if !d.flag .pkg Fld.PKG_ID_VALID || !d.connFits id a.cls then .fin d .noRes
  else .fin (d.addConn f false id a) (.ok (leBytes 8 id))

/-- DESTROY_CONN: DRAINING until every outstanding request has ended, then freed; a connection in ERROR is freed at once (R319). -/
def Device.endConn (d : Device) (m : Memory) (f id : Nat) : Act :=
  match d.conn id with
  | none => .fin d .bad
  | some c =>
    if c.func ≠ f ∨ c.crew then .fin d .bad
    else if c.st = 2 ∨ (c.reqs.isEmpty ∧ c.msgs.isEmpty ∧ c.unacked.isEmpty) then .fin (d.dropConn m id) (.ok [])
    else .fin ((d.setConn id { c with st := 3 }).settle m id) (.ok [])

/-! ### Admin commands -/

/-- The opcode of an admin entry and the function it names (R535). -/
def Fetched.opcode (x : Fetched) : Nat := x.num 0 1
def Fetched.fn (x : Fetched) : Nat := x.num 4 2

/-- The admin entry is done. -/
def Device.adminDone (d : Device) (m : Memory) (x : Fetched) (e : Ending) : Device :=
  (d.dropFetched x.id).complete m 0 0 x.head (leBytes 2 (x.num 2 2) ++ leBytes 2 e.admin ++ e.result)

/-- An admin command: firmware performs the oldest entry of the admin queue, where it holds the command's opcode (R535, R536). An entry with an opcode that
R536 does not give ends with BAD_REQUEST, and one that names no live function with BAD_FUNC where the command uses FUNC. -/
def adminCmd (op : Nat) (usesFunc : Bool) (body : Device → Fetched → Act) (s : State) : Out :=
  let d := s.dev
  match d.oldest 0 0 with
  | none => s.same
  | some x =>
    if d.fwState ≠ 7 || !d.dutyUp 0 || decide (d.queueTyp 0 0 ≠ 7) then s.same
    else if x.opcode = 0 ∨ 0x11 < x.opcode then s.done (d.adminDone s.mem x .bad)
    else if x.opcode ≠ op then s.same
    else if usesFunc && !(decide (x.fn < 128) && d.funcLive x.fn) then s.done (d.adminDone s.mem x ⟨0x1704, 0, []⟩)
    else match body d x with
      | .wait => s.same
      | .run d => s.done d
      | .fin d e => s.done (d.adminDone s.mem x e)

/-- DATA_ADDR of an admin entry. -/
def Fetched.dataAddr (x : Fetched) : Nat := x.num 8 8

/-- IDENTIFY: 4 KiB of identity data go to DATA_ADDR; R536 does not lay them out, so each byte is a free value. -/
def execIdentify (s : State) : Out :=
  adminCmd 0x01 false (fun d x =>
    if !d.funcMem 0 x.dataAddr 4096 then .fin d .denied
    else .fin ((d.postAt s.mem 0 0 x.dataAddr ((List.range 4096).map fun k => BitVec.ofNat 8 (Config.undefByte d.freeVal k))).freeNext) (.ok [])) s

/-- CREATE_QUEUE. -/
def execCreateQueue (a : QueueArgs) (q mem : Nat) (s : State) : Out := adminCmd 0x02 true (fun d x => d.makeQueue s.mem x.fn a q mem) s

/-- DESTROY_QUEUE. -/
def execDestroyQueue (q : Nat) (s : State) : Out := adminCmd 0x03 true (fun d x => d.endQueue x.fn q) s

/-- CREATE_PARTITION. -/
def execCreatePartition (tag qmask : Nat) (grants : List (Nat × Nat)) (store : Nat × Nat) (s : State) : Out :=
  adminCmd 0x04 false (fun d _ => d.makePartition tag qmask grants store) s

/-- DESTROY_PARTITION. -/
def execDestroyPartition (tag : Nat) (s : State) : Out := adminCmd 0x05 false (fun d _ => d.endPartition tag) s

/-- ATTACH_PARTITION. -/
def execAttachPartition (tag : Nat) (s : State) : Out := adminCmd 0x06 true (fun d x => d.attachPart s.mem x.fn tag) s

/-- DETACH_PARTITION. -/
def execDetachPartition (tag : Nat) (s : State) : Out := adminCmd 0x07 false (fun d _ => d.detachPart none tag) s

/-- SET_MAC. -/
def execSetMac (port addr : Nat) (s : State) : Out := adminCmd 0x09 false (fun d _ => d.setMacAddr port addr) s

/-- REGISTER_MEMORY. -/
def execRegisterMemory (a : KeyArgs) (idx : Nat) (s : State) : Out := adminCmd 0x0A true (fun d x => d.makeKey s.mem x.fn a idx) s

/-- DEREGISTER_MEMORY. -/
def execDeregisterMemory (key : Nat) (s : State) : Out := adminCmd 0x0B true (fun d x => d.endKey s.mem x.fn key) s

/-- CREATE_CONN. -/
def execCreateConn (a : ConnArgs) (id : Nat) (s : State) : Out := adminCmd 0x0C true (fun d x => d.makeConn s.mem x.fn a id) s

/-- DESTROY_CONN. -/
def execDestroyConn (id : Nat) (s : State) : Out := adminCmd 0x0D true (fun d x => d.endConn s.mem x.fn id) s

/-- SET_VNS_TABLE: a new table of `count` records is copied from DATA_ADDR to a new place in HBM and NVR_VNS_BASE is committed (R417, R433). A commit
that its rules refuse ends with BAD_REQUEST. -/
def execSetVnsTable (count dest : Nat) (s : State) : Out :=
  adminCmd 0x0E false (fun d x =>
    let p := d.nvr
    let n := 256 * count
    if !d.rootPorts then .fin d (.code 0x0005)
    else if 1024 < count then .fin d .bad
    else if !d.funcMem 0 x.dataAddr n then .fin d .denied
    else if dest % 4096 ≠ 0 ∨ d.memKind dest ≠ .hbm ∨ (n ≠ 0 ∧ !d.inMemory dest n) ∨
      (d.app p Fld.NVR_VNS_BASE_VALID = 1 ∧ dest = d.app p Fld.NVR_VNS_BASE_ADDR * 4096) then .fin d .noRes
    else if d.flag p Fld.COMMIT_BUSY || !d.oneGeneration p then .wait
    else match d.sourceData s.mem x x.dataAddr n with
      | .notNow => .wait
      | .asked d => .run d
      | .failed d st => .fin d (.code st)
      | .ready d bs bad =>
        if !bad.isEmpty then .fin d (.code 0x0905)
        else
          let d := d.memWrite s.mem dest bs
          let d := ((d.put p Fld.NVR_VNS_BASE_VALID 1).put p Fld.NVR_VNS_BASE_ADDR (dest / 4096)).put p Fld.NVR_VNS_COUNT_COUNT count
          let d := (d.put p Fld.COMMIT_TARGET (d.fld p Fld.GEN_APPLIED + 1)).setWaveEpoch (Tbl.del d.waveEpoch p.base)
          let copy := stagedOf p d.reg.cur
          let (rule, t) := d.checkCopy s.mem p copy
          if rule ≠ 0 then .fin (d.endCommit p 2 rule) .bad
          else
            let d := d.setLoaded (t.foldl (fun l kv => Tbl.put l (128 + 32 * tableDie p + 2 * kv.1) kv.2) d.loaded)
            .fin ((d.applyCommit p copy).endCommit p 1 0) (.ok [])) s

/-- SET_BIVOUAC: the bivouac of an I-die is placed in host memory or the DDR5 tier; the tier is UNIT_ABSENT on an -L part (R320, R536). -/
def execSetBivouac (i addr count : Nat) (s : State) : Out :=
  adminCmd 0x0F false (fun d _ =>
    let p := Page.gft i
    if !d.present p ∨ addr % 4096 ≠ 0 ∨ 2 ^ 22 < count ∨ 2 ^ 52 ≤ addr then .fin d .bad
    else if !isHost addr && d.cfg.part.noDdr then .fin d (.code 0x0005)
    else if !isHost addr && !(decide (d.memKind addr = .ddr) && d.inMemory addr (max 1 (512 * count))) then .fin d .bad
    else .fin (((d.put p Fld.GFT_BIVOUAC_ENABLE 1).put p Fld.GFT_BIVOUAC_ADDR (addr / 4096)).put p Fld.GFT_BIVOUAC_SIZE_COUNT count) (.ok [])) s

/-- SET_PKG_ID: with software as the source the ID is set once; a second setting is BUSY (R610). -/
def execSetPkgId (id : Nat) (s : State) : Out :=
  adminCmd 0x10 false (fun d _ =>
    if 2 ^ 14 ≤ id ∨ d.cfg.straps.idSrc ≠ 0 then .fin d .bad
    else if d.flag .pkg Fld.PKG_ID_VALID then .fin d .busy
    else .fin (d.setPkgId id 0) (.ok [])) s

/-! ### Crews (R36 to R39, R349, R495, R497) -/

/-- The member list holds: 2 to 64 distinct indexes with index 0 among them, distinct package IDs, partners in the crew other than the member, and this
package under its own index. -/
def Device.crewOk (d : Device) (ms : List MemberArgs) (own : Nat) : Bool :=
  let idx := ms.map MemberArgs.index
  decide (2 ≤ ms.length ∧ ms.length ≤ 64) && (ms.all fun x => decide (x.index < 64 ∧ x.pkg < 2 ^ 14)) && idx.contains 0 && decide idx.Nodup &&
    decide (ms.map MemberArgs.pkg).Nodup &&
    (ms.all fun x => match x.partner with
      | some p => decide (p ≠ x.index) && idx.contains p
      | none => true) &&
    d.flag .pkg Fld.PKG_ID_VALID && ms.any fun x => decide (x.index = own ∧ x.pkg = d.fld .pkg Fld.PKG_ID_ID)

/-- The crew connections that this package ends, as (package, class): classes 0 and 1 with the stroke package and the host-path connection of class 2, and
classes 0, 1 and 3 with each designated partner. -/
def crewLinks (ms : List MemberArgs) (own : Nat) : List (Nat × Nat) :=
  let others := ms.filter fun x => decide (x.index ≠ own)
  let partnerOf := fun (k : Nat) => (ms.find? fun x => decide (x.index = k)).bind MemberArgs.partner
  (others.filter fun x => decide (own = 0 ∨ x.index = 0)).flatMap (fun x => [(x.pkg, 0), (x.pkg, 1), (x.pkg, 2)]) ++
  (others.filter fun x => decide (partnerOf own = some x.index ∨ x.partner = some own)).flatMap fun x => [(x.pkg, 0), (x.pkg, 1), (x.pkg, 3)]

/-- Firmware's connections give every crew link once, in the order that R349 and R497 ask for, with numbers that are free. -/
def Device.crewConnsOk (d : Device) (ms : List MemberArgs) (own : Nat) (conns : List (Nat × ConnArgs)) : Bool :=
  ((crewLinks ms own).all fun l => conns.any fun c => decide (c.2.peer = l.1 ∧ c.2.cls = l.2 ∧ (c.2.cls = 3 ∨ c.2.strict) ∧ ¬(c.2.cls = 3 ∧ c.2.strict))) &&
  (conns.all fun c => (crewLinks ms own).contains (c.2.peer, c.2.cls) && d.connArgsOk c.2 && d.connFits c.1 c.2.cls &&
    !(c.2.enc.isSome && d.cfg.part.noCipher)) && decide (conns.map Prod.fst).Nodup

/-- The crew stands: PKG_CREW, PKG_CREW_MASK with the members whose firmware was verified, the member records and the connections. The stroke package
sends its image to the members (R495). -/
def Device.formCrew (d : Device) (ms : List MemberArgs) (own verified : Nat) (conns : List (Nat × ConnArgs)) : Device :=
  let mask := (ms.filter fun x => decide (x.index = own) || bit verified x.index).foldl (fun k x => setBit k x.index) 0
  let d := ((d.put .pkg Fld.PKG_CREW_SIZE ms.length).put .pkg Fld.PKG_CREW_INDEX own).put .pkg Fld.PKG_CREW_MASK_MEMBERS mask
  let d := d.setCrew ⟨ms.map fun x => ⟨x.index, x.pkg, x.partner, x.addr, x.len⟩, [], none⟩
  let d := each (fun (d : Device) (c : Nat × ConnArgs) => d.addConn 0 true c.1 c.2) d conns
  if own = 0 then each (fun (d : Device) (x : MemberArgs) => if x.index = 0 then d else d.emit (.bytes "member-firmware" x.index (Tbl.lookD d.fw.sram 0 []))) d ms
  else d

/-- CREW_FORM: at the stroke package the admin command, at a member firmware's part of the formation. -/
def execCrewForm (members : List MemberArgs) (own verified : Nat) (conns : List (Nat × ConnArgs)) (s : State) : Out :=
  let d := s.dev
  if d.cfg.straps.crewRole = 2 then
    (if d.fwState = 7 ∧ own ≠ 0 ∧ d.crew.members = [] ∧ d.cfg.straps.idSrc ≠ 0 ∧ d.crewOk members own ∧ d.crewConnsOk members own conns then
      s.done (d.formCrew members own verified conns)
    else s.same)
  else adminCmd 0x11 false (fun d _ =>
    if d.cfg.straps.crewRole ≠ 1 ∨ own ≠ 0 ∨ !d.crewOk members own then .fin d .bad
    else if d.crew.members ≠ [] then .fin d .busy
    else if !d.crewConnsOk members own conns then .fin d .noRes
    else .fin (d.formCrew members own verified conns) (.ok [])) s

/-! ### Mailboxes (R503 to R506) -/

/-- The request that a VF's mailbox submitted, as bytes. -/
def Device.mbxCopy (d : Device) (n : Nat) : List Byte := leBytes 256 (d.fld (.vf n) Fld.VF_MBX_COPY)

/-- The response: STATUS, CID and the results from byte 8; BUSY clears and the vector is raised. -/
def Device.mbxRespond (d : Device) (n status : Nat) (result : List Byte) : Device :=
  let cid := ((d.mbxCopy n).drop 2).take 2
  let bs := (leBytes 2 status ++ cid ++ [0, 0, 0, 0] ++ result).take 256
  let d := (d.put (.mbx n) Fld.VF_MBX_RESP (leNat bs)).put (.mbx n) Fld.VF_MBX_CTL_BUSY 0
  (d.put (.vf n) Fld.VF_STATE_MBX_PENDING 0).sendMsix n (d.fld (.mbx n) Fld.VF_MBX_CTL_VECTOR)

/-- MAILBOX_GO: the VF submits its request (R504); with one outstanding, GO is ignored and sets ACCESS in the PF's page. -/
def execMailboxGo (n : Nat) (s : State) : Out :=
  let d := s.dev
  let p := Page.mbx n
  let v := Page.vf n
  if n = 0 || !d.present p || !d.funcLive n || d.link.flr.contains n then s.same
  else if d.flag p Fld.VF_MBX_CTL_BUSY then s.done (d.hdrErr v 1)
  else
    let d := ((d.put v Fld.VF_MBX_COPY (d.fld p Fld.VF_MBX_REQ)).put p Fld.VF_MBX_CTL_BUSY 1).put p Fld.VF_MBX_CTL_SEQ (d.fld p Fld.VF_MBX_CTL_SEQ + 1)
    s.done (((d.put v Fld.VF_STATE_MBX_PENDING 1).tick v 2).irq v 16)

/-- VF_DENY: the PF refuses the pending request with a status (R505). -/
def execVfDeny (r : Req) (n status : Nat) (s : State) : Out :=
  let d := s.dev
  if n = 0 || !d.mayAccess r (.vf n) || !d.flag (.vf n) Fld.VF_STATE_MBX_PENDING then s.same
  else s.done ((d.mbxRespond n (status % 2 ^ 16) []).tick (.vf n) 3)

/-- MBX_TIMEOUT: VF_MBX_LIMIT has passed with BUSY still 1 (R505). -/
def execMbxTimeout (n : Nat) (s : State) : Out :=
  let d := s.dev
  if n = 0 || !d.present (.mbx n) || !d.flag (.mbx n) Fld.VF_MBX_CTL_BUSY then s.same
  else s.done ((d.mbxRespond n 0x1604 []).tick (.vf n) 4)

/-- The opcode of a request (R506). -/
def mbxCode : MbxReq → Nat
  | .createQueue _ _ _ => 1
  | .destroyQueue _ => 2
  | .attachPartition _ => 3
  | .detachPartition _ => 4
  | .setMac _ _ => 5
  | .registerMemory _ _ => 6
  | .deregisterMemory _ => 7
  | .createConn _ _ => 8
  | .destroyConn _ => 9

/-- Firmware performs a request as the function. -/
def Device.perform (d : Device) (m : Memory) (f : Nat) : MbxReq → Act
  | .createQueue a q mem => d.makeQueue m f a q mem
  | .destroyQueue q => d.endQueue f q
  | .attachPartition tag => d.attachPart m f tag
  | .detachPartition tag => d.detachPart (some f) tag
  | .setMac port addr => d.setMacAddr port addr
  | .registerMemory a idx => d.makeKey m f a idx
  | .deregisterMemory key => d.endKey m f key
  | .createConn a id => d.makeConn m f a id
  | .destroyConn id => d.endConn m f id

/-- A FORWARD entry and the VF's pending request (R505): the response goes to the mailbox, and the admin command completes. With no request pending the
command is a BAD_REQUEST; a request with an opcode that R506 does not give is answered BAD_REQUEST. -/
def forwardCmd (code : Nat) (body : Device → Nat → List Byte → Act) (s : State) : Out :=
  adminCmd 0x08 true (fun d x =>
    let n := x.fn
    let req := d.mbxCopy n
    let op := (req.getD 0 0).toNat
    if n = 0 ∨ !d.flag (.vf n) Fld.VF_STATE_MBX_PENDING then .fin d .bad
    else if op = 0 ∨ 0x0B < op then .fin (d.mbxRespond n 0x1603 []) (.ok [])
    else if op ≠ code then .wait
    else match body d n (req.drop 8) with
      | .wait => .wait
      | .run d => .run d
      | .fin d e => .fin (d.mbxRespond n e.mbx e.result) (.ok [])) s

/-- FORWARD. -/
def execForward (q : MbxReq) (s : State) : Out := forwardCmd (mbxCode q) (fun d n _ => d.perform s.mem n q) s

/-- ATTACH_VNS: a namespace whose record names the VF; the result is its size in blocks (R417, R506). -/
def execAttachVns (vns : Nat) (s : State) : Out :=
  forwardCmd 0x0A (fun d n _ =>
    if !d.rootPorts then .fin d (.code 0x0005)
    else match d.vnsRec vns (d.fld .pkg Fld.PKG_WAVE_EPOCH) with
      | none => .fin d .denied
      | some r =>
        if r.func ≠ n then .fin d .denied
        else if bit r.flags 3 && d.cfg.part.noCipher then .fin d (.code 0x010B)
        else .fin d (.ok (leBytes 8 (r.exts.length * r.extLen)))) s

/-- KEY_SESSION: firmware performs the request in the vault of an I-die with OWNER set to the VF, and answers with the vault's response as far as it fits
(R443, R506). Operations on what is not the VF's are DENIED (log entry 30). -/
def execKeySession (i : Nat) (answers : Bool) (s : State) : Out :=
  forwardCmd 0x0B (fun d n req =>
    let q := { parseVReq req false with owner := n }
    let k := d.slot i q.slot
    if !d.present (.kvt i) then .fin d .bad
    else if q.op = 7 ∨ q.op = 10 ∨ ((q.op = 3 ∨ q.op = 6) ∧ (k.owner ≠ n ∨ k.pkg)) then .fin d .denied
    else if d.waitsForImport i q then .wait
    else
      let st := d.vaultRefuse i q
      let r := if st ≠ 0 then (if q.isImport then d.tick (.kvt i) 1 else d, VResp.err st) else d.vaultDo i n q answers
      .fin r.1 ⟨0, r.1.withApproved i r.2.status, (r.2.bytes (r.1.withApproved i r.2.status)).take 248⟩) s

end Sys2Proof.Machine
end

