-- ==== Sys2Proof/Machine/Moves.lean ====
section
/-!
DEFINITION. MOVE (spec/05 R144): copies inside a tile, to a peer (R147), and from and to memory, with the write log (R555); a MOVE at a remote window
becomes a GFT message (R346).
-/
namespace Sys2Proof.Machine

/-! ### The write log -/

def Device.wlog (d : Device) (n q : Nat) : WLog := Tbl.lookD d.wlogs (32 * n + q) ⟨[], false, [], false, [], false⟩
def Device.setWlog (d : Device) (n q : Nat) (x : WLog) : Device := d.setWlogs (Tbl.put d.wlogs (32 * n + q) x)

/-- A range of lines joins the runs (R555): runs that meet or touch it merge with it, in runs of at most 65,535 lines. -/
def mergeRun (runs : List (Nat × Nat)) (first count : Nat) : List (Nat × Nat) :=
  let meets := fun (r : Nat × Nat) => decide (r.1 ≤ first + count ∧ first ≤ r.1 + r.2)
  let hit := runs.filter meets
  let lo := hit.foldl (fun a (r : Nat × Nat) => min a r.1) first
  let hi := hit.foldl (fun a (r : Nat × Nat) => max a (r.1 + r.2)) (first + count)
  runs.filter (fun r => !meets r) ++
    (List.range ((hi - lo + 65534) / 65535)).map fun k => (lo + 65535 * k, min 65535 (hi - lo - 65535 * k))

/-- Record a range of lines in the write log of a T-die (R555, R557). -/
def Device.logRun (d : Device) (n q first count : Nat) : Device :=
  let l := d.wlog n q
  if l.ovf then d
  else
    let runs := mergeRun l.runs first count
    let p := Page.tdie n
    let d := if l.runs.length < runs.length then d.count p 2 (runs.length - l.runs.length) else d
    if 16384 < runs.length then
      ((((d.setWlog n q { l with ovf := true }).tick p 3).cairn p 0x0401 q).errNoCairn p 16 0x0401).irq p 16
    else d.setWlog n q { l with runs := runs }

/-- A tile of die `n` writes device memory: what falls into an ANCHORED or KV area of the partition is logged, at the T-die of the memory, or for the
DDR5 tier at the writer's. -/
def Device.logWrite (d : Device) (n q a len : Nat) : Device :=
  match Tbl.look d.parts q with
  | none => d
  | some x =>
    let areas := (x.image.map Image.areas).getD []
    let die := if d.memKind a = .hbm then a / 0x4000000000 else n
    areas.foldl (fun d (r : AreaRec) =>
      let lo := max a r.addr
      let hi := min (a + len) (r.addr + r.len)
      if (r.kind = 3 ∨ r.kind = 4) ∧ lo < hi then d.logRun die q (lo / 256) ((hi + 255) / 256 - lo / 256) else d) d

/-! ### The directions -/

/-- Row `r` of the source of a MOVE that reads its tile. -/
def Device.moveRow (d : Device) (m : Memory) (n i : Nat) (x : List Nat) (r : Nat) : List Byte := d.locRead m n i (dA x) (r * dAStride x * 16) (dN x)

/-- Every row of the source. -/
def Device.moveRows (d : Device) (m : Memory) (n i : Nat) (x : List Nat) : List (List Byte) := (List.range (dM x)).map (d.moveRow m n i x)

/-- The row pitch P at DEV_ADDR (R144). -/
def devPitch (x : List Nat) : Nat := if dDevStride x = 0 then dN x else dDevStride x * 16

/-- Write rows at the destination in this tile. -/
def Device.moveLand (d : Device) (m : Memory) (n i : Nat) (x : List Nat) (rows : List (List Byte)) : Device :=
  (List.range rows.length).foldl (fun d r => d.locWrite m n i (dOut x) (r * dOutStride x * 16) (rows.getD r [])) d

/-- `k` writes of an operation await their acknowledgement (R146, R186). -/
def Device.awaitAcks (d : Device) (n i : Nat) (op : TensorOp) (k : Nat) : Device :=
  let t := d.tile n i
  d.setTile n i { t with unacked := t.unacked ++ [(op.id, op.strand, k)] }

/-- Local (0b00). -/
def Device.moveLocal (d : Device) (m : Memory) (n i : Nat) (op : TensorOp) : Device :=
  let x := op.words
  (d.countCbufRead n i (dA x) (dM x * dN x)).moveLand m n i x (d.moveRows m n i x)

/-- To a peer (0b01): one mesh write for each row (R147). -/
def Device.movePeer (d : Device) (m : Memory) (n i : Nat) (op : TensorOp) : Device :=
  let x := op.words
  let rows := d.moveRows m n i x
  let d := (d.countCbufRead n i (dA x) (dM x * dN x)).awaitAcks n i op (dM x)
  (List.range rows.length).foldl (fun (d : Device) r =>
    let w : MeshWrite := ⟨d.mesh.nextId, n, i, op.id, dPeerDie x, dPeerInst x, dPeerCbuf x, dOut x + r * dOutStride x * 16, rows.getD r []⟩
    d.setMesh { d.mesh with writes := d.mesh.writes ++ [w], nextId := d.mesh.nextId + 1 }) d

/-- From memory (0b10): a row whose read meets poison brings no data, and the stop has cause HBM_POISON (R294). -/
def Device.moveLoad (d : Device) (m : Memory) (n i : Nat) (op : TensorOp) (finds : List (Nat × Nat)) : Device :=
  let x := op.words
  let (d, rows) := (List.range (dM x)).foldl (fun (acc : Device × List (Option (List Byte))) r =>
    let a := dDevAddr x + r * devPitch x
    let (d, bad) := acc.1.memReads a (dN x) finds
    (d, acc.2 ++ [if bad.isEmpty then some (d.memBytes m a (dN x)) else none])) (d, [])
  let d := (List.range rows.length).foldl (fun (d : Device) r =>
    match rows.getD r none with
    | some bs => d.locWrite m n i (dOut x) (r * dOutStride x * 16) bs
    | none => d) d
  if rows.any Option.isNone then d.raiseHw 0x03 else d

/-- To memory (0b11). -/
def Device.moveStore (d : Device) (m : Memory) (n i : Nat) (op : TensorOp) : Device :=
  let x := op.words
  let rows := d.moveRows m n i x
  let d := d.countCbufRead n i (dA x) (dM x * dN x)
  (List.range rows.length).foldl (fun (d : Device) r =>
    let a := dDevAddr x + r * devPitch x
    (d.memWrite m a (rows.getD r [])).logWrite n ((d.tilePart n i).getD 32) a (dN x)) d

/-! ### Remote windows -/

/-- The connection of a device address of the remote range. -/
def Device.moveConn (d : Device) (m : Memory) (a : Nat) : Option (Nat × Conn × Window × Nat) :=
  match d.windowAt m a with
  | none => none
  | some (w, off) => (d.conn w.conn).map fun c => (w.conn, c, w, off)

/-- Its rows lie one behind the other at DEV_ADDR. -/
def moveWhole (x : List Nat) : Bool := decide (devPitch x = dN x) || decide (dM x = 1)

/-- The messages of a remote MOVE as (first row, rows): one where the rows lie one behind the other, else one for each row (log entry 19). -/
def movePieces (x : List Nat) : List (Nat × Nat) := if moveWhole x then [(0, dM x)] else (List.range (dM x)).map fun r => (r, 1)

/-- One message of a remote MOVE (R346): a WRITE, a READ, or in a reduce-mode window a REDUCE whose length is a multiple of 256 bytes (R343). -/
def Device.moveMsg (d : Device) (m : Memory) (n i : Nat) (op : TensorOp) (rows : List (List Byte)) (first count : Nat) : Device :=
  let x := op.words
  let a := dDevAddr x + first * devPitch x
  let q := (d.tilePart n i).getD 32
  let client := GftClient.move n i op.id q
  let len := count * dN x
  let tags := { GftMsg.blank with len := len, pitch := d.tilePitch n i, attempt := d.tileAttempt n i }
  match d.moveConn m a with
  | none => d.addEnded m (2 ^ 22) client 0x010A
  | some (id, c, w, off) =>
    if c.st = 2 ∨ c.st = 3 then d.addEnded m id client 0x010A
    else if dDir x = 2 then
      d.addReq id client { tags with op := 2, raddr := w.base + off, mkey := w.key }
        (.tile n i (dOut x + first * dOutStride x * 16) (dN x) (dOutStride x * 16))
    else
      let bs := ((rows.drop first).take count).flatten
      if w.reduce then
        (if len % 256 ≠ 0 ∨ off % 256 ≠ 0 then d.addEnded m id client 0x010F
         else d.addReq id client { tags with op := 8, src := .held bs, group := w.key, rank := w.rank, fmt := w.fmt, goff := off } .none)
      else d.addReq id client { tags with op := 1, src := .held bs, raddr := w.base + off, mkey := w.key } .none

/-- A MOVE whose DEV_ADDR lies in a remote window. -/
def Device.moveRemote (d : Device) (m : Memory) (n i : Nat) (op : TensorOp) : Device :=
  let x := op.words
  let rows := if dDir x = 3 then d.moveRows m n i x else []
  let d := if dDir x = 3 then d.countCbufRead n i (dA x) (dM x * dN x) else d
  let ps := movePieces x
  let q := (d.tilePart n i).getD 32
  let d := d.awaitAcks n i op ps.length
  let d := match Tbl.look d.parts q with
    | some y => d.setParts (Tbl.put d.parts q { y with gftOpen := y.gftOpen + ps.length })
    | none => d
  ps.foldl (fun (d : Device) p => d.moveMsg m n i op rows p.1 p.2) d

/-- The MOVE at the head of the queue needs a request that its connection's owner has no room for (R339). -/
def Device.moveHeld (d : Device) (m : Memory) (q : List TensorOp) : Bool :=
  match q with
  | [] => false
  | op :: _ =>
    let x := op.words
    decide (2 ≤ dDir x) && decide (d.memKind (dDevAddr x) = .remote) &&
      (match d.moveConn m (dDevAddr x) with
       | some (_, c, _, _) => decide (65536 < d.fld (.gft c.owner) Fld.GFT_OUTSTANDING_REQ + (movePieces x).length)
       | none => false)

/-- A MOVE in the direction that MOVE_DIR selects (R144). -/
def Device.move (d : Device) (m : Memory) (n i : Nat) (finds : List (Nat × Nat)) (op : TensorOp) : Device :=
  let x := op.words
  match dDir x with
  | 0 => d.moveLocal m n i op
  | 1 => d.movePeer m n i op
  | _ =>
    if d.memKind (dDevAddr x) = .remote then d.moveRemote m n i op
    else if dDir x = 2 then d.moveLoad m n i op finds else d.moveStore m n i op

/-- MOVE_EXECUTE: the move unit begins and performs the MOVE at the head of its queue (R144). `ecc`: what the error code finds in the tile's memories;
`finds`: the symbols in error of the memory lines that have any. -/
def execMoveExecute (n i : Nat) (ecc : Ecc) (finds : List (Nat × Nat)) (s : State) : Out :=
  let d := s.dev
  if d.moveHeld s.mem (d.tile n i).movQ then s.same
  else
    match d.runOp n i (d.tile n i).movQ (fun o => o = 3) false ecc false (fun t => { t with movQ := t.movQ.tail }) (fun d op => d.move s.mem n i finds op) with
    | some d => s.done d
    | none => s.same

end Sys2Proof.Machine
end

