-- ==== Sys2Proof/Machine/Copies.lean ====
section
/-!
DEFINITION. Belay copies (spec/18, R553 to R563): increments and seeds, the store at the partner, their acknowledgement, the coupled set, the step back
and the restore.
-/
namespace Sys2Proof.Machine

/-! ### What an increment holds (R555, R556) -/

/-- Where a partition's copy goes (R38, R553): the designated partner with the area that CREW_FORM names, else 64 with the area that CREATE_PARTITION
names; none where there is neither. -/
def Device.copyDest (d : Device) (x : Partition) : Option (Nat × Nat × Nat) :=
  match d.crewRec d.ownIndex with
  | some r => (match r.partner with
    | some k => some (k, r.addr, r.len)
    | none => if x.store.len = 0 then none else some (64, x.store.addr, x.store.len))
  | none => if x.store.len = 0 then none else some (64, x.store.addr, x.store.len)

/-- The image sets BELAY_COPY (R247). -/
def Partition.copies (x : Partition) : Bool := match x.image with
  | some im => bit im.flags 2
  | none => false

/-- The copy state of a partition (R572). -/
def Device.copyState (d : Device) (q : Nat) : Nat := d.fldI .bly Fld.BLY_COPY_STATE_STATE q

/-- The ANCHORED and KV areas of a partition (R252). -/
def Partition.copyAreas (x : Partition) : List AreaRec :=
  ((x.image.map Image.areas).getD []).filter fun r => decide (r.kind = 3 ∨ r.kind = 4)

/-- The T-dies that hold committed state of a partition: its regions and the HBM of its areas. -/
def Device.copyDies (d : Device) (q : Nat) (x : Partition) : List Nat :=
  d.model.tdies.filter fun n => (List.range 16).any (d.regionIn q n) ||
    x.copyAreas.any fun r => decide (d.memKind r.addr = .hbm ∧ r.addr / 0x4000000000 = n)

/-- Consecutive lines as (first, count). -/
def lineRuns : List Nat → List (Nat × Nat)
  | [] => []
  | l :: ls => match lineRuns ls with
    | (f, c) :: rest => if f = l + 1 then (l, c + 1) :: rest else (l, 1) :: (f, c) :: rest
    | [] => [(l, 1)]

/-- A record of an increment (R556). -/
def copyRecord (kind die inst count addr : Nat) (data : List Byte) : List Byte :=
  leBytes 1 kind ++ leBytes 1 die ++ leBytes 2 inst ++ leBytes 2 count ++ [0, 0] ++ leBytes 8 addr ++ data

/-- A committed line of a tile (R130). -/
def Device.committedLine (d : Device) (m : Memory) (n i l : Nat) : List Byte :=
  d.anchorBytes m n i ((d.tile n i).bankOf l * d.bankSize n i + 256 * l) 256

/-- The tile lines of a partition on a die, each from its committed bank. -/
def Device.tileRecords (d : Device) (m : Memory) (n q : Nat) (lines : Nat → List Nat) : List Byte :=
  ((List.range 16).filter (d.regionIn q n)).flatMap fun r => (regionTiles r).flatMap fun i =>
    (lineRuns (lines i)).flatMap fun f =>
      copyRecord 0 n i f.2 f.1 ((List.range f.2).flatMap fun k => d.committedLine m n i (f.1 + k))

/-- Memory runs as records. -/
def Device.runRecords (d : Device) (m : Memory) (n : Nat) (runs : List (Nat × Nat)) : List Byte :=
  runs.flatMap fun r => copyRecord 1 n 0 r.2 (256 * r.1) (d.memBytes m (256 * r.1) (256 * r.2))

/-- The areas of a partition on a die whole, as runs; the areas of the DDR5 tier go with the die that `tier` names. -/
def Device.areaRuns (d : Device) (x : Partition) (n : Nat) (tier : Bool) : List (Nat × Nat) :=
  (x.copyAreas.filter fun r => if d.memKind r.addr = .hbm then decide (r.addr / 0x4000000000 = n) else tier && decide (d.memKind r.addr = .ddr)).flatMap
    fun r => mergeRun [] (r.addr / 256) ((r.addr + r.len + 255) / 256 - r.addr / 256)

/-- The increment of the last commit on a die: its dirty lines and its write log, or on overflow the areas whole (R555). -/
def Device.increment (d : Device) (m : Memory) (n q : Nat) (x : Partition) : List Byte :=
  let l := d.wlog n q
  d.tileRecords m n q (fun i => (d.tile n i).lastDirty) ++ d.runRecords m n (if l.lastOvf then d.areaRuns x n true else l.last)

/-- The whole committed state on a die, as the first pass of a seed sends it (R560). -/
def Device.wholeState (d : Device) (m : Memory) (n q : Nat) (x : Partition) : List Byte :=
  d.tileRecords m n q (fun i => List.range (d.bankSize n i / 256)) ++
    d.runRecords m n (d.areaRuns x n (decide ((d.copyDies q x).head? = some n)))

/-- What has been committed on a die since the previous pass began (R560). -/
def Device.changedState (d : Device) (m : Memory) (n q : Nat) (x : Partition) : List Byte :=
  let l := d.wlog n q
  d.tileRecords m n q (fun i => (d.tile n i).seedDirty) ++
    d.runRecords m n (if l.unionOvf then d.areaRuns x n true else l.union.foldl (fun a r => mergeRun a r.1 r.2) [])

/-- The trailer's check value of a chunk (R556). -/
def chunkCrc (pkg pitch k : Nat) (body : List Byte) : Nat := crc32c (body ++ leBytes 4 pkg ++ leBytes 4 pitch ++ leBytes 4 k)

/-- An increment in chunks of 4,096 bytes, the last filled with zero bytes, which read as records of no lines. -/
def copyChunks (pkg pitch : Nat) (bs : List Byte) : List (List Byte) :=
  let n := (bs.length + 4087) / 4088
  (List.range n).map fun k =>
    let part := (bs.drop (4088 * k)).take 4088
    let body := part ++ List.replicate (4088 - part.length) 0
    body ++ leBytes 4 (chunkCrc pkg pitch k body) ++ leBytes 4 n

/-- Send the chunks and the summit write of one die's stream, and show it (R556, R557, R572). `fresh`: the store begins anew; `base`: a pass of a seed. -/
def Device.sendCopy (d : Device) (n q dst pitch : Nat) (fresh base : Bool) (bs : List Byte) : Device :=
  let p := Page.tdie n
  let cs := copyChunks (d.fld .pkg Fld.PKG_ID_ID) pitch bs
  let d := each (fun (d : Device) c => d.emit (.bytes "belay-chunk" dst c)) d cs
  let d := d.msg "belay-summit" dst [d.ownIndex, q, n, pitch, cs.length, b2n fresh, b2n base]
  let d := ((d.put p Fld.TDIE_COPY_STAT_PART q).put p Fld.TDIE_COPY_STAT_CHUNKS cs.length).put p Fld.TDIE_COPY_BYTES bs.length
  (d.tick p 0).count p 1 bs.length

/-- The sends of a die's current increment: its pitch and how often it has been sent. -/
def Partition.sent (x : Partition) (n : Nat) : Option (Nat × Nat) := Tbl.look x.copySends n

/-- The pitch whose increment die `n` still has to send for a partition: committed by every region, and its copy state PROTECTED or LOCAL. -/
def Device.copyDue (d : Device) (n q : Nat) : Option Nat :=
  match d.part q with
  | none => none
  | some x =>
    match x.lastPitch with
    | none => none
    | some p =>
      let whole := decide (d.pState q ≠ 4) || (d.regionsOf q).all fun nr => x.committed.contains (16 * nr.1 + nr.2)
      if x.copies && decide (d.copyState q = 2 ∨ d.copyState q = 4) && (d.copyDest x).isSome && whole && (d.copyDies q x).contains n &&
        decide ((x.sent n).map Prod.fst ≠ some p) then some p else none

/-- BELAY_INCREMENT_SEND: the copy engine of a T-die sends a partition's increment (R555, R556), one at a time in ascending tag order (R557). -/
def execBelayIncrementSend (n q : Nat) (s : State) : Out :=
  let d := s.dev
  match d.copyDue n q, d.part q with
  | some p, some x =>
    if (List.range q).any (fun k => (d.copyDue n k).isSome) then s.same
    else
      let dst := ((d.copyDest x).map Prod.fst).getD 64
      let bs := d.increment s.mem n q x
      let first := !(x.copySends.any fun kv => decide (kv.2.1 = p))
      let d := d.sendCopy n q dst p false false bs
      let d := d.putI .bly Fld.BLY_COPY_BYTES q (min (2 ^ 32 - 1) ((if first then 0 else d.fldI .bly Fld.BLY_COPY_BYTES q) + bs.length))
      let d := d.putI .bly Fld.BLY_COPY_STATE_LOG_OVF q (b2n ((d.wlog n q).lastOvf || (!first && decide (d.fldI .bly Fld.BLY_COPY_STATE_LOG_OVF q = 1))))
      s.done (d.setPart q { x with copySends := Tbl.put x.copySends n (p, 1), ackDies := if first then [] else x.ackDies })
  | _, _ => s.same

/-! ### The store (R556, R558) -/

/-- The key of a line in a store: a tile's line, or a line of memory. -/
def storeKey (kind die inst line : Nat) : Nat := if kind = 0 then 2 ^ 60 + 1024 * (2048 * (die % 8) + inst % 2048) + line % 1024 else line

/-- The lines of a stream of records; a record that the stream does not hold whole ends it. -/
def copyLines : Nat → List Byte → List (Nat × List Byte)
  | 0, _ => []
  | fuel + 1, bs =>
    let n := u bs 4 2
    if bs.length < 16 + 256 * n then []
    else
      let first := if u bs 0 1 = 0 then u bs 8 8 else u bs 8 8 / 256
      ((List.range n).map fun k => (storeKey (u bs 0 1) (u bs 1 1) (u bs 2 2) (first + k), (bs.drop (16 + 256 * k)).take 256)) ++
        copyLines fuel (bs.drop (16 + 256 * n))

/-- A set of lines joins another. -/
def joinLines (t new : Tbl (List Byte)) : Tbl (List Byte) := new.foldl (fun t kv => Tbl.put t kv.1 kv.2) t

/-- The area of a member's store at this package. -/
def Device.storeArea (d : Device) (member q : Nat) : Option (Nat × Nat) :=
  if member = 64 then (d.part q).map fun x => (x.store.addr, x.store.len)
  else (d.crewRec member).bind fun r => if r.partner = some d.ownIndex then some (r.addr, r.len) else none

/-- BELAY_INCREMENT_CHECK: the summit write has come, and the partner's check-value units have checked every chunk (R429, R556). `i`: their I-die.
When all pass, the increment held for the die joins the base and this one is held (R558); a pass of a seed joins the base at once. The
acknowledgement word is written back: the pitch, RESEND, or a refusal where it does not fit (R559). -/
def execBelayIncrementCheck (i member q n pkg pitch count : Nat) (fresh base : Bool) (chunks : List (List Byte)) (s : State) : Out :=
  let d := s.dev
  match d.storeArea member q with
  | none => s.same
  | some area =>
    if !d.present (.cvu i 1) || decide (32 ≤ q) then s.same
    else
      let ok := fun (k : Nat) (c : List Byte) =>
        decide (c.length = 4096) && decide (u c 4088 4 = chunkCrc pkg pitch k (c.take 4088)) && decide (u c 4092 4 = count)
      let d := each (fun (d : Device) (ck : List Byte × Nat) => (d.cvuCheck i 4 4100 d.freeVal (ok ck.2 ck.1)).freeNext) d chunks.zipIdx
      let good := decide (chunks.length = count) && chunks.zipIdx.all fun ck => ok ck.2 ck.1
      let back := fun (d : Device) (w : Nat) => d.msg "belay-ack" member [q, n, pitch, w]
      if !good then s.done (back d 1)
      else
        let key := 64 * member + q
        let bs := chunks.flatMap fun c => c.take 4088
        let new := joinLines [] (copyLines (bs.length / 16 + 1) bs)
        let st := if fresh then ⟨area.1, area.2, [], 0, []⟩ else Tbl.lookD d.stores key ⟨area.1, area.2, [], 0, []⟩
        let old := Tbl.look st.held n
        let st' : StoreSt := if base then { st with base := joinLines st.base new }
          else match old with
            | some h => { st with base := joinLines st.base h.2, basePitch := h.1, held := Tbl.put st.held n (pitch, new) }
            | none => { st with held := Tbl.put st.held n (pitch, new) }
        let size := 256 * (st'.base.length + ((st'.held.map fun kv => kv.2.2.length).sum))
        if st'.len < size then s.done (back d 2)
        else s.done (back (d.setStores (Tbl.put d.stores key st')) 0)

/-! ### The acknowledgement (R556, R559, R560) -/

/-- A message to every other member of the crew. -/
def Device.tellCrew (d : Device) (kind : String) (args : List Nat) : Device :=
  each (fun (d : Device) (r : CrewRec) => if r.index = d.ownIndex ∨ Tbl.has d.crew.lost r.index then d else d.msg kind r.index args) d d.crew.members

/-- MODEL_ID of a partition's image. -/
def Partition.modelId (x : Partition) : Nat := (x.image.map Image.modelId).getD 0

/-- The copy enters UNPROTECTED and COPY_UNPROTECTED is raised: its boundaries no longer wait, and it leaves its coupled set (R559, R561, R573). -/
def Device.unprotect (d : Device) (m : Memory) (q cause : Nat) : Device :=
  match d.part q with
  | none => d
  | some x =>
    let d := (d.putI .bly Fld.BLY_COPY_STATE_STATE q 3).setPart q { x with seedPass := 0, seedFinal := none, copySends := [], ackDies := [] }
    let d := (d.event m 0 0x1812 0xF00 [q, cause]).cairnPkg 0x1812 (packFields [q, cause])
    d.tellCrew "copy-acked" [d.ownIndex, x.modelId, 0, 0]

/-- The package ID of the partner. -/
def Device.partnerId (d : Device) : Nat := ((d.partner.bind d.crewRec).map CrewRec.pkg).getD 0

/-- Every die's increment of pitch p is acknowledged: COPY_ACKED is recorded and reported to the crew; the last pass of a seed makes the copy PROTECTED,
or LOCAL in a local store (R556, R560, R561). -/
def Device.copyDone (d : Device) (m : Memory) (q p : Nat) (x : Partition) : Device :=
  let d := d.putI .bly Fld.BLY_COPY_ACKED_PITCH q p
  let d := if d.copyState q = 1 ∧ x.seedFinal = some p then
      let local_ := decide (((d.copyDest x).map Prod.fst).getD 64 = 64)
      let d := (d.putI .bly Fld.BLY_COPY_STATE_STATE q (if local_ then 4 else 2)).setPart q { x with seedFinal := none, seedPass := 0 }
      (d.event m 0 0x1813 0xF00 [q, d.partnerId]).cairnPkg 0x1813 (packFields [q, d.partnerId])
    else d
  if d.copyState q = 2 then d.tellCrew "copy-acked" [d.ownIndex, x.modelId, p, 1] else d

/-- COPY_ACKED: the acknowledgement word arrives (R556, R559): the pitch, RESEND, which sends the whole increment again until a third send has
failed, or a refusal. The last pass of a seed is sent again as the whole state. -/
def execCopyAcked (n q : Nat) (word : AckWord) (s : State) : Out :=
  let d := s.dev
  match d.part q with
  | none => s.same
  | some x =>
    match x.sent n with
    | none => s.same
    | some (p, sends) =>
      if x.lastPitch ≠ some p ∨ x.ackDies.contains n ∨ d.copyState q = 0 ∨ d.copyState q = 3 then s.same
      else match word with
        | .pitch k =>
          if k ≠ p then s.same
          else
            let x := { x with ackDies := insSet n x.ackDies }
            let d := d.setPart q x
            s.done (if (d.copyDies q x).all fun k => x.ackDies.contains k then d.copyDone s.mem q p x else d)
        | .resend =>
          if 3 ≤ sends then s.done (d.unprotect s.mem q 0)
          else
            let dst := ((d.copyDest x).map Prod.fst).getD 64
            let bs := if x.seedFinal = some p then d.wholeState s.mem n q x else d.increment s.mem n q x
            let d := (d.tick (.tdie n) 4).cairn (.tdie n) 0x0402 (packFields [q, p])
            s.done ((d.sendCopy n q dst p false false bs).setPart q { x with copySends := Tbl.put x.copySends n (p, sends + 1) })
        | .refused =>
          let d := (d.errNoCairn (.tdie n) 17 (Config.blockErrCode 0x04 17)).irq (.tdie n) 17
          s.done (d.unprotect s.mem q 3)

/-- BELAY_ACK_TIMEOUT: 10 ms have passed since the summit write of an increment without an acknowledgement (R559). -/
def execBelayAckTimeout (n q : Nat) (s : State) : Out :=
  let d := s.dev
  match d.part q with
  | none => s.same
  | some x =>
    if (x.sent n).isSome && !x.ackDies.contains n && decide (d.copyState q = 1 ∨ d.copyState q = 2 ∨ d.copyState q = 4) then
      s.done (d.unprotect s.mem q 1)
    else s.same

/-- BELAY_SEED: firmware runs a pass of a seed (R560): the first sends the whole committed state, a later one what has been committed since the
previous began; a pass of less than 64 MiB after a commit is the increment of that pitch and the last. -/
def execBelaySeed (q : Nat) (s : State) : Out :=
  let d := s.dev
  match d.part q with
  | none => s.same
  | some x =>
    match d.copyDest x with
    | none => s.same
    | some (dst, addr, _) =>
      let st := d.copyState q
      if !x.copies || decide (d.fwState ≠ 7) || !d.dutyUp 2 || x.seedFinal.isSome || decide (d.pState q = 4) || decide (st = 2 ∨ st = 4) then s.same
      else
        let first := decide (st ≠ 1) || decide (x.seedPass = 0)
        let parts := (d.copyDies q x).map fun n => (n, if first then d.wholeState s.mem n q x else d.changedState s.mem n q x)
        let total := (parts.map fun nb => nb.2.length).sum
        let last := decide (total < 67108864) && x.lastPitch.isSome
        let pitch := x.lastPitch.getD 0
        let d := each (fun (d : Device) nb => d.sendCopy nb.1 q dst pitch first (!last) nb.2) d parts
        let d := ((d.putI .bly Fld.BLY_COPY_STATE_STATE q 1).putI .bly Fld.BLY_COPY_STATE_DDR q (b2n (decide (0x80000000000 ≤ addr)))).putI .bly
          Fld.BLY_COPY_STATE_PARTNER q (if dst = 64 then 0 else d.partnerId)
        let d := d.setTiles (Tbl.mapV d.tiles fun k t => if d.regionIn q (k / 2048) (k % 2048 / 128) then { t with seedDirty := [] } else t)
        let d := d.setWlogs (Tbl.mapV d.wlogs fun k l => if k % 32 = q then { l with union := [], unionOvf := false } else l)
        s.done (d.setPart q { x with
          seedPass := (if first then 0 else x.seedPass) + 1
          seedFinal := if last then x.lastPitch else none
          copySends := if last then parts.foldl (fun t nb => Tbl.put t nb.1 (pitch, 1)) [] else []
          ackDies := [] })

/-- COPY_ACKED_REPORT: a member reports COPY_ACKED for a model, or that its copy is no longer PROTECTED (R561). -/
def execCopyAckedReport (member model pitch : Nat) (prot : Bool) (s : State) : Out :=
  let d := s.dev
  if (d.crewRec member).isNone ∨ member = d.ownIndex ∨ Tbl.has d.crew.lost member then s.same
  else s.done (d.setParts (Tbl.mapV d.parts fun _ x =>
    if x.copies && decide (x.modelId = model) then { x with coupled := if prot then Tbl.put x.coupled member pitch else Tbl.del x.coupled member } else x))

/-! ### Restoring (R562, R563) -/

/-- A partition steps back from its committed pitch: every region that has applied the commit inverts the banks of its dirty lines (R562). -/
def Device.stepBack (d : Device) (q : Nat) (x : Partition) : Device :=
  let applied := fun (n r : Nat) => decide (d.pState q ≠ 4) || x.committed.contains (16 * n + r)
  let d := d.setTiles (Tbl.mapV d.tiles fun k t =>
    let n := k / 2048
    let r := k % 2048 / 128
    if d.regionIn q n r && applied n r then
      { t with bank := t.lastDirty.foldl (fun b l => if b.contains l then delSet l b else insSet l b) t.bank, lastDirty := [] }
    else t)
  match x.lastPitch with
  | some p => d.setPart q { x with lastPitch := some ((p + 2 ^ 32 - 1) % 2 ^ 32) }
  | none => d

/-- No tile of the partition has written in a pitch after the committed one (R562). -/
def Device.stepBackOk (d : Device) (q : Nat) : Bool :=
  decide (d.pState q = 4) || d.tiles.all fun kv => !d.regionIn q (kv.1 / 2048) (kv.1 % 2048 / 128) || kv.2.dirty.isEmpty

/-- The tile that now holds a tile's anchors: the takeover tile of a fenced region's (R243), else itself. -/
def Device.holderOf (d : Device) (im : Image) (n i : Nat) : Option (Nat × Nat) :=
  if d.flag (.rgn n (i / 128)) Fld.STATUS_FENCED then
    ((im.fallbacks.find? fun b => decide (b.region = 16 * n + i / 128)).bind fun b => b.takeovers.find? fun t => decide (t.1 = (n, i))).map Prod.snd
  else some (n, i)

/-- A line from a store goes to the committed bank of the tile, or to the area, that now holds it. -/
def Device.putLine (d : Device) (m : Memory) (im : Image) (kl : Nat × List Byte) : Device :=
  if kl.1 < 2 ^ 60 then (if d.inMemory (256 * kl.1) kl.2.length then d.memWrite m (256 * kl.1) kl.2 else d)
  else
    let t := (kl.1 - 2 ^ 60) / 1024
    let l := kl.1 % 1024
    match d.holderOf im (t / 2048) (t % 2048) with
    | none => d
    | some (n, i) =>
      if 256 * l + 256 ≤ d.bankSize n i then
        (d.count (rgnOf n i) 8 kl.2.length).anchorSt n i ((d.tile n i).bankOf l * d.bankSize n i + 256 * l) kl.2
      else d

/-- The lines of a local store at a pitch: its base, with the increments held where they are of that pitch or before (R558). -/
def Device.storeLines (d : Device) (q t : Nat) : List (Nat × List Byte) :=
  let st := Tbl.lookD d.stores (64 * 64 + q) ⟨0, 0, [], 0, []⟩
  st.held.foldl (fun b kv => if kv.2.1 = t then joinLines b kv.2.2 else b) st.base

/-- The lost lines are written: first those of fenced regions, at the tiles that took them over, then the rest. -/
def Device.putLines (d : Device) (m : Memory) (q : Nat) (im : Image) (lines : List (Nat × List Byte)) : Device :=
  let moved := fun (kl : Nat × List Byte) => decide (2 ^ 60 ≤ kl.1) && d.flag (.rgn ((kl.1 - 2 ^ 60) / 2097152) ((kl.1 - 2 ^ 60) / 1024 % 2048 / 128)) Fld.STATUS_FENCED
  let d' := each (fun (d : Device) kl => d.putLine m im kl) (each (fun (d : Device) kl => d.putLine m im kl) d (lines.filter moved)) (lines.filter fun kl => !moved kl)
  match d'.part q with
  | some x => d'.setPart q { x with lost := false }
  | none => d'

/-- STATE_RESTORE: firmware restores a partition's committed state and replays (R563). `acked`: the store's acknowledged pitch, after at most 1 ms;
`lines`: what the partner's store holds of the lost lines at the pitch restored. During a package recovery, on a loss image that has not run:
the lost member's lines go to the tiles that `lines` names (R567 step 6). -/
def execStateRestore (q acked : Nat) (lines : List (Nat × List Byte)) (s : State) : Out :=
  let d := s.dev
  match d.part q with
  | none => s.same
  | some x =>
    match x.image with
    | none => s.same
    | some im =>
      let st := d.pState q
      let cut := decide (d.fldI .bly Fld.BLY_HOLD_CTL_ACTIVE 0 = 0) || decide (d.fldI .bly Fld.BLY_HOLD_STAT_DONE 0 = 1)
      if !d.dutyUp 2 || !cut || decide (st < 2 ∨ st = 7) then s.same
      else if d.crew.recovering.isSome && x.lastPitch.isNone && decide (st = 2) then s.done (d.putLines s.mem q im lines)
      else
        let dest := d.copyDest x
        let fail := (d.abandonPitch q).endHwStop
        match dest, x.lastPitch with
        | none, _ => s.done (fail.failPart s.mem q 0x0012)
        | some _, none => s.done (if d.copyState q = 0 then fail.failPart s.mem q 0x0012 else d.fatal s.mem 0x07 0)
        | some (dst, _, _), some p =>
          let c := if dst = 64 then d.fldI .bly Fld.BLY_COPY_ACKED_PITCH q else acked
          let from_ := fun (t : Nat) => if dst = 64 then d.storeLines q t else lines
          let before := (p + 2 ^ 32 - 1) % 2 ^ 32
          let d0 := d.setPart q { x with lost := false }
          if d.copyState q = 0 then s.done (fail.failPart s.mem q 0x0012)
          else if c = p then
            (if st = 4 then
               s.done ((d0.setPart q { x with
                 lost := false
                 committed := (d.regionsOf q).map fun nr => 16 * nr.1 + nr.2 }).putLines s.mem q im (from_ p)).endHwStop
             else if st = 3 ∨ st = 5 then s.done ((d0.replayPitch s.mem q).putLines s.mem q im (from_ p))
             else s.done (d.putLines s.mem q im (from_ p)))
          else if c = before ∧ d.stepBackOk q then
            (if st = 4 then s.done ((((d0.stepBack q { x with lost := false }).setPState q 3).replayPitch s.mem q).putLines s.mem q im (from_ before))
             else
               let d := d0.stepBack q { x with lost := false, redo := true }
               let d := (d.putI .pkg Fld.PKG_PART_PITCH q p).putI .pkg Fld.PKG_PART_SEQ q x.lastSeq
               if st = 3 ∨ st = 5 then s.done ((d.replayPitch s.mem q).putLines s.mem q im (from_ before))
               else match d.part q with
                 | some y => s.done ((d.sendStart s.mem q y im p 0 x.lastSeq).putLines s.mem q im (from_ before))
                 | none => s.same)
          else s.done (d.fatal s.mem 0x07 0)

end Sys2Proof.Machine
end

