-- ==== Sys2Proof/Machine/Recovery.lean ====
section
/-!
DEFINITION. Faults of regions, dies and links, and the loss of a crew member (spec/01 R16 to R26, spec/18 R550, R564 to R567).
-/
namespace Sys2Proof.Machine

/-! ### Die-to-die links (R16, R18, R20, R79) -/

/-- The pages of a link: the edge's, and the one at the other end where that is a T-die (R20): edges 0 and 1 face each other, 2 and 3 their own kind. -/
def Device.linkPages (d : Device) (n e : Nat) : List Page :=
  let peer := d.peerDie n e
  .d2d n e :: (if peer < 8 then [.d2d peer (if e = 0 then 1 else if e = 1 then 0 else e)] else [])

/-- A link has lost its modules: LINK_DOWN at its ends, the belay stop, and new route tables under it (R18, R577). -/
def Device.linkDown (d : Device) (n e : Nat) : Device :=
  let d := each (fun (d : Device) p =>
    let d := ((d.put p Fld.D2D_STATE_UP 0).put p Fld.D2D_STATE_MODULES 0).put p Fld.D2D_STATE_HALF 0
    ((((d.tick p 5).cairnOpen p 0x0703).errNoCairn p 16 0x0703).irq p 16)) d (d.linkPages n e)
  (d.raiseHw 0x04).writeRoutes

/-- D2D_LINK_DOWN: a link loses all its modules. -/
def execD2dLinkDown (n e : Nat) (s : State) : Out :=
  if s.dev.present (.d2d n e) && s.dev.flag (.d2d n e) Fld.D2D_STATE_UP then s.done (s.dev.linkDown n e) else s.same

/-- A lane of a module fails, as one end's page shows it: the module narrows to the half without a failed lane, or is disabled when that half fails too. -/
def Device.laneFail (d : Device) (p : Page) (m lane : Nat) : Device :=
  let failed := d.fldI p Fld.D2D_LANE_FAIL_LANES m
  let half := bit (d.fld p Fld.D2D_STATE_HALF) m
  let used := if bits failed 0 32 = 0 then 0 else 1
  let d := d.putI p Fld.D2D_LANE_FAIL_LANES m (setBit failed lane)
  if !half then
    let d := (d.put p Fld.D2D_STATE_HALF (setBit (d.fld p Fld.D2D_STATE_HALF) m)).tick p 3
    ((d.cairn p 0x0701 (packFields [m, lane])).errNoCairn p 17 0x0701).irq p 17
  else if lane / 32 = used then
    let d := (d.put p Fld.D2D_STATE_MODULES (d.fld p Fld.D2D_STATE_MODULES - 2 ^ m)).put p Fld.D2D_STATE_HALF (d.fld p Fld.D2D_STATE_HALF - 2 ^ m)
    ((((d.tick p 4).cairn p 0x0702 m).errNoCairn p 18 0x0702).irq p 18)
  else d

/-- D2D_LANE_FAIL: lane `lane` of module `m` fails in service (R16); with its last module the link is lost (R18). -/
def execD2dLaneFail (n e m lane : Nat) (s : State) : Out :=
  let d := s.dev
  let p := Page.d2d n e
  if !d.present p || decide (4 ≤ m ∨ 64 ≤ lane) || !bit (d.fld p Fld.D2D_STATE_MODULES) m || bit (d.fldI p Fld.D2D_LANE_FAIL_LANES m) lane then s.same
  else
    let d := each (fun (d : Device) p => d.laneFail p m lane) d (d.linkPages n e)
    s.done (if d.fld p Fld.D2D_STATE_MODULES = 0 then d.linkDown n e else d)

/-- D2D_FLIT_REPLAY: a flit failed its CRC and the link replayed it (R79): counted at the edge that sent it; REPLAY_BURST at most once per millisecond when
more than 16 are replayed within 1 µs (R20). -/
def execD2dFlitReplay (n e : Nat) (s : State) : Out :=
  let d := s.dev
  let p := Page.d2d n e
  if !d.present p || !d.flag p Fld.D2D_STATE_UP then s.same
  else
    let k := 4 * n + e
    let x := Tbl.lookD d.d2dReplays k ⟨[], none⟩
    let now := d.clk.now
    let times := now :: x.times.filter fun t => decide (now < t + 1000)
    let due := decide (16 < times.length) && (match x.burst with
      | some b => decide (b + 1000000 ≤ now)
      | none => true)
    let d := (d.tick p 2).setD2dReplays (Tbl.put d.d2dReplays k ⟨times, if due then some now else x.burst⟩)
    s.done (if due then d.cairnOpen p 0x0704 else d)

/-! ### Regions (R21 to R25) -/

/-- No pitch can write the region: every partition that uses it is held at a boundary before START, or no placement in force has a tile there (R22). -/
def Device.regionFree (d : Device) (n r : Nat) : Bool :=
  match d.regionPart n r with
  | none => true
  | some q =>
    match d.part q with
    | none => true
    | some x =>
      let st := d.pState q
      decide (st ≠ 3 ∧ st ≠ 5 ∧ st ≠ 4) ||
        (decide (st = 4) && (d.regionsOf q).all fun nr => x.committed.contains (16 * nr.1 + nr.2)) ||
        (match x.image with
         | some im => !((im.placement (d.fallbackOf q)).tiles.any fun t => decide (t.die = n ∧ t.inst / 128 = r))
         | none => true)

/-- REGION_REINIT: firmware re-initialises a region (R22). -/
def execRegionReinit (n r : Nat) (s : State) : Out :=
  let d := s.dev
  if d.present (.rgn n r) && (d.isl (256 * n + r)).on && d.regionFree n r then s.done (d.reinitRegion n r) else s.same

/-- REGION_READMIT: firmware tests a fenced region on which a loaded image places work, and re-admits it when it passes (R23); `test`: the test that
fails otherwise. -/
def execRegionReadmit (n r : Nat) (passed : Bool) (test : Nat) (s : State) : Out :=
  let d := s.dev
  let p := Page.rgn n r
  let placed := d.parts.any fun kv => d.regionIn kv.1 n r && match kv.2.image with
    | some im => (im.placement none).tiles.any fun t => decide (t.die = n ∧ t.inst / 128 = r)
    | none => false
  if !d.present p || !d.flag p Fld.STATUS_FENCED || !placed || !d.regionFree n r then s.same
  else if !passed then s.done (((d.cairnRgn p r 0x0305 test).errNoCairn p 17 0x0305).irq p 17)
  else
    let d := ((d.startClock (256 * n + r)).reinitRegion n r).put p Fld.STATUS_FENCED 0
    let d := d.put (.tdie n) Fld.TDIE_STATE_FENCED (d.fld (.tdie n) Fld.TDIE_STATE_FENCED - 2 ^ r)
    s.done ((d.put p Fld.RGN_STATE_STATE 0).cairnRgn p r 0x0304 d.freeVal).freeNext

/-- One region's logic faults; without its clock or supply its contents, committed anchors among them, are lost (R21, R163, R548). -/
def Device.logicFault (d : Device) (n : Nat) (f : Nat × RegionPart) : Device :=
  let d := if f.2 = .supply then
      each (fun (d : Device) i => d.anchorForget n i 0 262144) ((d.stopClock (256 * n + f.1)).stateLost n f.1) (regionTiles f.1)
    else d
  d.regionFault n f.1 (Config.blockErrCode 0x03 16)

/-- REGION_FAULT: the logic of one region faults, and it is fenced with a belay stop as for a tile fault (R23, R548); more than one region of the die
at once is the loss of the package (R25). -/
def execRegionFault (n : Nat) (faults : List (Nat × RegionPart)) (s : State) : Out :=
  let d := s.dev
  let fs := faults.filter fun f => d.present (.rgn n f.1)
  if !d.live || fs.isEmpty then s.same
  else
    let d := each (fun (d : Device) f => d.logicFault n f) d fs
    s.done (if fs.any (fun f => decide (f.1 ≠ (fs.headD (0, .tap)).1)) then d.fatal s.mem 0x04 0 else d)

/-- HBM_STACK_LOSS: a stack of a T-die, or with none the die's supply or clocking, is lost, and with it the package (R25, R570). -/
def execHbmStackLoss (n : Nat) (stack : Option Nat) (s : State) : Out :=
  let d := s.dev
  if !d.hasTdie n || !d.live then s.same
  else match stack with
    | some k => if k < 3 then s.done (((d.put (.hbmc n k) Fld.HBMC_STATE_FAILED 1).put (.hbmc n k) Fld.HBMC_STATE_TRAINED 0).fatal s.mem 0x02 0) else s.same
    | none =>
      let d := each (fun (d : Device) k => if (d.isl (256 * n + k)).on then d.stopClock (256 * n + k) else d) d (List.range 0x18)
      s.done (d.fatal s.mem 0x03 0)

/-- IDIE_FAULT: an I-die's fault cuts the path that a recovery needs (R26): the other I-die's recovery duty takes over, which reaches what it must by D2D
route or the sideband link (R19, R551); on a GRC-2248 the package is lost. -/
def execIdieFault (i : Nat) (s : State) : Out :=
  let d := s.dev
  if !d.hasIdie i || !d.live then s.same
  else if d.hasIdie (1 - i) then s.done (d.msg "recovery-through-idie" (1 - i) [i])
  else s.done (d.fatal s.mem 0x05 i)

/-- DEBUG_LEASE_IDLE: the debug port has made no access for 1 s while it holds a lease (R550). -/
def execDebugLeaseIdle (s : State) : Out := s.done (s.dev.orphanLeases fun o => decide (o / 4096 = 5))

/-! ### The loss of a member (R564 to R567) -/

/-- CREW_PULSE: a member sends its pulse to the stroke package and its partner in class 0 (R564). -/
def execCrewPulse (s : State) : Out :=
  let d := s.dev
  if !d.live || decide (d.fwState = 15) then s.same
  else s.done (each (fun (d : Device) k => d.msg "crew-pulse" k [d.ownIndex]) d d.pulseTo)

/-- A member is lost to the crew (R550, R559, R565, R567, R586): the event, its connections, the leases it holds, the holds that waited for it, the copies
whose partner it was, and a stop of every partition in a coupled set with it. -/
def Device.memberGone (d : Device) (m : Memory) (k cause : Nat) : Device :=
  match d.crewRec k with
  | none => d
  | some r =>
    let wasPartner := decide (d.partner = some k)
    let d := (d.event m 0 0x1810 0xF00 [k, r.pkg, cause]).cairnPkg 0x1810 (packFields [k, r.pkg, cause])
    let mask := d.fld .pkg Fld.PKG_CREW_MASK_MEMBERS
    let d := (d.setCrew { d.crew with lost := Tbl.put d.crew.lost k d.clk.now }).put .pkg Fld.PKG_CREW_MASK_MEMBERS (if bit mask k then mask - 2 ^ k else mask)
    let d := each (fun (d : Device) kv => if kv.2.peer = r.pkg then d.dropConn m kv.1 else d) d d.conns
    let d := d.orphanLeases fun o => decide (o = 0x4000 + k)
    let d := d.setBelay { d.belay with crewWait := Tbl.mapV d.belay.crewWait fun _ l => l.filter (· ≠ k) }
    let d := if wasPartner then each (fun (d : Device) kv => if d.copyState kv.1 = 1 ∨ d.copyState kv.1 = 2 then d.unprotect m kv.1 2 else d) d d.parts else d
    each (fun (d : Device) kv => if Tbl.has kv.2.coupled k then d.raiseSlot d.fwSlot 1 1 kv.1 0x0D true else d) d d.parts

/-- The stroke package declares a member lost and tells every member (R565). -/
def Device.declareMemberLost (d : Device) (m : Memory) (k cause : Nat) : Device :=
  each (fun (d : Device) x => d.msg "MEMBER_LOST" x [k, cause]) (d.memberGone m k cause) (((d.crew.members.map CrewRec.index).filter (· ≠ 0)))

/-- The stroke package may declare member k lost. -/
def Device.canDeclare (d : Device) (k : Nat) : Bool :=
  d.live && decide (d.cfg.straps.crewRole = 1 ∧ k ≠ 0) && (d.crewRec k).isSome && !Tbl.has d.crew.lost k

/-- CREW_LOSS_TIMEOUT: no pulse has come from a member for PKG_CREW_CFG.LOSS_MS, or both of its class 0 connections have entered ERROR. -/
def execCrewLossTimeout (member : Nat) (connections : Bool) (s : State) : Out :=
  if s.dev.canDeclare member then s.done (s.dev.declareMemberLost s.mem member (if connections then 2 else 0)) else s.same

/-- FATAL_MESSAGE: a member has become FATAL (R565, R570). -/
def execFatalMessage (member : Nat) (s : State) : Out :=
  if s.dev.canDeclare member then s.done (s.dev.declareMemberLost s.mem member 1) else s.same

/-- MEMBER_LOST: the message arrives from the stroke package; a member that it names is FATAL with cause DECLARED_LOST (R565). -/
def execMemberLost (member cause : Nat) (s : State) : Out :=
  let d := s.dev
  if !d.live || decide (d.cfg.straps.crewRole ≠ 2) || (d.crewRec member).isNone || Tbl.has d.crew.lost member then s.same
  else if member = d.ownIndex then s.done (d.fatal s.mem 0x08 0)
  else s.done (d.memberGone s.mem member cause)

/-- The owner ID with which the recovery duty breaks the leases of a page (R551): the duty of the page's I-die, of I-die 0 for a T-die, or the other's. -/
def Device.recoveryAgent (d : Device) (p : Page) : Nat :=
  let home := if p.die = 9 then 1 else 0
  let cand := fun (i : Nat) => ((List.range 8).find? fun c => decide (d.coxState i c = 1) && bit (d.fld (.cox i c) Fld.COX_STATE_DUTY) 2).map fun c => 0x1000 + 8 * i + c
  ((cand home).orElse fun _ => cand (1 - home)).getD 0x1002

/-- The recovery duty breaks every lease that an owner left ORPHAN (R60, R551, R567 step 4). -/
def Device.breakOrphans (d : Device) (owner : Nat) : Device :=
  each (fun (d : Device) p => each (fun (d : Device) i =>
    if d.fldI p Fld.LEASE_STATE_STATE i = 2 ∧ d.fldI p Fld.LEASE_OWNER_OWNER i = owner then
      ((d.putI p Fld.LEASE_STATE_STATE i 3).putI p Fld.LEASE_BREAK_AGENT i (d.recoveryAgent p)).quiesce p i
    else d) d (List.range p.leases)) d d.leasePages

/-- A survivor's partition goes back to the recovery pitch (R566, R567 step 4): its pitch is abandoned, a commit beyond r is stepped back, its RUNs
complete with CREW_RECOVERY and r, and the stop ends. -/
def Device.survive (d : Device) (m : Memory) (q lost r : Nat) : Device :=
  match d.part q with
  | none => d
  | some x =>
    let d := d.abandonPitch q
    let x := { x with redo := false, lost := false }
    let d := if x.lastPitch = some ((r + 1) % 2 ^ 32) then d.stepBack q x else d.setPart q x
    match d.part q with
    | none => d
    | some x =>
      let d := each (fun (d : Device) (c : RunCmd) =>
        let (d, p) := d.lastPitchOf x
        d.computeDone m c.func c.queue c.head c.cid 0x0014 p r) d x.runs
      let d := each (fun (d : Device) (st : Nat × Nat × Nat × Nat) =>
        let (d, p) := d.lastPitchOf x
        d.computeDone m st.1 st.2.1 st.2.2.1 st.2.2.2 0 p 0) d x.stops
      let d := (d.setPart q { x with
        runs := []
        stops := []
        doneRegions := []
        committed := []
        listsDone := []
        coupled := Tbl.del x.coupled lost }).idleRegions q
      let d := (d.setPState q 2).putI .pkg Fld.PKG_PART_PITCH q (r + 1)
      each (fun (d : Device) k => d.releaseSlot k) d ((List.range 16).filter fun k =>
        decide (6 ≤ k) && decide (d.fldI .bly Fld.BLY_HOLD_CTL_ACTIVE k = 1 ∧ d.fldI .bly Fld.BLY_HOLD_CTL_SCOPE k = 1 ∧
          d.fldI .bly Fld.BLY_HOLD_CTL_PART k = q ∧ d.fldI .bly Fld.BLY_HOLD_CTL_CAUSE k = 0x0D))

/-- RECOVERY_PITCH: r, which the stroke package has fixed for the loss of a member and sends to the survivors, is acted on (R566, R567 steps 3 and 4). -/
def execRecoveryPitch (lost r : Nat) (s : State) : Out :=
  let d := s.dev
  if !d.live || !Tbl.has d.crew.lost lost then s.same
  else
    let d := if d.cfg.straps.crewRole = 1 then
        each (fun (d : Device) x => if x = 0 ∨ Tbl.has d.crew.lost x then d else d.msg "recovery-pitch" x [lost, r]) d (d.crew.members.map CrewRec.index)
      else d
    let set := (d.parts.filter fun kv => Tbl.has kv.2.coupled lost).map Prod.fst
    let d := each (fun (d : Device) q => d.survive s.mem q lost r) d set
    s.done ((d.breakOrphans (0x4000 + lost)).setCrew { d.crew with recovering := some (lost, r) })

end Sys2Proof.Machine
end

