-- ==== Sys2Proof/Machine/Strands.lean ====
section
/-!
DEFINITION. What every instruction of the stroke sequencer shares (spec/06, R164 to R203): the issue slot, the encodings and their checks in the
order of R171, loops and skips, address generators, retirement and the string elements.
-/
namespace Sys2Proof.Machine

/-! ### Encodings -/

/-- A row of the table of R169: parcels, the bits of X that it assigns, entries popped and pushed. -/
structure OpInfo where
  len : Nat
  xmask : Nat
  pops : Nat
  pushes : Nat
deriving DecidableEq, Repr

/-- The table of R169 by opcode. -/
def opInfo (op : Nat) : Option OpInfo :=
  match op with
  | 0x01 => some ⟨1, 0, 0, 0⟩
  | 0x02 => some ⟨1, 0, 1, 2⟩
  | 0x03 => some ⟨1, 0, 1, 0⟩
  | 0x04 => some ⟨1, 0, 2, 2⟩
  | 0x05 => some ⟨1, 0, 2, 3⟩
  | 0x06 => some ⟨1, 0, 3, 3⟩
  | 0x07 => some ⟨1, 0x0F, 0, 1⟩
  | 0x08 => some ⟨1, 0xFF, 0, 1⟩
  | 0x09 => some ⟨1, 0xFF, 0, 1⟩
  | 0x10 => some ⟨1, 0, 2, 1⟩
  | 0x11 => some ⟨1, 0, 2, 1⟩
  | 0x12 => some ⟨1, 0, 2, 1⟩
  | 0x13 => some ⟨1, 0, 2, 1⟩
  | 0x14 => some ⟨1, 0, 2, 1⟩
  | 0x15 => some ⟨1, 0, 2, 1⟩
  | 0x16 => some ⟨1, 0, 1, 1⟩
  | 0x17 => some ⟨1, 0, 2, 1⟩
  | 0x18 => some ⟨1, 0, 2, 1⟩
  | 0x19 => some ⟨1, 0, 2, 1⟩
  | 0x1A => some ⟨1, 0, 2, 1⟩
  | 0x1B => some ⟨1, 0, 2, 1⟩
  | 0x1C => some ⟨1, 0, 2, 1⟩
  | 0x1D => some ⟨1, 0x3F, 1, 1⟩
  | 0x1E => some ⟨1, 0x3F, 1, 1⟩
  | 0x1F => some ⟨1, 0xFF, 1, 1⟩
  | 0x20 => some ⟨1, 0xFF, 1, 0⟩
  | 0x21 => some ⟨1, 0xFF, 1, 0⟩
  | 0x22 => some ⟨1, 0, 0, 0⟩
  | 0x23 => some ⟨1, 0, 1, 0⟩
  | 0x24 => some ⟨1, 0x03, 0, 1⟩
  | 0x2F => some ⟨1, 0, 0, 0⟩
  | 0x30 => some ⟨1, 0x0F, 1, 0⟩
  | 0x31 => some ⟨1, 0x0F, 0, 1⟩
  | 0x32 => some ⟨1, 0x0F, 0, 0⟩
  | 0x33 => some ⟨1, 0x03, 0, 1⟩
  | 0x34 => some ⟨1, 0x03, 0, 1⟩
  | 0x35 => some ⟨1, 0x03, 0, 0⟩
  | 0x40 => some ⟨1, 0, 1, 0⟩
  | 0x41 => some ⟨1, 0x0F, 2, 0⟩
  | 0x42 => some ⟨1, 0x0F, 2, 0⟩
  | 0x44 => some ⟨1, 0x03, 1, 1⟩
  | 0x45 => some ⟨1, 0x03, 2, 0⟩
  | 0x48 => some ⟨1, 0x01, 0, 0⟩
  | 0x49 => some ⟨1, 0x01, 0, 0⟩
  | 0x51 => some ⟨1, 0, 1, 0⟩
  | 0x52 => some ⟨1, 0, 0, 1⟩
  | 0x60 => some ⟨1, 0, 0, 1⟩
  | 0x61 => some ⟨1, 0, 0, 1⟩
  | 0xC0 => some ⟨2, 0, 0, 1⟩
  | 0xC1 => some ⟨2, 0, 0, 1⟩
  | 0xC2 => some ⟨2, 0, 1, 1⟩
  | 0xC3 => some ⟨2, 0, 1, 1⟩
  | 0xC8 => some ⟨2, 0, 1, 0⟩
  | 0xC9 => some ⟨2, 0xFF, 0, 0⟩
  | 0xCA => some ⟨2, 0x3F, 0, 0⟩
  | 0xCB => some ⟨2, 0x33, 1, 1⟩
  | 0xCC => some ⟨2, 0x3F, 0, 1⟩
  | 0xD0 => some ⟨2, 0xFF, 0, 0⟩
  | 0xD1 => some ⟨2, 0xFF, 0, 0⟩
  | 0xD2 => some ⟨2, 0xFF, 1, 0⟩
  | 0xD8 => some ⟨2, 0, 0, 0⟩
  | _ => none

/-- The parcels of an encoding by its form alone (R165). -/
def formLen (op : Nat) : Nat := if 0xC0 ≤ op ∧ op ≤ 0xFE then 2 else 1

/-- Is an encoding legal (R166, R169)? -/
def encLegal (op x imm : Nat) : Bool :=
  match opInfo op with
  | none => false
  | some f =>
    decide (x &&& f.xmask = x) &&
    (match op with
     | 0x20 => decide (1 ≤ x)
     | 0x21 => decide (1 ≤ x)
     | 0x42 => decide (x % 2 = 0)
     | 0x44 => decide (x ≠ 3)
     | 0x45 => decide (x ≠ 0 ∧ x ≠ 3)
     | 0xC8 => decide (1 ≤ imm ∧ imm ≤ 32767)
     | 0xC9 => decide (1 ≤ x)
     | 0xCA => decide (imm < 32 ∧ bits x 2 2 ≠ 3 ∧ bits x 4 2 ≠ 0 ∧ bits x 4 2 ≠ 3 ∧ imm % 4 ≠ imm / 4 % 4)
     | 0xCB => decide (imm < 32 ∧ imm % 4 = 0 ∧ bits x 4 2 ≠ 0 ∧ bits x 4 2 ≠ 3)
     | 0xCC => decide (imm < 32 ∧ bits x 2 2 ≠ 3 ∧ bits x 4 2 ≠ 3 ∧ imm % 4 ≠ imm / 4 % 4)
     | _ => true)

/-- The body length of a loop instruction (R173); 0 for every other. -/
def loopLen (op x imm : Nat) : Nat := if op = 0xC8 then imm else if op = 0xC9 then x else 0

/-- The checks of R171 orders 1 and 2 on the instruction at parcel `a`, judged with the innermost loop end `lea`: every parcel exists, the encoding
is legal, a loop's body fits (R173 step 1), and the body ends on an instruction boundary (R175). -/
def parcelsLegal (op x imm a : Nat) (lea : Option Nat) : Bool :=
  let e := a + 1 + loopLen op x imm
  decide (a + formLen op - 1 ≤ 0x7FFF) && encLegal op x imm &&
    (decide (loopLen op x imm = 0) || (decide (e ≤ 0x7FFF) && (match lea with | some l => decide (e ≤ l) | none => true))) &&
    !(decide (formLen op = 2) && decide (lea = some a))

/-! ### Loops and skips -/

/-- The end check of R174 for the levels whose end is `last`: the levels after it and the next program counter. -/
def endCheck (last next : Nat) : List LoopLevel → List LoopLevel × Nat
  | [] => ([], next)
  | l :: ls =>
    if l.lea ≠ last then (l :: ls, next)
    else if l.lct - 1 ≠ 0 then ({ l with lct := l.lct - 1 } :: ls, l.lsa)
    else endCheck last next ls

/-- What a walk over instructions finds: it ends at a parcel, it passes over the innermost body's end, or an instruction is illegal (R178, R179). -/
inductive Walk where
  | at (a : Nat)
  | bodyEnd (last : Nat)
  | bad (a : Nat)
deriving DecidableEq, Repr

/-- Pass over `c` instructions from parcel `a` (R178): `inner` holds the ends of the loops being passed over, innermost first. -/
def skipWalk (rd : Nat → Nat) (lea : Option Nat) : Nat → Nat → List Nat → Nat → Walk
  | 0, a, _, _ => .bad a
  | fuel + 1, a, inner, c =>
    let p := rd a
    let op := p / 256
    let x := p % 256
    let imm := rd (a + 1)
    let l := match inner with | e :: _ => some e | [] => lea
    if !parcelsLegal op x imm a l then .bad a
    else if loopLen op x imm ≠ 0 then skipWalk rd lea fuel (a + 2) ((a + 1 + loopLen op x imm) :: inner) c
    else
      let last := a + formLen op - 1
      let inner' := inner.dropWhile (· = last)
      if inner' ≠ [] then skipWalk rd lea fuel (last + 1) inner' c
      else if lea = some last then .bodyEnd last
      else if c ≤ 1 then .at (last + 1)
      else skipWalk rd lea fuel (last + 1) [] (c - 1)

/-! ### Address generators -/

/-- The modulus: a MOD of 0 stands for 2^32. -/
def AddrGen.m (g : AddrGen) : Nat := if g.md = 0 then 2 ^ 32 else g.md

/-- L: the smallest integer with 2^L at least M (R181). -/
def AddrGen.l (g : AddrGen) : Nat := if g.m ≤ 1 then 0 else Nat.log2 (g.m - 1) + 1

/-- The low `l` bits of a number reversed. -/
def revBits (x : Nat) : Nat → Nat
  | 0 => 0
  | l + 1 => x % 2 * 2 ^ l + revBits (x / 2) l

/-- The effective index (R181). -/
def AddrGen.eff (g : AddrGen) : Nat :=
  if g.brev then revBits (g.idx % 2 ^ g.l) g.l else if g.wrap then g.idx % g.m else g.idx

/-- The address (R181). -/
def AddrGen.addr (g : AddrGen) : Nat := (g.base + g.eff) % 2 ^ 32

/-- The check of a reversed index (R183); the Bool says that it incremented IDX, at the cost of a cycle. -/
def AddrGen.settle (g : AddrGen) : AddrGen × Bool :=
  if g.brev && decide (g.m ≤ g.eff) then ({ g with idx := (g.idx + 1) % 2 ^ g.l }, true) else (g, false)

/-- An advance (R182, R183). -/
def AddrGen.adv (g : AddrGen) : AddrGen × Bool :=
  if g.brev then { g with idx := (g.idx + 1) % 2 ^ g.l }.settle
  else
    let step : Int := if g.step < 2 ^ 31 then g.step else (g.step : Int) - 2 ^ 32
    let m : Nat := if g.wrap then g.m else 2 ^ 32
    ({ g with idx := (((g.idx : Int) + step) % (m : Int)).toNat }, false)

def AddrGen.zero : AddrGen := ⟨0, 0, 0, 0, false, false⟩

/-- Generator `g` of a strand, and its replacement. -/
def Strand.gen (x : Strand) (g : Nat) : AddrGen := x.ag.getD g AddrGen.zero
def Strand.setGen (x : Strand) (g : Nat) (v : AddrGen) : Strand := { x with ag := x.ag.set g v }

/-! ### The issue slot -/

/-- The rotation after the previous holder, wrapping (R149). -/
def Tile.order (t : Tile) : List Nat :=
  let l := t.rotation.map Prod.fst
  match t.last with
  | none => l
  | some h => (l.dropWhile (· ≠ h)).drop 1 ++ l.takeWhile (· ≠ h) ++ (if l.contains h then [h] else [])

/-- The READY strands of the rotation, in slot order, with the cycle from which each may issue. -/
def Tile.readyList (t : Tile) : List (Nat × Nat) :=
  t.order.filterMap fun st =>
    match Tbl.look t.strands st with
    | some x => if x.st = .ready then some (st, x.readyAt) else none
    | none => none

/-- The cycle of the next issue: now, or the first at which a READY strand may issue again (R180). -/
def Tile.slotCycle (t : Tile) : Nat :=
  match t.readyList with
  | [] => t.cycle
  | r :: rs => max t.cycle (rs.foldl (fun c x => min c x.2) r.2)

/-- The strand that takes the slot (R149). -/
def Tile.holder (t : Tile) : Option Nat := ((t.readyList.filter fun r => decide (r.2 ≤ t.slotCycle)).head?).map Prod.fst

/-- Does the tile issue: a pitch runs on it, and it is neither faulted, halted nor stopped (R153, R202)? -/
def Device.issues (d : Device) (n i : Nat) : Bool :=
  d.tileLive n i && d.flag (.tile n i) Fld.TILE_RUN_RUNNING && !d.flag (.tile n i) Fld.STATUS_HALTED

def Device.strand (d : Device) (n i st : Nat) : Strand := Tbl.lookD (d.tile n i).strands st (Strand.fresh 0 .idle)

def Device.putStrand (d : Device) (n i st : Nat) (x : Strand) : Device :=
  d.setTile n i { d.tile n i with strands := Tbl.put (d.tile n i).strands st x }

/-- The slot of cycle `c` passes: its holder is the previous one, the cycle advances, and the waiting strands' cycles are counted (TILE_CNT3,
TILE_CNT4). A tile whose cycle is past `c` already has its slot held until there (R183). -/
def Device.takeSlot (d : Device) (n i st c : Nat) : Device :=
  let t := d.tile n i
  let waits := fun (k : StrandState) => (t.strands.filter fun kv => decide (kv.2.st = k)).length
  let d := d.setTile n i { t with last := some st, cycle := max t.cycle c + 1 }
  (d.count (.tile n i) 3 (waits .waitToken)).count (.tile n i) 4 (waits .waitLb)

/-- Everything an instruction works on. -/
structure Seq where
  d : Device
  m : Memory
  n : Nat
  i : Nat
  st : Nat
  x : Strand
  sel : Nat
  imm : Nat

/-- Entry `k` of the stack. -/
def Seq.s (q : Seq) (k : Nat) : Cell := q.x.stack.getD k 0

/-- What performing an instruction comes to: it retires with the strand as given and falls through (`next`), it retires and continues at the given
place with its loops already settled (`jump`), it keeps the slot without retiring (`hold`), or it faults with a code and a stack depth, at its own
address or at that of an instruction it examined (`faultAt`). -/
inductive Did where
  | next (d : Device) (x : Strand)
  | jump (d : Device) (x : Strand)
  | hold (d : Device) (x : Strand)
  | fault (d : Device) (code depth : Nat)
  | faultAt (d : Device) (code pc depth : Nat)

/-- Retire: count it, and the stall timer returns to zero (R151, R203). -/
def Seq.retire (q : Seq) (d : Device) (x : Strand) : Device :=
  (((d.putStrand q.n q.i q.st { x with stall := 0 }).tick (.tile q.n q.i) 0).takeSlot q.n q.i q.st (q.d.tile q.n q.i).slotCycle).syncReady q.n q.i

/-- The slot is held for `extra` more cycles, in which no strand issues: each generator check that steps IDX costs one (R183, log entry 40). -/
def Seq.busy (q : Seq) (d : Device) (extra : Nat) : Device :=
  if extra = 0 then d else d.setTile q.n q.i { d.tile q.n q.i with cycle := (d.tile q.n q.i).slotCycle + extra }

/-- Complete an instruction of `len` parcels at the strand's program counter. -/
def Seq.finish (q : Seq) (len : Nat) : Did → Device
  | .next d x =>
    let last := q.x.pc + len - 1
    let (loops, pc) := endCheck last (last + 1) x.loops
    q.retire d { x with loops := loops, pc := pc % 2 ^ 15 }
  | .jump d x => q.retire d { x with pc := x.pc % 2 ^ 15 }
  | .hold d x => ((d.putStrand q.n q.i q.st { x with stall := x.stall + 1 }).takeSlot q.n q.i q.st (q.d.tile q.n q.i).slotCycle).syncReady q.n q.i
  | .fault d code depth => d.tileFault q.n q.i code (some (q.st, q.x.pc, depth))
  | .faultAt d code pc depth => d.tileFault q.n q.i code (some (q.st, pc % 2 ^ 15, depth))

/-- The checks of R171 orders 1 to 3 that every instruction has, then the instruction's own effect. A PICK reads entry i, which must be there. -/
def Seq.run (q : Seq) (op : Nat) (f : OpInfo) (body : Seq → Did) : Did :=
  let lea := (q.x.loops.head?).map LoopLevel.lea
  let depth := q.x.stack.length
  if !parcelsLegal op q.sel q.imm q.x.pc lea then .fault q.d 0x0102 depth
  else if decide (depth < f.pops) || decide (16 < depth - f.pops + f.pushes) || (decide (op = 0x07) && decide (depth ≤ q.sel)) then
    .fault q.d 0x0101 depth
  else body q

/-- An instruction of opcode `op` is performed by strand `st`, when it holds the slot and its program counter names that opcode (R149, R201). -/
def seqStep (op n i st : Nat) (s : State) (body : Seq → Did) : Out :=
  let d := s.dev
  if !d.issues n i || decide ((d.tile n i).holder ≠ some st) then s.same
  else
    let x := d.strand n i st
    let p := d.parcel s.mem n i x.pc
    if p / 256 ≠ op then s.same
    else match opInfo op with
      | none => s.same
      | some f =>
        let q : Seq := ⟨d, s.mem, n, i, st, x, p % 256, if f.len = 2 then d.parcel s.mem n i (x.pc + 1) else 0⟩
        s.done (q.finish f.len (q.run op f body))

/-- An instruction that only works on the stack: it replaces the top `pops` entries. -/
def Seq.stackOp (q : Seq) (pops : Nat) (push : List Cell) : Did := .next q.d { q.x with stack := push ++ q.x.stack.drop pops }

/-- Sign extension of a value of `w` bits to a stack entry. -/
def sext (w v : Nat) : Cell := if v < 2 ^ (w - 1) then BitVec.ofNat 64 v else BitVec.ofNat 64 (2 ^ 64 - 2 ^ w + v)

def boolCell (b : Bool) : Cell := if b then 1 else 0

/-! ### Skips and loops as instructions -/

/-- A skip of k instructions whose condition is `c` (R178 to R180). -/
def Seq.skip (q : Seq) (c : Bool) : Did :=
  let x := { q.x with stack := q.x.stack.drop 1 }
  let lea := (x.loops.head?).map LoopLevel.lea
  let at_ := q.x.pc
  if !c then .next q.d x
  else
    let later := { x with readyAt := (q.d.tile q.n q.i).slotCycle + 1 + (q.sel - 1) / 8 }
    if lea = some at_ then .next q.d later
    else match skipWalk (q.d.parcel q.m q.n q.i) lea 32769 (at_ + 1) [] q.sel with
      | .bad a => .faultAt q.d 0x0102 a q.x.stack.length
      | .at a => .jump q.d { later with pc := a }
      | .bodyEnd last =>
        let (loops, pc) := endCheck last (last + 1) later.loops
        .jump q.d { later with loops := loops, pc := pc }

/-- LOOP and LOOPI with a body of `l` parcels and a count of `c` (R173). -/
def Seq.loop (q : Seq) (pops l c : Nat) : Did :=
  let x := { q.x with stack := q.x.stack.drop pops }
  let p := q.x.pc
  if 4 ≤ x.loops.length then .fault q.d 0x0101 0x1F
  else if c = 0 then
    let (loops, pc) := endCheck (p + 1 + l) (p + 2 + l) x.loops
    .jump q.d { x with loops := loops, pc := pc }
  else .jump q.d { x with loops := ⟨p + 2, p + 1 + l, c⟩ :: x.loops, pc := p + 2 }

/-- LEXIT, with its condition (R176). -/
def Seq.lexit (q : Seq) (pops : Nat) (c : Bool) : Did :=
  let x := { q.x with stack := q.x.stack.drop pops }
  match x.loops with
  | [] => .fault q.d 0x0101 0x1F
  | l :: ls =>
    if c then
      let (loops, pc) := endCheck l.lea (l.lea + 1) ls
      .jump q.d { x with loops := loops, pc := pc }
    else .next q.d x

/-! ### Descriptors, memory and strings -/

/-- The sixteen words of a descriptor in the table (R142). -/
def Device.descriptor (d : Device) (m : Memory) (n i k : Nat) : List Nat :=
  (List.range 16).map fun w => d.rdN m (tileMem n i + 0x10000 + 64 * k + 4 * w) 4

/-- Issue descriptor `k` (R190): checked, then copied into its unit's queue, or the slot is held while the queue holds eight. -/
def Seq.issue (q : Seq) (x : Strand) (k : Nat) : Did :=
  if 512 ≤ k then .fault q.d 0x0104 q.x.stack.length
  else
    let words := q.d.descriptor q.m q.n q.i k
    if !q.d.descOk q.m q.n q.i words then .fault q.d 0x0104 q.x.stack.length
    else
      let t := q.d.tile q.n q.i
      let op : TensorOp := ⟨t.nextOp, q.st, q.x.pc, k, words⟩
      let unit := dOp words
      let full := fun (l : List TensorOp) => decide (8 ≤ l.length)
      let put := fun (t : Tile) => .next (q.d.setTile q.n q.i { t with nextOp := t.nextOp + 1 }) x
      if unit = 1 then (if full t.arrQ then .hold q.d q.x else put { t with arrQ := t.arrQ ++ [op] })
      else if unit = 3 then (if full t.movQ then .hold q.d q.x else put { t with movQ := t.movQ ++ [op] })
      else if full t.vecQ then .hold q.d q.x else put { t with vecQ := t.vecQ ++ [op] }

/-- A write of `len` words of a descriptor (R191). -/
def Seq.patch (q : Seq) (words : Nat) : Did :=
  let k := (q.s 0).toNat
  if 512 ≤ k then .fault q.d 0x0104 q.x.stack.length
  else .next (q.d.stN (tileMem q.n q.i + 0x10000 + 64 * k + 4 * q.sel) (4 * words) (q.s 1).toNat) { q.x with stack := q.x.stack.drop 2 }

/-- An anchor-store address of `size` bytes through a view is in order (R192, R196). -/
def Device.anchorOk (d : Device) (n i view size a : Nat) : Bool :=
  decide (a % size = 0) && decide (a + size ≤ viewSize (d.bankSize n i) view)

/-- Continue with the errors found: counted, and an uncorrectable one faults with nothing done (R135). -/
def Seq.withEcc (q : Seq) (ecc : Ecc) (k : Seq → Did) : Did :=
  let (d, ue) := q.d.eccFound q.n q.i ecc
  match ue with
  | some code => .fault d code q.x.stack.length
  | none => k { q with d := d }

/-- A string instruction's parameters: element size, views and generators (R169, R196). -/
structure StrOp where
  op : Nat
  size : Nat
  va : Nat
  vb : Nat
  ga : Nat
  gb : Nat
  run : Bool
deriving DecidableEq, Repr

def Seq.str (q : Seq) (op : Nat) : StrOp :=
  ⟨op, 2 ^ (q.sel % 4), bits q.sel 2 2, bits q.sel 4 2, q.imm % 4, q.imm / 4 % 4, bit q.imm 4⟩

/-- The outcome of one element: the device and strand after it and, of an SMATCH, whether the elements differ. -/
structure ElemOut where
  d : Device
  x : Strand
  differ : Bool

/-- Perform one element (R196); none where an address fails its check. -/
def Seq.element (q : Seq) (o : StrOp) : Option ElemOut :=
  let usesA := decide (o.op ≠ 0xCB)
  let (a, ea) := (q.x.gen o.ga).settle
  let (b, eb) := (q.x.gen o.gb).settle
  if (usesA && !q.d.anchorOk q.n q.i o.va o.size a.addr) || !q.d.anchorOk q.n q.i o.vb o.size b.addr then none
  else
    let (a', fa) := a.adv
    let (b', fb) := b.adv
    let x := if usesA then q.x.setGen o.ga a' else q.x
    let x := x.setGen o.gb b'
    let extra := (if usesA then b2n ea + b2n fa else 0) + b2n eb + b2n fb
    let ra := q.d.anchorRead q.m q.n q.i o.va a.addr o.size
    match o.op with
    | 0xCA => some ⟨q.busy (q.d.anchorWrite q.m q.n q.i o.vb b.addr ra) extra, x, false⟩
    | 0xCB => some ⟨q.busy (q.d.anchorWrite q.m q.n q.i o.vb b.addr (leBytes o.size (q.s 0).toNat)) extra, x, false⟩
    | _ => some ⟨q.busy q.d extra, x, decide (ra ≠ q.d.anchorRead q.m q.n q.i o.vb b.addr o.size)⟩

/-- A string instruction holds the slot (R196 to R199): one element, and with RUN set the rest of the run at its later turns. The addresses are checked
before the store is read, where an error may be found (R135, R171). -/
def Seq.string (q : Seq) (op : Nat) (ecc : Ecc) : Did :=
  let o := q.str op
  let push := fun (x : Strand) (f : Bool) => if op = 0xCC then { x with stack := boolCell f :: x.stack } else x
  let bad := Did.fault q.d 0x0104 q.x.stack.length
  if o.run && decide (q.x.brc = 0) then .next q.d (push q.x false)
  else if (q.element o).isNone then bad
  else q.withEcc ecc fun q => match q.element o with
    | none => bad
    | some e =>
      if !o.run then .next e.d (push e.x e.differ)
      else
        let x := { e.x with brc := q.x.brc - 1 }
        if x.brc = 0 ∨ (op = 0xCC ∧ e.differ) then .next e.d (push x e.differ)
        else .jump e.d x

end Sys2Proof.Machine
end

