-- ==== Sys2Proof/Machine/Sequencer.lean ====
section
/-!
DEFINITION. The instructions of the stroke sequencer (R169), one definition each. A command names a strand; it is due when that strand holds the
issue slot and its program counter names the instruction (R149).
-/
namespace Sys2Proof.Machine

/-! ### Stack instructions -/

/-- NOP: no effect (R169). -/
def execNop (n i st : Nat) (s : State) : Out :=
  seqStep 0x01 n i st s fun q => .next q.d q.x

/-- DUP: a → a a (R169). -/
def execDup (n i st : Nat) (s : State) : Out :=
  seqStep 0x02 n i st s fun q => q.stackOp 1 [q.s 0, q.s 0]

/-- DROP: a → (R169). -/
def execDrop (n i st : Nat) (s : State) : Out :=
  seqStep 0x03 n i st s fun q => q.stackOp 1 []

/-- SWAP: a b → b a (R169). -/
def execSwap (n i st : Nat) (s : State) : Out :=
  seqStep 0x04 n i st s fun q => q.stackOp 2 [q.s 1, q.s 0]

/-- OVER: a b → a b a (R169). -/
def execOverW (n i st : Nat) (s : State) : Out :=
  seqStep 0x05 n i st s fun q => q.stackOp 2 [q.s 1, q.s 0, q.s 1]

/-- ROT: a b c → b c a (R169). -/
def execRot (n i st : Nat) (s : State) : Out :=
  seqStep 0x06 n i st s fun q => q.stackOp 3 [q.s 2, q.s 0, q.s 1]

/-- PICK: → S[i], numbered before the push (R169). -/
def execPick (n i st : Nat) (s : State) : Out :=
  seqStep 0x07 n i st s fun q => q.stackOp 0 [q.s q.sel]

/-- LIT: → v, zero-extended (R169). -/
def execLit (n i st : Nat) (s : State) : Out :=
  seqStep 0x08 n i st s fun q => q.stackOp 0 [BitVec.ofNat 64 q.sel]

/-- LITS: → v, sign-extended (R169). -/
def execLits (n i st : Nat) (s : State) : Out :=
  seqStep 0x09 n i st s fun q => q.stackOp 0 [sext 8 q.sel]

/-! ### Arithmetic (R170) -/

/-- ADD: a b → a + b (R169). -/
def execAddW (n i st : Nat) (s : State) : Out :=
  seqStep 0x10 n i st s fun q => q.stackOp 2 [q.s 1 + q.s 0]

/-- SUB: a b → a - b (R169). -/
def execSubW (n i st : Nat) (s : State) : Out :=
  seqStep 0x11 n i st s fun q => q.stackOp 2 [q.s 1 - q.s 0]

/-- MUL: a b → the low 64 bits of a × b (R169). -/
def execMulW (n i st : Nat) (s : State) : Out :=
  seqStep 0x12 n i st s fun q => q.stackOp 2 [q.s 1 * q.s 0]

/-- AND: a b → a & b (R169). -/
def execAndW (n i st : Nat) (s : State) : Out :=
  seqStep 0x13 n i st s fun q => q.stackOp 2 [q.s 1 &&& q.s 0]

/-- OR: a b → a | b (R169). -/
def execOrW (n i st : Nat) (s : State) : Out :=
  seqStep 0x14 n i st s fun q => q.stackOp 2 [q.s 1 ||| q.s 0]

/-- XOR: a b → a ^ b (R169). -/
def execXorW (n i st : Nat) (s : State) : Out :=
  seqStep 0x15 n i st s fun q => q.stackOp 2 [q.s 1 ^^^ q.s 0]

/-- NOT: a → ~a (R169). -/
def execNotW (n i st : Nat) (s : State) : Out :=
  seqStep 0x16 n i st s fun q => q.stackOp 1 [~~~ q.s 0]

/-- SHL: a b → a << (b mod 64) (R169). -/
def execShl (n i st : Nat) (s : State) : Out :=
  seqStep 0x17 n i st s fun q => q.stackOp 2 [q.s 1 <<< ((q.s 0).toNat % 64)]

/-- SHR: a b → a >> (b mod 64), logical (R169). -/
def execShr (n i st : Nat) (s : State) : Out :=
  seqStep 0x18 n i st s fun q => q.stackOp 2 [q.s 1 >>> ((q.s 0).toNat % 64)]

/-- SAR: a b → a >> (b mod 64), arithmetic (R169). -/
def execSar (n i st : Nat) (s : State) : Out :=
  seqStep 0x19 n i st s fun q => q.stackOp 2 [(q.s 1).sshiftRight ((q.s 0).toNat % 64)]

/-- EQ: a b → 1 when equal (R169). -/
def execEqW (n i st : Nat) (s : State) : Out :=
  seqStep 0x1A n i st s fun q => q.stackOp 2 [boolCell (q.s 1 == q.s 0)]

/-- LTU: a b → 1 when a < b unsigned (R169). -/
def execLtu (n i st : Nat) (s : State) : Out :=
  seqStep 0x1B n i st s fun q => q.stackOp 2 [boolCell ((q.s 1).ult (q.s 0))]

/-- LTS: a b → 1 when a < b as two's complement (R169). -/
def execLts (n i st : Nat) (s : State) : Out :=
  seqStep 0x1C n i st s fun q => q.stackOp 2 [boolCell ((q.s 1).slt (q.s 0))]

/-- SHLI: a → a << n (R169). -/
def execShli (n i st : Nat) (s : State) : Out :=
  seqStep 0x1D n i st s fun q => q.stackOp 1 [q.s 0 <<< q.sel]

/-- SHRI: a → a >> n, logical (R169). -/
def execShri (n i st : Nat) (s : State) : Out :=
  seqStep 0x1E n i st s fun q => q.stackOp 1 [q.s 0 >>> q.sel]

/-- ADDS: a → a + v, sign-extended (R169). -/
def execAdds (n i st : Nat) (s : State) : Out :=
  seqStep 0x1F n i st s fun q => q.stackOp 1 [q.s 0 + sext 8 q.sel]

/-- LIT16: → imm, zero-extended (R169). -/
def execLit16 (n i st : Nat) (s : State) : Out :=
  seqStep 0xC0 n i st s fun q => q.stackOp 0 [BitVec.ofNat 64 q.imm]

/-- LITS16: → imm, sign-extended (R169). -/
def execLits16 (n i st : Nat) (s : State) : Out :=
  seqStep 0xC1 n i st s fun q => q.stackOp 0 [sext 16 q.imm]

/-- LITH: a → (a << 16) | imm (R169). -/
def execLith (n i st : Nat) (s : State) : Out :=
  seqStep 0xC2 n i st s fun q => q.stackOp 1 [(q.s 0 <<< 16) ||| BitVec.ofNat 64 q.imm]

/-- ADDI: a → a + imm, sign-extended (R169). -/
def execAddi (n i st : Nat) (s : State) : Out :=
  seqStep 0xC3 n i st s fun q => q.stackOp 1 [q.s 0 + sext 16 q.imm]

/-! ### Control -/

/-- SKIPZ: when c = 0, passes over the next k instructions (R178). -/
def execSkipz (n i st : Nat) (s : State) : Out :=
  seqStep 0x20 n i st s fun q => q.skip (q.s 0 == 0)

/-- SKIPNZ: when c ≠ 0, passes over the next k instructions (R178). -/
def execSkipnz (n i st : Nat) (s : State) : Out :=
  seqStep 0x21 n i st s fun q => q.skip (q.s 0 != 0)

/-- LEXIT: leaves the innermost loop (R176). -/
def execLexit (n i st : Nat) (s : State) : Out :=
  seqStep 0x22 n i st s fun q => q.lexit 0 true

/-- LEXITNZ: leaves the innermost loop when c ≠ 0 (R176). -/
def execLexitnz (n i st : Nat) (s : State) : Out :=
  seqStep 0x23 n i st s fun q => q.lexit 1 (q.s 0 != 0)

/-- LCNT: pushes the LCT of a level, 0 for a level that is not active (R169). -/
def execLcnt (n i st : Nat) (s : State) : Out :=
  seqStep 0x24 n i st s fun q => q.stackOp 0 [BitVec.ofNat 64 (((q.x.loops[q.sel]?).map LoopLevel.lct).getD 0)]

/-- END: the strand enters DONE and its loop state is discarded (R177). -/
def execEndStrand (n i st : Nat) (s : State) : Out :=
  seqStep 0x2F n i st s fun q => 
    .jump q.d { q.x with st := .done, loops := [], pc := q.x.pc + 1 }

/-- LOOP: enters a loop of S0[31:0] iterations (R173). -/
def execLoopN (n i st : Nat) (s : State) : Out :=
  seqStep 0xC8 n i st s fun q => q.loop 1 q.imm ((q.s 0).toNat % 2 ^ 32)

/-- LOOPI: enters a loop of IMM iterations (R173). -/
def execLoopi (n i st : Nat) (s : State) : Out :=
  seqStep 0xC9 n i st s fun q => q.loop 0 q.sel q.imm

/-! ### Address generators -/

/-- AGLD: writes v[31:0] to a register of AGg (R184). -/
def execAgld (n i st : Nat) (s : State) : Out :=
  seqStep 0x30 n i st s fun q => 
    let g := q.x.gen (q.sel % 4)
    let v := (q.s 0).toNat % 2 ^ 32
    let g := match q.sel / 4 with
      | 0 => { g with base := v }
      | 1 => { g with idx := v }
      | 2 => { g with step := v }
      | _ => { g with md := v }
    .next q.d { q.x.setGen (q.sel % 4) g with stack := q.x.stack.drop 1 }

/-- AGST: pushes a register of AGg: STEP sign-extended, the others zero-extended (R169). -/
def execAgst (n i st : Nat) (s : State) : Out :=
  seqStep 0x31 n i st s fun q => 
    let g := q.x.gen (q.sel % 4)
    q.stackOp 0 [match q.sel / 4 with
      | 0 => BitVec.ofNat 64 g.base
      | 1 => BitVec.ofNat 64 g.idx
      | 2 => sext 32 g.step
      | _ => BitVec.ofNat 64 g.md]

/-- AGMODE: sets the mode flags of AGg (R169). -/
def execAgmode (n i st : Nat) (s : State) : Out :=
  seqStep 0x32 n i st s fun q => 
    .next q.d (q.x.setGen (q.sel % 4) { q.x.gen (q.sel % 4) with wrap := bit q.sel 2, brev := bit q.sel 3 })

/-- AGA: pushes the address of AGg without advancing it (R181, R183). -/
def execAga (n i st : Nat) (s : State) : Out :=
  seqStep 0x33 n i st s fun q => 
    let (g, e) := (q.x.gen (q.sel % 4)).settle
    .next (q.busy q.d (b2n e)) { q.x.setGen (q.sel % 4) g with stack := BitVec.ofNat 64 g.addr :: q.x.stack }

/-- AGAP: pushes the address of AGg, then advances it (R182, R183). -/
def execAgap (n i st : Nat) (s : State) : Out :=
  seqStep 0x34 n i st s fun q => 
    let (g, e) := (q.x.gen (q.sel % 4)).settle
    let (g', f) := g.adv
    .next (q.busy q.d (b2n e + b2n f)) { q.x.setGen (q.sel % 4) g' with stack := BitVec.ofNat 64 g.addr :: q.x.stack }

/-- AGADV: advances AGg (R182, R183). -/
def execAgadv (n i st : Nat) (s : State) : Out :=
  seqStep 0x35 n i st s fun q => 
    let (g, e) := (q.x.gen (q.sel % 4)).adv
    .next (q.busy q.d (b2n e)) (q.x.setGen (q.sel % 4) g)

/-! ### Descriptors, memory and landing buffers -/

/-- ISSUE: checks descriptor d and copies it into its unit queue, or holds the slot while the queue is full (R190). -/
def execIssue (n i st : Nat) (s : State) : Out :=
  seqStep 0x40 n i st s fun q => 
    q.issue { q.x with stack := q.x.stack.drop 1 } (q.s 0).toNat

/-- ISSUEI: issues descriptor IMM (R190). -/
def execIssuei (n i st : Nat) (s : State) : Out :=
  seqStep 0xD8 n i st s fun q => q.issue q.x q.imm

/-- DPATCH: writes v[31:0] to word w of descriptor d (R191). -/
def execDpatch (n i st : Nat) (s : State) : Out :=
  seqStep 0x41 n i st s fun q => q.patch 1

/-- DPATCHD: writes v to words w and w + 1 of descriptor d, low word first (R191). -/
def execDpatchd (n i st : Nat) (s : State) : Out :=
  seqStep 0x42 n i st s fun q => q.patch 2

/-- LDW: reads the 64-bit word at anchor-store address a (R192, R193). -/
def execLdw (n i st : Nat) (ecc : Ecc) (s : State) : Out :=
  seqStep 0x44 n i st s fun q =>
    let a := (q.s 0).toNat
    if !q.d.anchorOk n i q.sel 8 a then .fault q.d 0x0104 q.x.stack.length
    else q.withEcc ecc fun q => q.stackOp 1 [BitVec.ofNat 64 (leNat (q.d.anchorRead q.m n i q.sel a 8))]

/-- STW: writes v to the 64-bit word at anchor-store address a (R192, R193). -/
def execStw (n i st : Nat) (ecc : Ecc) (s : State) : Out :=
  seqStep 0x45 n i st s fun q =>
    let a := (q.s 0).toNat
    if !q.d.anchorOk n i q.sel 8 a then .fault q.d 0x0104 q.x.stack.length
    else q.withEcc ecc fun q => .next (q.d.anchorWrite q.m n i q.sel a (leBytes 8 (q.s 1).toNat)) { q.x with stack := q.x.stack.drop 2 }

/-- LBWAIT: waits until landing buffer b is FULL (R194). -/
def execLbwait (n i st : Nat) (s : State) : Out :=
  seqStep 0x48 n i st s fun q => 
    if q.d.lbState n i q.sel = 2 then .next q.d q.x else .hold q.d { q.x with st := .waitLb }

/-- LBREL: releases landing buffer b, or faults while it is FILLING (R138, R194). -/
def execLbrel (n i st : Nat) (s : State) : Out :=
  seqStep 0x49 n i st s fun q => 
    let (d, ok) := q.d.releaseLb n i q.sel
    if ok then .next d q.x else .fault q.d 0x0108 q.x.stack.length

/-- BRCLD: writes v[31:0] to BRC (R169). -/
def execBrcld (n i st : Nat) (s : State) : Out :=
  seqStep 0x51 n i st s fun q => .next q.d { q.x with brc := (q.s 0).toNat % 2 ^ 32, stack := q.x.stack.drop 1 }

/-- BRCST: pushes BRC (R169). -/
def execBrcst (n i st : Nat) (s : State) : Out :=
  seqStep 0x52 n i st s fun q => q.stackOp 0 [BitVec.ofNat 64 q.x.brc]

/-- SID: pushes the strand number (R169). -/
def execSid (n i st : Nat) (s : State) : Out :=
  seqStep 0x60 n i st s fun q => q.stackOp 0 [BitVec.ofNat 64 q.st]

/-- PITCH: pushes TILE_PITCH_NUM.PITCH (R169). -/
def execPitchNum (n i st : Nat) (s : State) : Out :=
  seqStep 0x61 n i st s fun q => q.stackOp 0 [BitVec.ofNat 64 (q.d.tilePitch n i)]

/-! ### Strings -/

/-- SCOPY: copies one element from the GA address to the GB address; with RUN, the run's next element (R196, R197). -/
def execScopy (n i st : Nat) (ecc : Ecc) (s : State) : Out :=
  seqStep 0xCA n i st s fun q => q.string 0xCA ecc

/-- SSPLAT: stores the low size bytes of S0 at the GB address; with RUN, the run's next element (R196, R197). -/
def execSsplat (n i st : Nat) (ecc : Ecc) (s : State) : Out :=
  seqStep 0xCB n i st s fun q => q.string 0xCB ecc

/-- SMATCH: compares the elements at the GA and GB addresses; with RUN, the run's next element (R196, R197). -/
def execSmatch (n i st : Nat) (ecc : Ecc) (s : State) : Out :=
  seqStep 0xCC n i st s fun q => q.string 0xCC ecc

/-- STRING_RUN_ELEMENT: a strand in a string run holds the slot again and performs one more element (R198). -/
def execStringRunElement (n i st : Nat) (ecc : Ecc) (s : State) : Out :=
  let op := s.dev.parcel s.mem n i (s.dev.strand n i st).pc / 256
  if op ≠ 0xCA ∧ op ≠ 0xCB ∧ op ≠ 0xCC then s.same
  else if !bit (s.dev.parcel s.mem n i ((s.dev.strand n i st).pc + 1)) 4 || decide ((s.dev.strand n i st).brc = 0) then s.same
  else seqStep op n i st s fun q => q.string op ecc

/-! ### Tokens -/

/-- WAIT: consumes IMM tokens from the channel, or enters WAIT_TOKEN (R185). -/
def execWait (n i st : Nat) (s : State) : Out :=
  seqStep 0xD0 n i st s fun q => 
    let t := q.d.tile n i
    let have_ := Tbl.lookD t.chans q.sel 0
    if q.imm ≤ have_ then .next (q.d.setTile n i { t with chans := Tbl.put t.chans q.sel (have_ - q.imm) }) q.x
    else .hold q.d { q.x with st := .waitToken }

/-- A SIGNAL or SIGNALR retires; its tokens wait for the strand's earlier operations (R186). -/
def Seq.signal (q : Seq) (x : Strand) (die inst : Nat) : Did :=
  let t := q.d.tile q.n q.i
  if q.imm = 0 then .next q.d x
  else .next (q.d.setTile q.n q.i { t with sigs := t.sigs ++ [⟨q.st, t.nextOp, die, inst, q.sel, q.imm⟩] }) x

/-- SIGNAL: raises IMM tokens on a channel of this tile, once the strand's earlier writes are acknowledged (R186). -/
def execSignal (n i st : Nat) (s : State) : Out :=
  seqStep 0xD1 n i st s fun q => q.signal q.x n i

/-- SIGNALR: raises IMM tokens on a channel of the tile that S0 names (R186, R187). -/
def execSignalr (n i st : Nat) (s : State) : Out :=
  seqStep 0xD2 n i st s fun q => 
    let t := (q.s 0).toNat
    if 2 ^ 19 ≤ t ∨ 2048 ≤ t % 65536 ∨ !q.d.hasTdie (t / 65536 % 8) then .fault q.d 0x0104 q.x.stack.length
    else q.signal { q.x with stack := q.x.stack.drop 1 } (t / 65536 % 8) (t % 65536)

end Sys2Proof.Machine
end

