-- ==== Sys2Proof/Machine/Telemetry.lean ====
section
/-!
DEFINITION. Telemetry export (spec/19, R597 to R599) and correlation beacons (spec/03, R75, R76).
-/
namespace Sys2Proof.Machine

/-! ### Datagrams (R597) -/

/-- The UDP payload that a datagram may carry: the MTU of TEL_CFG less the IP and UDP headers. -/
def Device.telRoom (d : Device) : Nat :=
  (match d.app .tel Fld.TEL_CFG_MTU with
   | 0 => 1500
   | 1 => 4096
   | _ => 9000) - (if d.app .tel Fld.TEL_CFG_IPV6 = 1 then 48 else 28)

/-- Records in groups whose bytes fit a datagram's room after its header; no record spans two. -/
def packRecords (room : Nat) : List (List Byte) → List (List Byte) → List (List (List Byte))
  | cur, [] => if cur.isEmpty then [] else [cur]
  | cur, r :: rs =>
    if cur.isEmpty || decide ((cur.map List.length).sum + r.length ≤ room) then packRecords room (cur ++ [r]) rs
    else cur :: packRecords room [r] rs

/-- The headers around a datagram's payload: Ethernet with the tag of TEL_L2, IP and UDP. TTL, IPv4 identification, flow label and whether IPv4
carries a UDP checksum, which no rule gives, are a free value (log entry 2). -/
def Device.telFrame (d : Device) (bs : List Byte) : List Byte :=
  let i := d.app .tel Fld.TEL_CFG_IDIE
  let fv := d.freeVal
  let ttl := fv % 256
  let tos := d.app .tel Fld.TEL_L2_DSCP * 4
  let vid := d.app .tel Fld.TEL_L2_VID
  let src := d.app .tel Fld.TEL_SRC_IP
  let dst := d.app .tel Fld.TEL_DST_IP
  let ulen := 8 + bs.length
  let tag := if vid = 0 then [] else beBytes 2 0x8100 ++ beBytes 2 (d.app (.tmg i) (classMap 4).2.2 * 8192 + vid)
  let eth := beBytes 6 (d.app .tel Fld.TEL_DST_MAC) ++ beBytes 6 (d.app (.eth i (d.app .tel Fld.TEL_CFG_PORT)) Fld.ETH_MAC_ADDR_ADDR) ++ tag
  let udp0 := beBytes 2 (d.app .tel Fld.TEL_UDP_SRC_PORT) ++ beBytes 2 (d.app .tel Fld.TEL_UDP_DST_PORT) ++ beBytes 2 ulen
  let n := if d.app .tel Fld.TEL_CFG_IPV6 = 1 then 16 else 4
  let pseudo := beBytes n src ++ beBytes n dst ++ beBytes 4 ulen ++ beBytes 4 17
  let ck := inetSum (words16 pseudo + words16 udp0 + words16 bs)
  let ck := if ck = 0 then 65535 else ck
  if n = 16 then
    eth ++ beBytes 2 0x86DD ++ beBytes 4 (6 * 2 ^ 28 + tos * 2 ^ 20 + fv / 2 ^ 24 % 2 ^ 20) ++ beBytes 2 ulen ++ [17, BitVec.ofNat 8 ttl] ++
      beBytes 16 src ++ beBytes 16 dst ++ udp0 ++ beBytes 2 ck ++ bs
  else
    let a := [0x45, BitVec.ofNat 8 tos] ++ beBytes 2 (20 + ulen) ++ beBytes 2 (fv / 256 % 65536) ++ [0x40, 0, BitVec.ofNat 8 ttl, 17]
    let b := beBytes 4 src ++ beBytes 4 dst
    eth ++ beBytes 2 0x0800 ++ a ++ beBytes 2 (inetSum (words16 a + words16 b)) ++ b ++ udp0 ++
      beBytes 2 (if fv / 2 ^ 44 % 2 = 0 then 0 else ck) ++ bs

/-- One datagram goes to the traffic manager in class 4 (R597). -/
def Device.sendTel (d : Device) (frozen : Bool) (recs : List (List Byte)) : Device :=
  let i := d.app .tel Fld.TEL_CFG_IDIE
  let head := leBytes 4 0x4C455447 ++ [1, BitVec.ofNat 8 (b2n frozen)] ++ leBytes 2 (d.fld .pkg Fld.PKG_ID_ID) ++ leBytes 4 d.tel.seq ++
    leBytes 4 d.tel.snap ++ leBytes 8 (d.stamp 0xF00) ++ leBytes 2 recs.length ++ [0, 0] ++ leBytes 4 (min d.tel.lost (2 ^ 32 - 1))
  let frame := d.telFrame (head ++ recs.flatMap id)
  let d := (d.freeNext.tick .tel 0).setTmWait (d.tmWait ++
    [⟨4 * i + d.app .tel Fld.TEL_CFG_PORT, d.app .tel Fld.TEL_CFG_QUEUE, 3, false, frame, none, false, 0, d.fld .pkg Fld.PKG_WAVE_EPOCH⟩])
  d.setTel { d.tel with seq := (d.tel.seq + 1) % 2 ^ 32, lost := 0 }

/-- Every record in the buffer is sent. -/
def Device.telFlush (d : Device) (frozen : Bool) : Device :=
  let groups := packRecords (d.telRoom - 32) [] d.tel.records
  let d := each (fun (d : Device) g => d.sendTel frozen g) d groups
  (d.setTel { d.tel with records := [] }).put .tel Fld.TEL_STATE_BUF_B 0

/-! ### The walk (R599) -/

/-- PTAG with PVALID of a page's partition, as a COUNTERS record holds them (R598). -/
def Device.pageTag (d : Device) (p : Page) : Nat :=
  match pagePart d p with
  | some q => q + 128
  | none => 0

/-- A COUNTERS record's content. -/
def Device.counterRecord (d : Device) (p : Page) (frozen : Bool) : List Byte :=
  let c := Tbl.lookD d.belay.cuts p.island ⟨[], 0, 0, 0⟩
  leBytes 4 p.idReg ++ leBytes 1 (d.pageTag p) ++ leBytes 1 p.counters ++ [0, 0] ++ leBytes 8 (if frozen then c.cut else d.stamp p.island) ++
    (List.range p.counters).flatMap fun i => leBytes 8 (d.cntRead p i)

/-- What the page list asks of one page. -/
def Device.walkPage (d : Device) (p : Page) (flags : Nat) (frozen : Bool) : Device :=
  let d := if bit flags 0 then d.telRecord 1 (d.counterRecord p frozen) else d
  let d := if bit flags 1 then
      let r := d.ring p
      let k := p.ringPage.base
      let new := min p.ringPage.ringSize (r.written - Tbl.lookD d.tel.seen k 0)
      let d := each (fun (d : Device) j =>
        let e := Tbl.lookD r.entries ((r.next + p.ringPage.ringSize - new + j) % p.ringPage.ringSize) ⟨0, 0, 0⟩
        d.telRecord 4 (leBytes 4 p.ringPage.idReg ++ leBytes 8 e.stamp ++ leBytes 8 (e.code + e.info * 2 ^ 16))) d (List.range new)
      d.setTel { d.tel with seen := Tbl.put d.tel.seen k r.written }
    else d
  match p with
  | .tmg i =>
    if bit flags 2 then
      each (fun (d : Device) k =>
        let x := d.tmq i (k / 32) (k % 32)
        each (fun (d : Device) j => match Tbl.look x.ring ((x.next + j) % 64) with
          | some e => d.telRecord 3 (leBytes 1 i ++ leBytes 1 (k / 32) ++ leBytes 1 (k % 32) ++ [0] ++ leBytes 16 e.word)
          | none => d) d (List.range 64)) d (List.range 128)
    else d
  | _ => d

/-- The walk over the page list, and the datagrams that carry its records. -/
def Device.walk (d : Device) (m : Memory) (frozen : Bool) : Device :=
  let n := if d.app .tel Fld.TEL_LIST_BASE_VALID = 1 then d.app .tel Fld.TEL_CFG_COUNT else 0
  let base := d.app .tel Fld.TEL_LIST_BASE_ADDR * 4096
  let d := d.setTel { d.tel with snap := (d.tel.snap + 1) % 2 ^ 32 }
  let d := each (fun (d : Device) k =>
    let e := d.memBytes m (base + 8 * k) 8
    match Page.ofBar0 (leNat (e.take 4)) with
    | some (p, _) => if d.present p then d.walkPage p (leNat ((e.drop 4).take 1)) frozen else d
    | none => d) d (List.range n)
  d.telFlush frozen

/-- TEL_WALK: the walk interval expires (R599). With FREEZE at 1 the walk raises slot 3; `cut`: its cut is complete, and the walk reads the snapshots and
releases the slot. An interval that expires before the walk has ended is skipped and counted. -/
def execTelWalk (cut : Bool) (s : State) : Out :=
  let d := s.dev
  if cut then
    (if d.tel.walking && decide (d.fldI .bly Fld.BLY_HOLD_STAT_DONE 3 = 1) then
       let d := d.walk s.mem true
       s.done ((d.setTel { d.tel with walking := false }).releaseSlot 3)
     else s.same)
  else if d.fld .tel Fld.TEL_CTRL_ENABLE = 0 ∨ !d.live then s.same
  else if d.tel.walking then s.done (d.tick .tel 2)
  else if d.fld .tel Fld.TEL_CTRL_FREEZE = 1 ∧ d.fldI .bly Fld.BLY_HOLD_CTL_ACTIVE 3 = 0 then
    s.done ((d.setTel { d.tel with walking := true }).raiseSlot 3 0 0 0 0x07 false)
  else s.done (d.walk s.mem false)

/-! ### Correlation beacons (R75, R76) -/

/-- A correlation record (R75, R598), where TEL_CFG.KINDS selects them. -/
def Device.corrRecord (d : Device) (x : Corr) (isl arrival echo : Nat) : Device :=
  let t := Tbl.lookD x.ptp isl 0
  if bit (d.app .tel Fld.TEL_CFG_KINDS) 0 then
    d.telRecord 2 (leBytes 2 isl ++ [0, 0] ++ leBytes 4 x.seq ++ leBytes 8 x.issue ++ leBytes 8 arrival ++ leBytes 8 echo ++
      leBytes 6 (t / 1000000000).toNat ++ leBytes 4 (t % 1000000000).toNat ++ [0, 0])
  else d

/-- CORR_BEACON: the beacon period expires (R75): PKG_CORR_SEQ advances, the issue stamp is taken, every port captures its IEEE 1588 clock, and the beacon
leaves for every island. -/
def execCorrBeacon (s : State) : Out :=
  let d := s.dev
  if !d.live || !d.flag .pkg Fld.PKG_CORR_CTRL_ENABLE then s.same
  else
    let d := d.put .pkg Fld.PKG_CORR_SEQ (d.fld .pkg Fld.PKG_CORR_SEQ + 1)
    let ports := d.model.idies.flatMap fun i => (List.range 4).map fun p => (i, p)
    let ptp := ports.foldl (fun (t : Tbl Int) ip => Tbl.put t ((8 + ip.1) * 256 + 1 + ip.2) (d.ptpNow (d.tmp ip.1 ip.2))) []
    s.done ((d.setCorrs (d.corrs ++ [⟨d.fld .pkg Fld.PKG_CORR_SEQ, d.stamp 0xF00, d.allIslands, ptp⟩])).msg "corr-beacon" 0 [d.fld .pkg Fld.PKG_CORR_SEQ])

/-- CORR_ECHO: an island's echo arrives (R75); `arrival`: the cycle count that the island recorded as the beacon came, which lies not after now. -/
def execCorrEcho (isl seq arrival : Nat) (s : State) : Out :=
  let d := s.dev
  match d.corrs.find? fun x => decide (x.seq = seq) with
  | none => s.same
  | some x =>
    if !x.waiting.contains isl then s.same
    else
      let d := d.corrRecord x isl (isl * 2 ^ 52 + min arrival (d.cycles isl)) (d.stamp 0xF00)
      let left := x.waiting.filter (· ≠ isl)
      s.done (d.setCorrs (if left = [] then d.corrs.filter fun y => decide (y.seq ≠ seq)
        else d.corrs.map fun y => if y.seq = seq then { y with waiting := left } else y))

/-- CORR_ECHO_TIMEOUT: 100 µs after the issue, every island that has not echoed is recorded with echo stamp 0 (R76); its arrival stamp, which no
rule gives then, is a free value. -/
def execCorrEchoTimeout (seq : Nat) (s : State) : Out :=
  let d := s.dev
  match d.corrs.find? fun x => decide (x.seq = seq) with
  | none => s.same
  | some x =>
    let d := each (fun (d : Device) isl => (d.corrRecord x isl d.freeVal 0).freeNext) d x.waiting
    s.done (d.setCorrs (d.corrs.filter fun y => decide (y.seq ≠ seq)))

end Sys2Proof.Machine
end

