-- ==== Sys2Proof/Machine/Dispatch.lean ====
section
/-!
DEFINITION. One arm for each command: the direct call of its meaning, or a rejection by name.
-/
namespace Sys2Proof.Machine

/-- The effect of a command on everything but the queue. -/
def exec (i : Instr) (s : State) : Host.Outcome State Fault Refusal :=
  match i with
  | .registerWrite r t value => Sys2Proof.Machine.execRegisterWrite r t value s
  | .ctrlHalt r p v => Sys2Proof.Machine.execCtrlHalt r p v s
  | .haltAtBoundary p => Sys2Proof.Machine.execHaltAtBoundary p s
  | .cntReset r p => Sys2Proof.Machine.execCntReset r p s
  | .commitGo r p => Sys2Proof.Machine.execCommitGo r p s
  | .commitCheck p => Sys2Proof.Machine.execCommitCheck p s
  | .commitApply p => Sys2Proof.Machine.execCommitApply p s
  | .generationDrained p => Sys2Proof.Machine.execGenerationDrained p s
  | .errStatClear r p mask => Sys2Proof.Machine.execErrStatClear r p mask s
  | .irqStatClear r p mask => Sys2Proof.Machine.execIrqStatClear r p mask s
  | .rcRead r p off => Sys2Proof.Machine.execRcRead r p off s
  | .counterLowRead r p idx withReset => Sys2Proof.Machine.execCounterLowRead r p idx withReset s
  | .leaseOwnerWrite r p idx word => Sys2Proof.Machine.execLeaseOwnerWrite r p idx word s
  | .leaseBreak r p idx word => Sys2Proof.Machine.execLeaseBreak r p idx word s
  | .leaseBreakDone p idx => Sys2Proof.Machine.execLeaseBreakDone p idx s
  | .memberWindowAccess write m off value => Sys2Proof.Machine.execMemberWindowAccess write m off value s
  | .memberWindowTimeout k => Sys2Proof.Machine.execMemberWindowTimeout k s
  | .bar4Access write off data len finds => Sys2Proof.Machine.execBar4Access write off data len finds s
  | .doorbellWrite f q value => Sys2Proof.Machine.execDoorbellWrite f q value s
  | .queueEntryFetch f q => Sys2Proof.Machine.execQueueEntryFetch f q s
  | .waveGo r => Sys2Proof.Machine.execWaveGo r s
  | .waveAccept p => Sys2Proof.Machine.execWaveAccept p s
  | .waveTimeout => Sys2Proof.Machine.execWaveTimeout s
  | .waveEpochDrained p => Sys2Proof.Machine.execWaveEpochDrained p s
  | .pllRestart isl => Sys2Proof.Machine.execPllRestart isl s
  | .regionClockChange n r => Sys2Proof.Machine.execRegionClockChange n r s
  | .corrBeacon => Sys2Proof.Machine.execCorrBeacon s
  | .corrEcho isl seq arrival => Sys2Proof.Machine.execCorrEcho isl seq arrival s
  | .corrEchoTimeout seq => Sys2Proof.Machine.execCorrEchoTimeout seq s
  | .d2dFlitReplay n e => Sys2Proof.Machine.execD2dFlitReplay n e s
  | .d2dLaneFail n e m lane => Sys2Proof.Machine.execD2dLaneFail n e m lane s
  | .d2dLinkDown n e => Sys2Proof.Machine.execD2dLinkDown n e s
  | .regionReinit n r => Sys2Proof.Machine.execRegionReinit n r s
  | .regionReadmit n r passed test => Sys2Proof.Machine.execRegionReadmit n r passed test s
  | .tileFault die inst code strand => Sys2Proof.Machine.execTileFault die inst code strand s
  | .cbufUe die c addr => Sys2Proof.Machine.execCbufUe die c addr s
  | .hbmStackLoss n stack => Sys2Proof.Machine.execHbmStackLoss n stack s
  | .pitchReplay part blocks => Sys2Proof.Machine.execPitchReplay part blocks s
  | .mmExecute die inst ecc parity => Sys2Proof.Machine.execMmExecute die inst ecc parity s
  | .vecExecute die inst ecc => Sys2Proof.Machine.execVecExecute die inst ecc s
  | .moveExecute die inst ecc finds => Sys2Proof.Machine.execMoveExecute die inst ecc finds s
  | .tsumExecute die inst ecc => Sys2Proof.Machine.execTsumExecute die inst ecc s
  | .tmaskExecute die inst ecc => Sys2Proof.Machine.execTmaskExecute die inst ecc s
  | .meshWriteArrive k ecc => Sys2Proof.Machine.execMeshWriteArrive k ecc s
  | .tokenWriteArrive k => Sys2Proof.Machine.execTokenWriteArrive k s
  | .tokenDeliver die inst strand => Sys2Proof.Machine.execTokenDeliver die inst strand s
  | .anchorScrub die inst ecc => Sys2Proof.Machine.execAnchorScrub die inst ecc s
  | .stallTimeout die inst strand => Sys2Proof.Machine.execStallTimeout die inst strand s
  | .tileMemAccess r die inst write width high value ecc => Sys2Proof.Machine.execTileMemAccess r die inst write width high value ecc s
  | .tileDone die inst => Sys2Proof.Machine.execTileDone die inst s
  | .tapDeliveryArrive die c k => Sys2Proof.Machine.execTapDeliveryArrive die c k s
  | .tapDeliveryBegin die c k => Sys2Proof.Machine.execTapDeliveryBegin die c k s
  | .granuleValid die c k g => Sys2Proof.Machine.execGranuleValid die c k g s
  | .nop die inst strand => Sys2Proof.Machine.execNop die inst strand s
  | .dup die inst strand => Sys2Proof.Machine.execDup die inst strand s
  | .drop die inst strand => Sys2Proof.Machine.execDrop die inst strand s
  | .swap die inst strand => Sys2Proof.Machine.execSwap die inst strand s
  | .overW die inst strand => Sys2Proof.Machine.execOverW die inst strand s
  | .rot die inst strand => Sys2Proof.Machine.execRot die inst strand s
  | .pick die inst strand => Sys2Proof.Machine.execPick die inst strand s
  | .lit die inst strand => Sys2Proof.Machine.execLit die inst strand s
  | .lits die inst strand => Sys2Proof.Machine.execLits die inst strand s
  | .addW die inst strand => Sys2Proof.Machine.execAddW die inst strand s
  | .subW die inst strand => Sys2Proof.Machine.execSubW die inst strand s
  | .mulW die inst strand => Sys2Proof.Machine.execMulW die inst strand s
  | .andW die inst strand => Sys2Proof.Machine.execAndW die inst strand s
  | .orW die inst strand => Sys2Proof.Machine.execOrW die inst strand s
  | .xorW die inst strand => Sys2Proof.Machine.execXorW die inst strand s
  | .notW die inst strand => Sys2Proof.Machine.execNotW die inst strand s
  | .shl die inst strand => Sys2Proof.Machine.execShl die inst strand s
  | .shr die inst strand => Sys2Proof.Machine.execShr die inst strand s
  | .sar die inst strand => Sys2Proof.Machine.execSar die inst strand s
  | .eqW die inst strand => Sys2Proof.Machine.execEqW die inst strand s
  | .ltu die inst strand => Sys2Proof.Machine.execLtu die inst strand s
  | .lts die inst strand => Sys2Proof.Machine.execLts die inst strand s
  | .shli die inst strand => Sys2Proof.Machine.execShli die inst strand s
  | .shri die inst strand => Sys2Proof.Machine.execShri die inst strand s
  | .adds die inst strand => Sys2Proof.Machine.execAdds die inst strand s
  | .skipz die inst strand => Sys2Proof.Machine.execSkipz die inst strand s
  | .skipnz die inst strand => Sys2Proof.Machine.execSkipnz die inst strand s
  | .lexit die inst strand => Sys2Proof.Machine.execLexit die inst strand s
  | .lexitnz die inst strand => Sys2Proof.Machine.execLexitnz die inst strand s
  | .lcnt die inst strand => Sys2Proof.Machine.execLcnt die inst strand s
  | .endStrand die inst strand => Sys2Proof.Machine.execEndStrand die inst strand s
  | .agld die inst strand => Sys2Proof.Machine.execAgld die inst strand s
  | .agst die inst strand => Sys2Proof.Machine.execAgst die inst strand s
  | .agmode die inst strand => Sys2Proof.Machine.execAgmode die inst strand s
  | .aga die inst strand => Sys2Proof.Machine.execAga die inst strand s
  | .agap die inst strand => Sys2Proof.Machine.execAgap die inst strand s
  | .agadv die inst strand => Sys2Proof.Machine.execAgadv die inst strand s
  | .issue die inst strand => Sys2Proof.Machine.execIssue die inst strand s
  | .dpatch die inst strand => Sys2Proof.Machine.execDpatch die inst strand s
  | .dpatchd die inst strand => Sys2Proof.Machine.execDpatchd die inst strand s
  | .ldw die inst strand ecc => Sys2Proof.Machine.execLdw die inst strand ecc s
  | .stw die inst strand ecc => Sys2Proof.Machine.execStw die inst strand ecc s
  | .lbwait die inst strand => Sys2Proof.Machine.execLbwait die inst strand s
  | .lbrel die inst strand => Sys2Proof.Machine.execLbrel die inst strand s
  | .brcld die inst strand => Sys2Proof.Machine.execBrcld die inst strand s
  | .brcst die inst strand => Sys2Proof.Machine.execBrcst die inst strand s
  | .sid die inst strand => Sys2Proof.Machine.execSid die inst strand s
  | .pitchNum die inst strand => Sys2Proof.Machine.execPitchNum die inst strand s
  | .lit16 die inst strand => Sys2Proof.Machine.execLit16 die inst strand s
  | .lits16 die inst strand => Sys2Proof.Machine.execLits16 die inst strand s
  | .lith die inst strand => Sys2Proof.Machine.execLith die inst strand s
  | .addi die inst strand => Sys2Proof.Machine.execAddi die inst strand s
  | .loopN die inst strand => Sys2Proof.Machine.execLoopN die inst strand s
  | .loopi die inst strand => Sys2Proof.Machine.execLoopi die inst strand s
  | .scopy die inst strand ecc => Sys2Proof.Machine.execScopy die inst strand ecc s
  | .ssplat die inst strand ecc => Sys2Proof.Machine.execSsplat die inst strand ecc s
  | .smatch die inst strand ecc => Sys2Proof.Machine.execSmatch die inst strand ecc s
  | .stringRunElement die inst strand ecc => Sys2Proof.Machine.execStringRunElement die inst strand ecc s
  | .wait die inst strand => Sys2Proof.Machine.execWait die inst strand s
  | .signal die inst strand => Sys2Proof.Machine.execSignal die inst strand s
  | .signalr die inst strand => Sys2Proof.Machine.execSignalr die inst strand s
  | .issuei die inst strand => Sys2Proof.Machine.execIssuei die inst strand s
  | .ropeDeliver die st e ctx => Sys2Proof.Machine.execRopeDeliver die st e ctx s
  | .ropeStage die st e ctx => Sys2Proof.Machine.execRopeStage die st e ctx s
  | .ropeSelect die st e ctx => Sys2Proof.Machine.execRopeSelect die st e ctx s
  | .ropeSelectPoll die st e ctx finds => Sys2Proof.Machine.execRopeSelectPoll die st e ctx finds s
  | .ropeSelTimeout die st e ctx => Sys2Proof.Machine.execRopeSelTimeout die st e ctx s
  | .ropeEnd die st e ctx => Sys2Proof.Machine.execRopeEnd die st e ctx s
  | .ropeBlockCheck die st e ctx finds answers transient => Sys2Proof.Machine.execRopeBlockCheck die st e ctx finds answers transient s
  | .ropeFault die st e ctx code => Sys2Proof.Machine.execRopeFault die st e ctx code s
  | .ropeListMove die st e => Sys2Proof.Machine.execRopeListMove die st e s
  | .load f q => Sys2Proof.Machine.execLoad f q s
  | .run f q => Sys2Proof.Machine.execRun f q s
  | .stop f q => Sys2Proof.Machine.execStop f q s
  | .unload f q => Sys2Proof.Machine.execUnload f q s
  | .pitchCommit part => Sys2Proof.Machine.execPitchCommit part s
  | .regionCommit die r => Sys2Proof.Machine.execRegionCommit die r s
  | .pitchStart part => Sys2Proof.Machine.execPitchStart part s
  | .hbmRead addr len move finds => Sys2Proof.Machine.execHbmRead addr len move finds s
  | .hbmWrite addr data => Sys2Proof.Machine.execHbmWrite addr data s
  | .hbmScrub die stack syms => Sys2Proof.Machine.execHbmScrub die stack syms s
  | .ddrRead addr len move finds => Sys2Proof.Machine.execDdrRead addr len move finds s
  | .ddrWrite addr data => Sys2Proof.Machine.execDdrWrite addr data s
  | .ddrScrub die ch syms => Sys2Proof.Machine.execDdrScrub die ch syms s
  | .ddrXtsWrite r die ch value => Sys2Proof.Machine.execDdrXtsWrite r die ch value s
  | .ddrXtsResume r die ch => Sys2Proof.Machine.execDdrXtsResume r die ch s
  | .portUp die p => Sys2Proof.Machine.execPortUp die p s
  | .portDown die p cause lanes => Sys2Proof.Machine.execPortDown die p cause lanes s
  | .portNarrowed die p => Sys2Proof.Machine.execPortNarrowed die p s
  | .fecWindow die p corrected uncorrectable => Sys2Proof.Machine.execFecWindow die p corrected uncorrectable s
  | .gftWrite f q => Sys2Proof.Machine.execGftWrite f q s
  | .gftRead f q => Sys2Proof.Machine.execGftRead f q s
  | .gftSend f q => Sys2Proof.Machine.execGftSend f q s
  | .gftFetchAdd f q => Sys2Proof.Machine.execGftFetchAdd f q s
  | .gftCmpSwap f q => Sys2Proof.Machine.execGftCmpSwap f q s
  | .gftReduce f q => Sys2Proof.Machine.execGftReduce f q s
  | .gftPostRecv f q => Sys2Proof.Machine.execGftPostRecv f q s
  | .gftPacketSend conn => Sys2Proof.Machine.execGftPacketSend conn s
  | .rxWrite die => Sys2Proof.Machine.execRxWrite die s
  | .rxReadReq die => Sys2Proof.Machine.execRxReadReq die s
  | .rxReadResp die => Sys2Proof.Machine.execRxReadResp die s
  | .rxSend die => Sys2Proof.Machine.execRxSend die s
  | .rxFetchAdd die => Sys2Proof.Machine.execRxFetchAdd die s
  | .rxCmpSwap die => Sys2Proof.Machine.execRxCmpSwap die s
  | .rxAtomicResp die => Sys2Proof.Machine.execRxAtomicResp die s
  | .rxReduce die => Sys2Proof.Machine.execRxReduce die s
  | .rxApplied die => Sys2Proof.Machine.execRxApplied die s
  | .rxAck die => Sys2Proof.Machine.execRxAck die s
  | .rxNak die => Sys2Proof.Machine.execRxNak die s
  | .rxProbe die => Sys2Proof.Machine.execRxProbe die s
  | .rxProbeReply die => Sys2Proof.Machine.execRxProbeReply die s
  | .ackDelayExpiry conn => Sys2Proof.Machine.execAckDelayExpiry conn s
  | .rtoExpiry conn psn => Sys2Proof.Machine.execRtoExpiry conn psn s
  | .rnrDelayExpiry conn psn => Sys2Proof.Machine.execRnrDelayExpiry conn psn s
  | .busyLimitExpiry conn psn => Sys2Proof.Machine.execBusyLimitExpiry conn psn s
  | .probeTimeout conn path => Sys2Proof.Machine.execProbeTimeout conn path s
  | .probeInterval conn path => Sys2Proof.Machine.execProbeInterval conn path s
  | .contextFetchDone die conn => Sys2Proof.Machine.execContextFetchDone die conn s
  | .connMove conn ports slots => Sys2Proof.Machine.execConnMove conn ports slots s
  | .frameReceive die p bytes bad => Sys2Proof.Machine.execFrameReceive die p bytes bad s
  | .frameDispatch die => Sys2Proof.Machine.execFrameDispatch die s
  | .frameParse die engine => Sys2Proof.Machine.execFrameParse die engine s
  | .frameLookup die input seq => Sys2Proof.Machine.execFrameLookup die input seq s
  | .reorderRelease die input => Sys2Proof.Machine.execReorderRelease die input s
  | .reorderTimeout die input => Sys2Proof.Machine.execReorderTimeout die input s
  | .frameEdit die => Sys2Proof.Machine.execFrameEdit die s
  | .pmeScan die => Sys2Proof.Machine.execPmeScan die s
  | .frameDisposition die scanned => Sys2Proof.Machine.execFrameDisposition die scanned s
  | .placementHeaderWrite die k => Sys2Proof.Machine.execPlacementHeaderWrite die k s
  | .clsTblWrite r die width value => Sys2Proof.Machine.execClsTblWrite r die width value s
  | .clsTblRead r die width => Sys2Proof.Machine.execClsTblRead r die width s
  | .clsFcntRead r die => Sys2Proof.Machine.execClsFcntRead r die s
  | .tmEnqueue die => Sys2Proof.Machine.execTmEnqueue die s
  | .tmAdmitRetry die p q => Sys2Proof.Machine.execTmAdmitRetry die p q s
  | .tmTransmit die p blocked => Sys2Proof.Machine.execTmTransmit die p blocked s
  | .gateEntryChange die p => Sys2Proof.Machine.execGateEntryChange die p s
  | .gateListTakeover die p => Sys2Proof.Machine.execGateListTakeover die p s
  | .ptpStep die p delta => Sys2Proof.Machine.execPtpStep die p delta s
  | .tmSample die => Sys2Proof.Machine.execTmSample die s
  | .tmgSampDataRead r die => Sys2Proof.Machine.execTmgSampDataRead r die s
  | .ethTx f q => Sys2Proof.Machine.execEthTx f q s
  | .ssdUp p lanes gen => Sys2Proof.Machine.execSsdUp p lanes gen s
  | .ssdLinkDown p retrained => Sys2Proof.Machine.execSsdLinkDown p retrained s
  | .ssdMemoryRequest p write slot off len data => Sys2Proof.Machine.execSsdMemoryRequest p write slot off len data s
  | .blockRead f q => Sys2Proof.Machine.execBlockRead f q s
  | .blockWrite f q => Sys2Proof.Machine.execBlockWrite f q s
  | .blockFlush f q => Sys2Proof.Machine.execBlockFlush f q s
  | .blockDeallocate f q => Sys2Proof.Machine.execBlockDeallocate f q s
  | .blockStageArrive c k data => Sys2Proof.Machine.execBlockStageArrive c k data s
  | .nvmeTimeout c => Sys2Proof.Machine.execNvmeTimeout c s
  | .cvuJob r die h u start final => Sys2Proof.Machine.execCvuJob r die h u start final s
  | .cvuJobDone die h u => Sys2Proof.Machine.execCvuJobDone die h u s
  | .importKw r die session => Sys2Proof.Machine.execImportKw r die session s
  | .importKem r die session => Sys2Proof.Machine.execImportKem r die session s
  | .erase r die session => Sys2Proof.Machine.execErase r die session s
  | .getPublic r die session => Sys2Proof.Machine.execGetPublic r die session s
  | .attest r die session => Sys2Proof.Machine.execAttest r die session s
  | .migrate r die session answers => Sys2Proof.Machine.execMigrate r die session answers s
  | .zeroize r die session => Sys2Proof.Machine.execZeroize r die session s
  | .random r die session => Sys2Proof.Machine.execRandom r die session s
  | .extend r die session => Sys2Proof.Machine.execExtend r die session s
  | .vendorCmd r die session => Sys2Proof.Machine.execVendorCmd r die session s
  | .attachVns vns => Sys2Proof.Machine.execAttachVns vns s
  | .keySession die answers => Sys2Proof.Machine.execKeySession die answers s
  | .vaultAlarm die cause => Sys2Proof.Machine.execVaultAlarm die cause s
  | .alarmClear r die mask present => Sys2Proof.Machine.execAlarmClear r die mask present s
  | .vaultReinit die failedTest => Sys2Proof.Machine.execVaultReinit die failedTest s
  | .drbgReseed die => Sys2Proof.Machine.execDrbgReseed die s
  | .entropyFail die => Sys2Proof.Machine.execEntropyFail die s
  | .drbgRetry die ok => Sys2Proof.Machine.execDrbgRetry die ok s
  | .cphJob r die j => Sys2Proof.Machine.execCphJob r die j s
  | .cphJobDone die j finds => Sys2Proof.Machine.execCphJobDone die j finds s
  | .debugChallengeRead die => Sys2Proof.Machine.execDebugChallengeRead die s
  | .debugResponse die keyIdx pubkey signature => Sys2Proof.Machine.execDebugResponse die keyIdx pubkey signature s
  | .debugPortAccess die => Sys2Proof.Machine.execDebugPortAccess die s
  | .fundamentalReset crewRole idSrc idie1Mode pinsId gen width flit failed => Sys2Proof.Machine.execFundamentalReset crewRole idSrc idie1Mode pinsId gen width flit failed s
  | .perstAssert => Sys2Proof.Machine.execPerstAssert s
  | .hotReset gen width flit failed => Sys2Proof.Machine.execHotReset gen width flit failed s
  | .pfFlr => Sys2Proof.Machine.execPfFlr s
  | .vfFlr n => Sys2Proof.Machine.execVfFlr n s
  | .flrDrainLimit f => Sys2Proof.Machine.execFlrDrainLimit f s
  | .busMasterDisable f => Sys2Proof.Machine.execBusMasterDisable f s
  | .busMasterEnable f => Sys2Proof.Machine.execBusMasterEnable f s
  | .bmeHoldExpiry f => Sys2Proof.Machine.execBmeHoldExpiry f s
  | .hostCompletion tag data result poisoned => Sys2Proof.Machine.execHostCompletion tag data result poisoned s
  | .completionTimeout tag => Sys2Proof.Machine.execCompletionTimeout tag s
  | .d3hotEntry => Sys2Proof.Machine.execD3hotEntry s
  | .d0Entry => Sys2Proof.Machine.execD0Entry s
  | .wakeEvent source => Sys2Proof.Machine.execWakeEvent source s
  | .l0pNarrow => Sys2Proof.Machine.execL0pNarrow s
  | .l1Entry => Sys2Proof.Machine.execL1Entry s
  | .pmeTurnOff => Sys2Proof.Machine.execPmeTurnOff s
  | .crewReset failed => Sys2Proof.Machine.execCrewReset failed s
  | .bmeClear f => Sys2Proof.Machine.execBmeClear f s
  | .bmeRestore f => Sys2Proof.Machine.execBmeRestore f s
  | .hostLost cause => Sys2Proof.Machine.execHostLost cause s
  | .hostAdopt => Sys2Proof.Machine.execHostAdopt s
  | .crewDstate d3hot => Sys2Proof.Machine.execCrewDstate d3hot s
  | .doorbellForward f q value => Sys2Proof.Machine.execDoorbellForward f q value s
  | .memberFwDelivery image drvVer => Sys2Proof.Machine.execMemberFwDelivery image drvVer s
  | .mailboxGo n => Sys2Proof.Machine.execMailboxGo n s
  | .vfDeny r n status => Sys2Proof.Machine.execVfDeny r n status s
  | .mbxTimeout n => Sys2Proof.Machine.execMbxTimeout n s
  | .vfTelFreeze n part freeze => Sys2Proof.Machine.execVfTelFreeze n part freeze s
  | .blyPfFreeze value => Sys2Proof.Machine.execBlyPfFreeze value s
  | .identify => Sys2Proof.Machine.execIdentify s
  | .createQueue a q mem => Sys2Proof.Machine.execCreateQueue a q mem s
  | .destroyQueue q => Sys2Proof.Machine.execDestroyQueue q s
  | .createPartition tag qmask grants store => Sys2Proof.Machine.execCreatePartition tag qmask grants store s
  | .destroyPartition tag => Sys2Proof.Machine.execDestroyPartition tag s
  | .attachPartition tag => Sys2Proof.Machine.execAttachPartition tag s
  | .detachPartition tag => Sys2Proof.Machine.execDetachPartition tag s
  | .forward q => Sys2Proof.Machine.execForward q s
  | .setMac port addr => Sys2Proof.Machine.execSetMac port addr s
  | .registerMemory a idx => Sys2Proof.Machine.execRegisterMemory a idx s
  | .deregisterMemory key => Sys2Proof.Machine.execDeregisterMemory key s
  | .createConn a id => Sys2Proof.Machine.execCreateConn a id s
  | .destroyConn id => Sys2Proof.Machine.execDestroyConn id s
  | .setVnsTable count dest => Sys2Proof.Machine.execSetVnsTable count dest s
  | .setBivouac die addr count => Sys2Proof.Machine.execSetBivouac die addr count s
  | .setPkgId id => Sys2Proof.Machine.execSetPkgId id s
  | .crewForm members own verified conns => Sys2Proof.Machine.execCrewForm members own verified conns s
  | .cqModerationTimer f q => Sys2Proof.Machine.execCqModerationTimer f q s
  | .cqSpaceReturn f q => Sys2Proof.Machine.execCqSpaceReturn f q s
  | .eventOverflow f q => Sys2Proof.Machine.execEventOverflow f q s
  | .fwLoadGo r value => Sys2Proof.Machine.execFwLoadGo r value s
  | .trainingComplete links fenced failedStacks dimms unsupported => Sys2Proof.Machine.execTrainingComplete links fenced failedStacks dimms unsupported s
  | .coxWatchdogExpiry die c pc => Sys2Proof.Machine.execCoxWatchdogExpiry die c pc s
  | .coxWdtKick r die c => Sys2Proof.Machine.execCoxWdtKick r die c s
  | .coxPanic r die c pc => Sys2Proof.Machine.execCoxPanic r die c pc s
  | .tcmUe die c pc => Sys2Proof.Machine.execTcmUe die c pc s
  | .doubleTrap die c pc => Sys2Proof.Machine.execDoubleTrap die c pc s
  | .coxPoisonLoad die c f q => Sys2Proof.Machine.execCoxPoisonLoad die c f q s
  | .coxJrnlAppend r die c record => Sys2Proof.Machine.execCoxJrnlAppend r die c record s
  | .hostPulse r value => Sys2Proof.Machine.execHostPulse r value s
  | .hostPulseTimeout => Sys2Proof.Machine.execHostPulseTimeout s
  | .detachHoldExpiry failed => Sys2Proof.Machine.execDetachHoldExpiry failed s
  | .pkgAttach r value failed => Sys2Proof.Machine.execPkgAttach r value failed s
  | .belayIncrementSend n q => Sys2Proof.Machine.execBelayIncrementSend n q s
  | .belayIncrementCheck die member q n pkg pitch count fresh base chunks => Sys2Proof.Machine.execBelayIncrementCheck die member q n pkg pitch count fresh base chunks s
  | .copyAcked n q word => Sys2Proof.Machine.execCopyAcked n q word s
  | .belayAckTimeout n q => Sys2Proof.Machine.execBelayAckTimeout n q s
  | .belaySeed q => Sys2Proof.Machine.execBelaySeed q s
  | .copyAckedReport member model pitch prot => Sys2Proof.Machine.execCopyAckedReport member model pitch prot s
  | .stateRestore q acked lines => Sys2Proof.Machine.execStateRestore q acked lines s
  | .crewPulse => Sys2Proof.Machine.execCrewPulse s
  | .crewLossTimeout member connections => Sys2Proof.Machine.execCrewLossTimeout member connections s
  | .fatalMessage member => Sys2Proof.Machine.execFatalMessage member s
  | .memberLost member cause => Sys2Proof.Machine.execMemberLost member cause s
  | .recoveryPitch lost r => Sys2Proof.Machine.execRecoveryPitch lost r s
  | .deviceFatal cause die => Sys2Proof.Machine.execDeviceFatal cause die s
  | .holdRaise r slot kind scope part discard => Sys2Proof.Machine.execHoldRaise r slot kind scope part discard s
  | .holdMessage isl channels => Sys2Proof.Machine.execHoldMessage isl channels s
  | .markerArrive isl chan logged smeared => Sys2Proof.Machine.execMarkerArrive isl chan logged smeared s
  | .cutDone member => Sys2Proof.Machine.execCutDone member s
  | .holdRelease r slot => Sys2Proof.Machine.execHoldRelease r slot s
  | .releaseMessage isl => Sys2Proof.Machine.execReleaseMessage isl s
  | .crewHold raise kind discard => Sys2Proof.Machine.execCrewHold raise kind discard s
  | .belayInEdge ns => Sys2Proof.Machine.execBelayInEdge ns s
  | .cairnEntryRead r p idx => Sys2Proof.Machine.execCairnEntryRead r p idx s
  | .coxTriggerHalt die c => Sys2Proof.Machine.execCoxTriggerHalt die c s
  | .coxDebugResume die c => Sys2Proof.Machine.execCoxDebugResume die c s
  | .telWalk cut => Sys2Proof.Machine.execTelWalk cut s
  | .railGroupUp group => Sys2Proof.Machine.execRailGroupUp group s
  | .pwrokLoss => Sys2Proof.Machine.execPwrokLoss s
  | .pkgWarm r value failed => Sys2Proof.Machine.execPkgWarm r value failed s
  | .powerLimiterTick avg1ms avg100ms => Sys2Proof.Machine.execPowerLimiterTick avg1ms avg100ms s
  | .thermalCapTick isl temp => Sys2Proof.Machine.execThermalCapTick isl temp s
  | .thermalTrip isl temp => Sys2Proof.Machine.execThermalTrip isl temp s
  | .regionGate n quarter => Sys2Proof.Machine.execRegionGate n quarter s
  | .avsCurrentRead n amps => Sys2Proof.Machine.execAvsCurrentRead n amps s
  | .getState => Sys2Proof.Machine.execGetState s
  | .wake => Sys2Proof.Machine.execWake s
  | .mgmtSetPkgId id => Sys2Proof.Machine.execMgmtSetPkgId id s
  | .mgmtWarmReset failed => Sys2Proof.Machine.execMgmtWarmReset failed s
  | .clearTrip => Sys2Proof.Machine.execClearTrip s
  | .vfEnableWrite enable count => Sys2Proof.Machine.execVfEnableWrite enable count s
  | .msixFunctionMaskClear f => Sys2Proof.Machine.execMsixFunctionMaskClear f s
  | .mainRailsRemoved aux => Sys2Proof.Machine.execMainRailsRemoved aux s
  | .pwrokAssert => Sys2Proof.Machine.execPwrokAssert s
  | .sramWrite die c pc => Sys2Proof.Machine.execSramWrite die c pc s
  | .nvmeCompletion c result k => Sys2Proof.Machine.execNvmeCompletion c result k s
  | .idieFault die => Sys2Proof.Machine.execIdieFault die s
  | .regionFault n faults => Sys2Proof.Machine.execRegionFault n faults s
  | .ropeEngineReadmit die st e => Sys2Proof.Machine.execRopeEngineReadmit die st e s
  | .debugLeaseIdle => Sys2Proof.Machine.execDebugLeaseIdle s
  | .l0pWiden => Sys2Proof.Machine.execL0pWiden s

end Sys2Proof.Machine
end

