-- ==== Sys2Proof/Safety.lean ====
section
/-!
DEFINITION. What counts as a safe state and a safe step, and the shapes that statements are written in: how a command completes and what it leaves
as it was.
-/
namespace Sys2Proof.Machine

/-- Between commands the memories are in canonical form and no store is left unperformed. -/
def State.Canonical (s : State) : Prop := s.mem.wf = true ∧ s.dev.wr = []

/-- A step that neither faults nor is refused. -/
def State.steps (s t : State) : Prop := step s = .next t

/-- The command completes: it answers a next state, and that state has a property. -/
def Completes (c : Instr) (s : State) (P : State → Prop) : Prop := ∃ t, exec c s = .next t ∧ P t

/-- Every byte of every memory and the queue of commands are as before. -/
def KeepsMemory (s t : State) : Prop := (∀ a, t.mem.rdByte a = s.mem.rdByte a) ∧ t.pending = s.pending

/-- Every byte of memory outside `n` bytes from `a`, and the queue of commands, are as before. -/
def KeepsOutside (a n : Nat) (s t : State) : Prop :=
  (∀ q, (q < a ∨ a + n ≤ q) → t.mem.rdByte q = s.mem.rdByte q) ∧ t.pending = s.pending

/-- Register fields change at the listed keys only, and nothing else of the machine changes. -/
def FieldsOnly (ks : List Nat) (s t : State) : Prop :=
  t = ⟨s.dev.setCur t.dev.reg.cur, s.mem, s.pending⟩ ∧ ∀ k, k ∉ ks → Tbl.look t.dev.reg.cur k = Tbl.look s.dev.reg.cur k

/-- Nothing outside the register file changes. -/
def RegsOnly (s t : State) : Prop := t = ⟨s.dev.setReg t.dev.reg, s.mem, s.pending⟩

/-- Nothing changes but the register file, what the package sends out, and the pending interrupt vectors. -/
def RegsAndOut (s t : State) : Prop :=
  t = ⟨((s.dev.setReg t.dev.reg).setOut t.dev.out).setMsix t.dev.msix, s.mem, s.pending⟩

/-- Nothing changes but the register file, the cairn rings, what the package sends out, the pending interrupt vectors, the free-value counter and the
records that wait for telemetry: what reporting an error or an event may touch. -/
def ReportsOnly (s t : State) : Prop :=
  t = ⟨(((((s.dev.setReg t.dev.reg).setOut t.dev.out).setMsix t.dev.msix).setRings t.dev.rings).setClk t.dev.clk).setTel t.dev.tel, s.mem, s.pending⟩

/-- A range of memory whose every line reads plainly: none holds the poison mark, its controller injects nothing, and its channel's key is not lost. -/
def Device.cleanRange (d : Device) (a n : Nat) : Prop :=
  ∀ line ∈ linesOf (d.lineOf a) a n, line ∉ d.poison ∧
    ∀ p, d.memPage line = some p → d.fld p Fld.HBMC_INJECT_MODE = 0 ∧ d.keyLost p = false

/-! ### The stroke sequencer -/

/-- The strand holds the issue slot of a tile that issues (R149), and its program counter names an instruction of opcode `op` with selector `x` and, in
two parcels, `imm`, whose encoding is legal there (R171 orders 1 and 2). -/
def State.Due (s : State) (n i st op x imm : Nat) : Prop :=
  s.dev.issues n i = true ∧ (s.dev.tile n i).holder = some st ∧
  s.dev.parcel s.mem n i (s.dev.strand n i st).pc = 256 * op + x ∧ x < 256 ∧ imm < 2 ^ 16 ∧
  (formLen op = 2 → s.dev.parcel s.mem n i ((s.dev.strand n i st).pc + 1) = imm) ∧ (formLen op = 1 → imm = 0) ∧
  parcelsLegal op x imm (s.dev.strand n i st).pc (((s.dev.strand n i st).loops.head?).map LoopLevel.lea) = true

/-- The strand ends its turn as `y`, having retired one instruction; every other strand of the tile and every other tile is as before. -/
def TurnEnds (s t : State) (n i st : Nat) (y : Strand) : Prop :=
  t.dev.strand n i st = y ∧ (∀ k, k ≠ st → t.dev.strand n i k = s.dev.strand n i k) ∧
  t.dev.cntOf (.tile n i) 0 = (s.dev.cntOf (.tile n i) 0 + 1) % 2 ^ 64 ∧ (t.dev.tile n i).last = some st ∧
  ∀ m j, 2048 * m + j ≠ 2048 * n + i → t.dev.tile m j = s.dev.tile m j

/-- The strand after an instruction whose last parcel is `last`: the stall timer returns to zero, the end check of R174 runs, and the program counter
goes where it gives. -/
def Strand.goesOn (x : Strand) (last next : Nat) : Strand :=
  let e := endCheck last next x.loops
  { x with stall := 0, loops := e.1, pc := e.2 % 2 ^ 15 }

/-- An instruction of `len` parcels retires, leaving the strand `x` but for what retiring does. -/
def Retires (s t : State) (n i st len : Nat) (x : Strand) : Prop :=
  TurnEnds s t n i st (x.goesOn ((s.dev.strand n i st).pc + len - 1) ((s.dev.strand n i st).pc + len))

/-- The strand after a loop instruction of two parcels has entered a body of `l` parcels `c` times (R173 step 4). -/
def Strand.entered (x : Strand) (stk : List Cell) (l c : Nat) : Strand :=
  { x with stack := stk, stall := 0, pc := (x.pc + 2) % 2 ^ 15, loops := ⟨x.pc + 2, x.pc + 1 + l, c⟩ :: x.loops }

/-- A generator with a register written: 0 BASE, 1 IDX, 2 STEP, 3 MOD (R184). -/
def AddrGen.loaded (r : AddrGen) (k v : Nat) : AddrGen :=
  match k with
  | 0 => { r with base := v }
  | 1 => { r with idx := v }
  | 2 => { r with step := v }
  | _ => { r with md := v }

/-- BASE and the effective index of a generator with BREV clear (R181), before the sum is taken modulo 2^32. -/
def AddrGen.plainAddr (r : AddrGen) : Nat := r.base + if r.wrap then r.idx % r.m else r.idx

/-- The reversal of an index on the L bits of a generator's modulus (R181). -/
def AddrGen.rev (r : AddrGen) (i : Nat) : Nat := revBits (i % 2 ^ r.l) r.l

/-- The index after the check of R183: once more where its reversal reaches the modulus. -/
def AddrGen.checked (r : AddrGen) (i : Nat) : Nat := if r.m ≤ r.rev i then (i + 1) % 2 ^ r.l else i

/-- The cycles of the slot that the check costs (R183). -/
def AddrGen.cost (r : AddrGen) (i : Nat) : Nat := if r.m ≤ r.rev i then 1 else 0

/-- Nothing changes outside the tiles and the register file. -/
def TilesOnly (s t : State) : Prop := t = ⟨(s.dev.setTiles t.dev.tiles).setReg t.dev.reg, s.mem, s.pending⟩

/-- The command completes as an instruction of `len` parcels that leaves the operand stack as given and the strand otherwise as it was. -/
def LeavesStack (c : Instr) (s : State) (n i st len : Nat) (stk : List Cell) : Prop :=
  Completes c s fun t => Retires s t n i st len { s.dev.strand n i st with stack := stk } ∧ TilesOnly s t

/-- The tile has faulted with a code at a program counter of a strand (R153), and the strand's stack and program counter are as before. -/
def FaultsWith (s t : State) (n i st code pc : Nat) : Prop :=
  t.dev.fld (.tile n i) Fld.TILE_RUN_FAULTED = 1 ∧ t.dev.fld (.tile n i) Fld.TILE_FAULT_VALID = 1 ∧ t.dev.fld (.tile n i) Fld.TILE_FAULT_CODE = code ∧
  t.dev.fld (.tile n i) Fld.TILE_FAULT_PC_PC = pc ∧ (t.dev.strand n i st).stack = (s.dev.strand n i st).stack ∧
  (t.dev.strand n i st).pc = (s.dev.strand n i st).pc ∧ KeepsMemory s t

/-- Every byte of the committed view of the tile's anchor store (R130) and of every memory outside that store is as before. -/
def State.keepsCommitted (s t : State) (n i : Nat) : Prop :=
  (∀ a, a < s.dev.bankSize n i → t.dev.anchorRead t.mem n i 0 a 1 = s.dev.anchorRead s.mem n i 0 a 1) ∧
  KeepsOutside (anchorKey n i 0) 262144 s t

/-- Between s and t the tile has faulted with a code (R153): captured, its queues empty, its region fenced, and the stop of slot 0 raised. -/
def State.tileHasFaulted (s t : State) (n i code : Nat) : Prop :=
  t.dev.fld (.tile n i) Fld.TILE_RUN_FAULTED = 1 ∧ t.dev.fld (.tile n i) Fld.TILE_FAULT_VALID = 1 ∧ t.dev.fld (.tile n i) Fld.TILE_FAULT_CODE = code ∧
  (t.dev.tile n i).arrQ = [] ∧ (t.dev.tile n i).vecQ = [] ∧ (t.dev.tile n i).movQ = [] ∧ t.dev.fld (rgnOf n i) Fld.STATUS_FENCED = 1 ∧
  t.dev.fldI .bly Fld.BLY_HOLD_CTL_ACTIVE 0 = 1 ∧ KeepsMemory s t

/-- The hold of a slot is in force, or a wave for it waits behind another (R578, R584). -/
def State.holdAsked (_s t : State) (slot : Nat) : Prop :=
  slot ∈ t.dev.belay.inForce ∨ ∃ w ∈ t.dev.belay.waves, w.src = slot ∧ w.release = false

/-! ### Queues -/

/-- A completion of a submission queue is answered (R509, R510): it is posted at the completion queue's tail, or held with its twelve bytes and the
common fields while others wait or no slot is free. A completion queue has type 8 (R507), and queues stand in the order of their numbers. -/
def Answers (s t : State) (f sq head : Nat) (body : List Byte) : Prop :=
  ∀ y c, s.dev.queue f sq = some y → s.dev.queue f y.cq = some c → y.cq < 65536 → c.typ = 8 → s.dev.queues.Pairwise (fun a b => a.1 < b.1) →
    if c.held.isEmpty && c.slotFree then ∃ c', t.dev.queue f y.cq = some c' ∧ c'.tail = (c.tail + 1) % c.size ∧ c'.held = []
    else c.held.length < 64 → ∃ c', t.dev.queue f y.cq = some c' ∧ c'.tail = c.tail ∧
      c'.held = c.held ++ [(List.range 12).map (fun k => body.getD k 0) ++ leBytes 2 (sq % 2 ^ 14) ++ leBytes 2 head]

/-- Every byte of memory outside the slot at the tail of the submission queue's completion queue, and the queue of commands, are as before. -/
def SlotOnly (s t : State) (f sq : Nat) : Prop :=
  (∀ a, (∀ y c, s.dev.queue f sq = some y → s.dev.queue f y.cq = some c →
      a < c.base + slotSize c.typ * c.tail ∨ c.base + slotSize c.typ * (c.tail + 1) ≤ a) → t.mem.rdByte a = s.mem.rdByte a) ∧ t.pending = s.pending

/-- The entry is handed over and is the oldest of its queue, of a given type. -/
def State.entryOf (s : State) (f q typ : Nat) (x : Fetched) : Prop := s.dev.oldest f q = some x ∧ s.dev.queueTyp f q = typ ∧ x.func = f ∧ x.queue = q

/-- A compute completion's twelve bytes (R257). -/
def computeBody (cid status value detail : Nat) : List Byte := leBytes 2 cid ++ leBytes 2 status ++ leBytes 4 value ++ leBytes 4 detail

/-- The twelve bytes of a completion that carries CID and STATUS alone. -/
def statusBody (cid status : Nat) : List Byte := leBytes 2 cid ++ leBytes 2 status

/-! ### Vault sessions -/

/-- A session of vault `i` that `r` may start holds a readable request in HBM, which parses as `q` and waits for no import (R442, R443, R446). -/
def State.Request (s : State) (r : Req) (i sn : Nat) (cox : Bool) (q : VReq) : Prop :=
  let a := s.dev.fldI (.kvt i) Fld.KVT_SESS_REQ_ADDR_ADDR sn * 2 ^ 14
  s.dev.present (.kvt i) = true ∧ s.dev.mayAccess r (.kvt i) = true ∧ sn < 16 ∧ Tbl.look (s.dev.vault i).sess sn = none ∧
  s.dev.memKind a = .hbm ∧ s.dev.inMemory a 4096 = true ∧ s.dev.cleanRange a 4096 ∧
  cox = (match r with
    | .cox _ _ => true
    | _ => false) ∧
  q = parseVReq (s.dev.memBytes s.mem a 4096) cox ∧ s.dev.waitsForImport i q = false

/-- The session has ended with a status code: BUSY is 0, STATUS holds the code with APPROVED in bit 15, and no command is in progress in it (R442, R455). -/
def SessionEnds (t : State) (i sn code : Nat) : Prop :=
  t.dev.fldI (.kvt i) Fld.KVT_SESS_CTL_BUSY sn = 0 ∧ t.dev.fldI (.kvt i) Fld.KVT_SESS_CTL_STATUS sn = t.dev.withApproved i code ∧
  Tbl.look (t.dev.vault i).sess sn = none

/-! ### The transport -/

/-- The payload of the next packet of a message, where it can be had at once: none, bytes held by the sender, or clean device memory. -/
def State.payloadIs (s : State) (x : GftMsg) (n : Nat) (p : List Byte) : Prop :=
  match x.src with
  | .none => p = []
  | .held bs => p = (bs.drop x.off).take n
  | .mem a => isHost (a + x.off) = false ∧ s.dev.ddrUndef = [] ∧ s.dev.cleanRange (a + x.off) n ∧
      p = (List.range n).map fun k => s.mem.rdByte (a + x.off + k)

/-- A packet without encryption leaves on path `k` of connection `c` between s and t: one frame is added for that path's port, and it ends in the base
header, extensions, payload and ICV of the packet (R314 to R317). -/
def SendsOn (s t : State) (c : Conn) (k psn gen : Nat) (head ext payload : List Byte) : Prop :=
  ∃ y fr pre, c.paths[k]? = some y ∧ t.dev.tmWait = s.dev.tmWait ++ [fr] ∧ fr.port = y.port ∧ fr.src = 3 ∧
    fr.bytes = pre ++ (head ++ ext ++ payload ++ beBytes 4 (icvOf c.nonce psn gen (head ++ ext ++ payload)))

/-- `x` is the oldest packet of opcode `op` waiting at I-die `i`; its header `h` names connection `id`, which is in use, cached, without encryption and
fed by that sender, and its ICV is right (R317, R318, R320, R327). -/
def State.Arrives (s : State) (i op id : Nat) (c : Conn) (x : RxPkt) (h : GftHdr) : Prop :=
  s.dev.present (.gft i) = true ∧ i < 2 ∧
  ((s.dev.gftDie i).rx.find? fun y => match parseGft y.bytes with
    | some g => decide (g.op = op)
    | none => false) = some x ∧
  parseGft x.bytes = some h ∧ h.conn = id ∧ s.dev.conn id = some c ∧ c.owner = i ∧ c.peer = h.src ∧ c.st = 0 ∧ c.cached = true ∧ c.enc = none ∧
  bit h.flags 4 = false ∧ icvOf c.nonce h.psn (if op = 1 ∨ op = 2 ∨ op = 5 ∨ op = 6 then h.e 8 4 / 2 ^ 24 else 0) h.covered = h.icv

/-- The packet's PSN is in the window, not placed, and nothing of the connection is in the summit hold (R326, R341). -/
def State.newPsn (s : State) (i id : Nat) (c : Conn) (h : GftHdr) : Prop :=
  behindPsn h.psn c.cum = false ∧ ahead h.psn c.cum < (if c.strict then 1 else 2048) ∧ c.placed.contains h.psn = false ∧ ∀ y ∈ (s.dev.gftDie i).hold, y.1 ≠ id

/-- The key that the packet names permits its access (R331). -/
def State.keyAllows (s : State) (op len : Nat) (c : Conn) (h : GftHdr) : Prop :=
  s.dev.keyCheck s.mem (h.e 8 4) (h.e 0 8 % 2 ^ 52) len (permOf op) c.peer = 0

/-- The PSN counts as placed on the connection (R326). -/
def State.hasPlaced (t : State) (id psn : Nat) : Prop :=
  ∃ c, t.dev.conn id = some c ∧ (behindPsn psn c.cum = true ∨ c.placed.contains psn = true)

/-- A range of device memory that reads and writes plainly. -/
def State.plainRange (s : State) (a n : Nat) : Prop :=
  isHost a = false ∧ s.dev.inMemory a n = true ∧ s.dev.cleanRange a n ∧ s.dev.ddrUndef = []

/-- Between s and t exactly the bytes from `a` on have been stored. -/
def StoresAt (s t : State) (a : Nat) (bs : List Byte) : Prop :=
  (∀ k, (h : k < bs.length) → t.mem.rdByte (a + k) = bs[k]) ∧ KeepsOutside a bs.length s t

/-! ### The packet pipeline -/

/-- The frames of a pipeline without one of them. -/
def State.framesBut (s : State) (i : Nat) (f : PipeFrame) : List PipeFrame :=
  (s.dev.pipeDie i).frames.filter fun y => !decide (y.input = f.input ∧ y.seq = f.seq)

/-- Between s and t frame `f` has left pipeline `i` and stands again as `g`, behind the others. -/
def FrameBecomes (s t : State) (i : Nat) (f g : PipeFrame) : Prop := (t.dev.pipeDie i).frames = s.framesBut i f ++ [g]

/-! ### The admin queue -/

/-- The oldest entry of the admin queue, which READY firmware serves, is `x` with opcode `op` (R535). -/
def State.admin (s : State) (op : Nat) (x : Fetched) : Prop :=
  s.dev.oldest 0 0 = some x ∧ s.dev.fwState = 7 ∧ s.dev.dutyUp 0 = true ∧ s.dev.queueTyp 0 0 = 7 ∧ x.opcode = op ∧ s.dev.ddrUndef = [] ∧
  ∀ y, s.dev.queue 0 0 = some y → y.cq < 65536

/-- The same for a command that names a live VF. -/
def State.adminFor (s : State) (op : Nat) (x : Fetched) (f : Nat) : Prop := s.admin op x ∧ x.fn = f ∧ f ≠ 0 ∧ f < 128 ∧ s.dev.funcLive f = true

/-- The admin command has ended with a status and a result (R535). -/
def AdminEnds (s t : State) (x : Fetched) (st : Nat) (r : List Byte) : Prop :=
  Answers s t 0 0 x.head (statusBody (x.num 2 2) st ++ r) ∧ t.pending = s.pending

/-- The next slot of the admin completion queue lies in host memory. -/
def State.adminCqInHost (s : State) : Prop :=
  ∀ y c, s.dev.queue 0 0 = some y → s.dev.queue 0 y.cq = some c → isHost (c.base + slotSize c.typ * c.tail) = true

/-- A VF's pending mailbox request has been answered with a status (R504, R505). -/
def MailboxAnswered (t : State) (n status : Nat) : Prop :=
  t.dev.fld (.mbx n) Fld.VF_MBX_RESP % 2 ^ 16 = status ∧ t.dev.fld (.mbx n) Fld.VF_MBX_CTL_BUSY = 0 ∧ t.dev.fld (.vf n) Fld.VF_STATE_MBX_PENDING = 0

/-! ### Firmware -/

/-- The boot ROMs have taken a firmware image (R461, R521 to R524): a check of an I-die that fails leaves REJECTED; else the image stands in every I-die's
firmware SRAM, every cox core runs, and the handshake with the driver's major version gives TRAINING or REFUSED. -/
def State.imageTaken (s t : State) (img : List Byte) (major : Nat) : Prop :=
  let bytes := img.map BitVec.toNat
  let v := Config.fwRange bytes
  ((s.dev.bootCheck 0 bytes ≠ 0 ∨ (s.dev.hasIdie 1 = true ∧ s.dev.bootCheck 1 bytes ≠ 0)) → t.dev.fwState = 4 ∧ bit (t.dev.fld .pkg Fld.ERR_STAT_BLOCK) 3 = true) ∧
  (s.dev.bootCheck 0 bytes = 0 → (s.dev.hasIdie 1 = true → s.dev.bootCheck 1 bytes = 0) →
    t.dev.fw.sram = s.dev.model.idies.map (fun i => (i, img)) ∧
    (∀ i ∈ s.dev.model.idies, ∀ c, c < 8 → t.dev.fld (.cox i c) Fld.COX_STATE_STATE = 1) ∧
    t.dev.fwState = if v.1 % 256 ≤ major ∧ major ≤ v.2.1 % 256 then 6 else 5)

/-- The held state has been adopted (R540, R541): READY again, no queue stands, no connection is suspended, no partition is parked for the loss and the
hold has ended. -/
def State.adopted (s t : State) : Prop :=
  t.dev.fwState = 7 ∧ t.dev.queues = [] ∧ t.dev.fetched = [] ∧ t.dev.heldW = [] ∧ (∀ id c, t.dev.conn id = some c → c.st ≠ 1) ∧
  t.dev.fld .pkg Fld.PKG_HOST_STATE_DETACHED = 0 ∧ t.dev.fw.pulse = some s.dev.clk.now ∧ t.dev.fw.detach = none ∧ t.dev.link.expired = [] ∧
  t.pending = s.pending

end Sys2Proof.Machine
end

