-- ==== Sys2Proof/WellFormed.lean ====
section
/-!
DEFINITION. Which commands are well formed: every operand that names a unit, a register or a number lies within the range that the spec gives it.
A command whose operands lie in range and name a unit that the part lacks is well formed, and has the effect that the spec gives it there.
-/
namespace Sys2Proof

/-- A requester (R57, R71). -/
def Req.wf : Req → Bool
  | .pf => true
  | .vf n => decide (1 ≤ n ∧ n ≤ 127)
  | .cox i c => decide (i < 2 ∧ c < 8)
  | .debug => true

/-- A page of the address map (R62 to R71). -/
def Page.wf : Page → Bool
  | .tile die inst => decide (die < 8 ∧ inst < 2048)
  | .clu die inst => decide (die < 8 ∧ inst < 128)
  | .rgn die r => decide (die < 8 ∧ r < 16)
  | .tdie die => decide (die < 8)
  | .rope die s => decide (die < 8 ∧ s < 3)
  | .hbmc die s => decide (die < 8 ∧ s < 3)
  | .d2d die e => decide (die < 8 ∧ e < 4)
  | .pcie i => decide (i < 2)
  | .eth i port => decide (i < 2 ∧ port < 4)
  | .gft i => decide (i < 2)
  | .prs i => decide (i < 2)
  | .cls i => decide (i < 2)
  | .pme i => decide (i < 2)
  | .tmg i => decide (i < 2)
  | .cvu i h => decide (i < 2 ∧ h < 2)
  | .cph i => decide (i < 2)
  | .kvt i => decide (i < 2)
  | .nvr i => decide (i < 2)
  | .cox i c => decide (i < 2 ∧ c < 8)
  | .ddr i ch => decide (i < 2 ∧ ch < 8)
  | .pkg => true
  | .bly => true
  | .tel => true
  | .vf n => decide (1 ≤ n ∧ n ≤ 127)
  | .mbx n => decide (1 ≤ n ∧ n ≤ 127)
  | .msix f => decide (f ≤ 127)

/-- A register target (R41, R42, R470): a place of 8, 16, 32 or 64 bits in a page, aligned or not, or a configuration setting of a function. -/
def RegTarget.wf : RegTarget → Bool
  | .page p off width => p.wf && decide (off < 0x8000 ∧ (width = 8 ∨ width = 16 ∨ width = 32 ∨ width = 64))
  | .cfg func _ => decide (func ≤ 127)

/-- A command is well formed. -/
def wellFormed : Instr → Bool
  | .registerWrite r t value => r.wf && t.wf && decide (value < 2 ^ 64)
  | .ctrlHalt r p _ => r.wf && p.wf
  | .haltAtBoundary p => p.wf
  | .cntReset r p => r.wf && p.wf
  | .commitGo r p => r.wf && p.wf
  | .commitCheck p => p.wf
  | .commitApply p => p.wf
  | .generationDrained p => p.wf
  | .errStatClear r p mask => r.wf && p.wf && decide (mask < 2 ^ 64)
  | .irqStatClear r p mask => r.wf && p.wf && decide (mask < 2 ^ 64)
  | .rcRead r p _ => r.wf && p.wf
  | .counterLowRead r p _ _ => r.wf && p.wf
  | .leaseOwnerWrite r p _ word => r.wf && p.wf && decide (word < 2 ^ 64)
  | .leaseBreak r p _ word => r.wf && p.wf && decide (word < 2 ^ 64)
  | .leaseBreakDone p _ => p.wf
  | .memberWindowAccess _ m _ value => decide (m < 64) && decide (value < 2 ^ 64)
  | .memberWindowTimeout _ => true
  | .bar4Access _ _ _ _ _ => true
  | .doorbellWrite f q value => decide (f < 128) && decide (q < 2 ^ 14) && decide (value < 2 ^ 64)
  | .queueEntryFetch f q => decide (f < 128) && decide (q < 2 ^ 14)
  | .waveGo r => r.wf
  | .waveAccept p => p.wf
  | .waveTimeout => true
  | .waveEpochDrained p => p.wf
  | .pllRestart isl => decide (isl < 4096)
  | .regionClockChange n r => decide (n < 8) && decide (r < 16)
  | .corrBeacon => true
  | .corrEcho isl _ _ => decide (isl < 4096)
  | .corrEchoTimeout _ => true
  | .d2dFlitReplay n e => decide (n < 8) && decide (e < 4)
  | .d2dLaneFail n e _ _ => decide (n < 8) && decide (e < 4)
  | .d2dLinkDown n e => decide (n < 8) && decide (e < 4)
  | .regionReinit n r => decide (n < 8) && decide (r < 16)
  | .regionReadmit n r _ _ => decide (n < 8) && decide (r < 16)
  | .tileFault die inst _ _ => decide (die < 8) && decide (inst < 2048)
  | .cbufUe die c addr => decide (die < 8) && decide (c < 128) && decide (addr < 2 ^ 52)
  | .hbmStackLoss n _ => decide (n < 8)
  | .pitchReplay part _ => decide (part < 32)
  | .mmExecute die inst _ _ => decide (die < 8) && decide (inst < 2048)
  | .vecExecute die inst _ => decide (die < 8) && decide (inst < 2048)
  | .moveExecute die inst _ _ => decide (die < 8) && decide (inst < 2048)
  | .tsumExecute die inst _ => decide (die < 8) && decide (inst < 2048)
  | .tmaskExecute die inst _ => decide (die < 8) && decide (inst < 2048)
  | .meshWriteArrive _ _ => true
  | .tokenWriteArrive _ => true
  | .tokenDeliver die inst strand => decide (die < 8) && decide (inst < 2048) && decide (strand < 256)
  | .anchorScrub die inst _ => decide (die < 8) && decide (inst < 2048)
  | .stallTimeout die inst strand => decide (die < 8) && decide (inst < 2048) && decide (strand < 256)
  | .tileMemAccess r die inst _ _ _ value _ => r.wf && decide (die < 8) && decide (inst < 2048) && decide (value < 2 ^ 64)
  | .tileDone die inst => decide (die < 8) && decide (inst < 2048)
  | .tapDeliveryArrive die c _ => decide (die < 8) && decide (c < 128)
  | .tapDeliveryBegin die c _ => decide (die < 8) && decide (c < 128)
  | .granuleValid die c _ g => decide (die < 8) && decide (c < 128) && decide (g < 8)
  | .nop die inst strand => decide (die < 8) && decide (inst < 2048) && decide (strand < 256)
  | .dup die inst strand => decide (die < 8) && decide (inst < 2048) && decide (strand < 256)
  | .drop die inst strand => decide (die < 8) && decide (inst < 2048) && decide (strand < 256)
  | .swap die inst strand => decide (die < 8) && decide (inst < 2048) && decide (strand < 256)
  | .overW die inst strand => decide (die < 8) && decide (inst < 2048) && decide (strand < 256)
  | .rot die inst strand => decide (die < 8) && decide (inst < 2048) && decide (strand < 256)
  | .pick die inst strand => decide (die < 8) && decide (inst < 2048) && decide (strand < 256)
  | .lit die inst strand => decide (die < 8) && decide (inst < 2048) && decide (strand < 256)
  | .lits die inst strand => decide (die < 8) && decide (inst < 2048) && decide (strand < 256)
  | .addW die inst strand => decide (die < 8) && decide (inst < 2048) && decide (strand < 256)
  | .subW die inst strand => decide (die < 8) && decide (inst < 2048) && decide (strand < 256)
  | .mulW die inst strand => decide (die < 8) && decide (inst < 2048) && decide (strand < 256)
  | .andW die inst strand => decide (die < 8) && decide (inst < 2048) && decide (strand < 256)
  | .orW die inst strand => decide (die < 8) && decide (inst < 2048) && decide (strand < 256)
  | .xorW die inst strand => decide (die < 8) && decide (inst < 2048) && decide (strand < 256)
  | .notW die inst strand => decide (die < 8) && decide (inst < 2048) && decide (strand < 256)
  | .shl die inst strand => decide (die < 8) && decide (inst < 2048) && decide (strand < 256)
  | .shr die inst strand => decide (die < 8) && decide (inst < 2048) && decide (strand < 256)
  | .sar die inst strand => decide (die < 8) && decide (inst < 2048) && decide (strand < 256)
  | .eqW die inst strand => decide (die < 8) && decide (inst < 2048) && decide (strand < 256)
  | .ltu die inst strand => decide (die < 8) && decide (inst < 2048) && decide (strand < 256)
  | .lts die inst strand => decide (die < 8) && decide (inst < 2048) && decide (strand < 256)
  | .shli die inst strand => decide (die < 8) && decide (inst < 2048) && decide (strand < 256)
  | .shri die inst strand => decide (die < 8) && decide (inst < 2048) && decide (strand < 256)
  | .adds die inst strand => decide (die < 8) && decide (inst < 2048) && decide (strand < 256)
  | .skipz die inst strand => decide (die < 8) && decide (inst < 2048) && decide (strand < 256)
  | .skipnz die inst strand => decide (die < 8) && decide (inst < 2048) && decide (strand < 256)
  | .lexit die inst strand => decide (die < 8) && decide (inst < 2048) && decide (strand < 256)
  | .lexitnz die inst strand => decide (die < 8) && decide (inst < 2048) && decide (strand < 256)
  | .lcnt die inst strand => decide (die < 8) && decide (inst < 2048) && decide (strand < 256)
  | .endStrand die inst strand => decide (die < 8) && decide (inst < 2048) && decide (strand < 256)
  | .agld die inst strand => decide (die < 8) && decide (inst < 2048) && decide (strand < 256)
  | .agst die inst strand => decide (die < 8) && decide (inst < 2048) && decide (strand < 256)
  | .agmode die inst strand => decide (die < 8) && decide (inst < 2048) && decide (strand < 256)
  | .aga die inst strand => decide (die < 8) && decide (inst < 2048) && decide (strand < 256)
  | .agap die inst strand => decide (die < 8) && decide (inst < 2048) && decide (strand < 256)
  | .agadv die inst strand => decide (die < 8) && decide (inst < 2048) && decide (strand < 256)
  | .issue die inst strand => decide (die < 8) && decide (inst < 2048) && decide (strand < 256)
  | .dpatch die inst strand => decide (die < 8) && decide (inst < 2048) && decide (strand < 256)
  | .dpatchd die inst strand => decide (die < 8) && decide (inst < 2048) && decide (strand < 256)
  | .ldw die inst strand _ => decide (die < 8) && decide (inst < 2048) && decide (strand < 256)
  | .stw die inst strand _ => decide (die < 8) && decide (inst < 2048) && decide (strand < 256)
  | .lbwait die inst strand => decide (die < 8) && decide (inst < 2048) && decide (strand < 256)
  | .lbrel die inst strand => decide (die < 8) && decide (inst < 2048) && decide (strand < 256)
  | .brcld die inst strand => decide (die < 8) && decide (inst < 2048) && decide (strand < 256)
  | .brcst die inst strand => decide (die < 8) && decide (inst < 2048) && decide (strand < 256)
  | .sid die inst strand => decide (die < 8) && decide (inst < 2048) && decide (strand < 256)
  | .pitchNum die inst strand => decide (die < 8) && decide (inst < 2048) && decide (strand < 256)
  | .lit16 die inst strand => decide (die < 8) && decide (inst < 2048) && decide (strand < 256)
  | .lits16 die inst strand => decide (die < 8) && decide (inst < 2048) && decide (strand < 256)
  | .lith die inst strand => decide (die < 8) && decide (inst < 2048) && decide (strand < 256)
  | .addi die inst strand => decide (die < 8) && decide (inst < 2048) && decide (strand < 256)
  | .loopN die inst strand => decide (die < 8) && decide (inst < 2048) && decide (strand < 256)
  | .loopi die inst strand => decide (die < 8) && decide (inst < 2048) && decide (strand < 256)
  | .scopy die inst strand _ => decide (die < 8) && decide (inst < 2048) && decide (strand < 256)
  | .ssplat die inst strand _ => decide (die < 8) && decide (inst < 2048) && decide (strand < 256)
  | .smatch die inst strand _ => decide (die < 8) && decide (inst < 2048) && decide (strand < 256)
  | .stringRunElement die inst strand _ => decide (die < 8) && decide (inst < 2048) && decide (strand < 256)
  | .wait die inst strand => decide (die < 8) && decide (inst < 2048) && decide (strand < 256)
  | .signal die inst strand => decide (die < 8) && decide (inst < 2048) && decide (strand < 256)
  | .signalr die inst strand => decide (die < 8) && decide (inst < 2048) && decide (strand < 256)
  | .issuei die inst strand => decide (die < 8) && decide (inst < 2048) && decide (strand < 256)
  | .ropeDeliver die st e ctx => decide (die < 8) && decide (st < 3) && decide (e < 16) && decide (ctx < 2)
  | .ropeStage die st e ctx => decide (die < 8) && decide (st < 3) && decide (e < 16) && decide (ctx < 2)
  | .ropeSelect die st e ctx => decide (die < 8) && decide (st < 3) && decide (e < 16) && decide (ctx < 2)
  | .ropeSelectPoll die st e ctx _ => decide (die < 8) && decide (st < 3) && decide (e < 16) && decide (ctx < 2)
  | .ropeSelTimeout die st e ctx => decide (die < 8) && decide (st < 3) && decide (e < 16) && decide (ctx < 2)
  | .ropeEnd die st e ctx => decide (die < 8) && decide (st < 3) && decide (e < 16) && decide (ctx < 2)
  | .ropeBlockCheck die st e ctx _ _ _ => decide (die < 8) && decide (st < 3) && decide (e < 16) && decide (ctx < 2)
  | .ropeFault die st e ctx _ => decide (die < 8) && decide (st < 3) && decide (e < 16) && decide (ctx < 2)
  | .ropeListMove die st e => decide (die < 8) && decide (st < 3) && decide (e < 16)
  | .load f q => decide (f < 128) && decide (q < 2 ^ 14)
  | .run f q => decide (f < 128) && decide (q < 2 ^ 14)
  | .stop f q => decide (f < 128) && decide (q < 2 ^ 14)
  | .unload f q => decide (f < 128) && decide (q < 2 ^ 14)
  | .pitchCommit part => decide (part < 32)
  | .regionCommit die r => decide (die < 8) && decide (r < 16)
  | .pitchStart part => decide (part < 32)
  | .hbmRead addr _ _ _ => decide (addr < 2 ^ 52)
  | .hbmWrite addr _ => decide (addr < 2 ^ 52)
  | .hbmScrub die stack _ => decide (die < 8) && decide (stack < 3)
  | .ddrRead addr _ _ _ => decide (addr < 2 ^ 52)
  | .ddrWrite addr _ => decide (addr < 2 ^ 52)
  | .ddrScrub die ch _ => decide (die < 2) && decide (ch < 8)
  | .ddrXtsWrite r die ch value => r.wf && decide (die < 2) && decide (ch < 8) && decide (value < 2 ^ 64)
  | .ddrXtsResume r die ch => r.wf && decide (die < 2) && decide (ch < 8)
  | .portUp die p => decide (die < 2) && decide (p < 4)
  | .portDown die p _ _ => decide (die < 2) && decide (p < 4)
  | .portNarrowed die p => decide (die < 2) && decide (p < 4)
  | .fecWindow die p _ _ => decide (die < 2) && decide (p < 4)
  | .gftWrite f q => decide (f < 128) && decide (q < 2 ^ 14)
  | .gftRead f q => decide (f < 128) && decide (q < 2 ^ 14)
  | .gftSend f q => decide (f < 128) && decide (q < 2 ^ 14)
  | .gftFetchAdd f q => decide (f < 128) && decide (q < 2 ^ 14)
  | .gftCmpSwap f q => decide (f < 128) && decide (q < 2 ^ 14)
  | .gftReduce f q => decide (f < 128) && decide (q < 2 ^ 14)
  | .gftPostRecv f q => decide (f < 128) && decide (q < 2 ^ 14)
  | .gftPacketSend conn => decide (conn < 2 ^ 22)
  | .rxWrite die => decide (die < 2)
  | .rxReadReq die => decide (die < 2)
  | .rxReadResp die => decide (die < 2)
  | .rxSend die => decide (die < 2)
  | .rxFetchAdd die => decide (die < 2)
  | .rxCmpSwap die => decide (die < 2)
  | .rxAtomicResp die => decide (die < 2)
  | .rxReduce die => decide (die < 2)
  | .rxApplied die => decide (die < 2)
  | .rxAck die => decide (die < 2)
  | .rxNak die => decide (die < 2)
  | .rxProbe die => decide (die < 2)
  | .rxProbeReply die => decide (die < 2)
  | .ackDelayExpiry conn => decide (conn < 2 ^ 22)
  | .rtoExpiry conn psn => decide (conn < 2 ^ 22) && decide (psn < 2 ^ 32)
  | .rnrDelayExpiry conn psn => decide (conn < 2 ^ 22) && decide (psn < 2 ^ 32)
  | .busyLimitExpiry conn psn => decide (conn < 2 ^ 22) && decide (psn < 2 ^ 32)
  | .probeTimeout conn _ => decide (conn < 2 ^ 22)
  | .probeInterval conn _ => decide (conn < 2 ^ 22)
  | .contextFetchDone die conn => decide (die < 2) && decide (conn < 2 ^ 22)
  | .connMove conn _ _ => decide (conn < 2 ^ 22)
  | .frameReceive die p _ _ => decide (die < 2) && decide (p < 4)
  | .frameDispatch die => decide (die < 2)
  | .frameParse die _ => decide (die < 2)
  | .frameLookup die _ _ => decide (die < 2)
  | .reorderRelease die _ => decide (die < 2)
  | .reorderTimeout die _ => decide (die < 2)
  | .frameEdit die => decide (die < 2)
  | .pmeScan die => decide (die < 2)
  | .frameDisposition die _ => decide (die < 2)
  | .placementHeaderWrite die _ => decide (die < 2)
  | .clsTblWrite r die _ value => r.wf && decide (die < 2) && decide (value < 2 ^ 64)
  | .clsTblRead r die _ => r.wf && decide (die < 2)
  | .clsFcntRead r die => r.wf && decide (die < 2)
  | .tmEnqueue die => decide (die < 2)
  | .tmAdmitRetry die p q => decide (die < 2) && decide (p < 4) && decide (q < 32)
  | .tmTransmit die p _ => decide (die < 2) && decide (p < 4)
  | .gateEntryChange die p => decide (die < 2) && decide (p < 4)
  | .gateListTakeover die p => decide (die < 2) && decide (p < 4)
  | .ptpStep die p _ => decide (die < 2) && decide (p < 4)
  | .tmSample die => decide (die < 2)
  | .tmgSampDataRead r die => r.wf && decide (die < 2)
  | .ethTx f q => decide (f < 128) && decide (q < 2 ^ 14)
  | .ssdUp p _ _ => decide (p < 8)
  | .ssdLinkDown p _ => decide (p < 8)
  | .ssdMemoryRequest p _ _ _ _ _ => decide (p < 8)
  | .blockRead f q => decide (f < 128) && decide (q < 2 ^ 14)
  | .blockWrite f q => decide (f < 128) && decide (q < 2 ^ 14)
  | .blockFlush f q => decide (f < 128) && decide (q < 2 ^ 14)
  | .blockDeallocate f q => decide (f < 128) && decide (q < 2 ^ 14)
  | .blockStageArrive _ _ _ => true
  | .nvmeTimeout _ => true
  | .cvuJob r die h u _ _ => r.wf && decide (die < 2) && decide (h < 2) && decide (u < 16)
  | .cvuJobDone die h u => decide (die < 2) && decide (h < 2) && decide (u < 16)
  | .importKw r die session => r.wf && decide (die < 2) && decide (session < 16)
  | .importKem r die session => r.wf && decide (die < 2) && decide (session < 16)
  | .erase r die session => r.wf && decide (die < 2) && decide (session < 16)
  | .getPublic r die session => r.wf && decide (die < 2) && decide (session < 16)
  | .attest r die session => r.wf && decide (die < 2) && decide (session < 16)
  | .migrate r die session _ => r.wf && decide (die < 2) && decide (session < 16)
  | .zeroize r die session => r.wf && decide (die < 2) && decide (session < 16)
  | .random r die session => r.wf && decide (die < 2) && decide (session < 16)
  | .extend r die session => r.wf && decide (die < 2) && decide (session < 16)
  | .vendorCmd r die session => r.wf && decide (die < 2) && decide (session < 16)
  | .attachVns _ => true
  | .keySession die _ => decide (die < 2)
  | .vaultAlarm die _ => decide (die < 2)
  | .alarmClear r die mask _ => r.wf && decide (die < 2) && decide (mask < 2 ^ 64)
  | .vaultReinit die _ => decide (die < 2)
  | .drbgReseed die => decide (die < 2)
  | .entropyFail die => decide (die < 2)
  | .drbgRetry die _ => decide (die < 2)
  | .cphJob r die j => r.wf && decide (die < 2) && decide (j < 4)
  | .cphJobDone die j _ => decide (die < 2) && decide (j < 4)
  | .debugChallengeRead die => decide (die < 2)
  | .debugResponse die _ _ _ => decide (die < 2)
  | .debugPortAccess die => decide (die < 2)
  | .fundamentalReset _ _ _ _ _ _ _ _ => true
  | .perstAssert => true
  | .hotReset _ _ _ _ => true
  | .pfFlr => true
  | .vfFlr n => decide (1 ≤ n ∧ n ≤ 127)
  | .flrDrainLimit f => decide (f < 128)
  | .busMasterDisable f => decide (f < 128)
  | .busMasterEnable f => decide (f < 128)
  | .bmeHoldExpiry f => decide (f < 128)
  | .hostCompletion tag _ _ _ => decide (tag < 1024)
  | .completionTimeout tag => decide (tag < 1024)
  | .d3hotEntry => true
  | .d0Entry => true
  | .wakeEvent _ => true
  | .l0pNarrow => true
  | .l1Entry => true
  | .pmeTurnOff => true
  | .crewReset _ => true
  | .bmeClear f => decide (f < 128)
  | .bmeRestore f => decide (f < 128)
  | .hostLost _ => true
  | .hostAdopt => true
  | .crewDstate _ => true
  | .doorbellForward f q value => decide (f < 128) && decide (q < 2 ^ 14) && decide (value < 2 ^ 64)
  | .memberFwDelivery _ _ => true
  | .mailboxGo n => decide (1 ≤ n ∧ n ≤ 127)
  | .vfDeny r n _ => r.wf && decide (1 ≤ n ∧ n ≤ 127)
  | .mbxTimeout n => decide (1 ≤ n ∧ n ≤ 127)
  | .vfTelFreeze n part _ => decide (1 ≤ n ∧ n ≤ 127) && decide (part < 32)
  | .blyPfFreeze value => decide (value < 2 ^ 64)
  | .identify => true
  | .createQueue _ q _ => decide (q < 2 ^ 14)
  | .destroyQueue q => decide (q < 2 ^ 14)
  | .createPartition tag _ _ _ => decide (tag < 32)
  | .destroyPartition tag => decide (tag < 32)
  | .attachPartition tag => decide (tag < 32)
  | .detachPartition tag => decide (tag < 32)
  | .forward _ => true
  | .setMac port addr => decide (port < 8) && decide (addr < 2 ^ 48)
  | .registerMemory _ _ => true
  | .deregisterMemory _ => true
  | .createConn _ id => decide (id < 2 ^ 22)
  | .destroyConn id => decide (id < 2 ^ 22)
  | .setVnsTable _ _ => true
  | .setBivouac die addr _ => decide (die < 2) && decide (addr < 2 ^ 52)
  | .setPkgId _ => true
  | .crewForm _ _ _ _ => true
  | .cqModerationTimer f q => decide (f < 128) && decide (q < 2 ^ 14)
  | .cqSpaceReturn f q => decide (f < 128) && decide (q < 2 ^ 14)
  | .eventOverflow f q => decide (f < 128) && decide (q < 2 ^ 14)
  | .fwLoadGo r value => r.wf && decide (value < 2 ^ 64)
  | .trainingComplete _ _ _ _ _ => true
  | .coxWatchdogExpiry die c _ => decide (die < 2) && decide (c < 8)
  | .coxWdtKick r die c => r.wf && decide (die < 2) && decide (c < 8)
  | .coxPanic r die c _ => r.wf && decide (die < 2) && decide (c < 8)
  | .tcmUe die c _ => decide (die < 2) && decide (c < 8)
  | .doubleTrap die c _ => decide (die < 2) && decide (c < 8)
  | .coxPoisonLoad die c f q => decide (die < 2) && decide (c < 8) && decide (f < 128) && decide (q < 2 ^ 14)
  | .coxJrnlAppend r die c _ => r.wf && decide (die < 2) && decide (c < 8)
  | .hostPulse r value => r.wf && decide (value < 2 ^ 64)
  | .hostPulseTimeout => true
  | .detachHoldExpiry _ => true
  | .pkgAttach r value _ => r.wf && decide (value < 2 ^ 64)
  | .belayIncrementSend n q => decide (n < 8) && decide (q < 32)
  | .belayIncrementCheck die member q n _ pitch _ _ _ _ => decide (die < 2) && decide (member ≤ 64) && decide (q < 32) && decide (n < 8) && decide (pitch < 2 ^ 32)
  | .copyAcked n q _ => decide (n < 8) && decide (q < 32)
  | .belayAckTimeout n q => decide (n < 8) && decide (q < 32)
  | .belaySeed q => decide (q < 32)
  | .copyAckedReport member _ pitch _ => decide (member < 64) && decide (pitch < 2 ^ 32)
  | .stateRestore q _ _ => decide (q < 32)
  | .crewPulse => true
  | .crewLossTimeout member _ => decide (member < 64)
  | .fatalMessage member => decide (member < 64)
  | .memberLost member _ => decide (member < 64)
  | .recoveryPitch lost r => decide (lost < 64) && decide (r < 2 ^ 32)
  | .deviceFatal cause die => decide (1 ≤ cause ∧ cause ≤ 8) && decide (die < 2)
  | .holdRaise r slot kind scope part _ => r.wf && decide (slot < 16) && decide (kind < 2) && decide (scope < 3) && decide (part < 32)
  | .holdMessage isl _ => decide (isl < 4096)
  | .markerArrive isl _ _ _ => decide (isl < 4096)
  | .cutDone _ => true
  | .holdRelease r slot => r.wf && decide (slot < 16)
  | .releaseMessage isl => decide (isl < 4096)
  | .crewHold _ kind _ => decide (kind < 2)
  | .belayInEdge _ => true
  | .cairnEntryRead r p _ => r.wf && p.wf
  | .coxTriggerHalt die c => decide (die < 2) && decide (c < 8)
  | .coxDebugResume die c => decide (die < 2) && decide (c < 8)
  | .telWalk _ => true
  | .railGroupUp _ => true
  | .pwrokLoss => true
  | .pkgWarm r value _ => r.wf && decide (value < 2 ^ 64)
  | .powerLimiterTick _ _ => true
  | .thermalCapTick isl _ => decide (isl < 4096)
  | .thermalTrip isl _ => decide (isl < 4096)
  | .regionGate n quarter => decide (n < 8) && decide (quarter < 4)
  | .avsCurrentRead n _ => decide (n < 8)
  | .getState => true
  | .wake => true
  | .mgmtSetPkgId _ => true
  | .mgmtWarmReset _ => true
  | .clearTrip => true
  | .vfEnableWrite _ _ => true
  | .msixFunctionMaskClear f => decide (f < 128)
  | .mainRailsRemoved _ => true
  | .pwrokAssert => true
  | .sramWrite die c _ => decide (die < 2) && decide (c < 8)
  | .nvmeCompletion _ _ _ => true
  | .idieFault die => decide (die < 2)
  | .regionFault n _ => decide (n < 8)
  | .ropeEngineReadmit die st e => decide (die < 8) && decide (st < 3) && decide (e < 16)
  | .debugLeaseIdle => true
  | .l0pWiden => true

end Sys2Proof
end

