-- ==== Sys2Proof/Certificates/Slice0/Obligations.lean ====
section
/-!
DEFINITION. The statements about the package, for the provers. Each says in its docstring which rules of spec/ it rests on; a clause that rests on a
choice of the model names the log entry. `Completes c s P`: the command answers a next state with the property P.
-/
section

open Sys2Proof Sys2Proof.Machine

/-- A step takes the command at the front of the queue and performs it with the queue's rest (log entry 1). -/
def Obligations.CommandFromQueue : Prop :=
  ∀ (c : Instr) (rest : List Instr) (s : State), step { s with pending := c :: rest } = exec c { s with pending := rest }

/-- The invariant of the memories holds at reset, and memory reads zero there (log entry 3). -/
def Obligations.ResetCanonical : Prop :=
  State.reset.Canonical ∧ State.reset.pending = [] ∧ ∀ a, State.reset.mem.rdByte a = 0

/-- The invariant of the memories is kept by every step from every state, whatever the command. -/
def Obligations.StepKeepsCanonical : Prop :=
  ∀ s t : State, s.Canonical → s.steps t → t.Canonical

/-- Every command but the four memory accesses answers a next state in every state, and none touches the queue. -/
def Obligations.CommandsLeaveTheQueue : Prop :=
  ∀ (c : Instr) (s : State),
    (∃ t, exec c s = .next t ∧ t.pending = s.pending) ∨
    (exec c s = .fault .unmappedAddress ∧
      ((∃ a n v f, c = .hbmRead a n v f) ∨ (∃ a b, c = .hbmWrite a b) ∨ (∃ a n v f, c = .ddrRead a n v f) ∨ (∃ a b, c = .ddrWrite a b)))

/-- An idle step advances package time by one nanosecond (log entry 4). -/
def Obligations.IdleAdvancesTime : Prop :=
  ∀ s : State, s.pending = [] → ∃ t, s.steps t ∧ t.dev.clk.now = s.dev.clk.now + 1 ∧ KeepsMemory s t ∧
    t.dev.tiles = s.dev.tiles ∧ t.dev.queues = s.dev.queues ∧ t.dev.conns = s.dev.conns

/-- CTRL_HALT, HALT_AT_BOUNDARY, CNT_RESET and GENERATION_DRAINED (R49, R50, R55). -/
def Obligations.HaltAndCounterReset : Prop :=
  ∀ (s : State) (r : Req) (p : Page) (v : Nat), s.Canonical → p.typ ≠ 0 →
    (s.dev.mayAccess r p = true →
      Completes (.ctrlHalt r p v) s (fun t =>
        t.dev.fld p Fld.CTRL_HALT = v % 2 ∧ (v % 2 = 0 → t.dev.fld p Fld.STATUS_HALTED = 0) ∧
        (v % 2 = 1 → t.dev.fld p Fld.STATUS_HALTED = s.dev.fld p Fld.STATUS_HALTED) ∧
        FieldsOnly [fkey p Fld.CTRL_HALT 0, fkey p Fld.STATUS_HALTED 0] s t) ∧
      Completes (.cntReset r p) s (fun t =>
        (∀ i, i < 24 → t.dev.cntOf p i = 0) ∧ (∀ k, (k < p.base ∨ p.base + 24 ≤ k) → Tbl.look t.dev.reg.cnt k = Tbl.look s.dev.reg.cnt k) ∧
        t = ⟨s.dev.setReg { s.dev.reg with cnt := t.dev.reg.cnt }, s.mem, s.pending⟩)) ∧
    (s.dev.present p = true →
      (s.dev.fld p Fld.CTRL_HALT = 1 → Completes (.haltAtBoundary p) s (fun t =>
        t.dev.fld p Fld.STATUS_HALTED = 1 ∧ FieldsOnly [fkey p Fld.STATUS_HALTED 0] s t)) ∧
      (s.dev.fld p Fld.CTRL_HALT ≠ 1 → exec (.haltAtBoundary p) s = .next s) ∧
      Completes (.generationDrained p) s (fun t =>
        t.dev.fld p Fld.GEN_OLDEST = s.dev.fld p Fld.GEN_APPLIED % 2 ^ 16 ∧ FieldsOnly [fkey p Fld.GEN_OLDEST 0] s t))

/-- COMMIT_GO (R52). -/
def Obligations.CommitGoCopiesTheShadow : Prop :=
  ∀ (s : State) (r : Req) (p : Page), s.Canonical → p.typ ≠ 0 → s.dev.mayAccess r p = true →
    (s.dev.fld p Fld.COMMIT_BUSY ≠ 1 → Completes (.commitGo r p) s (fun t =>
      t.dev.commitOf p = some ⟨stagedOf p s.dev.reg.cur, false⟩ ∧ t.dev.fld p Fld.COMMIT_BUSY = 1 ∧
      t.dev.fld p Fld.COMMIT_TARGET = (s.dev.fld p Fld.GEN_APPLIED + 1) % 2 ^ 16 ∧ t.dev.fld p Fld.COMMIT_RESULT = 0 ∧ t.dev.fld p Fld.COMMIT_RULE = 0 ∧
      (∀ k, k ∉ [fkey p Fld.COMMIT_BUSY 0, fkey p Fld.COMMIT_TARGET 0, fkey p Fld.COMMIT_RESULT 0, fkey p Fld.COMMIT_RULE 0] →
        Tbl.look t.dev.reg.cur k = Tbl.look s.dev.reg.cur k) ∧
      t = ⟨s.dev.setReg { s.dev.reg with cur := t.dev.reg.cur, commits := t.dev.reg.commits }, s.mem, s.pending⟩)) ∧
    (s.dev.fld p Fld.COMMIT_BUSY = 1 → Completes (.commitGo r p) s (fun t =>
      t.dev.fld p Fld.ERR_STAT_COMMIT_OVERLAP = 1 ∧ t.dev.reg.commits = s.dev.reg.commits ∧ t.dev.reg.applied = s.dev.reg.applied ∧ KeepsMemory s t))

/-- COMMIT_CHECK and COMMIT_APPLY (R53, R54, R55). -/
def Obligations.CommitChecksAndApplies : Prop :=
  ∀ (s : State) (p : Page) (c : Commit), s.Canonical → s.dev.present p = true → s.dev.commitOf p = some c →
    (c.checked = false → (s.dev.checkCopy s.mem p c.copy).1 ≠ 0 → Completes (.commitCheck p) s (fun t =>
      t.dev.fld p Fld.COMMIT_RESULT = 2 ∧ t.dev.fld p Fld.COMMIT_RULE = (s.dev.checkCopy s.mem p c.copy).1 % 2 ^ 8 ∧ t.dev.fld p Fld.COMMIT_BUSY = 0 ∧
      t.dev.commitOf p = none ∧ t.dev.fld p Fld.GEN_APPLIED = s.dev.fld p Fld.GEN_APPLIED ∧ t.dev.reg.applied = s.dev.reg.applied ∧ RegsAndOut s t)) ∧
    (c.checked = false → (s.dev.checkCopy s.mem p c.copy).1 = 0 → Completes (.commitCheck p) s (fun t =>
      t.dev.commitOf p = some ⟨c.copy, true⟩ ∧ t.dev.reg.cur = s.dev.reg.cur ∧ t.dev.reg.applied = s.dev.reg.applied ∧ KeepsMemory s t)) ∧
    (c.checked = true → s.dev.fld p Fld.COMMIT_ARMED ≠ 1 → s.dev.fld p Fld.GEN_OLDEST = s.dev.fld p Fld.GEN_APPLIED → s.dev.awaitsBoundary p = false →
      Completes (.commitApply p) s (fun t =>
        t.dev.fld p Fld.COMMIT_RESULT = 1 ∧ t.dev.fld p Fld.COMMIT_BUSY = 0 ∧ t.dev.commitOf p = none ∧
        t.dev.fld p Fld.GEN_APPLIED = s.dev.fld p Fld.COMMIT_TARGET % 2 ^ 16 ∧
        (∀ k v, (k, v) ∈ c.copy → (∀ w, (k, w) ∈ c.copy → w = v) → Tbl.look t.dev.reg.applied k = some v) ∧ KeepsMemory s t)) ∧
    (c.checked = true → s.dev.fld p Fld.GEN_OLDEST ≠ s.dev.fld p Fld.GEN_APPLIED → exec (.commitApply p) s = .next s)

/-- ERR_STAT_CLEAR and IRQ_STAT_CLEAR (R6, R45, R46). -/
def Obligations.ErrorAndInterruptClears : Prop :=
  ∀ (s : State) (r : Req) (p : Page) (mask : Nat), s.Canonical → p.typ ≠ 0 → s.dev.mayAccess r p = true →
    Completes (.errStatClear r p mask) s (fun t =>
      (∀ fb ∈ [(Fld.ERR_STAT_H_WRITE, 0), (Fld.ERR_STAT_ACCESS, 1), (Fld.ERR_STAT_COMMIT_OVERLAP, 2), (Fld.ERR_STAT_LEASE_STALE, 3)],
        t.dev.fld p fb.1 = if bit mask fb.2 then 0 else s.dev.fld p fb.1) ∧
      (∀ b, b < 16 → s.dev.fld p Fld.ERR_STAT_BLOCK < 2 ^ 16 →
        bit (t.dev.fld p Fld.ERR_STAT_BLOCK) b = (bit (s.dev.fld p Fld.ERR_STAT_BLOCK) b && !bit mask (16 + b))) ∧
      (t.dev.errStat p = 0 → t.dev.fld p Fld.ERR_FIRST_VALID = 0 ∧ t.dev.fld p Fld.ERR_FIRST_CODE = 0) ∧
      (t.dev.errStat p ≠ 0 → t.dev.fld p Fld.ERR_FIRST_VALID = s.dev.fld p Fld.ERR_FIRST_VALID ∧
        t.dev.fld p Fld.ERR_FIRST_CODE = s.dev.fld p Fld.ERR_FIRST_CODE) ∧ RegsOnly s t) ∧
    Completes (.irqStatClear r p mask) s (fun t =>
      (∀ fb ∈ [(Fld.IRQ_STAT_ERR, 0), (Fld.IRQ_STAT_COMMIT_DONE, 1), (Fld.IRQ_STAT_LEASE_ORPHAN, 2)],
        t.dev.fld p fb.1 = if bit mask fb.2 then 0 else s.dev.fld p fb.1) ∧
      (∀ b, b < 16 → s.dev.fld p Fld.IRQ_STAT_BLOCK < 2 ^ 16 →
        bit (t.dev.fld p Fld.IRQ_STAT_BLOCK) b = (bit (s.dev.fld p Fld.IRQ_STAT_BLOCK) b && !bit mask (16 + b))) ∧ RegsOnly s t)

/-- RC_READ, COUNTER_LOW_READ and CAIRN_ENTRY_READ (R6, R41, R48, R50, R591) and REGISTER_WRITE. -/
def Obligations.RegisterReadsAndWrites : Prop :=
  ∀ (s : State) (r : Req) (p : Page) (i off : Nat), s.Canonical → s.dev.mayAccess r p = true → p.typ ≠ 0 →
    Completes (.rcRead r p off) s (fun t => t.dev.out = s.dev.out ++ [.readValue r (s.dev.word r p (off / 4 * 4))] ∧
      (off / 4 = 11 → t.dev.fld p Fld.ERR_CNT = 0) ∧ (off / 4 = 5 → t.dev.fld p Fld.STATUS_COINCIDENT = 0) ∧
      t = ⟨(s.dev.setReg t.dev.reg).setOut t.dev.out, s.mem, s.pending⟩) ∧
    (i < p.counters → ∀ b, Completes (.counterLowRead r p i b) s (fun t =>
      t.dev.out = s.dev.out ++ [.readValue r (s.dev.cntRead p i % 2 ^ 32)] ∧ t.dev.counterHigh r p i = s.dev.cntRead p i / 2 ^ 32 ∧
      (b = true → t.dev.fld p Fld.STATUS_COINCIDENT = 1) ∧
      t = ⟨(s.dev.setReg t.dev.reg).setOut t.dev.out, s.mem, s.pending⟩)) ∧
    (i < p.ringPage.ringSize → ∀ e, Tbl.look (s.dev.ring p).entries i = some e → Completes (.cairnEntryRead r p i) s (fun t =>
      t.dev.out = s.dev.out ++ [.readValue r e.stamp] ∧
      Tbl.look t.dev.reg.latch ((p.ringPage.base + 1) * 512 + r.id) = some (i, e.code + 2 ^ 16 * e.info) ∧
      t = ⟨(s.dev.setReg t.dev.reg).setOut t.dev.out, s.mem, s.pending⟩)) ∧
    (∀ v w, p = .gft i → Completes (.registerWrite r (.page p 0x804 32) v) s (fun t =>
        t.dev.fld p Fld.GFT_RETRY_RETRY_MAX = bits v 0 4 ∧ t.dev.fld p Fld.GFT_RETRY_RNR_MAX = bits v 4 4 ∧ t.dev.fld p Fld.GFT_RETRY_RNR_DELAY_US = bits v 8 10 ∧
        FieldsOnly [fkey p Fld.GFT_RETRY_RETRY_MAX 0, fkey p Fld.GFT_RETRY_RNR_MAX 0, fkey p Fld.GFT_RETRY_RNR_DELAY_US 0] s t) ∧
      (w < 32 → Completes (.registerWrite r (.page p 0x804 w) v) s (fun t => t.dev.fld p Fld.ERR_STAT_ACCESS = 1 ∧
        t.dev.fld p Fld.GFT_RETRY_RETRY_MAX = s.dev.fld p Fld.GFT_RETRY_RETRY_MAX ∧ KeepsMemory s t))) ∧
    (∀ v, p = .eth i off → (s.dev.fld p Fld.STATUS_HALTED = 1 → Completes (.registerWrite r (.page p 0x100 32) v) s (fun t =>
        t.dev.fld p Fld.ETH_MODE_SPEED = bits v 0 2 ∧ t.dev.fld p Fld.ETH_STATE_FAILED = 0 ∧ KeepsMemory s t)) ∧
      (s.dev.fld p Fld.STATUS_HALTED = 0 → Completes (.registerWrite r (.page p 0x100 32) v) s (fun t =>
        t.dev.fld p Fld.ETH_MODE_SPEED = s.dev.fld p Fld.ETH_MODE_SPEED ∧ t.dev.fld p Fld.ERR_STAT_H_WRITE = 1 ∧ KeepsMemory s t)))

/-- LEASE_OWNER_WRITE with the current epoch (R58). -/
def Obligations.LeaseTakeAndRelease : Prop :=
  ∀ (s : State) (r : Req) (p : Page) (i word : Nat), s.Canonical → s.dev.mayAccess r p = true → i < p.leases →
    word / 2 ^ 16 % 2 ^ 16 = s.dev.fldI p Fld.LEASE_OWNER_EPOCH i →
    (s.dev.fldI p Fld.LEASE_STATE_STATE i = 0 → word % 2 ^ 16 ≠ 0 → mayTake p (word % 2 ^ 16) = true →
      Completes (.leaseOwnerWrite r p i word) s (fun t =>
        t.dev.fldI p Fld.LEASE_OWNER_OWNER i = word % 2 ^ 16 ∧ t.dev.fldI p Fld.LEASE_STATE_STATE i = 1 ∧
        t.dev.fldI p Fld.LEASE_OWNER_EPOCH i = (s.dev.fldI p Fld.LEASE_OWNER_EPOCH i + 1) % 2 ^ 16 ∧
        FieldsOnly [fkey p Fld.LEASE_OWNER_OWNER i, fkey p Fld.LEASE_STATE_STATE i, fkey p Fld.LEASE_OWNER_EPOCH i] s t)) ∧
    (s.dev.fldI p Fld.LEASE_STATE_STATE i = 1 → word % 2 ^ 16 = 0 →
      Completes (.leaseOwnerWrite r p i word) s (fun t =>
        t.dev.fldI p Fld.LEASE_OWNER_OWNER i = 0 ∧ t.dev.fldI p Fld.LEASE_STATE_STATE i = 0 ∧
        t.dev.fldI p Fld.LEASE_OWNER_EPOCH i = s.dev.fldI p Fld.LEASE_OWNER_EPOCH i ∧
        FieldsOnly [fkey p Fld.LEASE_OWNER_OWNER i, fkey p Fld.LEASE_STATE_STATE i] s t)) ∧
    ((s.dev.fldI p Fld.LEASE_STATE_STATE i = 0 ∧ word % 2 ^ 16 = 0) ∨ (s.dev.fldI p Fld.LEASE_STATE_STATE i = 1 ∧ word % 2 ^ 16 ≠ 0) ∨
      2 ≤ s.dev.fldI p Fld.LEASE_STATE_STATE i → exec (.leaseOwnerWrite r p i word) s = .next s)

/-- R61: a lease write with a stale epoch. -/
def Obligations.StaleLeaseWrites : Prop :=
  ∀ (s : State) (r : Req) (p : Page) (i word : Nat), s.Canonical → s.dev.mayAccess r p = true → i < p.leases →
    word / 2 ^ 16 % 2 ^ 16 ≠ s.dev.fldI p Fld.LEASE_OWNER_EPOCH i →
    Completes (.leaseOwnerWrite r p i word) s (fun t =>
      t.dev.fld p Fld.ERR_STAT_LEASE_STALE = 1 ∧
      (∀ j, j < p.leases → t.dev.fldI p Fld.LEASE_OWNER_OWNER j = s.dev.fldI p Fld.LEASE_OWNER_OWNER j ∧
        t.dev.fldI p Fld.LEASE_STATE_STATE j = s.dev.fldI p Fld.LEASE_STATE_STATE j ∧
        t.dev.fldI p Fld.LEASE_OWNER_EPOCH j = s.dev.fldI p Fld.LEASE_OWNER_EPOCH j) ∧ ReportsOnly s t)

/-- LEASE_BREAK and LEASE_BREAK_DONE (R60). -/
def Obligations.LeaseBreaks : Prop :=
  ∀ (s : State) (r : Req) (p : Page) (i word : Nat), s.Canonical → i < p.leases → s.dev.present p = true →
    (s.dev.fldI p Fld.LEASE_STATE_STATE i = 3 → Completes (.leaseBreakDone p i) s (fun t =>
      t.dev.fldI p Fld.LEASE_OWNER_OWNER i = s.dev.fldI p Fld.LEASE_BREAK_AGENT i % 2 ^ 16 ∧
      t.dev.fldI p Fld.LEASE_OWNER_EPOCH i = (s.dev.fldI p Fld.LEASE_OWNER_EPOCH i + 1) % 2 ^ 16 ∧ t.dev.fldI p Fld.LEASE_STATE_STATE i = 1 ∧
      FieldsOnly [fkey p Fld.LEASE_OWNER_OWNER i, fkey p Fld.LEASE_STATE_STATE i, fkey p Fld.LEASE_OWNER_EPOCH i] s t)) ∧
    (∀ n, p = .nvr n → s.dev.mayAccess r p = true → s.dev.fldI p Fld.LEASE_STATE_STATE i = 2 →
      word / 2 ^ 16 % 2 ^ 16 = s.dev.fldI p Fld.LEASE_OWNER_EPOCH i → Completes (.leaseBreak r p i word) s (fun t =>
        t.dev.fldI p Fld.LEASE_STATE_STATE i = 3 ∧ t.dev.fldI p Fld.LEASE_BREAK_AGENT i = word % 2 ^ 16 ∧
        FieldsOnly [fkey p Fld.LEASE_STATE_STATE i, fkey p Fld.LEASE_BREAK_AGENT i] s t)) ∧
    (s.dev.mayAccess r p = true → (s.dev.fldI p Fld.LEASE_STATE_STATE i ≠ 2 ∨ word / 2 ^ 16 % 2 ^ 16 ≠ s.dev.fldI p Fld.LEASE_OWNER_EPOCH i) →
      Completes (.leaseBreak r p i word) s (fun t => t.dev.fld p Fld.ERR_STAT_LEASE_STALE = 1 ∧
        t.dev.fldI p Fld.LEASE_STATE_STATE i = s.dev.fldI p Fld.LEASE_STATE_STATE i ∧
        t.dev.fldI p Fld.LEASE_OWNER_OWNER i = s.dev.fldI p Fld.LEASE_OWNER_OWNER i ∧ ReportsOnly s t))

/-- MEMBER_WINDOW_ACCESS and MEMBER_WINDOW_TIMEOUT (R67). -/
def Obligations.MemberWindows : Prop :=
  ∀ (s : State) (w : Bool) (m off v k : Nat), s.Canonical →
    (s.dev.cfg.straps.crewRole = 1 → 1 ≤ m → m < 64 → Completes (.memberWindowAccess w m off v) s (fun t =>
      t.dev.mbr.outstanding = s.dev.mbr.outstanding ++ [⟨s.dev.mbr.nextId, w, m, s.dev.fldI .pkg Fld.PKG_MBR_SEL_SLICE m * 0x200000 + off % 0x200000⟩] ∧
      t.dev.mbr.nextId = s.dev.mbr.nextId + 1 ∧ t.dev.reg.cur = s.dev.reg.cur ∧ KeepsMemory s t)) ∧
    (s.dev.cfg.straps.crewRole ≠ 1 → Completes (.memberWindowAccess false m off v) s (fun t =>
      t.dev.out = s.dev.out ++ [.readValue .pf 0] ∧ t.dev.mbr = s.dev.mbr ∧ KeepsMemory s t) ∧
      exec (.memberWindowAccess true m off v) s = .next s) ∧
    (∀ x, s.dev.mbr.outstanding.find? (fun x => x.id = k) = some x → Completes (.memberWindowTimeout k) s (fun t =>
      t.dev.mbr.outstanding = s.dev.mbr.outstanding.filter (fun y => y.id ≠ k) ∧ (x.write = false → .readValue .pf 0xFFFFFFFF ∈ t.dev.out) ∧
      bit (t.dev.fld .pkg Fld.ERR_STAT_BLOCK) 0 = true ∧ KeepsMemory s t))

/-- WAVE_GO, WAVE_ACCEPT, WAVE_TIMEOUT and WAVE_EPOCH_DRAINED (R70, R90, R93). -/
def Obligations.CommitWave : Prop :=
  ∀ (s : State) (r : Req) (p : Page), s.Canonical → s.dev.mayAccess r .pkg = true →
    (s.dev.fld .pkg Fld.PKG_WAVE_BUSY ≠ 1 → s.dev.armedPages ≠ [] → (∀ q ∈ s.dev.armedPages, s.dev.inFenced q = false) →
      Completes (.waveGo r) s (fun t => t.dev.wave = ⟨s.dev.armedPages, []⟩ ∧ t.dev.fld .pkg Fld.PKG_WAVE_BUSY = 1 ∧ t.dev.fld .pkg Fld.PKG_WAVE_RESULT = 0 ∧
        t = ⟨(s.dev.setReg t.dev.reg).setWave t.dev.wave, s.mem, s.pending⟩)) ∧
    (s.dev.wave.waiting.contains p = true → (∀ q ∈ s.dev.wave.waiting ++ s.dev.wave.accepted, s.dev.inFenced q = false) → s.dev.anyStop = false →
      (∀ c, s.dev.commitOf p = some c → c.checked = true → s.dev.oneGeneration p = true →
        (s.dev.wave.waiting.filter (· ≠ p) ≠ [] → Completes (.waveAccept p) s (fun t =>
          t.dev.wave = ⟨s.dev.wave.waiting.filter (· ≠ p), s.dev.wave.accepted ++ [p]⟩ ∧ t.dev.reg = s.dev.reg ∧ KeepsMemory s t)) ∧
        (s.dev.wave.waiting.filter (· ≠ p) = [] → Completes (.waveAccept p) s (fun t =>
          t.dev.wave = ⟨[], []⟩ ∧ t.dev.fld .pkg Fld.PKG_WAVE_EPOCH = (s.dev.fld .pkg Fld.PKG_WAVE_EPOCH + 1) % 2 ^ 16 ∧
          t.dev.fld .pkg Fld.PKG_WAVE_BUSY = 0 ∧ t.dev.fld .pkg Fld.PKG_WAVE_RESULT = 1 ∧ KeepsMemory s t))) ∧
      (s.dev.commitOf p = none → s.dev.fld p Fld.COMMIT_RESULT = 2 → Completes (.waveAccept p) s (fun t =>
        t.dev.wave = ⟨[], []⟩ ∧ t.dev.fld .pkg Fld.PKG_WAVE_FAIL_ID = p.idReg % 2 ^ 32 ∧ t.dev.fld .pkg Fld.PKG_WAVE_BUSY = 0 ∧
        t.dev.fld .pkg Fld.PKG_WAVE_RESULT = 2 ∧ KeepsMemory s t)) ∧
      (∀ ps, s.dev.wave.waiting = p :: ps → Completes .waveTimeout s (fun t =>
        t.dev.wave = ⟨[], []⟩ ∧ t.dev.fld .pkg Fld.PKG_WAVE_FAIL_ID = p.idReg % 2 ^ 32 ∧ t.dev.fld .pkg Fld.PKG_WAVE_BUSY = 0 ∧
        t.dev.fld .pkg Fld.PKG_WAVE_RESULT = 3 ∧ KeepsMemory s t))) ∧
    (s.dev.anyStop = true → exec (.waveAccept p) s = .next s ∧ exec .waveTimeout s = .next s) ∧
    (s.dev.present p = true → (Tbl.look s.dev.waveEpoch p.base).isSome = true → Completes (.waveEpochDrained p) s (fun t =>
      t.dev.fld p Fld.GEN_OLDEST = s.dev.fld p Fld.GEN_APPLIED % 2 ^ 16 ∧ FieldsOnly [fkey p Fld.GEN_OLDEST 0] s t))

/-- HBM_READ, HBM_WRITE, DDR_READ, DDR_WRITE and BAR4_ACCESS on clean memory (R69, R288, R292, R302). -/
def Obligations.MemoryReadsAndWrites : Prop :=
  ∀ (s : State) (a n : Nat) (bs : List Byte) (mv : Bool), s.Canonical → s.dev.ddrUndef = [] →
    ((s.dev.inMemory a n = true ∧ s.dev.cleanRange a n) →
      (s.dev.memKind a = .hbm → Completes (.hbmRead a n mv []) s (fun t =>
        t.dev.out = s.dev.out ++ [.bytes "memory-read" a ((List.range n).map fun k => s.mem.rdByte (a + k))] ∧ t.dev.reg.cur = s.dev.reg.cur ∧ RegsAndOut s t)) ∧
      (s.dev.memKind a = .ddr → Completes (.ddrRead a n mv []) s (fun t =>
        t.dev.out = s.dev.out ++ [.bytes "memory-read" a ((List.range n).map fun k => s.mem.rdByte (a + k))] ∧ t.dev.reg.cur = s.dev.reg.cur ∧ RegsAndOut s t))) ∧
    ((s.dev.inMemory a bs.length = true ∧ s.dev.cleanRange a bs.length) →
      (s.dev.memKind a = .hbm → Completes (.hbmWrite a bs) s (fun t =>
        (∀ k, (h : k < bs.length) → t.mem.rdByte (a + k) = bs[k]) ∧ KeepsOutside a bs.length s t ∧ t.dev = s.dev.setReg t.dev.reg ∧ t.dev.reg.cur = s.dev.reg.cur)) ∧
      (s.dev.memKind a = .ddr → Completes (.ddrWrite a bs) s (fun t =>
        (∀ k, (h : k < bs.length) → t.mem.rdByte (a + k) = bs[k]) ∧ KeepsOutside a bs.length s t ∧ t.dev = s.dev.setReg t.dev.reg ∧ t.dev.reg.cur = s.dev.reg.cur)) ∧
      (∀ w off, w < 16 → off < 0x200000000 → s.dev.fldI .pkg Fld.PKG_BAR4_WIN_BASE w * 2 ^ 21 + off = a → s.dev.fldI .pkg Fld.PKG_BAR4_WIN_ENABLE w = 1 →
        Completes (.bar4Access true (w * 0x200000000 + off) bs 0 []) s (fun t =>
          (∀ k, (h : k < bs.length) → t.mem.rdByte (a + k) = bs[k]) ∧ KeepsOutside a bs.length s t))) ∧
    (∀ w off, w < 16 → off < 0x200000000 → 0 < n → s.dev.fldI .pkg Fld.PKG_BAR4_WIN_ENABLE w = 0 →
      Completes (.bar4Access false (w * 0x200000000 + off) [] n []) s (fun t =>
        .readValue .pf 0 ∈ t.dev.out ∧ bit (t.dev.fld .pkg Fld.ERR_STAT_BLOCK) 1 = true ∧ KeepsMemory s t)) ∧
    (s.dev.inMemory a n = false → exec (.hbmRead a n mv []) s = .fault .unmappedAddress ∧ exec (.ddrRead a n mv []) s = .fault .unmappedAddress)

/-- Correctable and uncorrectable reads, writes of poisoned lines, HBM_SCRUB and DDR_SCRUB (R291 to R293, R296, R301). -/
def Obligations.LinePoisonAndScrub : Prop :=
  ∀ (s : State) (a n syms : Nat) (bs : List Byte), s.Canonical → s.dev.memKind a = .hbm → a % 256 = 0 →
    (0 < n → n ≤ 256 → a ∉ s.dev.poison → (∀ p, s.dev.memPage a = some p → s.dev.fld p Fld.HBMC_INJECT_MODE = 0) →
      (1 ≤ syms → syms ≤ 3 → Completes (.hbmRead a n false [(a, syms)]) s (fun t =>
        .bytes "memory-read" a ((List.range n).map fun k => s.mem.rdByte (a + k)) ∈ t.dev.out ∧ t.dev.poison = s.dev.poison ∧
        (∀ p, s.dev.memPage a = some p → t.dev.cntOf p 2 = (s.dev.cntOf p 2 + 1) % 2 ^ 64 ∧ t.dev.cntOf p 3 = (s.dev.cntOf p 3 + syms) % 2 ^ 64) ∧ KeepsMemory s t)) ∧
      (4 ≤ syms → Completes (.hbmRead a n false [(a, syms)]) s (fun t =>
        .msg "memory-read-poisoned" a [a] ∈ t.dev.out ∧ a ∈ t.dev.poison ∧
        (∀ p, s.dev.memPage a = some p → t.dev.fld p Fld.HBMC_POISON_ADDR_VALID = 1 ∧ bit (t.dev.fld p Fld.ERR_STAT_BLOCK) 0 = true) ∧ KeepsOutside a 256 s t))) ∧
    (a ∈ s.dev.poison → 0 < bs.length → bs.length < 256 → Completes (.hbmWrite a bs) s (fun t => t.dev.poison = s.dev.poison ∧ KeepsMemory s t)) ∧
    (a ∈ s.dev.poison → bs.length = 256 → Completes (.hbmWrite a bs) s (fun t =>
      (∀ x, x ∈ t.dev.poison ↔ (x ∈ s.dev.poison ∧ x ≠ a)) ∧ (∀ k, (h : k < bs.length) → t.mem.rdByte (a + k) = bs[k]) ∧ KeepsOutside a 256 s t)) ∧
    (∀ d st, s.dev.present (.hbmc d st) = true → s.dev.fld (.hbmc d st) Fld.HBMC_SCRUB_ENABLE = 1 → s.dev.fld (.hbmc d st) Fld.HBMC_STATE_TRAINED = 1 →
      s.dev.fld (.hbmc d st) Fld.HBMC_STATE_SELF_REFRESH = 0 → s.dev.fld (.hbmc d st) Fld.HBMC_INJECT_MODE = 0 → Completes (.hbmScrub d st 0) s (fun t =>
        t.dev.fld (.hbmc d st) Fld.HBMC_SCRUB_POS_LINE = (s.dev.fld (.hbmc d st) Fld.HBMC_SCRUB_POS_LINE + 1) % (s.dev.model.stackGib * 2 ^ 30 / 256) ∧
        t.dev.poison = s.dev.poison ∧ RegsOnly s t)) ∧
    (∀ i c, s.dev.present (.ddr i c) = true → s.dev.fld (.ddr i c) Fld.HBMC_SCRUB_ENABLE = 1 → s.dev.fld (.ddr i c) Fld.DDR_STATE_USED = 1 →
      s.dev.fld (.ddr i c) Fld.DDR_STATE_SELF_REFRESH = 0 → s.dev.fld (.ddr i c) Fld.DDR_STATE_KEY_LOST = 0 → s.dev.fld (.ddr i c) Fld.HBMC_INJECT_MODE = 0 →
      0 < s.dev.tierBytes → Completes (.ddrScrub i c 0) s (fun t =>
        t.dev.fld (.ddr i c) Fld.HBMC_SCRUB_POS_LINE =
          (s.dev.fld (.ddr i c) Fld.HBMC_SCRUB_POS_LINE + 1) % (s.dev.tierBytes / s.dev.tierChannels.length / 64) % 2 ^ Fld.HBMC_SCRUB_POS_LINE.width ∧
        t.dev.poison = s.dev.poison ∧ RegsOnly s t))

/-- DOORBELL_WRITE, DOORBELL_FORWARD, QUEUE_ENTRY_FETCH, CQ_MODERATION_TIMER, CQ_SPACE_RETURN and EVENT_OVERFLOW (R68, R475, R496, R508, R510, R511). -/
def Obligations.QueuesWork : Prop :=
  (∀ (s : State) (f q v : Nat) (x : Queue), s.Canonical → s.dev.queue f q = some x →
      (s.dev.funcLive f = true → (s.dev.cfg.straps.crewRole ≠ 1 ∨ x.member = 0) →
        (x.error = false → v % 2 ^ 24 < x.size → isSq x.typ = true →
          exec (.doorbellWrite f q v) s = .next ⟨s.dev.setQueue f q { x with tail := v % 2 ^ 24 }, s.mem, s.pending⟩) ∧
        (x.error = false → v % 2 ^ 24 < x.size → isSq x.typ = false →
          exec (.doorbellWrite f q v) s = .next ⟨s.dev.setQueue f q { x with head := v % 2 ^ 24 }, s.mem, s.pending⟩) ∧
        (x.error = false → x.size ≤ v % 2 ^ 24 → Completes (.doorbellWrite f q v) s (fun t => ∃ y, t.dev.queue f q = some y ∧ y.error = true ∧ y.head = x.head)) ∧
        (x.error = true → exec (.doorbellWrite f q v) s = .next s)) ∧
      (s.dev.funcLive f = true → s.dev.cfg.straps.crewRole = 1 → x.member ≠ 0 → Completes (.doorbellWrite f q v) s (fun t =>
        t.dev.out = s.dev.out ++ [.msg "doorbell" x.member [f, q, v]] ∧ t.dev.queues = s.dev.queues ∧ KeepsMemory s t)) ∧
      (s.dev.cfg.straps.crewRole = 2 → x.error = false → v % 2 ^ 24 < x.size → isSq x.typ = true →
        exec (.doorbellForward f q v) s = .next ⟨s.dev.setQueue f q { x with tail := v % 2 ^ 24 }, s.mem, s.pending⟩)) ∧
  (∀ (s : State) (f q : Nat) (x : Queue), s.Canonical → s.dev.queue f q = some x → s.dev.mayFetch f q = true → s.dev.ddrUndef = [] →
      (isHost (x.base + entrySize x.typ * x.head) = false → s.dev.cleanRange (x.base + entrySize x.typ * x.head) (entrySize x.typ) →
        Completes (.queueEntryFetch f q) s (fun t =>
          t.dev.fetched = s.dev.fetched ++ [⟨s.dev.nextFetch, f, q, (x.head + 1) % x.size,
            (List.range (entrySize x.typ)).map fun k => s.mem.rdByte (x.base + entrySize x.typ * x.head + k)⟩] ∧
          t.dev.nextFetch = s.dev.nextFetch + 1 ∧ t.dev.queue f q = some { x with head := (x.head + 1) % x.size, stopped := false } ∧ KeepsMemory s t)) ∧
      (isHost (x.base + entrySize x.typ * x.head) = true → s.dev.busMaster f = true → s.dev.hostReads.length < 4096 →
        Completes (.queueEntryFetch f q) s (fun t =>
          (∃ y, t.dev.xfers = s.dev.xfers ++ [y] ∧ y.want = .entry f q ∧ y.len = entrySize x.typ ∧ y.status = 0) ∧
          t.dev.queue f q = some { x with stopped := true } ∧ t.dev.fetched = s.dev.fetched ∧ KeepsMemory s t))) ∧
  (∀ (s : State) (f q : Nat) (x : Queue), s.Canonical → s.dev.queue f q = some x → s.dev.ddrUndef = [] →
      (x.unsig ≠ 0 → Completes (.cqModerationTimer f q) s (fun t =>
        t.dev.queue f q = some { x with unsig := 0 } ∧
        (s.dev.vectorOpen f x.vector = true → t.dev.out = s.dev.out ++
          [.msix f x.vector (s.dev.fldI (.msix f) Fld.MSIX_ADDR x.vector) (s.dev.fldI (.msix f) Fld.MSIX_DATA x.vector)]) ∧
        (s.dev.vectorOpen f x.vector = false → (2048 * f + x.vector) ∈ t.dev.msix.pba ∧ t.dev.out = s.dev.out) ∧ KeepsMemory s t)) ∧
      (∀ bs, x.held = [bs] → x.slotFree = true → Completes (.cqSpaceReturn f q) s (fun t =>
        (∃ y, t.dev.queue f q = some y ∧ y.held = [] ∧ y.tail = (x.tail + 1) % x.size ∧ y.head = x.head) ∧
        KeepsOutside (x.base + slotSize x.typ * x.tail) (slotSize x.typ) s t)) ∧
      (x.typ = 6 → x.dropped ≠ 0 → x.slotFree = true → s.dev.eventQueue f = some q → Completes (.eventOverflow f q) s (fun t =>
        (∃ y, t.dev.queue f q = some y ∧ y.dropped = 0 ∧ y.seq = (x.seq + 1) % 65536 ∧ y.tail = (x.tail + 1) % x.size) ∧
        KeepsOutside (x.base + 32 * x.tail) 32 s t)))


/-- NOP, DUP, DROP, SWAP, OVER, ROT, PICK, LIT, LITS, LIT16, LITS16, LITH, SID, PITCH, BRCLD, BRCST and LCNT (R168, R169). -/
def Obligations.StackAndLiterals : Prop :=
  ∀ (s : State) (n i st x imm : Nat) (a b c : Cell) (rest : List Cell), s.Canonical →
    (s.Due n i st 0x01 0 0 → (s.dev.strand n i st).stack.length ≤ 16 → LeavesStack (.nop n i st) s n i st 1 (s.dev.strand n i st).stack) ∧
    ((s.dev.strand n i st).stack = a :: rest →
      (s.Due n i st 0x02 0 0 → rest.length ≤ 14 → LeavesStack (.dup n i st) s n i st 1 (a :: a :: rest)) ∧
      (s.Due n i st 0x03 0 0 → rest.length ≤ 15 → LeavesStack (.drop n i st) s n i st 1 rest) ∧
      (s.Due n i st 0xC2 0 imm → rest.length ≤ 15 → LeavesStack (.lith n i st) s n i st 2 ((a <<< 16 ||| BitVec.ofNat 64 imm) :: rest)) ∧
      (s.Due n i st 0x51 0 0 → rest.length ≤ 15 → Completes (.brcld n i st) s (fun t =>
        Retires s t n i st 1 { s.dev.strand n i st with stack := rest, brc := a.toNat % 2 ^ 32 } ∧ TilesOnly s t))) ∧
    ((s.dev.strand n i st).stack = b :: a :: rest →
      (s.Due n i st 0x04 0 0 → rest.length ≤ 14 → LeavesStack (.swap n i st) s n i st 1 (a :: b :: rest)) ∧
      (s.Due n i st 0x05 0 0 → rest.length ≤ 13 → LeavesStack (.overW n i st) s n i st 1 (a :: b :: a :: rest))) ∧
    ((s.dev.strand n i st).stack = c :: b :: a :: rest →
      (s.Due n i st 0x06 0 0 → rest.length ≤ 13 → LeavesStack (.rot n i st) s n i st 1 (a :: c :: b :: rest))) ∧
    ((s.dev.strand n i st).stack = rest → rest.length ≤ 15 →
      (s.Due n i st 0x07 x 0 → rest[x]? = some a → LeavesStack (.pick n i st) s n i st 1 (a :: rest)) ∧
      (s.Due n i st 0x08 x 0 → LeavesStack (.lit n i st) s n i st 1 (BitVec.ofNat 64 x :: rest)) ∧
      (s.Due n i st 0x09 x 0 → LeavesStack (.lits n i st) s n i st 1 ((BitVec.ofNat 8 x).signExtend 64 :: rest)) ∧
      (s.Due n i st 0xC0 0 imm → LeavesStack (.lit16 n i st) s n i st 2 (BitVec.ofNat 64 imm :: rest)) ∧
      (s.Due n i st 0xC1 0 imm → LeavesStack (.lits16 n i st) s n i st 2 ((BitVec.ofNat 16 imm).signExtend 64 :: rest)) ∧
      (s.Due n i st 0x60 0 0 → LeavesStack (.sid n i st) s n i st 1 (BitVec.ofNat 64 st :: rest)) ∧
      (s.Due n i st 0x61 0 0 → LeavesStack (.pitchNum n i st) s n i st 1 (BitVec.ofNat 64 (s.dev.fld (.tile n i) Fld.TILE_PITCH_NUM_PITCH) :: rest)) ∧
      (s.Due n i st 0x52 0 0 → LeavesStack (.brcst n i st) s n i st 1 (BitVec.ofNat 64 (s.dev.strand n i st).brc :: rest)) ∧
      (s.Due n i st 0x24 x 0 → (∀ l, (s.dev.strand n i st).loops[x]? = some l → LeavesStack (.lcnt n i st) s n i st 1 (BitVec.ofNat 64 l.lct :: rest)) ∧
        ((s.dev.strand n i st).loops[x]? = none → LeavesStack (.lcnt n i st) s n i st 1 (0 :: rest))))

/-- ADD, SUB, MUL, AND, OR, XOR, NOT, SHL, SHR, SAR, EQ, LTU, LTS, SHLI, SHRI, ADDS and ADDI (R169, R170). -/
def Obligations.StackArithmetic : Prop :=
  ∀ (s : State) (n i st x imm : Nat) (a b : Cell) (rest : List Cell), s.Canonical →
    ((s.dev.strand n i st).stack = b :: a :: rest → rest.length ≤ 14 →
      (s.Due n i st 0x10 0 0 → LeavesStack (.addW n i st) s n i st 1 (BitVec.ofNat 64 (a.toNat + b.toNat) :: rest)) ∧
      (s.Due n i st 0x11 0 0 → LeavesStack (.subW n i st) s n i st 1 (BitVec.ofInt 64 (a.toInt - b.toInt) :: rest)) ∧
      (s.Due n i st 0x12 0 0 → LeavesStack (.mulW n i st) s n i st 1 (BitVec.ofNat 64 (a.toNat * b.toNat) :: rest)) ∧
      (s.Due n i st 0x13 0 0 → LeavesStack (.andW n i st) s n i st 1 ((a &&& b) :: rest)) ∧
      (s.Due n i st 0x14 0 0 → LeavesStack (.orW n i st) s n i st 1 ((a ||| b) :: rest)) ∧
      (s.Due n i st 0x15 0 0 → LeavesStack (.xorW n i st) s n i st 1 ((a ^^^ b) :: rest)) ∧
      (s.Due n i st 0x17 0 0 → LeavesStack (.shl n i st) s n i st 1 (BitVec.ofNat 64 (a.toNat * 2 ^ (b.toNat % 64)) :: rest)) ∧
      (s.Due n i st 0x18 0 0 → LeavesStack (.shr n i st) s n i st 1 (BitVec.ofNat 64 (a.toNat / 2 ^ (b.toNat % 64)) :: rest)) ∧
      (s.Due n i st 0x19 0 0 → LeavesStack (.sar n i st) s n i st 1 (BitVec.ofInt 64 (a.toInt / 2 ^ (b.toNat % 64)) :: rest)) ∧
      (s.Due n i st 0x1A 0 0 → LeavesStack (.eqW n i st) s n i st 1 ((if a = b then 1 else 0) :: rest)) ∧
      (s.Due n i st 0x1B 0 0 → LeavesStack (.ltu n i st) s n i st 1 ((if a.toNat < b.toNat then 1 else 0) :: rest)) ∧
      (s.Due n i st 0x1C 0 0 → LeavesStack (.lts n i st) s n i st 1 ((if a.toInt < b.toInt then 1 else 0) :: rest))) ∧
    ((s.dev.strand n i st).stack = a :: rest → rest.length ≤ 15 →
      (s.Due n i st 0x16 0 0 → LeavesStack (.notW n i st) s n i st 1 ((~~~ a) :: rest)) ∧
      (s.Due n i st 0x1D x 0 → LeavesStack (.shli n i st) s n i st 1 (BitVec.ofNat 64 (a.toNat * 2 ^ x) :: rest)) ∧
      (s.Due n i st 0x1E x 0 → LeavesStack (.shri n i st) s n i st 1 (BitVec.ofNat 64 (a.toNat / 2 ^ x) :: rest)) ∧
      (s.Due n i st 0x1F x 0 → LeavesStack (.adds n i st) s n i st 1 ((a + (BitVec.ofNat 8 x).signExtend 64) :: rest)) ∧
      (s.Due n i st 0xC3 0 imm → LeavesStack (.addi n i st) s n i st 2 ((a + (BitVec.ofNat 16 imm).signExtend 64) :: rest)))

/-- LEXIT and LEXITNZ (R176), with the end check of R174 spelt out. -/
def Obligations.LoopEndsAndExits : Prop :=
  ∀ (s : State) (n i st : Nat) (a : Cell) (rest : List Cell) (l : LoopLevel) (ls : List LoopLevel), s.Canonical →
    (∀ last next, endCheck last next [] = ([], next) ∧ (l.lea ≠ last → endCheck last next (l :: ls) = (l :: ls, next)) ∧
      (l.lea = last → l.lct ≠ 1 → l.lct ≠ 0 → endCheck last next (l :: ls) = ({ l with lct := l.lct - 1 } :: ls, l.lsa)) ∧
      (l.lea = last → l.lct = 1 → endCheck last next (l :: ls) = endCheck last next ls)) ∧
    ((s.dev.strand n i st).loops = l :: ls →
      (s.Due n i st 0x22 0 0 → (s.dev.strand n i st).stack.length ≤ 16 → Completes (.lexit n i st) s (fun t =>
        TurnEnds s t n i st ({ s.dev.strand n i st with loops := ls }.goesOn l.lea (l.lea + 1)) ∧ TilesOnly s t)) ∧
      (s.Due n i st 0x23 0 0 → (s.dev.strand n i st).stack = a :: rest → rest.length ≤ 15 → a ≠ 0 → Completes (.lexitnz n i st) s (fun t =>
        TurnEnds s t n i st ({ s.dev.strand n i st with stack := rest, loops := ls }.goesOn l.lea (l.lea + 1)) ∧ TilesOnly s t)) ∧
      (s.Due n i st 0x23 0 0 → (s.dev.strand n i st).stack = 0 :: rest → rest.length ≤ 15 → LeavesStack (.lexitnz n i st) s n i st 1 rest)) ∧
    ((s.dev.strand n i st).loops = [] →
      (s.Due n i st 0x22 0 0 → (s.dev.strand n i st).stack.length ≤ 16 → Completes (.lexit n i st) s (fun t =>
        FaultsWith s t n i st 0x0101 ((s.dev.strand n i st).pc % 2 ^ 15))) ∧
      (s.Due n i st 0x23 0 0 → (s.dev.strand n i st).stack = a :: rest → rest.length ≤ 15 → Completes (.lexitnz n i st) s (fun t =>
        FaultsWith s t n i st 0x0101 ((s.dev.strand n i st).pc % 2 ^ 15))))

/-- LOOP, LOOPI, SKIPZ, SKIPNZ and END (R173, R177 to R180). -/
def Obligations.LoopsSkipsAndEnd : Prop :=
  ∀ (s : State) (n i st x l : Nat) (a : Cell) (rest : List Cell), s.Canonical →
    (s.Due n i st 0xC8 0 l → (s.dev.strand n i st).stack = a :: rest → rest.length ≤ 15 →
      ((s.dev.strand n i st).loops.length < 4 → a.toNat % 2 ^ 32 ≠ 0 → Completes (.loopN n i st) s (fun t =>
                TurnEnds s t n i st ((s.dev.strand n i st).entered rest l (a.toNat % 2 ^ 32)) ∧ TilesOnly s t)) ∧
      ((s.dev.strand n i st).loops.length < 4 → a.toNat % 2 ^ 32 = 0 → Completes (.loopN n i st) s (fun t =>
        TurnEnds s t n i st ({ s.dev.strand n i st with stack := rest }.goesOn ((s.dev.strand n i st).pc + 1 + l) ((s.dev.strand n i st).pc + 2 + l)) ∧ TilesOnly s t)) ∧
      (4 ≤ (s.dev.strand n i st).loops.length → Completes (.loopN n i st) s (fun t => FaultsWith s t n i st 0x0101 ((s.dev.strand n i st).pc % 2 ^ 15)))) ∧
    (s.Due n i st 0xC9 x l → (s.dev.strand n i st).stack.length ≤ 16 →
      ((s.dev.strand n i st).loops.length < 4 → l ≠ 0 → Completes (.loopi n i st) s (fun t =>
        TurnEnds s t n i st ((s.dev.strand n i st).entered (s.dev.strand n i st).stack x l) ∧ TilesOnly s t)) ∧
      ((s.dev.strand n i st).loops.length < 4 → l = 0 → Completes (.loopi n i st) s (fun t =>
        TurnEnds s t n i st ((s.dev.strand n i st).goesOn ((s.dev.strand n i st).pc + 1 + x) ((s.dev.strand n i st).pc + 2 + x)) ∧ TilesOnly s t))) ∧
    ((s.dev.strand n i st).stack = a :: rest → rest.length ≤ 15 →
      (s.Due n i st 0x20 x 0 → a ≠ 0 → LeavesStack (.skipz n i st) s n i st 1 rest) ∧
      (s.Due n i st 0x21 x 0 → a = 0 → LeavesStack (.skipnz n i st) s n i st 1 rest) ∧
      (∀ e, (s.dev.strand n i st).loops.head?.map LoopLevel.lea ≠ some (s.dev.strand n i st).pc →
        skipWalk (s.dev.parcel s.mem n i) ((s.dev.strand n i st).loops.head?.map LoopLevel.lea) 32769 ((s.dev.strand n i st).pc + 1) [] x = .at e →
        (s.Due n i st 0x20 x 0 → a = 0 → Completes (.skipz n i st) s (fun t =>
          TurnEnds s t n i st { s.dev.strand n i st with stack := rest, stall := 0, pc := e % 2 ^ 15, readyAt := (s.dev.tile n i).slotCycle + 1 + (x - 1) / 8 } ∧ TilesOnly s t)) ∧
        (s.Due n i st 0x21 x 0 → a ≠ 0 → Completes (.skipnz n i st) s (fun t =>
          TurnEnds s t n i st { s.dev.strand n i st with stack := rest, stall := 0, pc := e % 2 ^ 15, readyAt := (s.dev.tile n i).slotCycle + 1 + (x - 1) / 8 } ∧ TilesOnly s t))) ∧
      (∀ c e, (s.Due n i st 0x20 x 0 ∧ a = 0 ∧ c = Instr.skipz n i st ∨ s.Due n i st 0x21 x 0 ∧ a ≠ 0 ∧ c = Instr.skipnz n i st) →
        ((s.dev.strand n i st).loops.head?.map LoopLevel.lea = some (s.dev.strand n i st).pc ∧ e = (s.dev.strand n i st).pc ∨
          (s.dev.strand n i st).loops.head?.map LoopLevel.lea ≠ some (s.dev.strand n i st).pc ∧
          skipWalk (s.dev.parcel s.mem n i) ((s.dev.strand n i st).loops.head?.map LoopLevel.lea) 32769 ((s.dev.strand n i st).pc + 1) [] x = .bodyEnd e →
          Completes c s (fun t => TurnEnds s t n i st ({ s.dev.strand n i st with stack := rest, readyAt := (s.dev.tile n i).slotCycle + 1 + (x - 1) / 8 }.goesOn e (e + 1)) ∧ TilesOnly s t)) ∧
        ((s.dev.strand n i st).loops.head?.map LoopLevel.lea ≠ some (s.dev.strand n i st).pc →
          skipWalk (s.dev.parcel s.mem n i) ((s.dev.strand n i st).loops.head?.map LoopLevel.lea) 32769 ((s.dev.strand n i st).pc + 1) [] x = .bad e →
          Completes c s (fun t => FaultsWith s t n i st 0x0102 (e % 2 ^ 15))))) ∧
    (s.Due n i st 0x2F 0 0 → (s.dev.strand n i st).stack.length ≤ 16 → Completes (.endStrand n i st) s (fun t =>
      TurnEnds s t n i st { s.dev.strand n i st with st := .done, loops := [], stall := 0, pc := ((s.dev.strand n i st).pc + 1) % 2 ^ 15 } ∧ TilesOnly s t))

/-- AGLD, AGST, AGMODE, AGA, AGAP and AGADV (R181 to R184); that an extra cycle of R183 keeps the slot is log entry 40. -/
def Obligations.AddressGeneratorSteps : Prop :=
  ∀ (s : State) (n i st g k : Nat) (a : Cell) (rest : List Cell) (r : AddrGen), s.Canonical → g < 4 → k < 4 → (s.dev.strand n i st).ag[g]? = some r →
    (s.Due n i st 0x30 (4 * k + g) 0 → (s.dev.strand n i st).stack = a :: rest → rest.length ≤ 15 → Completes (.agld n i st) s (fun t =>
      Retires s t n i st 1 { s.dev.strand n i st with stack := rest, ag := (s.dev.strand n i st).ag.set g (r.loaded k (a.toNat % 2 ^ 32)) } ∧ TilesOnly s t)) ∧
    ((s.dev.strand n i st).stack = rest → rest.length ≤ 15 →
      (s.Due n i st 0x31 (4 * k + g) 0 → r.step < 2 ^ 32 → LeavesStack (.agst n i st) s n i st 1
        ((if k = 0 then BitVec.ofNat 64 r.base else if k = 1 then BitVec.ofNat 64 r.idx else if k = 2 then (BitVec.ofNat 32 r.step).signExtend 64
          else BitVec.ofNat 64 r.md) :: rest)) ∧
      (s.Due n i st 0x32 (4 * k + g) 0 → Completes (.agmode n i st) s (fun t =>
        Retires s t n i st 1 { s.dev.strand n i st with ag := (s.dev.strand n i st).ag.set g { r with wrap := bit k 0, brev := bit k 1 } } ∧ TilesOnly s t)) ∧
      (r.brev = false →
        (s.Due n i st 0x33 g 0 → LeavesStack (.aga n i st) s n i st 1
          (BitVec.ofNat 64 (r.plainAddr % 2 ^ 32) :: rest)) ∧
        (∀ j : Nat, (j : Int) = ((r.idx : Int) + (BitVec.ofNat 32 r.step).toInt) % (if r.wrap then (r.m : Int) else 2 ^ 32) → r.step < 2 ^ 32 →
          (s.Due n i st 0x34 g 0 → Completes (.agap n i st) s (fun t => 
            Retires s t n i st 1 { s.dev.strand n i st with stack := BitVec.ofNat 64 (r.plainAddr % 2 ^ 32) :: rest, ag := (s.dev.strand n i st).ag.set g { r with idx := j } } ∧ TilesOnly s t)) ∧
          (s.Due n i st 0x35 g 0 → Completes (.agadv n i st) s (fun t => 
            Retires s t n i st 1 { s.dev.strand n i st with ag := (s.dev.strand n i st).ag.set g { r with idx := j } } ∧ TilesOnly s t)))) ∧
      (r.brev = true →
        (s.Due n i st 0x33 g 0 → Completes (.aga n i st) s (fun t =>
          Retires s t n i st 1 { s.dev.strand n i st with stack := BitVec.ofNat 64 ((r.base + r.rev (r.checked r.idx)) % 2 ^ 32) :: rest, ag := (s.dev.strand n i st).ag.set g { r with idx := r.checked r.idx } } ∧
          (t.dev.tile n i).cycle = (s.dev.tile n i).slotCycle + 1 + r.cost r.idx ∧ TilesOnly s t)) ∧
        (∀ j, j = (r.checked r.idx + 1) % 2 ^ r.l → s.Due n i st 0x34 g 0 → Completes (.agap n i st) s (fun t =>
          Retires s t n i st 1 { s.dev.strand n i st with stack := BitVec.ofNat 64 ((r.base + r.rev (r.checked r.idx)) % 2 ^ 32) :: rest, ag := (s.dev.strand n i st).ag.set g { r with idx := r.checked j } } ∧
          (t.dev.tile n i).cycle = (s.dev.tile n i).slotCycle + 1 + r.cost r.idx + r.cost j ∧ TilesOnly s t)) ∧
        (∀ j, j = (r.idx + 1) % 2 ^ r.l → s.Due n i st 0x35 g 0 → Completes (.agadv n i st) s (fun t =>
          Retires s t n i st 1 { s.dev.strand n i st with ag := (s.dev.strand n i st).ag.set g { r with idx := r.checked j } } ∧
          (t.dev.tile n i).cycle = (s.dev.tile n i).slotCycle + 1 + r.cost j ∧ TilesOnly s t))))

/-- The checks of R171 orders 1 to 3, for every opcode of the table and every effect. -/
def Obligations.InstructionChecks : Prop :=
  ∀ (s : State) (op n i st : Nat) (f : OpInfo) (body : Seq → Did), s.Canonical → opInfo op = some f →
    (s.dev.issues n i = false ∨ (s.dev.tile n i).holder ≠ some st ∨ s.dev.parcel s.mem n i (s.dev.strand n i st).pc / 256 ≠ op →
      seqStep op n i st s body = .next s) ∧
    (s.dev.issues n i = true → (s.dev.tile n i).holder = some st → s.dev.parcel s.mem n i (s.dev.strand n i st).pc / 256 = op →
      ∀ imm, imm = (if f.len = 2 then s.dev.parcel s.mem n i ((s.dev.strand n i st).pc + 1) else 0) →
        (parcelsLegal op (s.dev.parcel s.mem n i (s.dev.strand n i st).pc % 256) imm (s.dev.strand n i st).pc
            ((s.dev.strand n i st).loops.head?.map LoopLevel.lea) = false →
          ∃ t, seqStep op n i st s body = .next t ∧ FaultsWith s t n i st 0x0102 ((s.dev.strand n i st).pc % 2 ^ 15)) ∧
        (parcelsLegal op (s.dev.parcel s.mem n i (s.dev.strand n i st).pc % 256) imm (s.dev.strand n i st).pc
            ((s.dev.strand n i st).loops.head?.map LoopLevel.lea) = true →
          ((s.dev.strand n i st).stack.length < f.pops ∨ 16 < (s.dev.strand n i st).stack.length - f.pops + f.pushes) →
          ∃ t, seqStep op n i st s body = .next t ∧ FaultsWith s t n i st 0x0101 ((s.dev.strand n i st).pc % 2 ^ 15)))

/-- DPATCH and DPATCHD (R191). -/
def Obligations.DescriptorPatches : Prop :=
  ∀ (s : State) (n i st w : Nat) (k v : Cell) (rest : List Cell), s.Canonical → w < 16 →
    ((s.dev.strand n i st).stack = k :: v :: rest → rest.length ≤ 14 → k.toNat < 512 →
      (s.Due n i st 0x41 w 0 → Completes (.dpatch n i st) s (fun t =>
        t.dev.rdN t.mem (tileMem n i + 0x10000 + 64 * k.toNat + 4 * w) 4 = v.toNat % 2 ^ 32 ∧
        KeepsOutside (tileMem n i + 0x10000 + 64 * k.toNat + 4 * w) 4 s t ∧ Retires s t n i st 1 { s.dev.strand n i st with stack := rest })) ∧
      (s.Due n i st 0x42 w 0 → Completes (.dpatchd n i st) s (fun t =>
        t.dev.rdN t.mem (tileMem n i + 0x10000 + 64 * k.toNat + 4 * w) 8 = v.toNat ∧
        KeepsOutside (tileMem n i + 0x10000 + 64 * k.toNat + 4 * w) 8 s t ∧ Retires s t n i st 1 { s.dev.strand n i st with stack := rest }))) ∧
    ((s.dev.strand n i st).stack = k :: v :: rest → rest.length ≤ 14 → 512 ≤ k.toNat →
      (s.Due n i st 0x41 w 0 → Completes (.dpatch n i st) s (fun t => FaultsWith s t n i st 0x0104 ((s.dev.strand n i st).pc % 2 ^ 15))) ∧
      (s.Due n i st 0x42 w 0 → Completes (.dpatchd n i st) s (fun t => FaultsWith s t n i st 0x0104 ((s.dev.strand n i st).pc % 2 ^ 15)))) ∧
    (∀ j imm, encLegal 0x42 (2 * j + 1) imm = false)

/-- ISSUE, ISSUEI, LBWAIT and LBREL (R138, R190, R194). -/
def Obligations.IssueAndBuffers : Prop :=
  ∀ (s : State) (n i st k : Nat) (a : Cell) (rest : List Cell), s.Canonical →
    (∀ words op, words = s.dev.descriptor s.mem n i k → op = (⟨(s.dev.tile n i).nextOp, st, (s.dev.strand n i st).pc, k, words⟩ : TensorOp) → k < 512 →
      (s.dev.descOk s.mem n i words = true →
        (s.Due n i st 0x40 0 0 → (s.dev.strand n i st).stack = a :: rest → rest.length ≤ 15 → a.toNat = k →
          (dOp words = 1 → (s.dev.tile n i).arrQ.length < 8 → Completes (.issue n i st) s (fun t =>
            (t.dev.tile n i).arrQ = (s.dev.tile n i).arrQ ++ [op] ∧ Retires s t n i st 1 { s.dev.strand n i st with stack := rest } ∧ TilesOnly s t)) ∧
          (dOp words = 1 → 8 ≤ (s.dev.tile n i).arrQ.length → Completes (.issue n i st) s (fun t =>
            (t.dev.tile n i).arrQ = (s.dev.tile n i).arrQ ∧
            t.dev.strand n i st = { s.dev.strand n i st with stall := (s.dev.strand n i st).stall + 1 } ∧ TilesOnly s t))) ∧
        (s.Due n i st 0xD8 0 k → (s.dev.strand n i st).stack.length ≤ 16 →
          (dOp words = 3 → (s.dev.tile n i).movQ.length < 8 → Completes (.issuei n i st) s (fun t =>
            (t.dev.tile n i).movQ = (s.dev.tile n i).movQ ++ [op] ∧ Retires s t n i st 2 (s.dev.strand n i st) ∧ TilesOnly s t)) ∧
          (dOp words ≠ 1 → dOp words ≠ 3 → (s.dev.tile n i).vecQ.length < 8 → Completes (.issuei n i st) s (fun t =>
            (t.dev.tile n i).vecQ = (s.dev.tile n i).vecQ ++ [op] ∧ Retires s t n i st 2 (s.dev.strand n i st) ∧ TilesOnly s t)))) ∧
      (s.dev.descOk s.mem n i words = false → s.Due n i st 0xD8 0 k → (s.dev.strand n i st).stack.length ≤ 16 → Completes (.issuei n i st) s (fun t =>
        FaultsWith s t n i st 0x0104 ((s.dev.strand n i st).pc % 2 ^ 15)))) ∧
    (512 ≤ k → s.Due n i st 0xD8 0 k → (s.dev.strand n i st).stack.length ≤ 16 → Completes (.issuei n i st) s (fun t =>
      FaultsWith s t n i st 0x0104 ((s.dev.strand n i st).pc % 2 ^ 15))) ∧
    ((s.dev.strand n i st).stack.length ≤ 16 → k < 2 →
      (s.Due n i st 0x48 k 0 →
        (s.dev.lbState n i k = 2 → Completes (.lbwait n i st) s (fun t => Retires s t n i st 1 (s.dev.strand n i st) ∧ TilesOnly s t)) ∧
        (s.dev.lbState n i k ≠ 2 → Completes (.lbwait n i st) s (fun t =>
          t.dev.strand n i st = { s.dev.strand n i st with st := .waitLb, stall := (s.dev.strand n i st).stall + 1 } ∧ TilesOnly s t))) ∧
      (s.Due n i st 0x49 k 0 →
        (s.dev.lbState n i k ≠ 1 → Completes (.lbrel n i st) s (fun t => t.dev.lbState n i k = 0 ∧ Retires s t n i st 1 (s.dev.strand n i st) ∧ TilesOnly s t)) ∧
        (s.dev.lbState n i k = 1 → Completes (.lbrel n i st) s (fun t => FaultsWith s t n i st 0x0108 ((s.dev.strand n i st).pc % 2 ^ 15)))))

/-- LDW, STW, SCOPY, SSPLAT, SMATCH and STRING_RUN_ELEMENT (R130, R192, R196 to R198). -/
def Obligations.AnchorWordsAndStrings : Prop :=
  ∀ (s : State) (n i st x imm : Nat) (a v : Cell) (rest : List Cell) (ga gb : AddrGen), s.Canonical → (s.dev.tile n i).undef = [] →
    ((s.dev.strand n i st).stack = a :: rest → rest.length ≤ 15 → s.Due n i st 0x44 x 0 → s.dev.anchorOk n i x 8 a.toNat = true →
      Completes (.ldw n i st []) s (fun t =>
        Retires s t n i st 1 { s.dev.strand n i st with stack := BitVec.ofNat 64 (leNat (s.dev.anchorRead s.mem n i x a.toNat 8)) :: rest } ∧ TilesOnly s t)) ∧
    ((s.dev.strand n i st).stack = a :: v :: rest → rest.length ≤ 14 → s.Due n i st 0x45 x 0 → s.dev.anchorOk n i x 8 a.toNat = true →
      Completes (.stw n i st []) s (fun t => t.dev.anchorRead t.mem n i x a.toNat 8 = leBytes 8 v.toNat ∧ s.keepsCommitted t n i ∧
        (t.dev.strand n i st).stack = rest)) ∧
    ((s.dev.strand n i st).ag[imm / 4 % 4]? = some gb → bit imm 4 = false →
      s.dev.anchorOk n i (bits x 4 2) (2 ^ (x % 4)) gb.settle.1.addr = true →
      (s.Due n i st 0xCB x imm → (s.dev.strand n i st).stack = a :: rest → rest.length ≤ 15 → Completes (.ssplat n i st []) s (fun t =>
        t.dev.anchorRead t.mem n i (bits x 4 2) gb.settle.1.addr (2 ^ (x % 4)) = leBytes (2 ^ (x % 4)) a.toNat ∧ s.keepsCommitted t n i ∧
        (t.dev.strand n i st).stack = a :: rest ∧ (t.dev.strand n i st).ag = (s.dev.strand n i st).ag.set (imm / 4 % 4) gb.settle.1.adv.1)) ∧
      ((s.dev.strand n i st).ag[imm % 4]? = some ga → s.dev.anchorOk n i (bits x 2 2) (2 ^ (x % 4)) ga.settle.1.addr = true →
        (s.dev.strand n i st).stack.length ≤ 15 →
        (s.Due n i st 0xCA x imm → Completes (.scopy n i st []) s (fun t =>
          t.dev.anchorRead t.mem n i (bits x 4 2) gb.settle.1.addr (2 ^ (x % 4)) =
            s.dev.anchorRead s.mem n i (bits x 2 2) ga.settle.1.addr (2 ^ (x % 4)) ∧ s.keepsCommitted t n i ∧
          (t.dev.strand n i st).ag = ((s.dev.strand n i st).ag.set (imm % 4) ga.settle.1.adv.1).set (imm / 4 % 4) gb.settle.1.adv.1)) ∧
        (s.Due n i st 0xCC x imm → Completes (.smatch n i st []) s (fun t =>
          (t.dev.strand n i st).stack = (if s.dev.anchorRead s.mem n i (bits x 2 2) ga.settle.1.addr (2 ^ (x % 4)) =
            s.dev.anchorRead s.mem n i (bits x 4 2) gb.settle.1.addr (2 ^ (x % 4)) then 0 else 1) :: (s.dev.strand n i st).stack ∧ TilesOnly s t)))) ∧
    (bit imm 4 = true → (s.dev.strand n i st).stack = a :: rest → rest.length ≤ 14 →
      ((s.dev.strand n i st).brc = 0 → s.Due n i st 0xCC x imm → LeavesStack (.smatch n i st []) s n i st 2 (0 :: a :: rest)) ∧
      ((s.dev.strand n i st).ag[imm / 4 % 4]? = some gb → 2 ≤ (s.dev.strand n i st).brc → (s.dev.strand n i st).pc < 2 ^ 15 →
        s.dev.anchorOk n i (bits x 4 2) (2 ^ (x % 4)) gb.settle.1.addr = true → s.Due n i st 0xCB x imm →
        ∀ c, c = Instr.ssplat n i st [] ∨ c = Instr.stringRunElement n i st [] → Completes c s (fun t =>
          t.dev.anchorRead t.mem n i (bits x 4 2) gb.settle.1.addr (2 ^ (x % 4)) = leBytes (2 ^ (x % 4)) a.toNat ∧
          (t.dev.strand n i st).brc = (s.dev.strand n i st).brc - 1 ∧ (t.dev.strand n i st).pc = (s.dev.strand n i st).pc)))

/-- WAIT, SIGNAL and SIGNALR (R185 to R187). -/
def Obligations.TokenInstructions : Prop :=
  ∀ (s : State) (n i st x c : Nat) (a : Cell) (rest : List Cell), s.Canonical → (s.dev.strand n i st).stack.length ≤ 16 →
    (s.Due n i st 0xD0 x c →
      (c ≤ Tbl.lookD (s.dev.tile n i).chans x 0 → Completes (.wait n i st) s (fun t =>
        Tbl.lookD (t.dev.tile n i).chans x 0 = Tbl.lookD (s.dev.tile n i).chans x 0 - c ∧ Retires s t n i st 2 (s.dev.strand n i st) ∧ TilesOnly s t)) ∧
      (Tbl.lookD (s.dev.tile n i).chans x 0 < c → Completes (.wait n i st) s (fun t => (t.dev.tile n i).chans = (s.dev.tile n i).chans ∧
        t.dev.strand n i st = { s.dev.strand n i st with st := .waitToken, stall := (s.dev.strand n i st).stall + 1 } ∧ TilesOnly s t))) ∧
    (s.Due n i st 0xD1 x c → Completes (.signal n i st) s (fun t =>
      (t.dev.tile n i).sigs = (s.dev.tile n i).sigs ++ (if c = 0 then [] else [⟨st, (s.dev.tile n i).nextOp, n, i, x, c⟩]) ∧
      Retires s t n i st 2 (s.dev.strand n i st) ∧ TilesOnly s t)) ∧
    (s.Due n i st 0xD2 x c → (s.dev.strand n i st).stack = a :: rest →
      (a.toNat < 2 ^ 19 → a.toNat % 65536 < 2048 → s.dev.hasTdie (a.toNat / 65536) = true → Completes (.signalr n i st) s (fun t =>
        (t.dev.tile n i).sigs = (s.dev.tile n i).sigs ++ (if c = 0 then [] else [⟨st, (s.dev.tile n i).nextOp, a.toNat / 65536, a.toNat % 65536, x, c⟩]) ∧
        Retires s t n i st 2 { s.dev.strand n i st with stack := rest } ∧ TilesOnly s t)) ∧
      ((2 ^ 19 ≤ a.toNat ∨ 2048 ≤ a.toNat % 65536 ∨ s.dev.hasTdie (a.toNat / 65536 % 8) = false) → Completes (.signalr n i st) s (fun t =>
        FaultsWith s t n i st 0x0104 ((s.dev.strand n i st).pc % 2 ^ 15))))

/-- MM_EXECUTE, VEC_EXECUTE, TSUM_EXECUTE, TMASK_EXECUTE and MOVE_EXECUTE (R118, R124, R127, R144, R146, R279). -/
def Obligations.TensorOperations : Prop :=
  ∀ (s : State) (n i : Nat) (op : TensorOp) (rest : List TensorOp) (x : List Nat), s.Canonical → s.dev.tileLive n i = true → x = op.words →
    (s.dev.tile n i).strandClear op = true → dRelB x = false →
    ((s.dev.tile n i).arrQ = op :: rest → dOp x = 1 → s.dev.operandBReady n i x = true → Completes (.mmExecute n i [] false) s (fun t =>
      (t.dev.tile n i).arrQ = rest ∧ t.pending = s.pending ∧
      (dM x = 1 → dN x = 1 → dFmtOut x = 0 → dAcc x = false → locSpace (dOut x) = 3 → ∀ fa fb q, fmtElem (dFmtA x) = some fa → fmtElem (dFmtB x) = some fb →
        kSlice (dFmtA x) (dFmtB x) = some q → t.dev.locRead t.mem n i (dOut x) 0 4 = packCodes 0 [(accumulate fa fb (fmtBlock (dFmtA x)) (fmtBlock (dFmtB x)) q (dK x)
          (s.dev.rowCodes s.mem n i (dFmtA x) (dA x) (dAStride x) 0 (dK x)) (s.dev.rowScales s.mem n i (dFmtA x) (dAs x) (dK x) 0)
          (s.dev.rowCodes s.mem n i (dFmtB x) (dB x) (dBStride x) 0 (dK x)) (s.dev.rowScales s.mem n i (dFmtB x) (dBs x) (dK x) 0) 0).1] ∧
        KeepsOutside (plainKey n i (dOut x) 0) 4 s t))) ∧
    ((s.dev.tile n i).vecQ = op :: rest →
      (dOp x = 2 → s.dev.operandBReady n i x = true → Completes (.vecExecute n i []) s (fun t => (t.dev.tile n i).vecQ = rest ∧ t.pending = s.pending ∧
        (dM x = 1 → dFmtOut x = 0 → dVfn x < 0x20 → locSpace (dOut x) = 3 →
          t.dev.locRead t.mem n i (dOut x) 0 (4 * dN x) = packCodes 0 (s.dev.vecRow s.mem n i x 0) ∧ KeepsOutside (plainKey n i (dOut x) 0) (4 * dN x) s t))) ∧
      (dOp x = 4 → Completes (.tsumExecute n i []) s (fun t => (t.dev.tile n i).vecQ = rest ∧ t.pending = s.pending ∧
        (dM x = 1 → dFmtOut x = 0 → locSpace (dOut x) = 3 → t.dev.locRead t.mem n i (dOut x) 0 (4 * dN x) =
          packCodes 0 ((List.range (dN x)).map fun k => add32 ((s.dev.rowFp32 s.mem n i (dFmtA x) (dA x) (dAs x) (dAStride x) 0 (dN x)).getD k 0)
            ((s.dev.rowFp32 s.mem n i (dFmtB x) (dB x) (dBs x) (dBStride x) 0 (dN x)).getD k 0)) ∧ KeepsOutside (plainKey n i (dOut x) 0) (4 * dN x) s t))) ∧
      (dOp x = 5 → Completes (.tmaskExecute n i []) s (fun t => (t.dev.tile n i).vecQ = rest ∧ t.pending = s.pending ∧
        (dM x = 1 → dFmtOut x = 0 → locSpace (dOut x) = 3 → t.dev.locRead t.mem n i (dOut x) 0 (4 * dN x) =
          packCodes 0 ((List.range (dN x)).map fun c =>
            if treeKeeps (ancestors (s.dev.locRead s.mem n i (dB x) 16 64) (leNat (s.dev.locRead s.mem n i (dB x) 4 1))) (leNat (s.dev.locRead s.mem n i (dB x) 0 4))
              (leNat (s.dev.locRead s.mem n i (dB x) 4 1)) (dPart x) (dK x) 0 c then (s.dev.rowCodes s.mem n i 0 (dA x) (dAStride x) 0 (dN x)).getD c 0
            else 0xFF800000) ∧ KeepsOutside (plainKey n i (dOut x) 0) (4 * dN x) s t)))) ∧
    ((s.dev.tile n i).movQ = op :: rest → dOp x = 3 → dDir x = 0 → Completes (.moveExecute n i [] []) s (fun t =>
      (t.dev.tile n i).movQ = rest ∧ t.pending = s.pending ∧
      (dM x = 1 → locSpace (dOut x) = 3 → t.dev.locRead t.mem n i (dOut x) 0 (dN x) = s.dev.locRead s.mem n i (dA x) 0 (dN x) ∧
        KeepsOutside (plainKey n i (dOut x) 0) (dN x) s t)))

/-- MOVE_EXECUTE to a peer, from HBM and to HBM (R144, R147, R186). -/
def Obligations.MovesBeyondTheTile : Prop :=
  ∀ (s : State) (n i : Nat) (op : TensorOp) (rest : List TensorOp) (x : List Nat), s.Canonical → s.dev.tileLive n i = true → x = op.words →
    (s.dev.tile n i).strandClear op = true → dRelB x = false → (s.dev.tile n i).movQ = op :: rest → dOp x = 3 →
    (dDir x = 1 → Completes (.moveExecute n i [] []) s (fun t =>
      (t.dev.tile n i).movQ = rest ∧ (t.dev.tile n i).unacked = (s.dev.tile n i).unacked ++ [(op.id, op.strand, dM x)] ∧
      t.dev.mesh.writes.length = s.dev.mesh.writes.length + dM x ∧ s.dev.mesh.writes <+: t.dev.mesh.writes ∧
      (∀ r, r < dM x → ∃ w ∈ t.dev.mesh.writes, w.die = dPeerDie x ∧ w.inst = dPeerInst x ∧ w.loc = dOut x + r * dOutStride x * 16 ∧
        w.bytes = s.dev.moveRow s.mem n i x r) ∧ KeepsMemory s t)) ∧
    (dDir x = 2 → dM x = 1 → locSpace (dOut x) = 3 → s.dev.memKind (dDevAddr x) = .hbm → s.dev.inMemory (dDevAddr x) (dN x) = true →
      s.dev.cleanRange (dDevAddr x) (dN x) → Completes (.moveExecute n i [] []) s (fun t => (t.dev.tile n i).movQ = rest ∧
        t.dev.locRead t.mem n i (dOut x) 0 (dN x) = (List.range (dN x)).map (fun k => s.mem.rdByte (dDevAddr x + k)) ∧
        KeepsOutside (plainKey n i (dOut x) 0) (dN x) s t)) ∧
    (dDir x = 3 → dM x = 1 → s.dev.memKind (dDevAddr x) = .hbm → s.dev.inMemory (dDevAddr x) (dN x) = true →
      s.dev.cleanRange (dDevAddr x) (dN x) → Completes (.moveExecute n i [] []) s (fun t => (t.dev.tile n i).movQ = rest ∧
        (List.range (dN x)).map (fun k => t.mem.rdByte (dDevAddr x + k)) = s.dev.moveRow s.mem n i x 0 ∧ KeepsOutside (dDevAddr x) (dN x) s t))

/-- TILE_FAULT, STALL_TIMEOUT, ANCHOR_SCRUB of an uncorrectable error and CBUF_UE (R23, R136, R151 to R153, R160). -/
def Obligations.TileFaultsFence : Prop :=
  ∀ (s : State) (n i code st : Nat), s.Canonical → s.dev.present (.tile n i) = true →
    (s.dev.fld (.tile n i) Fld.TILE_RUN_FAULTED ≠ 1 → 0x0101 ≤ code → code ≤ 0x010A →
      Completes (.tileFault n i code (some st)) s (fun t => s.tileHasFaulted t n i code ∧ t.dev.fld (.tile n i) Fld.TILE_FAULT_STRAND = st % 256 ∧
        t.dev.fld (.tile n i) Fld.TILE_FAULT_NOSTRAND = 0) ∧
      Completes (.tileFault n i code none) s (fun t => s.tileHasFaulted t n i code ∧ t.dev.fld (.tile n i) Fld.TILE_FAULT_NOSTRAND = 1)) ∧
    (s.dev.fld (.tile n i) Fld.TILE_RUN_FAULTED = 1 → 0x0101 ≤ code → code ≤ 0x010A → Completes (.tileFault n i code none) s (fun t => t = s)) ∧
    (s.dev.tileLive n i = true →
      (s.dev.fld (.tile n i) Fld.TILE_SCRUB_ENABLE = 1 → s.dev.committedWord n i (0x40000 + 8 * ((s.dev.tile n i).scrub % 32768)) = true →
        Completes (.anchorScrub n i (some true)) s (fun t => s.tileHasFaulted t n i 0x0106)) ∧
      (s.dev.fld (.tile n i) Fld.TILE_SCRUB_ENABLE = 1 → Completes (.anchorScrub n i none) s (fun t =>
        (t.dev.tile n i).scrub = ((s.dev.tile n i).scrub % 32768 + 1) % 32768 ∧ t.dev.reg = s.dev.reg ∧ KeepsMemory s t)) ∧
      (∀ x, Tbl.look (s.dev.tile n i).strands st = some x → s.dev.fld (.tile n i) Fld.TILE_RUN_RUNNING = 1 → s.dev.fld (.tile n i) Fld.STATUS_HALTED ≠ 1 →
        x.st ≠ .idle → x.st ≠ .done → Completes (.stallTimeout n i st) s (fun t => s.tileHasFaulted t n i 0x0103))) ∧
    (∀ c a, s.dev.present (.clu n c) = true → Completes (.cbufUe n c a) s (fun t =>
      t.dev.fld (.rgn n (c / 8)) Fld.STATUS_FENCED = 1 ∧ bit (t.dev.fld (.clu n c) Fld.ERR_STAT_BLOCK) 0 = true ∧
      t.dev.fldI .bly Fld.BLY_HOLD_CTL_ACTIVE 0 = 1 ∧ KeepsMemory s t))

/-- TILE_MEM_ACCESS and TILE_DONE (R50, R150, R155, R156, R266). -/
def Obligations.TileWindowAndDone : Prop :=
  ∀ (s : State) (r : Req) (n i v a : Nat), s.Canonical → s.dev.mayAccess r (.tile n i) = true → a = 8 * s.dev.fld (.tile n i) Fld.TILE_MEM_ADDR_WORD →
    (a + 8 ≤ 0x18000 →
      (s.dev.fld (.tile n i) Fld.STATUS_HALTED = 1 → Completes (.tileMemAccess r n i true 64 false v none) s (fun t =>
        t.dev.rdN t.mem (tileMem n i + a) 8 = v % 2 ^ 64 ∧ KeepsOutside (tileMem n i + a) 8 s t ∧
        (s.dev.fld (.tile n i) Fld.TILE_MEM_ADDR_AUTO_INC = 1 → t.dev.fld (.tile n i) Fld.TILE_MEM_ADDR_WORD =
          (s.dev.fld (.tile n i) Fld.TILE_MEM_ADDR_WORD + 1) % 2 ^ Fld.TILE_MEM_ADDR_WORD.width))) ∧
      Completes (.tileMemAccess r n i false 64 false v none) s (fun t =>
        .readValue r (s.dev.rdN s.mem (tileMem n i + a) 8) ∈ t.dev.out ∧ t.dev.tiles = s.dev.tiles ∧ KeepsMemory s t)) ∧
    (s.dev.fld (.tile n i) Fld.STATUS_HALTED ≠ 1 → Completes (.tileMemAccess r n i true 64 false v none) s (fun t =>
      t.dev.fld (.tile n i) Fld.ERR_STAT_H_WRITE = 1 ∧ KeepsMemory s t)) ∧
    (s.dev.tileLive n i = true → s.dev.fld (.tile n i) Fld.TILE_RUN_RUNNING = 1 → s.dev.fld (.tile n i) Fld.TILE_RUN_DONE ≠ 1 →
      (s.dev.tile n i).finished = true → Completes (.tileDone n i) s (fun t => t.dev.fld (.tile n i) Fld.TILE_RUN_DONE = 1 ∧ t.dev.tiles = s.dev.tiles ∧
        (∀ q x, s.dev.regionPart n (i / 128) = some q → Tbl.look s.dev.parts q = some x → s.dev.fld (rgnOf n i) Fld.RGN_STATE_STATE = 1 →
          (s.dev.put (.tile n i) Fld.TILE_RUN_DONE 1).regionTilesDone n (i / 128) = true →
          t.dev.fld (rgnOf n i) Fld.RGN_STATE_STATE = 2 ∧
          (Tbl.look t.dev.parts q).map Partition.doneRegions = some (insSet (16 * n + i / 128) x.doneRegions)) ∧ KeepsMemory s t))

/-- MESH_WRITE_ARRIVE, TOKEN_WRITE_ARRIVE and TOKEN_DELIVER (R147, R185 to R189). -/
def Obligations.MeshAndTokens : Prop :=
  ∀ (s : State) (k : Nat), s.Canonical →
    (∀ w, s.dev.mesh.writes.find? (fun w => w.id = k) = some w → s.dev.stopped (tileIsland w.die w.inst) = false →
      (s.dev.mesh.writes.any fun v => decide (v.id < k ∧ v.srcDie = w.srcDie ∧ v.srcInst = w.srcInst ∧ v.die = w.die ∧ v.inst = w.inst)) = false →
      (w.cbuf = true → s.dev.tilePart w.die w.inst ≠ none → s.dev.tilePart w.die w.inst = s.dev.tilePart w.srcDie w.srcInst →
        Completes (.meshWriteArrive k []) s (fun t => t.dev.rd t.mem (cbufMem w.die (w.inst / 16) + locAddr w.loc) w.bytes.length = w.bytes ∧
          KeepsOutside (cbufMem w.die (w.inst / 16) + locAddr w.loc) w.bytes.length s t ∧ t.dev.mesh.writes = s.dev.mesh.writes.filter (fun v => v.id ≠ k))) ∧
      (s.dev.present (.tile w.die w.inst) = true → s.dev.tilePart w.die w.inst ≠ s.dev.tilePart w.srcDie w.srcInst →
        Completes (.meshWriteArrive k []) s (fun t =>
          t.dev.cntOf (.tile w.die w.inst) 7 = (s.dev.cntOf (.tile w.die w.inst) 7 + 1) % 2 ^ 64 ∧
          t.dev.mesh.writes = s.dev.mesh.writes.filter (fun v => v.id ≠ k) ∧ KeepsMemory s t))) ∧
    (∀ w, s.dev.mesh.tokens.find? (fun w => w.id = k) = some w → s.dev.stopped (tileIsland w.die w.inst) = false → s.dev.tilePart w.die w.inst ≠ none →
      s.dev.tilePart w.die w.inst = w.srcPart →
      (s.dev.tagFit w.die w.inst w.pitch w.attempt = .equal → Completes (.tokenWriteArrive k) s (fun t =>
        Tbl.lookD (t.dev.tile w.die w.inst).chans w.chan 0 = min (Tbl.lookD (s.dev.tile w.die w.inst).chans w.chan 0 + w.count) 65535 ∧
        t.dev.mesh.tokens = s.dev.mesh.tokens.filter (fun v => v.id ≠ k) ∧ KeepsMemory s t)) ∧
      (s.dev.tagFit w.die w.inst w.pitch w.attempt = .early → (s.dev.heldTokens w.die (w.inst / 128)).length < 64 → Completes (.tokenWriteArrive k) s (fun t =>
        t.dev.heldTokens w.die (w.inst / 128) = s.dev.heldTokens w.die (w.inst / 128) ++ [w] ∧ t.dev.tiles = s.dev.tiles ∧ KeepsMemory s t)) ∧
      (s.dev.tagFit w.die w.inst w.pitch w.attempt = .stale → Completes (.tokenWriteArrive k) s (fun t =>
        t.dev.mesh.tokens = s.dev.mesh.tokens.filter (fun v => v.id ≠ k) ∧ t.dev.tiles = s.dev.tiles ∧ KeepsMemory s t))) ∧
    (∀ n i st g, (s.dev.tile n i).sigs.find? (fun g => g.strand = st) = some g → s.dev.tileLive n i = true → (s.dev.tile n i).opsDone st g.after = true →
      (g.die = n → g.inst = i → Completes (.tokenDeliver n i st) s (fun t => (t.dev.tile n i).sigs = (s.dev.tile n i).sigs.erase g ∧
        Tbl.lookD (t.dev.tile n i).chans g.chan 0 = min (Tbl.lookD (s.dev.tile n i).chans g.chan 0 + g.count) 65535 ∧ KeepsMemory s t)) ∧
      ((g.die ≠ n ∨ g.inst ≠ i) → g.count ≠ 0 → Completes (.tokenDeliver n i st) s (fun t => (t.dev.tile n i).sigs = (s.dev.tile n i).sigs.erase g ∧
        t.dev.mesh.tokens = s.dev.mesh.tokens ++ [⟨s.dev.mesh.nextId, s.dev.tilePart n i, g.die, g.inst, g.chan, g.count, s.dev.tilePitch n i, s.dev.tileAttempt n i, 0⟩] ∧
        KeepsMemory s t)))

/-- HOLD_RAISE, CREW_HOLD, BELAY_IN_EDGE, VF_TEL_FREEZE and BLY_PF_FREEZE (R518, R577, R578, R586, R588, R596, R601). -/
def Obligations.HoldsAndFreezesAreRaised : Prop :=
  (∀ (s : State) (r : Req) (slot kind scope part ns : Nat) (dis : Bool), s.Canonical →
      (s.dev.mayAccess r .bly = true → (if r = .debug then slot = 5 else 6 ≤ slot ∧ slot < 16) →
        (s.dev.fldI .bly Fld.BLY_HOLD_CTL_ACTIVE slot = 0 → scope < 2 → Completes (.holdRaise r slot kind scope part dis) s (fun t =>
          t.dev.fldI .bly Fld.BLY_HOLD_CTL_ACTIVE slot = 1 ∧ t.dev.fldI .bly Fld.BLY_HOLD_CTL_KIND slot = kind % 2 ∧
          t.dev.fldI .bly Fld.BLY_HOLD_CTL_SCOPE slot = scope ∧ s.holdAsked t slot ∧ KeepsMemory s t)) ∧
        (s.dev.fldI .bly Fld.BLY_HOLD_CTL_ACTIVE slot = 0 → scope = 2 → r ≠ .debug → s.dev.crewMembers ≠ [] → s.dev.cfg.straps.crewRole ≠ 1 →
          Completes (.holdRaise r slot kind scope part dis) s (fun t => t.dev.fldI .bly Fld.BLY_HOLD_CTL_ACTIVE slot = 1 ∧
            Tbl.look t.dev.belay.crewWait slot = some s.dev.crewMembers ∧ t.dev.out = s.dev.out ++ [.msg "crew-hold" 0 [kind % 2, b2n dis]] ∧ KeepsMemory s t)) ∧
        (s.dev.fldI .bly Fld.BLY_HOLD_CTL_ACTIVE slot = 1 → s.dev.fldI .bly Fld.BLY_HOLD_CTL_KIND slot ≠ kind % 2 →
          Completes (.holdRaise r slot kind scope part dis) s (fun t => t.dev.fldI .bly Fld.BLY_HOLD_CTL_KIND slot = s.dev.fldI .bly Fld.BLY_HOLD_CTL_KIND slot ∧
            bit (t.dev.fld .bly Fld.ERR_STAT_BLOCK) 0 = true ∧ t.dev.belay = s.dev.belay ∧ KeepsMemory s t))) ∧
      (s.dev.fldI .bly Fld.BLY_HOLD_CTL_ACTIVE 4 = 0 → Completes (.crewHold true kind dis) s (fun t =>
        t.dev.fldI .bly Fld.BLY_HOLD_CTL_ACTIVE 4 = 1 ∧ t.dev.fldI .bly Fld.BLY_HOLD_CTL_KIND 4 = kind % 2 ∧ s.holdAsked t 4 ∧ KeepsMemory s t)) ∧
      (s.dev.fldI .bly Fld.BLY_HOLD_CTL_ACTIVE 1 = 0 →
        (s.dev.fld .bly Fld.BLY_PIN_IN_EN = 1 → 20 ≤ ns → Completes (.belayInEdge ns) s (fun t => t.dev.fldI .bly Fld.BLY_HOLD_CTL_ACTIVE 1 = 1 ∧
          t.dev.fldI .bly Fld.BLY_HOLD_CTL_KIND 1 = s.dev.fld .bly Fld.BLY_PIN_IN_KIND % 2 ∧ s.holdAsked t 1 ∧ KeepsMemory s t)) ∧
        ((s.dev.fld .bly Fld.BLY_PIN_IN_EN ≠ 1 ∨ ns < 20) → Completes (.belayInEdge ns) s (fun t =>
          t.dev.fldI .bly Fld.BLY_HOLD_CTL_ACTIVE 1 = 0 ∧ t.dev.belay = s.dev.belay ∧ KeepsMemory s t)))) ∧
  (∀ (s : State) (n part v : Nat) (q : Partition), s.Canonical → Tbl.look s.dev.parts part = some q → q.func = n → n ≠ 0 → part < 32 →
      ((∀ u, Tbl.look s.dev.belay.vfLast part = some u → u + 1000000 ≤ s.dev.clk.now) → Completes (.vfTelFreeze n part true) s (fun t =>
        bit (t.dev.fld .bly Fld.BLY_VF_FREEZE) part = true ∧ Tbl.look t.dev.belay.vfLast part = some s.dev.clk.now ∧ KeepsMemory s t)) ∧
      (∀ u, Tbl.look s.dev.belay.vfLast part = some u → s.dev.clk.now < u + 1000000 → Completes (.vfTelFreeze n part true) s (fun t =>
        t.dev.cntOf (.vf n) 1 = (s.dev.cntOf (.vf n) 1 + 1) % 2 ^ 64 ∧ t.dev.reg.cur = s.dev.reg.cur ∧ t.dev.belay = s.dev.belay ∧ KeepsMemory s t)) ∧
      (bit (s.dev.fld .bly Fld.BLY_VF_FREEZE) part = true → Completes (.vfTelFreeze n part false) s (fun t =>
        bit (t.dev.fld .bly Fld.BLY_VF_FREEZE) part = false ∧ KeepsMemory s t)) ∧
      Completes (.blyPfFreeze v) s (fun t => t.dev.fld .bly Fld.BLY_PF_FREEZE = v % 2 ^ Fld.BLY_PF_FREEZE.width ∧ KeepsMemory s t))

/-- HOLD_MESSAGE, MARKER_ARRIVE, CUT_DONE, HOLD_RELEASE, RELEASE_MESSAGE and a crew release (R578, R579, R582, R585, R586). -/
def Obligations.HoldWavesRun : Prop :=
  ∀ (s : State) (isl chan logged : Nat) (chans : List Nat) (w : HoldWave) (ws : List HoldWave), s.Canonical →
    (s.dev.belay.waves = w :: ws →
      (w.release = false → w.todo.contains isl = true → Completes (.holdMessage isl chans) s (fun t =>
        t.dev.holdOf isl = max (s.dev.holdOf isl) (s.dev.holdLevel w.src) ∧ (∀ j, j ≠ isl → t.dev.holdOf j = s.dev.holdOf j) ∧
        Tbl.look t.dev.belay.cuts isl = some ⟨chans, 0, 0, s.dev.stamp isl⟩ ∧ t.dev.belay.waves.head?.map HoldWave.todo = some (delSet isl w.todo) ∧ KeepsMemory s t)) ∧
      (w.release = false → w.started = true → w.todo = [] → w.reporting = [] → w.src < 16 → ws = [] → Completes (.cutDone none) s (fun t =>
        t.dev.fldI .bly Fld.BLY_HOLD_STAT_DONE w.src = 1 ∧ t.dev.belay.waves = [] ∧ KeepsMemory s t)) ∧
      (w.release = true → w.todo.contains isl = true → delSet isl w.todo ≠ [] → Completes (.releaseMessage isl) s (fun t =>
        t.dev.holdOf isl = s.dev.strongest isl ∧ t.dev.belay.waves.head?.map HoldWave.todo = some (delSet isl w.todo) ∧ KeepsMemory s t)) ∧
      (w.release = true → w.todo.contains isl = true → delSet isl w.todo = [] → ws = [] → Completes (.releaseMessage isl) s (fun t =>
        t.dev.holdOf isl = s.dev.strongest isl ∧ t.dev.belay.waves = [] ∧ KeepsMemory s t))) ∧
    (∀ c, Tbl.look s.dev.belay.cuts isl = some c → c.waiting.contains chan = true → Completes (.markerArrive isl chan logged false) s (fun t =>
      (∃ c', Tbl.look t.dev.belay.cuts isl = some c' ∧ c'.waiting = c.waiting.filter (· ≠ chan) ∧ c'.smeared = c.smeared) ∧ t.dev.hold = s.dev.hold ∧ KeepsMemory s t)) ∧
    (∀ r slot, s.dev.mayAccess r .bly = true → slot < 16 → s.dev.fldI .bly Fld.BLY_HOLD_CTL_ACTIVE slot ≠ 0 → s.dev.fldI .bly Fld.BLY_HOLD_CTL_SCOPE slot ≠ 2 →
      Completes (.holdRelease r slot) s (fun t => t.dev.fldI .bly Fld.BLY_HOLD_CTL_ACTIVE slot = 0 ∧ KeepsMemory s t)) ∧
    (∀ dis, s.dev.fldI .bly Fld.BLY_HOLD_CTL_ACTIVE 4 ≠ 0 → Completes (.crewHold false 0 dis) s (fun t =>
      t.dev.fldI .bly Fld.BLY_HOLD_CTL_ACTIVE 4 = 0 ∧ KeepsMemory s t))

/-- ROPE_DELIVER, ROPE_STAGE, ROPE_SELECT, ROPE_SELECT_POLL, ROPE_SEL_TIMEOUT, ROPE_END, ROPE_FAULT and ROPE_ENGINE_READMIT. -/
def Obligations.RopeListsRun : Prop :=
  ∀ (s : State) (n st e c key : Nat) (p : Page) (x : RopeCtx) (w : List Nat), s.Canonical → key = ropeKey n st e c → p = ropePage (key / 2) →
    (s.dev.ropeFetch key = .entry x w →
      (rType w = 1 → Completes (.ropeDeliver n st e c) s (fun t =>
        (∃ f, Tbl.look t.dev.flows s.dev.nextFlow = some f ∧ f.dst = rDst w ∧ f.elemOff = rDstOff w ∧ f.scaleOff = rScaleOff w ∧
          (f.elemLen, f.scaleLen) = deliveredLen w ∧ f.pitch = x.pitch ∧ f.attempt = x.attempt ∧ f.part = x.part ∧
          f.token = (if rToken w then some (rChannel w) else none) ∧ f.elemDone = 0 ∧ f.scaleDone = 0 ∧ f.pieces = []) ∧
        t.dev.tapQ = s.dev.tapQ ++ (s.dev.mcastClusters p x (rMcast w)).map (fun cl => ⟨s.dev.nextFlow, n, cl, .coming⟩) ∧
        t.dev.engState (key / 2) = 1 ∧ KeepsMemory s t)) ∧
      (rType w = 2 → Completes (.ropeStage n st e c) s (fun t =>
        (∃ y, Tbl.look t.dev.ropes key = some y ∧ y.opened.map RopeOpen.words = some w ∧ y.pos = x.pos) ∧ t.dev.flows = s.dev.flows ∧ KeepsMemory s t)) ∧
      (rType w = 3 → Completes (.ropeSelect n st e c) s (fun t =>
        (∃ y, Tbl.look t.dev.ropes key = some y ∧ y.opened.map RopeOpen.words = some w ∧ y.poll = none) ∧ t.dev.engState (key / 2) = 2 ∧ KeepsMemory s t)) ∧
      (rType w = 15 → (∀ kv ∈ s.dev.flows, kv.2.engine ≠ key / 2) → (∀ k ∈ s.dev.mesh.tokens, k.src ≠ key / 2 + 1) →
        ∀ q, Tbl.look s.dev.parts x.part = some q → Completes (.ropeEnd n st e c) s (fun t =>
          (∃ q', Tbl.look t.dev.parts x.part = some q' ∧ key ∈ q'.listsDone) ∧ t.dev.flows = s.dev.flows ∧ KeepsMemory s t))) ∧
    (∀ code, s.dev.ropeFetch key = .fault code → (∀ kv ∈ s.dev.flows, kv.2.engine ≠ key / 2) → Completes (.ropeStage n st e c) s (fun t =>
      Tbl.look t.dev.ropes key = none ∧ t.dev.fld p Fld.ROPE_FAULT_CODE = code ∧ t.dev.fld p Fld.ROPE_FAULT_VALID = 1 ∧ KeepsMemory s t)) ∧
    (s.dev.ropeLive key = true → Tbl.look s.dev.ropes key = some x →
      (∀ o, x.opened = some o → o.words = w → rType w = 3 → x.subs = [] → s.dev.cleanRange (rRec w) 64 →
        (s.dev.rdN s.mem (rRec w) 4 = (rTagBase w + x.pitch) % 2 ^ 32 → s.dev.rdN s.mem (rRec w + 4) 4 = 0 → s.dev.ropeHbm (rRec w) 64 = true →
          Completes (.ropeSelectPoll n st e c []) s (fun t =>
            (∃ y, Tbl.look t.dev.ropes key = some y ∧ y.opened = none ∧ y.poll = none ∧ y.pos = x.pos + 1 ∧
              y.subs = ((List.range (rNSub w)).filter (bit (s.dev.rdN s.mem (rRec w + 8) 16))).map (fun k => (rSubBase w + k * rSubLen w, rSubLen w))) ∧
            t.dev.rdN t.mem (rRec w + 4) 4 = 1 ∧ KeepsOutside (rRec w + 4) 4 s t)) ∧
        ((s.dev.rdN s.mem (rRec w) 4 ≠ (rTagBase w + x.pitch) % 2 ^ 32 ∨ s.dev.rdN s.mem (rRec w + 4) 4 ≠ 0) →
          Completes (.ropeSelectPoll n st e c []) s (fun t =>
            Tbl.look t.dev.ropes key = some { x with poll := some (x.poll.getD s.dev.clk.now) } ∧ KeepsMemory s t))) ∧
      (x.poll.isSome = true → (∀ kv ∈ s.dev.flows, kv.2.engine ≠ key / 2) → Completes (.ropeSelTimeout n st e c) s (fun t =>
        Tbl.look t.dev.ropes key = none ∧ t.dev.fld p Fld.ROPE_FAULT_CODE = 0x0504 ∧ KeepsMemory s t))) ∧
    (s.dev.present p = true →
      (∀ code, (code = 0x0505 ∨ code = 0x0506) → s.dev.engState (key / 2) ≠ 3 → (∀ kv ∈ s.dev.flows, kv.2.engine ≠ key / 2) →
        Completes (.ropeFault n st e c code) s (fun t => t.dev.engState (key / 2) = 3 ∧ t.dev.fld p Fld.ROPE_FAULT_CODE = code ∧
          (∀ k, k / 2 = key / 2 → Tbl.look t.dev.ropes k = none) ∧ KeepsMemory s t)) ∧
      (s.dev.engState (key / 2) = 3 → Completes (.ropeEngineReadmit n st e) s (fun t =>
        t.dev.engState (key / 2) = 0 ∧ Tbl.look t.dev.ropeMoved (key / 2) = none ∧ t.dev.ropes = s.dev.ropes ∧ KeepsMemory s t)))

/-- ROPE_BLOCK_CHECK, TAP_DELIVERY_ARRIVE, TAP_DELIVERY_BEGIN and GRANULE_VALID. -/
def Obligations.RopeDeliveries : Prop :=
  ∀ (s : State) (n c k : Nat) (f : Flow), s.Canonical → s.dev.present (.clu n c) = true →
    (∀ st e ctx key x o w a side, key = ropeKey n st e ctx → s.dev.ropeLive key = true → Tbl.look s.dev.ropes key = some x → x.opened = some o →
      x.lastBlk = none → o.words = w → o.next < o.total → rCheck w = 1 → rSrcRemote w = false → a = rSrc w / 4096 * 4096 + 4096 * o.next →
      side = rSide w + 4 * o.next → s.dev.cleanRange a 4096 → s.dev.cleanRange (side / 64 * 64) 64 → s.dev.present (ropePage (key / 2)) = true →
      (s.dev.rdN s.mem side 4 = blockCrc (s.dev.memBytes s.mem a 4096) a (rModel w) →
        (rType w = 2 → s.dev.ropeMem (rAlt w + 4096 * o.next) 4096 = true → s.dev.cleanRange (rAlt w + 4096 * o.next) 4096 →
          s.dev.ropeMem (rAltSide w + 4 * o.next) 4 = true → s.dev.cleanRange (rAltSide w + 4 * o.next) 4 → s.dev.ddrUndef = [] →
          (rAltSide w + 4 * o.next + 4 ≤ rAlt w + 4096 * o.next ∨ rAlt w + 4096 * o.next + 4096 ≤ rAltSide w + 4 * o.next) →
          Completes (.ropeBlockCheck n st e ctx [] [] false) s (fun t =>
            t.dev.memBytes t.mem (rAlt w + 4096 * o.next) 4096 = s.dev.memBytes s.mem a 4096 ∧
            t.dev.rdN t.mem (rAltSide w + 4 * o.next) 4 =
              blockCrc (s.dev.memBytes s.mem a 4096) (rAlt w + 4096 * o.next) (rModel w) % 2 ^ 32)) ∧
        (rType w = 1 → rFmtSt w ≠ 5 → o.next + 1 < o.total → (segmentOf (rFmtSt w)).2 = 0 → Tbl.look s.dev.flows o.flow = some f →
          Completes (.ropeBlockCheck n st e ctx [] [] false) s (fun t =>
            (0 < (segmentOf (rFmtSt w)).1 → Tbl.look t.dev.flows o.flow = some { f with
              pieces := f.pieces ++ [(f.elemOff + f.elemDone, (s.dev.memBytes s.mem a 4096).take (segmentOf (rFmtSt w)).1)],
              elemDone := f.elemDone + (segmentOf (rFmtSt w)).1 }) ∧
            t.dev.cntOf (ropePage (key / 2)) 3 = (s.dev.cntOf (ropePage (key / 2)) 3 + 1) % 2 ^ 64 ∧ KeepsMemory s t) ∧
          Completes (.ropeBlockCheck n st e ctx [] [] true) s (fun t =>
            t.dev.cntOf (ropePage (key / 2)) 6 = (s.dev.cntOf (ropePage (key / 2)) 6 + 1) % 2 ^ 64 ∧
            t.dev.cntOf (ropePage (key / 2)) 4 = (s.dev.cntOf (ropePage (key / 2)) 4 + 1) % 2 ^ 64 ∧
            (∃ f', Tbl.look t.dev.flows o.flow = some f' ∧ f'.elemDone = f.elemDone + (segmentOf (rFmtSt w)).1) ∧ KeepsMemory s t))) ∧
      (s.dev.rdN s.mem side 4 ≠ blockCrc (s.dev.memBytes s.mem a 4096) a (rModel w) → (rType w = 1 ∨ rType w = 2) →
        (∀ kv ∈ s.dev.flows, kv.2.dst ≠ 2) → Completes (.ropeBlockCheck n st e ctx [] [] false) s (fun t =>
          Tbl.look t.dev.ropes key = none ∧ t.dev.fld (ropePage (key / 2)) Fld.ROPE_FAULT_CODE = 0x0501 ∧ KeepsMemory s t))) ∧
    (Tbl.look s.dev.flows k = some f → s.dev.stopped (n * 256 + c / 8) = false →
      ((s.dev.tapQ.find? fun t => t.die = n && t.cluster = c && decide (t.st = .coming) && decide ((Tbl.look s.dev.flows t.flow).map Flow.engine = some f.engine)).map
          TapDel.flow = some k →
        (s.dev.regionPart n (c / 8) = some f.part → (f.dst = 2 ∨ s.dev.flowFit n c f = .equal) → Completes (.tapDeliveryArrive n c k) s (fun t =>
          ⟨k, n, c, .waiting⟩ ∈ t.dev.tapQ ∧ t.dev.flows = s.dev.flows ∧ KeepsMemory s t)) ∧
        (s.dev.regionPart n (c / 8) = some f.part → f.dst ≠ 2 → s.dev.flowFit n c f = .early → Completes (.tapDeliveryArrive n c k) s (fun t =>
          ⟨k, n, c, .held⟩ ∈ t.dev.tapQ ∧ t.dev.flows = s.dev.flows ∧ KeepsMemory s t)) ∧
        ((s.dev.regionPart n (c / 8) ≠ some f.part ∨ (f.dst ≠ 2 ∧ s.dev.flowFit n c f = .stale)) → s.dev.present (ropePage f.engine) = true →
          Completes (.tapDeliveryArrive n c k) s (fun t =>
            (∀ y ∈ t.dev.tapQ, ¬ (y.flow = k ∧ y.die = n ∧ y.cluster = c)) ∧ bit (t.dev.fld (.clu n c) Fld.ERR_STAT_BLOCK) 1 = true ∧ KeepsMemory s t))) ∧
      (s.dev.tapQ.find? (fun t => t.flow = k && t.die = n && t.cluster = c) = some ⟨k, n, c, .waiting⟩ → f.dst < 2 → s.dev.flowFit n c f = .equal →
        (s.dev.tapQ.find? fun t => t.die = n && t.cluster = c && decide ((Tbl.look s.dev.flows t.flow).map Flow.dst = some f.dst)).map TapDel.flow = some k →
        (∀ i ∈ f.tilesOf c, s.dev.lbState n i f.dst = 0) → Completes (.tapDeliveryBegin n c k) s (fun t =>
          (∀ i ∈ f.tilesOf c, t.dev.lbState n i f.dst = 1 ∧ t.dev.lbGran n i f.dst = 0) ∧ ⟨k, n, c, .delivering⟩ ∈ t.dev.tapQ ∧ KeepsMemory s t)) ∧
      (⟨k, n, c, .delivering⟩ ∈ s.dev.tapQ → f.dst < 2 → s.dev.flowFit n c f = .equal → f.tilesOf c ≠ [] →
        ∀ g, g < 8 → (∀ i ∈ f.tilesOf c, bit (s.dev.lbGran n i f.dst) g = false) → f.touches (4096 * g) (4096 * g + 4096) = true →
          f.settled (4096 * g) (4096 * g + 4096) = true → Completes (.granuleValid n c k g) s (fun t =>
            (∀ i ∈ f.tilesOf c, bit (t.dev.lbGran n i f.dst) g = true) ∧
            (∀ q, (∀ i ∈ f.tilesOf c, q < tileMem n i + 0x80000 + 0x8000 * f.dst + 4096 * g ∨ tileMem n i + 0x80000 + 0x8000 * f.dst + 4096 * g + 4096 ≤ q) →
              t.mem.rdByte q = s.mem.rdByte q) ∧ t.pending = s.pending ∧
            ((∀ h, h < 8 → h ≠ g → f.touches (4096 * h) (4096 * h + 4096) = true → ∀ i ∈ f.tilesOf c, bit (s.dev.lbGran n i f.dst) h = true) →
              (∀ i ∈ f.tilesOf c, t.dev.lbState n i f.dst = 2) ∧ ∀ y ∈ t.dev.tapQ, ¬ (y.flow = k ∧ y.die = n ∧ y.cluster = c)))))

/-- LOAD, RUN, STOP and UNLOAD (R256 to R261, R264, R275). -/
def Obligations.ComputeCommands : Prop :=
  ∀ (s : State) (f qn q cid : Nat) (x : Fetched), s.Canonical → s.dev.ddrUndef = [] → s.entryOf f qn 1 x → q = x.num 4 1 → q < 32 → cid = x.num 2 2 →
    (s.dev.badEntry x = true → x.num 0 1 = 1 → Completes (.load f qn) s (fun t => Answers s t f qn x.head (computeBody cid 0x000D 0 0) ∧ SlotOnly s t f qn)) ∧
    (∀ p, s.dev.badEntry x = false → s.dev.part q = some p →
      (x.num 0 1 = 1 →
        (p.image.isSome = true → Completes (.load f qn) s (fun t =>
          (∃ v, Answers s t f qn x.head (computeBody cid 0x000A 0 v)) ∧ t.dev.part q = some p ∧ SlotOnly s t f qn)) ∧
        (∀ d bs bad im, p.image = none → isHost (x.num 8 8) = false → cSrcHost x = false → s.dev.inMemory (x.num 8 8) (x.num 16 8) = true →
          s.dev.granted q (x.num 8 8) (x.num 16 8) = true → s.dev.cleanRange (x.num 8 8) (x.num 16 8) →
          s.dev.sourceData s.mem x (x.num 8 8) (x.num 16 8) = .ready d bs bad →
          (d.checkImage q bs (x.num 16 8) = .ok im → Completes (.load f qn) s (fun t =>
            (∃ p', t.dev.part q = some p' ∧ p'.image = some im ∧ p'.runs = p.runs ∧ p'.lastPitch = none ∧ p'.loads = p.loads % (2 ^ 24 - 1) + 1) ∧
            t.dev.pState q = 2 ∧ t.dev.pPitch q = 0 ∧ t.dev.fldI .pkg Fld.PKG_PART_HANDLE q = q * 2 ^ 24 + (p.loads % (2 ^ 24 - 1) + 1) ∧
            Answers s t f qn x.head (computeBody cid 0 (q * 2 ^ 24 + (p.loads % (2 ^ 24 - 1) + 1)) 0) ∧ t.pending = s.pending)) ∧
          (∀ e, d.checkImage q bs (x.num 16 8) = .error e → Completes (.load f qn) s (fun t =>
            (∃ v, Answers s t f qn x.head (computeBody cid e.status 0 v)) ∧ t.dev.pState q = 0 ∧ SlotOnly s t f qn)))) ∧
      (x.num 0 1 = 2 → ∀ im, p.image = some im →
        (s.dev.handleOk x p = true → x.num 12 4 ≠ 0 → x.num 8 4 + x.num 12 4 ≤ im.seq.length → s.dev.crew.recovering = none →
          (s.dev.pState q ≠ 7 → Completes (.run f qn) s (fun t =>
            (∃ r, t.dev.part q = some { p with runs := p.runs ++ [r] } ∧ r.start = x.num 8 4 ∧ r.count = x.num 12 4 ∧ r.done = 0 ∧ r.cid = cid ∧
              r.setPitch = (if cSetPitch x then some (x.num 16 4) else none)) ∧ t.dev.queues = s.dev.queues ∧ t.dev.pState q = s.dev.pState q ∧ KeepsMemory s t)) ∧
          (s.dev.pState q = 7 → cResume x = true →
            (∀ fb, s.dev.placePlan q im = .ok fb → Completes (.run f qn) s (fun t =>
              t.dev.pState q = 2 ∧ (∃ r, t.dev.part q = some { p with runs := p.runs ++ [r] }) ∧ KeepsMemory s t)) ∧
            (∀ st, s.dev.placePlan q im = .error st → st = 0x0010 ∧ Completes (.run f qn) s (fun t =>
              t.dev.pState q = 7 ∧ (∃ v, Answers s t f qn x.head (computeBody cid 0x0010 v 0)) ∧ t.dev.part q = some p ∧ SlotOnly s t f qn)))) ∧
        (∀ st, (s.dev.handleOk x p = false ∧ st = 0x000B ∨ s.dev.handleOk x p = true ∧
            (x.num 12 4 = 0 ∧ st = 0x000D ∨ x.num 12 4 ≠ 0 ∧
              (im.seq.length < x.num 8 4 + x.num 12 4 ∧ st = 0x000C ∨
               x.num 8 4 + x.num 12 4 ≤ im.seq.length ∧ s.dev.pState q = 7 ∧ cResume x = false ∧ st = 0x0013))) →
          Completes (.run f qn) s (fun t => (∃ v, Answers s t f qn x.head (computeBody cid st v 0)) ∧ t.dev.part q = some p ∧ SlotOnly s t f qn))) ∧
      (x.num 0 1 = 3 → s.dev.handleOk x p = true →
        ((s.dev.pState q = 3 ∨ s.dev.pState q = 4 ∨ s.dev.pState q = 5) → Completes (.stop f qn) s (fun t =>
          t.dev.part q = some { p with runs := p.runs.map (fun r => { r with stop := true }), stops := p.stops ++ [(f, qn, x.head, cid)] } ∧
          t.dev.queues = s.dev.queues ∧ KeepsMemory s t)) ∧
        (s.dev.pState q = 2 → p.runs = [] → Completes (.stop f qn) s (fun t =>
          (∃ v, Answers s t f qn x.head (computeBody cid 0 v 0)) ∧ t.dev.part q = some p ∧ SlotOnly s t f qn))) ∧
      (x.num 0 1 = 4 → s.dev.handleOk x p = true → p.runs = [] → Completes (.unload f qn) s (fun t =>
        (∃ p', t.dev.part q = some p' ∧ p'.image = none ∧ p'.runs = []) ∧ t.dev.pState q = 0 ∧ t.dev.fldI .pkg Fld.PKG_PART_HANDLE q = 0 ∧
        (∃ v, Answers s t f qn x.head (computeBody cid 0 v 0)) ∧ t.pending = s.pending)))

/-- PITCH_COMMIT, REGION_COMMIT and PITCH_START (R132, R161, R261, R265 to R267, R270). -/
def Obligations.PitchBoundary : Prop :=
  ∀ (s : State) (q : Nat) (x : Partition), s.Canonical → s.dev.ddrUndef = [] → q < 32 → s.dev.part q = some x → s.dev.partStopped q = false →
    s.dev.packageStopped = false →
    ((s.dev.pState q = 3 ∨ s.dev.pState q = 5) →
      (s.dev.boundaryMet q x = true → Completes (.pitchCommit q) s (fun t =>
        t.dev.pState q = 4 ∧ t.dev.part q = some { x with committed := [], lastPitch := some (s.dev.pPitch q), lastSeq := s.dev.fldI .pkg Fld.PKG_PART_SEQ q } ∧
        KeepsMemory s t)) ∧
      (s.dev.boundaryMet q x = false → exec (.pitchCommit q) s = .next s)) ∧
    (∀ n r, s.dev.present (.rgn n r) = true → s.dev.regionPart n r = some q → s.dev.pState q = 4 → x.committed.contains (16 * n + r) = false →
      ((s.dev.isl (Page.rgn n r).island).on = true →
        (∀ i ∈ regionTiles r, s.dev.commitOf (.tile n i) = none ∧ (s.dev.tile n i).dirty.Nodup) → s.dev.commitOf (.rgn n r) = none →
        (∀ c, s.dev.commitOf (.clu n c) = none) → Completes (.regionCommit n r) s (fun t =>
          (∀ i ∈ regionTiles r,
            (∀ l, (t.dev.tile n i).bank.contains l = ((s.dev.tile n i).bank.contains l != (s.dev.tile n i).dirty.contains l)) ∧
            (t.dev.tile n i).dirty = [] ∧ t.dev.lbState n i 0 = 0 ∧ t.dev.lbState n i 1 = 0 ∧
            ∀ k, k < 7 → t.dev.fldI (.tile n i) Fld.LAST_CNT k = s.dev.cntOf (.tile n i) k % 2 ^ 64 ∧ t.dev.cntOf (.tile n i) k = 0) ∧
          (∃ x', t.dev.part q = some x' ∧ x'.committed.contains (16 * n + r) = true) ∧ KeepsMemory s t)) ∧
      ((s.dev.isl (Page.rgn n r).island).on = false → Completes (.regionCommit n r) s (fun t =>
        t.dev.part q = some { x with lost := true } ∧ bit (t.dev.fld (.rgn n r) Fld.ERR_STAT_BLOCK) 2 = true ∧ t.dev.tiles = s.dev.tiles ∧ KeepsMemory s t))) ∧
    (∀ im r rest, x.image = some im → x.runs = r :: rest → x.park = 0 →
      (s.dev.pState q = 2 → s.dev.dutyUp 1 = true → s.dev.placePlan q im = .ok (s.dev.fallbackOf q) → Completes (.pitchStart q) s (fun t =>
        t.dev.pState q = 3 ∧ t.dev.pPitch q = (if r.done = 0 then r.setPitch.getD (s.dev.pPitch q) else s.dev.pPitch q) % 2 ^ 32 ∧
        ∀ nr ∈ s.dev.regionsOf q, s.dev.flag (.rgn nr.1 nr.2) Fld.STATUS_FENCED = false →
          t.dev.fld (.rgn nr.1 nr.2) Fld.RGN_PITCH_PITCH = t.dev.pPitch q ∧
          ∀ i ∈ regionTiles nr.2, t.dev.tilePitch nr.1 i = t.dev.pPitch q)) ∧
      (s.dev.pState q = 2 → s.dev.dutyUp 1 = true → s.dev.placePlan q im = .error 0x0010 → s.dev.partner = none → Completes (.pitchStart q) s (fun t =>
        t.dev.pState q = 7 ∧ ∃ x', t.dev.part q = some x' ∧ x'.runs = [] ∧ x'.image = some im)) ∧
      (s.dev.pState q = 4 → (∀ nr ∈ s.dev.regionsOf q, x.committed.contains (16 * nr.1 + nr.2) = true) → s.dev.gateOpen q (s.dev.pPitch q) x = true →
        s.dev.dutyHeld 1 = false → rest = [] → r.count = r.done + 1 → r.stop = false → x.redo = false → x.stops = [] → s.dev.link.flr = [] →
        s.dev.fld (.pcie 0) Fld.PCIE_LINK_STATE_DSTATE ≠ 3 → Completes (.pitchStart q) s (fun t =>
          t.dev.pState q = 2 ∧ t.dev.pPitch q = (s.dev.pPitch q + 1) % 2 ^ 32 ∧
          t.dev.fldI .pkg Fld.PKG_PART_COMMITS q = (s.dev.fldI .pkg Fld.PKG_PART_COMMITS q + 1) % 2 ^ Fld.PKG_PART_COMMITS.width ∧
          (∃ x', t.dev.part q = some x' ∧ x'.runs = [] ∧ x'.image = some im) ∧
          (∃ v w, Answers s t r.func r.queue r.head (computeBody r.cid 0 v w)) ∧ SlotOnly s t r.func r.queue)))

/-- PITCH_REPLAY and ROPE_LIST_MOVE (R238, R272 to R275). -/
def Obligations.ReplaysAndListMoves : Prop :=
  ∀ (s : State) (q : Nat) (x : Partition) (im : Image) (r : RunCmd) (rest : List RunCmd), s.Canonical → q < 32 → s.dev.part q = some x → x.image = some im →
    x.runs = r :: rest → x.lost = false → s.dev.dutyUp 2 = true → s.dev.replayable q = true →
    (s.dev.replayPlan q x im = .ok (s.dev.fallbackOf q) → Completes (.pitchReplay q []) s (fun t =>
      s.dev.fldI .pkg Fld.PKG_PART_STATE_ATTEMPT q < 3 ∧ t.dev.pState q = 5 ∧
      t.dev.fldI .pkg Fld.PKG_PART_STATE_ATTEMPT q = s.dev.fldI .pkg Fld.PKG_PART_STATE_ATTEMPT q + 1 ∧ t.dev.pPitch q = s.dev.pPitch q % 2 ^ 32 ∧
      (∃ x', t.dev.part q = some x' ∧ x'.runs = { r with replays := r.replays + 1 } :: rest ∧ x'.faulted = [] ∧ x'.lastPitch = x.lastPitch) ∧
      ∀ n k, s.dev.regionIn q n (k / 128) = true → k < 2048 → (t.dev.tile n k).dirty = [] ∧ (t.dev.tile n k).bank = (s.dev.tile n k).bank)) ∧
    (∀ st, s.dev.replayPlan q x im = .error st → (st ≠ 0x0010 ∨ s.dev.partner = none) → Completes (.pitchReplay q []) s (fun t =>
      t.dev.pState q = 7 ∧ (∃ x', t.dev.part q = some x' ∧ x'.runs = [] ∧ x'.lastPitch = x.lastPitch) ∧
      ∀ n k, s.dev.regionIn q n (k / 128) = true → k < 2048 → (t.dev.tile n k).dirty = [] ∧ (t.dev.tile n k).bank = (s.dev.tile n k).bank)) ∧
    (3 ≤ s.dev.fldI .pkg Fld.PKG_PART_STATE_ATTEMPT q → (∀ fb, s.dev.replayPlan q x im ≠ .ok fb) ∧
      (x.faulted = [] → s.dev.unplaced q im = [] → x.ropeCodes = [] → x.selTimeouts < 2 → s.dev.replayPlan q x im = .error 0x0012)) ∧
    (∀ n st e eng, eng = 16 * (3 * n + st) + e → e < 16 → s.dev.present (ropePage eng) = true → s.dev.engState eng = 3 → st < 3 →
      s.dev.fldI (ropePage eng) Fld.LEASE_OWNER_OWNER e = partOwner q → Tbl.has s.dev.ropeMoved eng = false →
      (∀ k, k < 16 → k ≠ e → s.dev.fldI (ropePage eng) Fld.LEASE_OWNER_OWNER k = partOwner q → s.dev.engState (16 * (3 * n + st) + k) ≠ 3 →
        bit (s.dev.fld (ropePage eng) Fld.ROPE_CTX1_MASK) k = false →
        (∀ j, j < k → j = e ∨ s.dev.fldI (ropePage eng) Fld.LEASE_OWNER_OWNER j ≠ partOwner q ∨ s.dev.engState (16 * (3 * n + st) + j) = 3 ∨
          bit (s.dev.fld (ropePage eng) Fld.ROPE_CTX1_MASK) j = true) →
        s.dev.replayPlan q x im = .ok (s.dev.fallbackOf q) → Completes (.ropeListMove n st e) s (fun t =>
          Tbl.look t.dev.ropeMoved eng = some (16 * (3 * n + st) + k) ∧ t.dev.pState q = 5 ∧
          t.dev.fldI .pkg Fld.PKG_PART_STATE_ATTEMPT q = s.dev.fldI .pkg Fld.PKG_PART_STATE_ATTEMPT q + 1)) ∧
      ((∀ k, k < 16 → k = e ∨ s.dev.fldI (ropePage eng) Fld.LEASE_OWNER_OWNER k ≠ partOwner q) → s.dev.partner = none →
        Completes (.ropeListMove n st e) s (fun t => t.dev.pState q = 7 ∧ ∃ x', t.dev.part q = some x' ∧ x'.runs = [])))

/-- RAIL_GROUP_UP, PWROK_ASSERT, PWROK_LOSS, MAIN_RAILS_REMOVED, PERST_ASSERT, FUNDAMENTAL_RESET, HOT_RESET, CREW_RESET, PKG_WARM and
MGMT_WARM_RESET; that unwritten memory reads zero (log entry 3) and that a warm reset that is not hot leaves REFUSED as it is (log entry 39, from
R524) are the model's readings. -/
def Obligations.SuppliesAndResets : Prop :=
  ∀ (s : State), s.Canonical →
    (s.dev.pwr.groups < 6 → Completes (.railGroupUp (s.dev.pwr.groups + 1)) s (fun t =>
      t.dev.pwr.groups = s.dev.pwr.groups + 1 ∧ t.dev.pwr.aux = true ∧ t.dev.reg = s.dev.reg ∧ KeepsMemory s t)) ∧
    (∀ g, g ≠ s.dev.pwr.groups + 1 → exec (.railGroupUp g) s = .next s) ∧
    (s.dev.pwr.groups = 6 → Completes .pwrokAssert s (fun t => t.dev.pwr.pwrok = true ∧ t.dev.reg = s.dev.reg ∧ KeepsMemory s t)) ∧
    (let Dark := fun (t : State) => t.dev.parts = [] ∧ t.dev.queues = [] ∧ t.dev.fetched = [] ∧ t.dev.tiles = [] ∧ t.dev.reg.commits = [] ∧
        (∀ a, a < 2 ^ 60 → t.mem.rdByte a = 0) ∧ t.pending = s.pending
     (s.dev.pwr.perst = false → Completes .pwrokLoss s (fun t => Dark t ∧ t.dev.pwr.pwrok = false ∧
        t.dev.fld .pkg Fld.PKG_THERM_READ_TRIPPED = s.dev.fld .pkg Fld.PKG_THERM_READ_TRIPPED)) ∧
     (∀ aux, (s.dev.pwr.perst = true ∧ s.dev.pwr.pwrok = false ∨ s.dev.fld .pkg Fld.PKG_THERM_READ_TRIPPED ≠ 0) →
        Completes (.mainRailsRemoved aux) s (fun t => Dark t ∧ t.dev.pwr.groups = (if aux then 0 else 1) ∧ t.dev.pwr.aux = (!aux && s.dev.pwr.aux) ∧
          t.dev.fld .pkg Fld.PKG_THERM_READ_TRIPPED = (if aux then 0 else s.dev.fld .pkg Fld.PKG_THERM_READ_TRIPPED))) ∧
     Completes .perstAssert s (fun t => Dark t ∧ t.dev.pwr.perst = true ∧ t.dev.pwr.groups = s.dev.pwr.groups)) ∧
    (∀ role src mode pins gen width flit, s.dev.pwr.perst = true → s.dev.pwr.pwrok = true → s.dev.pwr.groups = 6 → role < 3 → src < 3 → pins < 2 ^ 14 →
      Completes (.fundamentalReset role src mode pins gen width flit []) s (fun t =>
        t.dev.cfg.straps = ⟨role, src, mode % 2, pins⟩ ∧ t.dev.pwr.perst = false ∧ (∀ isl, t.dev.cycles isl = 0) ∧
        t.dev.fld .pkg Fld.PKG_RESET_CAUSE_LAST = (if s.dev.pwr.cold then 0 else 1) ∧ t.dev.fld .pkg Fld.PKG_FW_STATE_STATE = 2 ∧
        (src = 1 → t.dev.fld .pkg Fld.PKG_ID_ID = pins ∧ t.dev.fld .pkg Fld.PKG_ID_VALID = 1) ∧ t.dev.parts = [] ∧ t.pending = s.pending)) ∧
    (∀ c cause, s.dev.live = true →
      (cause = 2 ∧ (∃ gen width flit, c = Instr.hotReset gen width flit []) ∨ cause = 6 ∧ s.dev.cfg.straps.crewRole = 2 ∧ c = Instr.crewReset [] ∨
        cause = 5 ∧ (∃ v, bit v 0 = true ∧ c = Instr.pkgWarm .pf v []) ∨
        cause = 7 ∧ s.dev.pwr.aux = true ∧ 6 ≤ s.dev.pwr.groups ∧ c = Instr.mgmtWarmReset []) →
      Completes c s (fun t => t.dev.fld .pkg Fld.PKG_RESET_CAUSE_LAST = cause ∧
        t.dev.fld .pkg Fld.PKG_RESET_CAUSE_WARM_COUNT = satAdd 8 (s.dev.fld .pkg Fld.PKG_RESET_CAUSE_WARM_COUNT) 1 ∧
        t.dev.fld .pkg Fld.PKG_FW_STATE_STATE = (if s.dev.fwState = 5 ∧ cause ≠ 2 then 5 else 2) ∧
        t.dev.fld .pkg Fld.PKG_ID_ID = s.dev.fld .pkg Fld.PKG_ID_ID ∧ t.dev.parts = [] ∧ t.dev.queues = [] ∧
        t.dev.tiles = [] ∧ t.dev.poison = s.dev.poison ∧ t.dev.cfg = s.dev.cfg ∧ t.dev.clk.now = s.dev.clk.now ∧
        (∀ a, a < 2 ^ 56 → t.mem.rdByte a = s.mem.rdByte a) ∧ (∀ a, 2 ^ 56 ≤ a → a < 2 ^ 58 → t.mem.rdByte a = 0) ∧ t.pending = s.pending))

/-- REGION_CLOCK_CHANGE, PLL_RESTART, POWER_LIMITER_TICK, THERMAL_CAP_TICK, THERMAL_TRIP, REGION_GATE, AVS_CURRENT_READ, MGMT_SET_PKG_ID, CLEAR_TRIP
and GET_STATE. -/
def Obligations.PowerAndTemperature : Prop :=
  ∀ (s : State), s.Canonical →
    (∀ n r f, s.dev.present (.rgn n r) = true → (s.dev.isl (n * 256 + r)).on = true → (s.dev.isl (n * 256 + r)).mhz ≠ s.dev.regionClock (n * 256 + r) →
      f = s.dev.regionClock (n * 256 + r) → Completes (.regionClockChange n r) s (fun t =>
        (t.dev.isl (n * 256 + r)).mhz = f ∧ (t.dev.isl (n * 256 + r)).on = true ∧ t.dev.cycles (n * 256 + r) = s.dev.cycles (n * 256 + r) ∧
        t.dev.fld (.rgn n r) Fld.RGN_CLK_MHZ = f % 2 ^ 11 ∧ t.dev.fld (.rgn n r) Fld.RGN_CLK_MV = regionMv f ∧
        (∀ j, j ≠ n * 256 + r → t.dev.isl j = s.dev.isl j) ∧ KeepsMemory s t)) ∧
    (∀ isl, s.dev.present (islandPage isl) = true → (s.dev.isl isl).on = false → s.dev.clk.up = true → Completes (.pllRestart isl) s (fun t =>
      (t.dev.isl isl).on = true ∧ t.dev.cycles isl = s.dev.cycles isl ∧ KeepsMemory s t)) ∧
    (∀ a b high under cap, s.dev.live = true → cap = s.dev.powerCap → 800 ≤ cap → cap ≤ 1600 →
      high = decide (97 * s.dev.model.excursionW < 100 * a ∨ 97 * s.dev.limitW < 100 * b) →
      under = decide (100 * a < 93 * s.dev.model.excursionW ∧ 100 * b < 93 * s.dev.limitW) →
      ((high = true → Completes (.powerLimiterTick a b) s (fun t => t.dev.fld .pkg Fld.PKG_CLK_CAP_POWER_MHZ = max 800 (cap - 25) ∧ t.pending = s.pending)) ∧
       (high = false → under = true → (∃ u, s.dev.pwr.below = some u ∧ u + 1000000 ≤ s.dev.clk.now) → Completes (.powerLimiterTick a b) s (fun t =>
         t.dev.fld .pkg Fld.PKG_CLK_CAP_POWER_MHZ = min 1600 (cap + 25) ∧ t.dev.pwr.below = some s.dev.clk.now ∧ t.pending = s.pending)) ∧
       (high = false → (under = false ∨ ∀ u, s.dev.pwr.below = some u → s.dev.clk.now < u + 1000000) → Completes (.powerLimiterTick a b) s (fun t =>
         t.dev.fld .pkg Fld.PKG_CLK_CAP_POWER_MHZ = cap ∧ t.pending = s.pending)))) ∧
    (∀ n r (temp : Int), s.dev.live = true → s.dev.present (.rgn n r) = true → s.dev.thermalCap (n * 256 + r) ≤ 1600 → 800 ≤ s.dev.thermalCap (n * 256 + r) →
      Completes (.thermalCapTick (n * 256 + r) temp) s (fun t =>
        t.dev.thermalCap (n * 256 + r) = (if 105 ≤ temp then 800 else if s.dev.throttleC < temp then max 800 (s.dev.thermalCap (n * 256 + r) - 50)
          else if temp ≤ s.dev.throttleC - 2 then min 1600 (s.dev.thermalCap (n * 256 + r) + 25) else s.dev.thermalCap (n * 256 + r)) ∧
        (∀ j, j ≠ n * 256 + r → t.dev.thermalCap j = s.dev.thermalCap j) ∧ Tbl.look t.dev.pwr.temps (n * 256 + r) = some temp)) ∧
    (∀ isl temp, s.dev.live = true → s.dev.present (islandPage isl) = true → Completes (.thermalTrip isl temp) s (fun t =>
      t.dev.fld .pkg Fld.PKG_THERM_READ_TRIPPED = 1 ∧ .pin "THERMTRIP#" false ∈ t.dev.out ∧
      (∀ n k, n ∈ s.dev.model.tdies → (k < 16 ∨ k = 0x11 ∨ k = 0x12 ∨ k = 0x13) → (t.dev.isl (256 * n + k)).on = false))) ∧
    (∀ n q, s.dev.hasTdie n = true → q < 4 → (∀ kv ∈ s.dev.parts, bit (s.dev.qmask kv.1) (4 * n + q) = false) →
      s.dev.fld .pkg Fld.PKG_THERM_GATE_IDLE_MS ≠ 0 → Completes (.regionGate n q) s (fun t =>
        (∀ r, r < 16 → quarterOf r = q → (t.dev.isl (n * 256 + r)).on = false ∧
          ((s.dev.isl (n * 256 + r)).on = true → t.dev.cycles (n * 256 + r) = s.dev.cycles (n * 256 + r) ∧
            (∀ a, tileMem n (128 * r) ≤ a → a < tileMem n (128 * r + 128) → t.mem.rdByte a = 0))) ∧
        t.dev.reg = s.dev.reg ∧ t.pending = s.pending)) ∧
    (∀ n amps, s.dev.hasTdie n = true → s.dev.live = true → Completes (.avsCurrentRead n amps) s (fun t =>
      Tbl.look t.dev.pwr.amps n = some amps ∧ t.dev.reg = s.dev.reg ∧ KeepsMemory s t)) ∧
    (s.dev.pwr.aux = true →
      (∀ id, 6 ≤ s.dev.pwr.groups → s.dev.pwr.perst = false → s.dev.cfg.straps.idSrc = 2 →
        (s.dev.fld .pkg Fld.PKG_ID_VALID ≠ 1 → Completes (.mgmtSetPkgId id) s (fun t =>
          t.dev.fld .pkg Fld.PKG_ID_ID = id % 2 ^ 14 ∧ t.dev.fld .pkg Fld.PKG_ID_VALID = 1 ∧ t.dev.fld .pkg Fld.PKG_ID_SRC = 2 ∧
          t.dev.out = s.dev.out ++ [.msg "mgmt-ok" 0 []] ∧ RegsAndOut s t)) ∧
        (s.dev.fld .pkg Fld.PKG_ID_VALID = 1 → Completes (.mgmtSetPkgId id) s (fun t =>
          t.dev.reg = s.dev.reg ∧ t.dev.out = s.dev.out ++ [.msg "mgmt-busy" 0 []] ∧ KeepsMemory s t))) ∧
      Completes .clearTrip s (fun t => t.dev.fld .pkg Fld.PKG_THERM_READ_TRIPPED = 0 ∧ t.dev.out = s.dev.out ++ [.msg "mgmt-ok" 0 []] ∧ RegsAndOut s t) ∧
      Completes .getState s (fun t => t.dev.out = s.dev.out ++ [.msg "mgmt-state" 0 [s.dev.word .pf .pkg 0x100,
        if s.dev.pwr.groups < 6 then 4 else s.dev.fld (.pcie 0) Fld.PCIE_LINK_STATE_DSTATE, s.dev.word .pf .pkg 0x1CC, s.dev.word .pf .pkg 0x1EC]] ∧
        t.dev.reg = s.dev.reg ∧ KeepsMemory s t))

/-- D2D_FLIT_REPLAY, D2D_LANE_FAIL, D2D_LINK_DOWN, REGION_REINIT, REGION_READMIT, REGION_FAULT, HBM_STACK_LOSS, IDIE_FAULT, DEVICE_FATAL and
DEBUG_LEASE_IDLE. -/
def Obligations.LinksAndRegions : Prop :=
  ∀ (s : State) (n e r : Nat), s.Canonical →
    (s.dev.present (.d2d n e) = true →
      (s.dev.fld (.d2d n e) Fld.D2D_STATE_UP = 1 → Completes (.d2dFlitReplay n e) s (fun t =>
        t.dev.cntOf (.d2d n e) 2 = (s.dev.cntOf (.d2d n e) 2 + 1) % 2 ^ 64 ∧ t.dev.reg.cur = s.dev.reg.cur ∧ KeepsMemory s t) ∧
        Completes (.d2dLinkDown n e) s (fun t => t.dev.fld (.d2d n e) Fld.D2D_STATE_UP = 0 ∧ t.dev.fld (.d2d n e) Fld.D2D_STATE_MODULES = 0 ∧
          t.dev.fldI .bly Fld.BLY_HOLD_CTL_ACTIVE 0 = 1 ∧ KeepsMemory s t)) ∧
      (∀ m lane, m < 4 → lane < 64 → bit (s.dev.fld (.d2d n e) Fld.D2D_STATE_MODULES) m = true → s.dev.fld (.d2d n e) Fld.D2D_STATE_MODULES < 16 →
        s.dev.fld (.d2d n e) Fld.D2D_STATE_HALF < 16 → bit (s.dev.fldI (.d2d n e) Fld.D2D_LANE_FAIL_LANES m) lane = false →
        (bit (s.dev.fld (.d2d n e) Fld.D2D_STATE_HALF) m = false → Completes (.d2dLaneFail n e m lane) s (fun t =>
          bit (t.dev.fld (.d2d n e) Fld.D2D_STATE_HALF) m = true ∧ bit (t.dev.fldI (.d2d n e) Fld.D2D_LANE_FAIL_LANES m) lane = true ∧
          t.dev.fld (.d2d n e) Fld.D2D_STATE_MODULES = s.dev.fld (.d2d n e) Fld.D2D_STATE_MODULES ∧
          bit (t.dev.fld (.d2d n e) Fld.ERR_STAT_BLOCK) 1 = true ∧ KeepsMemory s t)) ∧
        (bit (s.dev.fld (.d2d n e) Fld.D2D_STATE_HALF) m = true →
          lane / 32 = (if bits (s.dev.fldI (.d2d n e) Fld.D2D_LANE_FAIL_LANES m) 0 32 = 0 then 0 else 1) →
          (s.dev.fld (.d2d n e) Fld.D2D_STATE_MODULES ≠ 2 ^ m → Completes (.d2dLaneFail n e m lane) s (fun t =>
            t.dev.fld (.d2d n e) Fld.D2D_STATE_MODULES = s.dev.fld (.d2d n e) Fld.D2D_STATE_MODULES - 2 ^ m ∧
            bit (t.dev.fld (.d2d n e) Fld.ERR_STAT_BLOCK) 2 = true ∧ KeepsMemory s t)) ∧
          (s.dev.fld (.d2d n e) Fld.D2D_STATE_MODULES = 2 ^ m → Completes (.d2dLaneFail n e m lane) s (fun t =>
            t.dev.fld (.d2d n e) Fld.D2D_STATE_UP = 0 ∧ t.dev.fld (.d2d n e) Fld.D2D_STATE_MODULES = 0 ∧
            t.dev.fldI .bly Fld.BLY_HOLD_CTL_ACTIVE 0 = 1 ∧ KeepsMemory s t))))) ∧
    (s.dev.present (.rgn n r) = true →
      ((s.dev.isl (256 * n + r)).on = true → s.dev.regionFree n r = true → Completes (.regionReinit n r) s (fun t =>
        (∀ i ∈ regionTiles r, (t.dev.tile n i).dirty = [] ∧ t.dev.lbState n i 0 = 0 ∧ t.dev.lbState n i 1 = 0 ∧ ∀ k, k < 8 → t.dev.cntOf (.tile n i) k = 0) ∧
        (∀ i, i / 128 ≠ r → i < 2048 → t.dev.tile n i = s.dev.tile n i) ∧ (∀ a, a < 2 ^ 56 → t.mem.rdByte a = s.mem.rdByte a) ∧ t.pending = s.pending)) ∧
      (s.dev.fld (.rgn n r) Fld.STATUS_FENCED = 1 → s.dev.regionFree n r = true →
        (∃ kv ∈ s.dev.parts, ∃ im, kv.2.image = some im ∧ s.dev.regionIn kv.1 n r = true ∧
          ∃ x ∈ (im.placement none).tiles, x.die = n ∧ x.inst / 128 = r) →
        (Completes (.regionReadmit n r true 0) s (fun t => t.dev.fld (.rgn n r) Fld.STATUS_FENCED = 0 ∧ (t.dev.isl (256 * n + r)).on = true ∧
          ∀ i ∈ regionTiles r, (t.dev.tile n i).dirty = []) ∧
         ∀ test, Completes (.regionReadmit n r false test) s (fun t => t.dev.fld (.rgn n r) Fld.STATUS_FENCED = 1 ∧
          bit (t.dev.fld (.rgn n r) Fld.ERR_STAT_BLOCK) 1 = true ∧ t.dev.tiles = s.dev.tiles ∧ KeepsMemory s t))) ∧
      (s.dev.live = true → ∀ part, Completes (.regionFault n [(r, part)]) s (fun t => t.dev.fld (.rgn n r) Fld.STATUS_FENCED = 1 ∧
        t.dev.fldI .bly Fld.BLY_HOLD_CTL_ACTIVE 0 = 1 ∧ (part = .supply → (t.dev.isl (256 * n + r)).on = false) ∧ KeepsMemory s t))) ∧
    (s.dev.live = true →
      (∀ r2 a b, s.dev.present (.rgn n r) = true → s.dev.present (.rgn n r2) = true → r2 ≠ r → Completes (.regionFault n [(r, a), (r2, b)]) s (fun t =>
        t.dev.fwState = 15 ∧ t.pending = s.pending)) ∧
      (∀ k, s.dev.hasTdie n = true → k < 3 → Completes (.hbmStackLoss n (some k)) s (fun t =>
        t.dev.fwState = 15 ∧ t.dev.fld (.hbmc n k) Fld.HBMC_STATE_FAILED = 1 ∧ t.pending = s.pending)) ∧
      (s.dev.hasTdie n = true → Completes (.hbmStackLoss n none) s (fun t => t.dev.fwState = 15 ∧ (t.dev.isl (256 * n)).on = false ∧ t.pending = s.pending)) ∧
      (∀ i, s.dev.hasIdie i = true →
        (s.dev.hasIdie (1 - i) = true → Completes (.idieFault i) s (fun t =>
          t.dev.out = s.dev.out ++ [.msg "recovery-through-idie" (1 - i) [i]] ∧ t.dev.reg = s.dev.reg ∧ KeepsMemory s t)) ∧
        (s.dev.hasIdie (1 - i) = false → Completes (.idieFault i) s (fun t => t.dev.fwState = 15 ∧ t.pending = s.pending))) ∧
      (∀ cause i, 1 ≤ cause → cause ≤ 8 → s.dev.fwState ≠ 15 → Completes (.deviceFatal cause i) s (fun t =>
        t.dev.fwState = 15 ∧ t.dev.fetched = [] ∧ t.dev.blocks = [] ∧ (∀ kv ∈ t.dev.parts, kv.2.runs = []) ∧
        t.dev.fldI .bly Fld.BLY_HOLD_CTL_ACTIVE 0 = 1 ∧ t.pending = s.pending))) ∧
    Completes .debugLeaseIdle s (fun t => ∀ p ∈ s.dev.leasePages, ∀ i, i < p.leases →
      t.dev.fldI p Fld.LEASE_STATE_STATE i = (if s.dev.fldI p Fld.LEASE_STATE_STATE i = 1 ∧ s.dev.fldI p Fld.LEASE_OWNER_OWNER i / 4096 = 5 then 2
        else s.dev.fldI p Fld.LEASE_STATE_STATE i) ∧
      t.dev.fldI p Fld.LEASE_OWNER_OWNER i = s.dev.fldI p Fld.LEASE_OWNER_OWNER i ∧ KeepsMemory s t)

/-- BELAY_INCREMENT_SEND, BELAY_INCREMENT_CHECK, COPY_ACKED, BELAY_ACK_TIMEOUT, BELAY_SEED, COPY_ACKED_REPORT and STATE_RESTORE. -/
def Obligations.CopiesAreAcknowledged : Prop :=
  ∀ (s : State) (n q p : Nat) (x : Partition), s.Canonical → s.dev.hasTdie n = true → q < 32 → s.dev.part q = some x →
    (s.dev.copyDue n q = some p → (∀ k, k < q → s.dev.copyDue n k = none) → Completes (.belayIncrementSend n q) s (fun t =>
      (∃ x', t.dev.part q = some x' ∧ Tbl.look x'.copySends n = some (p, 1) ∧ x'.lastPitch = x.lastPitch) ∧
      t.dev.fld (.tdie n) Fld.TDIE_COPY_BYTES = (s.dev.increment s.mem n q x).length % 2 ^ Fld.TDIE_COPY_BYTES.width ∧
      t.dev.fld (.tdie n) Fld.TDIE_COPY_STAT_PART = q ∧ KeepsMemory s t)) ∧
    (∀ i member area pkg pitch, s.dev.storeArea member q = some area → s.dev.present (.cvu i 1) = true →
      (∀ c, u c 4088 4 ≠ chunkCrc pkg pitch 0 (c.take 4088) → Completes (.belayIncrementCheck i member q n pkg pitch 1 false false [c]) s (fun t =>
        t.dev.stores = s.dev.stores ∧ .msg "belay-ack" member [q, n, pitch, 1] ∈ t.dev.out ∧ KeepsMemory s t)) ∧
      (∀ c st h, c.length = 4096 → u c 4088 4 = chunkCrc pkg pitch 0 (c.take 4088) → u c 4092 4 = 1 → Tbl.look s.dev.stores (64 * member + q) = some st →
        Tbl.look st.held n = some h → 256 * ((joinLines st.base h.2).length +
          ((Tbl.put st.held n (pitch, joinLines [] (copyLines 256 (c.take 4088)))).map fun kv => kv.2.2.length).sum) ≤ st.len →
        Completes (.belayIncrementCheck i member q n pkg pitch 1 false false [c]) s (fun t =>
          Tbl.look t.dev.stores (64 * member + q) = some { st with
            base := joinLines st.base h.2, basePitch := h.1, held := Tbl.put st.held n (pitch, joinLines [] (copyLines 256 (c.take 4088))) } ∧
          .msg "belay-ack" member [q, n, pitch, 0] ∈ t.dev.out ∧ KeepsMemory s t))) ∧
    (∀ sends, x.sent n = some (p, sends) → x.lastPitch = some p → x.ackDies.contains n = false →
      ((s.dev.copyState q = 2 ∨ s.dev.copyState q = 4) → (∀ k ∈ s.dev.copyDies q x, k = n ∨ x.ackDies.contains k = true) →
        Completes (.copyAcked n q (.pitch p)) s (fun t => t.dev.fldI .bly Fld.BLY_COPY_ACKED_PITCH q = p % 2 ^ 32 ∧ t.dev.copyState q = s.dev.copyState q ∧
          (∃ x', t.dev.part q = some x' ∧ x'.ackDies.contains n = true) ∧ KeepsMemory s t)) ∧
      ((s.dev.copyState q = 1 ∨ s.dev.copyState q = 2 ∨ s.dev.copyState q = 4) →
        (sends < 3 → Completes (.copyAcked n q .resend) s (fun t =>
          (∃ x', t.dev.part q = some x' ∧ Tbl.look x'.copySends n = some (p, sends + 1)) ∧ t.dev.copyState q = s.dev.copyState q ∧ KeepsMemory s t)) ∧
        (3 ≤ sends → Completes (.copyAcked n q .resend) s (fun t => t.dev.copyState q = 3 ∧ t.pending = s.pending)) ∧
        Completes (.copyAcked n q .refused) s (fun t => t.dev.copyState q = 3 ∧ bit (t.dev.fld (.tdie n) Fld.ERR_STAT_BLOCK) 1 = true ∧ t.pending = s.pending) ∧
        Completes (.belayAckTimeout n q) s (fun t => t.dev.copyState q = 3 ∧ t.pending = s.pending))) ∧
    (s.dev.copyState q = 0 → x.copies = true → s.dev.fwState = 7 → s.dev.dutyUp 2 = true → x.seedFinal = none → s.dev.pState q ≠ 4 → x.lastPitch = none →
      (s.dev.copyDest x).isSome = true → Completes (.belaySeed q) s (fun t =>
        t.dev.copyState q = 1 ∧ (∃ x', t.dev.part q = some x' ∧ x'.seedPass = 1 ∧ x'.seedFinal = none) ∧ KeepsMemory s t)) ∧
    (∀ member model pitch, (s.dev.crewRec member).isSome = true → member ≠ s.dev.ownIndex → Tbl.has s.dev.crew.lost member = false → x.copies = true →
      x.modelId = model → Completes (.copyAckedReport member model pitch true) s (fun t =>
        t.dev.part q = some { x with coupled := Tbl.put x.coupled member pitch } ∧ t.dev.reg = s.dev.reg ∧ KeepsMemory s t)) ∧
    (∀ im acked dst, x.image = some im → s.dev.dutyUp 2 = true → s.dev.fldI .bly Fld.BLY_HOLD_CTL_ACTIVE 0 = 0 → s.dev.crew.recovering = none →
      s.dev.copyDest x = some dst → x.lastPitch = some p →
      (2 ≤ s.dev.pState q → s.dev.pState q ≠ 7 → s.dev.copyState q = 0 → Completes (.stateRestore q acked []) s (fun t =>
        t.dev.pState q = 7 ∧ t.pending = s.pending)) ∧
      (s.dev.pState q = 2 → s.dev.copyState q ≠ 0 → dst.1 ≠ 64 →
        (acked = p → Completes (.stateRestore q acked []) s (fun t => t.dev.part q = some { x with lost := false } ∧ KeepsMemory s t)) ∧
        (acked ≠ p → acked ≠ (p + 2 ^ 32 - 1) % 2 ^ 32 → Completes (.stateRestore q acked []) s (fun t => t.dev.fwState = 15 ∧ t.pending = s.pending))))

/-- CREW_PULSE, CREW_LOSS_TIMEOUT, FATAL_MESSAGE, MEMBER_LOST and RECOVERY_PITCH (R564 to R567). -/
def Obligations.LossOfAMember : Prop :=
  ∀ (s : State) (k : Nat), s.Canonical →
    (s.dev.live = true → s.dev.fwState ≠ 15 → Completes .crewPulse s (fun t =>
      t.dev.out = s.dev.out ++ s.dev.pulseTo.map (fun j => .msg "crew-pulse" j [s.dev.ownIndex]) ∧ t.dev.reg = s.dev.reg ∧ KeepsMemory s t)) ∧
    (∀ c cause, s.dev.canDeclare k = true →
      (cause = 0 ∧ c = Instr.crewLossTimeout k false ∨ cause = 2 ∧ c = Instr.crewLossTimeout k true ∨ cause = 1 ∧ c = Instr.fatalMessage k) →
      Completes c s (fun t => Tbl.look t.dev.crew.lost k = some s.dev.clk.now ∧ bit (t.dev.fld .pkg Fld.PKG_CREW_MASK_MEMBERS) k = false ∧
        (∀ r ∈ s.dev.crew.members, r.index ≠ 0 → .msg "MEMBER_LOST" r.index [k, cause] ∈ t.dev.out) ∧ t.pending = s.pending)) ∧
    (∀ cause, s.dev.live = true → s.dev.cfg.straps.crewRole = 2 → (s.dev.crewRec k).isSome = true → Tbl.has s.dev.crew.lost k = false →
      (k = s.dev.ownIndex → Completes (.memberLost k cause) s (fun t => t.dev.fwState = 15 ∧ t.pending = s.pending)) ∧
      (k ≠ s.dev.ownIndex → Completes (.memberLost k cause) s (fun t => Tbl.look t.dev.crew.lost k = some s.dev.clk.now ∧ t.pending = s.pending))) ∧
    (∀ r, s.dev.live = true → Tbl.has s.dev.crew.lost k = true → (∀ kv ∈ s.dev.parts, kv.1 < 32) → Completes (.recoveryPitch k r) s (fun t =>
      t.dev.crew.recovering = some (k, r) ∧ t.pending = s.pending ∧
      ∀ q x, s.dev.part q = some x → Tbl.has x.coupled k = true → t.dev.pState q = 2 ∧ t.dev.pPitch q = (r + 1) % 2 ^ 32 ∧
        ∃ x', t.dev.part q = some x' ∧ x'.runs = [] ∧ Tbl.has x'.coupled k = false))

/-- TEL_WALK, CORR_BEACON, CORR_ECHO and CORR_ECHO_TIMEOUT (R75, R76, R597, R599). -/
def Obligations.WalksAndBeacons : Prop :=
  ∀ (s : State), s.Canonical →
    (s.dev.fld .tel Fld.TEL_CTRL_ENABLE = 0 → exec (.telWalk false) s = .next s) ∧
    (s.dev.fld .tel Fld.TEL_CTRL_ENABLE ≠ 0 → s.dev.live = true →
      (s.dev.tel.walking = false → s.dev.fld .tel Fld.TEL_CTRL_FREEZE ≠ 1 → Completes (.telWalk false) s (fun t =>
        t.dev.tel.snap = (s.dev.tel.snap + 1) % 2 ^ 32 ∧ t.dev.tel.records = [] ∧ t.dev.fld .tel Fld.TEL_STATE_BUF_B = 0 ∧
        (s.dev.app .tel Fld.TEL_LIST_BASE_VALID ≠ 1 → t.dev.tmWait.length = s.dev.tmWait.length + (packRecords (s.dev.telRoom - 32) [] s.dev.tel.records).length) ∧
        KeepsMemory s t)) ∧
      (s.dev.tel.walking = true → Completes (.telWalk false) s (fun t => t.dev.cntOf .tel 2 = (s.dev.cntOf .tel 2 + 1) % 2 ^ 64 ∧ t.dev.tel = s.dev.tel ∧
        RegsOnly s t)) ∧
      (s.dev.tel.walking = false → s.dev.fld .tel Fld.TEL_CTRL_FREEZE = 1 → s.dev.fldI .bly Fld.BLY_HOLD_CTL_ACTIVE 3 = 0 →
        Completes (.telWalk false) s (fun t => t.dev.tel.walking = true ∧ t.dev.fldI .bly Fld.BLY_HOLD_CTL_ACTIVE 3 = 1 ∧
          t.dev.fldI .bly Fld.BLY_HOLD_CTL_KIND 3 = 0 ∧ s.holdAsked t 3 ∧ KeepsMemory s t))) ∧
    (s.dev.tel.walking = true → s.dev.fldI .bly Fld.BLY_HOLD_STAT_DONE 3 = 1 → Completes (.telWalk true) s (fun t =>
      t.dev.tel.walking = false ∧ t.dev.tel.records = [] ∧ t.dev.tel.snap = (s.dev.tel.snap + 1) % 2 ^ 32 ∧
      t.dev.fldI .bly Fld.BLY_HOLD_CTL_ACTIVE 3 = 0 ∧ KeepsMemory s t)) ∧
    (s.dev.live = true → s.dev.fld .pkg Fld.PKG_CORR_CTRL_ENABLE = 1 → Completes .corrBeacon s (fun t =>
      t.dev.fld .pkg Fld.PKG_CORR_SEQ = (s.dev.fld .pkg Fld.PKG_CORR_SEQ + 1) % 2 ^ 32 ∧
      (∃ x, t.dev.corrs = s.dev.corrs ++ [x] ∧ x.seq = t.dev.fld .pkg Fld.PKG_CORR_SEQ ∧ x.issue = s.dev.stamp 0xF00 ∧ x.waiting = s.dev.allIslands) ∧
      KeepsMemory s t)) ∧
    (s.dev.fld .pkg Fld.PKG_CORR_CTRL_ENABLE ≠ 1 → exec .corrBeacon s = .next s) ∧
    (∀ x isl arrival, s.dev.corrs = [x] → (x.waiting.contains isl = true →
        ((∃ j ∈ x.waiting, j ≠ isl) → Completes (.corrEcho isl x.seq arrival) s (fun t =>
          t.dev.corrs = [{ x with waiting := x.waiting.filter (· ≠ isl) }] ∧ KeepsMemory s t)) ∧
        ((∀ j ∈ x.waiting, j = isl) → Completes (.corrEcho isl x.seq arrival) s (fun t => t.dev.corrs = [] ∧ KeepsMemory s t))) ∧
      Completes (.corrEchoTimeout x.seq) s (fun t => t.dev.corrs = [] ∧ KeepsMemory s t))

/-- HOST_COMPLETION, COMPLETION_TIMEOUT, MSIX_FUNCTION_MASK_CLEAR, BUS_MASTER_DISABLE, BUS_MASTER_ENABLE, BME_HOLD_EXPIRY, BME_CLEAR and BME_RESTORE. -/
def Obligations.HostReadsAndBusMastering : Prop :=
  ∀ (s : State) (tag f : Nat) (data : List Byte), s.Canonical →
    (∀ res poi, Tbl.look s.dev.hostReads tag = none → Completes (.hostCompletion tag data res poi) s (fun t =>
      t.dev.cntOf (.pcie 0) 6 = (s.dev.cntOf (.pcie 0) 6 + 1) % 2 ^ 64 ∧ t.dev.reg.cur = s.dev.reg.cur ∧ RegsOnly s t)) ∧
    (∀ r, Tbl.look s.dev.hostReads tag = some r → r.dead = false → r.late = false → r.poisoned = false →
      (r.got.length + data.length < r.len → Completes (.hostCompletion tag data .success false) s (fun t =>
        Tbl.look t.dev.hostReads tag = some { r with got := r.got ++ data } ∧ t.dev.xfers = s.dev.xfers ∧ KeepsMemory s t)) ∧
      (∀ x, s.dev.xfers = [x] → x.want = r.want → x.left = 1 → x.status = 0 → x.todo = [] →
        (∀ k, r.want = .data k →
          (r.got.length + data.length = r.len → Completes (.hostCompletion tag data .success false) s (fun t =>
            t.dev.xfers = [{ x with got := x.got ++ [(r.off, r.got ++ data)], left := 0 }] ∧ Tbl.look t.dev.hostReads tag = none ∧ KeepsMemory s t) ∧
            Completes (.hostCompletion tag data .success true) s (fun t =>
              t.dev.xfers = [{ x with left := 0, status := 0x0905 }] ∧ Tbl.look t.dev.hostReads tag = none ∧ KeepsMemory s t)) ∧
          Completes (.hostCompletion tag [] .unsupported false) s (fun t =>
            t.dev.xfers = [{ x with left := 0, status := 0x0902 }] ∧ Tbl.look t.dev.hostReads tag = none ∧ KeepsMemory s t) ∧
          Completes (.hostCompletion tag [] .abort false) s (fun t =>
            t.dev.xfers = [{ x with left := 0, status := 0x0903 }] ∧ bit (t.dev.fld (.pcie 0) Fld.ERR_STAT_BLOCK) 1 = true ∧ KeepsMemory s t) ∧
          Completes (.completionTimeout tag) s (fun t =>
            t.dev.xfers = [{ x with left := 0, status := 0x0904 }] ∧ bit (t.dev.fld (.pcie 0) Fld.ERR_STAT_BLOCK) 0 = true ∧ KeepsMemory s t)) ∧
        (∀ g q y, r.want = .entry g q → s.dev.queue g q = some y → x.got = [] → x.len = r.len → r.off = 0 → r.got = [] → data.length = r.len → 0 < r.len →
          Completes (.hostCompletion tag data .success false) s (fun t =>
            t.dev.fetched = s.dev.fetched ++ [⟨s.dev.nextFetch, g, q, (y.head + 1) % y.size, data⟩] ∧
            t.dev.queue g q = some { y with head := (y.head + 1) % y.size, stopped := false } ∧ t.dev.xfers = [] ∧ KeepsMemory s t)))) ∧
    (s.dev.funcLive f = true →
      (∀ v, v < 2048 → s.dev.msix.pba = [2048 * f + v] → f ∈ s.dev.msix.bme → s.dev.fldI (.msix f) Fld.MSIX_MASK v = 0 →
        Completes (.msixFunctionMaskClear f) s (fun t => f ∉ t.dev.msix.fmask ∧ t.dev.msix.pba = [] ∧
          .msix f v (s.dev.fldI (.msix f) Fld.MSIX_ADDR v) (s.dev.fldI (.msix f) Fld.MSIX_DATA v) ∈ t.dev.out ∧ KeepsMemory s t)) ∧
      (s.dev.busMaster f = true → Completes (.busMasterDisable f) s (fun t =>
        t.dev.busMaster f = false ∧ f ∈ t.dev.link.holding ∧ (∀ g, g ≠ f → t.dev.busMaster g = s.dev.busMaster g) ∧
        t.dev.fld (.pcie 0) Fld.PCIE_BME_STATE_HOLDING = 1 ∧ KeepsMemory s t)) ∧
      (s.dev.busMaster f = false → ∀ c, c = Instr.busMasterEnable f ∨ (c = Instr.bmeRestore f ∧ s.dev.cfg.straps.crewRole = 2) → Completes c s (fun t =>
        t.dev.busMaster f = true ∧ (c = Instr.busMasterEnable f → f ∉ t.dev.link.holding) ∧
        (∀ w, s.dev.heldW = [w] → w.func = f → s.dev.hostGone f = false → 0 < w.bytes.length → w.bytes.length ≤ s.dev.link.mps →
          w.addr % 4096 + w.bytes.length ≤ 4096 → t.dev.heldW = [] ∧ .hostWrite f w.addr w.bytes ∈ t.dev.out) ∧ KeepsMemory s t))) ∧
    (s.dev.cfg.straps.crewRole = 2 → Completes (.bmeClear f) s (fun t => t.dev.busMaster f = false ∧ t.dev.reg = s.dev.reg ∧ KeepsMemory s t)) ∧
    (f ∈ s.dev.link.holding → Completes (.bmeHoldExpiry f) s (fun t =>
      f ∉ t.dev.link.holding ∧ f ∈ t.dev.link.expired ∧ t.dev.fld (.pcie 0) Fld.PCIE_BME_STATE_EXPIRED = 1 ∧
      bit (t.dev.fld (.pcie 0) Fld.ERR_STAT_BLOCK) 4 = true ∧
      (s.dev.fwState = 7 → t.dev.fwState = 8 ∧ t.dev.fld .pkg Fld.PKG_HOST_STATE_CAUSE = 2) ∧ t.pending = s.pending))

/-- PF_FLR, VF_FLR, FLR_DRAIN_LIMIT, VF_ENABLE_WRITE, D3HOT_ENTRY, D0_ENTRY, CREW_DSTATE, WAKE_EVENT, WAKE, L0P_NARROW, L0P_WIDEN, L1_ENTRY and
PME_TURN_OFF. -/
def Obligations.FunctionResetsAndPowerStates : Prop :=
  ∀ (s : State) (n : Nat), s.Canonical → (∀ kv ∈ s.dev.parts, kv.1 < 32) →
    (0 < n → n < 128 → s.dev.funcLive n = true → n ∉ s.dev.link.flr → Completes (.vfFlr n) s (fun t =>
      (∀ x ∈ t.dev.fetched, x.func ≠ n) ∧ (∀ x ∈ t.dev.xfers, x.func ≠ n) ∧ t.pending = s.pending ∧
      (s.dev.flrDrained n = true → n ∉ t.dev.link.flr ∧ (∀ q, q < 65536 → t.dev.queue n q = none) ∧ t.dev.fld (.vf n) Fld.VF_STATE_FLR = 0 ∧
        ∀ q x, s.dev.part q = some x → x.func = n → ∃ x', t.dev.part q = some x' ∧ x'.func = 0 ∧ x'.image = none) ∧
      (s.dev.flrDrained n = false → n ∈ t.dev.link.flr ∧ t.dev.queues = s.dev.queues ∧ t.dev.fld (.vf n) Fld.VF_STATE_FLR = 1))) ∧
    (0 ∉ s.dev.link.flr → (∀ kv ∈ s.dev.parts, s.dev.pState kv.1 ≠ 3 ∧ s.dev.pState kv.1 ≠ 4 ∧ s.dev.pState kv.1 ≠ 5) → Completes .pfFlr s (fun t =>
      (∀ v, 1 ≤ v → v < 128 → t.dev.flag (.vf v) Fld.VF_STATE_ENABLED = false) ∧ (∀ q, q < 65536 → t.dev.queue 0 q = none) ∧ 0 ∉ t.dev.link.flr ∧
      (s.dev.fwState = 7 → t.dev.fwState = 8 ∧ t.dev.fld .pkg Fld.PKG_HOST_STATE_CAUSE = 3) ∧ t.pending = s.pending)) ∧
    (n < 128 → n ∈ s.dev.link.flr → (∀ kv ∈ s.dev.partsOf n, s.dev.pState kv.1 ≠ 4) → Completes (.flrDrainLimit n) s (fun t =>
      n ∉ t.dev.link.flr ∧ (∀ q, q < 65536 → t.dev.queue n q = none) ∧ t.pending = s.pending)) ∧
    (∀ count, (s.dev.link.vfEnable = false → Completes (.vfEnableWrite true count) s (fun t => t.dev.link.vfEnable = true ∧
        (∀ v, 1 ≤ v → v ≤ 127 → v ≤ count → t.dev.funcLive v = true) ∧ KeepsMemory s t)) ∧
      Completes (.vfEnableWrite false count) s (fun t => t.dev.link.vfEnable = false ∧
        (∀ v, 1 ≤ v → v < 128 → t.dev.flag (.vf v) Fld.VF_STATE_ENABLED = false) ∧ KeepsMemory s t)) ∧
    (s.dev.live = true →
      (∀ c, (c = Instr.d3hotEntry ∨ (c = Instr.crewDstate true ∧ s.dev.cfg.straps.crewRole = 2)) → s.dev.fld (.pcie 0) Fld.PCIE_LINK_STATE_DSTATE ≠ 3 →
        Completes c s (fun t => t.dev.fld (.pcie 0) Fld.PCIE_LINK_STATE_DSTATE = 3 ∧
          (s.dev.fwState = 7 → t.dev.fwState = 8 ∧ t.dev.fld .pkg Fld.PKG_HOST_STATE_CAUSE = 4) ∧ t.pending = s.pending)) ∧
      (∀ c, (c = Instr.d0Entry ∨ (c = Instr.crewDstate false ∧ s.dev.cfg.straps.crewRole = 2)) → s.dev.fld (.pcie 0) Fld.PCIE_LINK_STATE_DSTATE ≠ 0 →
        Completes c s (fun t => t.dev.fld (.pcie 0) Fld.PCIE_LINK_STATE_DSTATE = 0 ∧
          (s.dev.fwState = 8 → s.dev.fld .pkg Fld.PKG_HOST_STATE_CAUSE = 4 → t.dev.fwState = 7) ∧
          (∀ d k, d ∈ s.dev.model.tdies → k < 3 → t.dev.fld (.hbmc d k) Fld.HBMC_STATE_SELF_REFRESH = 0) ∧ KeepsMemory s t)) ∧
      (∀ src, s.dev.link.pmeEn = true → s.dev.wakeOn src = true → 6 ≤ s.dev.pwr.groups → Completes (.wakeEvent src) s (fun t =>
        t.dev.link.pmeStatus = true ∧ .msg "PM_PME" 0 [] ∈ t.dev.out ∧ KeepsMemory s t)) ∧
      (s.dev.link.pmeEn = true → s.dev.wakeOn .mgmt = true → 6 ≤ s.dev.pwr.groups → s.dev.pwr.aux = true → Completes .wake s (fun t =>
        t.dev.link.pmeStatus = true ∧ .msg "mgmt-ok" 0 [] ∈ t.dev.out ∧ KeepsMemory s t)) ∧
      (s.dev.fld (.pcie 0) Fld.PCIE_LINK_STATE_FLIT = 1 → s.dev.link.l0pOk = true → s.dev.fld (.pcie 0) Fld.PCIE_LINK_CTRL_L0P_EN = 1 →
        s.dev.fld (.pcie 0) Fld.PCIE_LINK_STATE_L1 ≠ 1 → 4 ≤ s.dev.fld (.pcie 0) Fld.PCIE_LINK_STATE_ACTIVE →
        s.dev.fld (.pcie 0) Fld.PCIE_LINK_STATE_ACTIVE ≤ 16 → Completes .l0pNarrow s (fun t =>
          t.dev.fld (.pcie 0) Fld.PCIE_LINK_STATE_ACTIVE = s.dev.fld (.pcie 0) Fld.PCIE_LINK_STATE_ACTIVE / 2 ∧ RegsOnly s t)) ∧
      (s.dev.fld (.pcie 0) Fld.PCIE_LINK_STATE_ACTIVE ≠ s.dev.fld (.pcie 0) Fld.PCIE_LINK_STATE_WIDTH →
        s.dev.fld (.pcie 0) Fld.PCIE_LINK_STATE_WIDTH ≤ 16 → Completes .l0pWiden s (fun t =>
          t.dev.fld (.pcie 0) Fld.PCIE_LINK_STATE_ACTIVE = s.dev.fld (.pcie 0) Fld.PCIE_LINK_STATE_WIDTH ∧ RegsOnly s t)) ∧
      (s.dev.fld (.pcie 0) Fld.PCIE_LINK_STATE_L1 ≠ 1 → s.dev.link.l1Ok = true → Completes .l1Entry s (fun t =>
        t.dev.fld (.pcie 0) Fld.PCIE_LINK_STATE_L1 = 1 ∧ RegsOnly s t)) ∧
      Completes .pmeTurnOff s (fun t => t.dev.link.l2 = true ∧ .msg "PME_TO_Ack" 0 [] ∈ t.dev.out ∧ KeepsMemory s t)) ∧
    (∀ src, s.dev.wakeOn src = false → Completes (.wakeEvent src) s (fun t => t = s))

/-- IMPORT_KW, IMPORT_KEM, ERASE, GET_PUBLIC, ATTEST, MIGRATE, ZEROIZE, RANDOM, EXTEND and VENDOR_CMD; the order of the checks is the model's choice (log
entry 17). -/
def Obligations.VaultSessions : Prop :=
  ∀ (s : State) (r : Req) (i sn : Nat) (cox : Bool) (q : VReq), s.Canonical →
    (s.Request r i sn cox q → (∀ c, (q.op = 1 ∧ c = Instr.importKw r i sn ∨ q.op = 2 ∧ c = Instr.importKem r i sn) →
      (s.dev.vaultRefuse i q ≠ 0 → Completes c s (fun t => SessionEnds t i sn (s.dev.vaultRefuse i q) ∧ (t.dev.vault i).slots = (s.dev.vault i).slots)) ∧
      (s.dev.vaultRefuse i q = 0 → (s.dev.vault i).sess.length < 4 → Completes c s (fun t =>
        (t.dev.slot i q.slot).st = 1 ∧ (t.dev.slot i q.slot).typ = q.typ ∧ (t.dev.slot i q.slot).owner = q.owner ∧
        (∀ k, k ≠ q.slot → t.dev.slot i k = s.dev.slot i k) ∧ t.dev.fldI (.kvt i) Fld.KVT_SESS_CTL_BUSY sn = 1 ∧
        (Tbl.look (t.dev.vault i).sess sn).map (fun x => parseVReq x.req x.cox) = some q ∧ KeepsMemory s t))) ∧
    (∀ c, (q.op = 3 ∧ c = Instr.erase r i sn ∨ q.op = 4 ∧ c = Instr.getPublic r i sn ∨ q.op = 5 ∧ c = Instr.attest r i sn ∨
        q.op = 6 ∧ (∃ a, c = Instr.migrate r i sn a) ∨ q.op = 7 ∧ c = Instr.zeroize r i sn ∨ q.op = 8 ∧ c = Instr.random r i sn ∨
        q.op = 9 ∧ c = Instr.extend r i sn ∨ q.op = 10 ∧ c = Instr.vendorCmd r i sn) →
      s.dev.vaultRefuse i q ≠ 0 → Completes c s (fun t => SessionEnds t i sn (s.dev.vaultRefuse i q) ∧ t.dev.vaults = Tbl.put s.dev.vaults i (t.dev.vault i) ∧
        (t.dev.vault i).slots = (s.dev.vault i).slots ∧ (t.dev.vault i).meas = (s.dev.vault i).meas)) ∧
    (s.dev.vaultRefuse i q = 0 →
      (q.op = 3 → Completes (.erase r i sn) s (fun t => SessionEnds t i sn 0 ∧ (t.dev.slot i q.slot).st = 0 ∧
        ∀ k, k ≠ q.slot → t.dev.slot i k = s.dev.slot i k)) ∧
      (q.op = 4 → Completes (.getPublic r i sn) s (fun t => SessionEnds t i sn 0 ∧ (t.dev.vault i).slots = (s.dev.vault i).slots)) ∧
      (q.op = 5 → Completes (.attest r i sn) s (fun t => SessionEnds t i sn 0 ∧ (t.dev.vault i).slots = (s.dev.vault i).slots ∧
        t.dev.cntOf (.kvt i) 4 = (s.dev.cntOf (.kvt i) 4 + 1) % 2 ^ 64)) ∧
      (q.op = 6 →
        Completes (.migrate r i sn false) s (fun t => SessionEnds t i sn 0x130C ∧ (t.dev.vault i).slots = (s.dev.vault i).slots) ∧
        (i < 2 → s.dev.hasIdie (1 - i) = true → s.dev.fld (.kvt (1 - i)) Fld.KVT_STATE_VAULT = 1 → (s.dev.slot i q.slot).st = 2 → (s.dev.slot i q.slot).typ ≠ 1 →
          (s.dev.slot (1 - i) q.wrap).st = 0 → Completes (.migrate r i sn true) s (fun t => SessionEnds t i sn 0 ∧
            t.dev.slot (1 - i) q.wrap = s.dev.slot i q.slot ∧ t.dev.slot i q.slot = emptySlot))) ∧
      (q.op = 7 → Completes (.zeroize r i sn) s (fun t => SessionEnds t i sn 0 ∧ ∀ k n, k ∈ s.dev.model.idies → (t.dev.slot k n).st = 0)) ∧
      (q.op = 8 → Completes (.random r i sn) s (fun t => SessionEnds t i sn 0 ∧ (t.dev.vault i).slots = (s.dev.vault i).slots)) ∧
      (q.op = 9 → Completes (.extend r i sn) s (fun t => SessionEnds t i sn 0 ∧
        t.dev.measOf i q.slot = toLen 64 (Config.shake256 (s.dev.measOf i q.slot ++ q.payload) 64) ∧
        (∀ k, k ≠ q.slot → t.dev.measOf i k = s.dev.measOf i k) ∧ (t.dev.vault i).slots = (s.dev.vault i).slots)) ∧
      (q.op = 10 →
        (∀ v, Config.vendorCmd q.payload = some (1, v) → s.dev.fld (.kvt i) Fld.KVT_FUSE_SVN < v → v ≤ 64 → Completes (.vendorCmd r i sn) s (fun t =>
          SessionEnds t i sn 0 ∧ ∀ k ∈ s.dev.model.idies, t.dev.fld (.kvt k) Fld.KVT_FUSE_SVN = v)) ∧
        (Config.vendorCmd q.payload = none → Completes (.vendorCmd r i sn) s (fun t => SessionEnds t i sn 0x130D ∧
          t.dev.fld (.kvt i) Fld.KVT_FUSE_SVN = s.dev.fld (.kvt i) Fld.KVT_FUSE_SVN))))) ∧
    (∀ (x : SessCmd), sn < 16 → s.dev.present (.kvt i) = true → s.dev.mayAccess r (.kvt i) = true →
      Tbl.look (s.dev.vault i).sess sn = some x → parseVReq x.req x.cox = q → s.dev.fld (.kvt i) Fld.KVT_STATE_VAULT = 1 →
      ∀ c, (q.op = 1 ∧ c = Instr.importKw r i sn ∨ q.op = 2 ∧ c = Instr.importKem r i sn) →
        (∀ k, s.dev.importedKey i q = .ok k → q.typ = 3 → Completes c s (fun t => SessionEnds t i sn 0 ∧
          t.dev.slot i q.slot = ⟨3, 2, q.owner, decide (q.scope = 1), q.salt, 0, k⟩)) ∧
        (∀ code, s.dev.importedKey i q = .error code → Completes c s (fun t => SessionEnds t i sn code ∧ t.dev.slot i q.slot = emptySlot)))

/-- VAULT_ALARM, ALARM_CLEAR, VAULT_REINIT, DRBG_RESEED, ENTROPY_FAIL, DRBG_RETRY, DEBUG_CHALLENGE_READ, DEBUG_RESPONSE, DEBUG_PORT_ACCESS, CPH_JOB,
CPH_JOB_DONE, DDR_XTS_WRITE and DDR_XTS_RESUME. -/
def Obligations.AlarmsDebugAndCiphers : Prop :=
  ∀ (s : State) (i : Nat), s.Canonical → i < 2 → s.dev.present (.kvt i) = true →
    (∀ cause, cause < 6 → Completes (.vaultAlarm i cause) s (fun t =>
      bit (t.dev.fld (.kvt i) Fld.KVT_ALARM_CAUSE) cause = true ∧ t.dev.fld (.kvt i) Fld.KVT_STATE_VAULT = 2 ∧ (∀ n, (t.dev.slot i n).st = 0) ∧
      (s.dev.hasIdie (1 - i) = true → bit (t.dev.fld (.kvt (1 - i)) Fld.KVT_ALARM_CAUSE) 6 = true ∧ t.dev.fld (.kvt (1 - i)) Fld.KVT_STATE_VAULT = 2) ∧
      t.pending = s.pending)) ∧
    (∀ r mask present, s.dev.mayAccess r (.kvt i) = true → s.dev.fld (.kvt i) Fld.KVT_ALARM_CAUSE < 128 → Completes (.alarmClear r i mask present) s (fun t =>
      (∀ k, k < 6 → bit (t.dev.fld (.kvt i) Fld.KVT_ALARM_CAUSE) k =
        (bit (s.dev.fld (.kvt i) Fld.KVT_ALARM_CAUSE) k && !(bit mask k && !bit present k))) ∧ t.dev.vaults = s.dev.vaults ∧ RegsOnly s t)) ∧
    (s.dev.fld (.kvt i) Fld.KVT_STATE_VAULT = 2 → s.dev.fld (.kvt i) Fld.KVT_ALARM_CAUSE = 0 → Completes (.vaultReinit i 0) s (fun t =>
      t.dev.fld (.kvt i) Fld.KVT_STATE_VAULT = 1 ∧ t.dev.fld (.kvt i) Fld.KVT_SELFTEST_PASS = 1 ∧ t.dev.fld (.kvt i) Fld.KVT_STATE_DRBG_OK = 1 ∧ KeepsMemory s t)) ∧
    (s.dev.fld (.kvt i) Fld.KVT_STATE_DRBG_OK = 1 → Completes (.drbgReseed i) s (fun t =>
      t.dev.cntOf (.kvt i) 5 = (s.dev.cntOf (.kvt i) 5 + 1) % 2 ^ 64 ∧ t.dev.reg.cur = s.dev.reg.cur ∧ RegsOnly s t)) ∧
    Completes (.entropyFail i) s (fun t => t.dev.fld (.kvt i) Fld.KVT_STATE_DRBG_OK = 0 ∧ t.dev.fld (.kvt i) Fld.KVT_STATE_APPROVED = 0 ∧
      t.dev.cntOf (.kvt i) 6 = (s.dev.cntOf (.kvt i) 6 + 1) % 2 ^ 64 ∧ bit (t.dev.fld (.kvt i) Fld.ERR_STAT_BLOCK) 2 = true ∧ ReportsOnly s t) ∧
    (s.dev.fld (.kvt i) Fld.KVT_STATE_VAULT = 1 → Completes (.drbgRetry i true) s (fun t => t.dev.fld (.kvt i) Fld.KVT_STATE_DRBG_OK = 1 ∧ RegsOnly s t)) ∧
    Completes (.debugChallengeRead i) s (fun t => (t.dev.vault i).chal = leNats 32 s.dev.freeVal ++ leNats 16 Config.serial ∧
      t.dev.out = s.dev.out ++ [.bytes "debug-challenge" i ((t.dev.vault i).chal.map (BitVec.ofNat 8))] ∧ KeepsMemory s t) ∧
    (∀ k pub sig,
      (bit (s.dev.fld (.kvt i) Fld.KVT_FUSE_KEY_REVOKED) k = true → Completes (.debugResponse i k pub sig) s (fun t =>
        (t.dev.vault i).dbgTries = (s.dev.vault i).dbgTries + 1 ∧ t.dev.cntOf (.kvt i) 7 = (s.dev.cntOf (.kvt i) 7 + 1) % 2 ^ 64 ∧
        t.dev.fld (.kvt i) Fld.KVT_STATE_DEBUG_OPEN = s.dev.fld (.kvt i) Fld.KVT_STATE_DEBUG_OPEN ∧
        ((s.dev.vault i).dbgTries = 2 → bit (t.dev.fld (.kvt i) Fld.KVT_ALARM_CAUSE) 4 = true) ∧ t.pending = s.pending)) ∧
      (k < 2 → bit (s.dev.fld (.kvt i) Fld.KVT_FUSE_KEY_REVOKED) k = false → toLen 32 (Config.shake256 pub 32) = toLen 32 (Config.vendorKeyHash k) →
        (s.dev.vault i).chal ≠ [] → Config.falconVerify pub (s.dev.vault i).chal sig = true → Completes (.debugResponse i k pub sig) s (fun t =>
          (∀ j ∈ s.dev.model.idies, t.dev.fld (.kvt j) Fld.KVT_STATE_DEBUG_OPEN = 1 ∧ t.dev.fld (.kvt j) Fld.KVT_STATE_APPROVED = 0 ∧
            (s.dev.fld (.kvt i) Fld.KVT_STATE_LIFECYCLE = 1 → ∀ n, (t.dev.slot j n).st = 0)) ∧ KeepsMemory s t))) ∧
    (s.dev.fld (.kvt i) Fld.KVT_STATE_LIFECYCLE = 1 → s.dev.fld (.kvt i) Fld.KVT_STATE_DEBUG_OPEN ≠ 1 → Completes (.debugPortAccess i) s (fun t =>
      bit (t.dev.fld (.kvt i) Fld.KVT_ALARM_CAUSE) 4 = true ∧ t.dev.fld (.kvt i) Fld.KVT_STATE_VAULT = 2 ∧ t.pending = s.pending)) ∧
    (∀ r j, s.dev.mayAccess r (.cph i) = true → s.dev.present (.cph i) = true → j < 4 → s.dev.fldI (.cph i) Fld.CPH_JOB_CTL_BUSY j = 0 →
      (s.dev.jobUse i j = 0 → Completes (.cphJob r i j) s (fun t => t.dev.fldI (.cph i) Fld.CPH_JOB_CTL_BUSY j = 1 ∧
        t.dev.fldI (.cph i) Fld.CPH_JOB_CTL_RESULT j = 0 ∧ RegsOnly s t)) ∧
      (s.dev.jobUse i j ≠ 0 → Completes (.cphJob r i j) s (fun t => t.dev.fldI (.cph i) Fld.CPH_JOB_CTL_BUSY j = 0 ∧
        t.dev.fldI (.cph i) Fld.CPH_JOB_CTL_RESULT j = s.dev.jobUse i j ∧ RegsOnly s t))) ∧
    (∀ j n, s.dev.present (.cph i) = true → j < 4 → s.dev.fldI (.cph i) Fld.CPH_JOB_CTL_BUSY j = 1 → s.dev.jobUse i j = 0 → s.dev.ddrUndef = [] →
      s.dev.fldI (.cph i) Fld.CPH_JOB_CFG_DECRYPT j = 0 → n = s.dev.fldI (.cph i) Fld.CPH_JOB_CFG_SLOT j →
      s.dev.inMemory (s.dev.fldI (.cph i) Fld.CPH_JOB_SRC j) (s.dev.fldI (.cph i) Fld.CPH_JOB_CFG_AAD_LEN j + s.dev.fldI (.cph i) Fld.CPH_JOB_LEN j) = true →
      s.dev.cleanRange (s.dev.fldI (.cph i) Fld.CPH_JOB_SRC j) (s.dev.fldI (.cph i) Fld.CPH_JOB_CFG_AAD_LEN j + s.dev.fldI (.cph i) Fld.CPH_JOB_LEN j) →
      isHost (s.dev.fldI (.cph i) Fld.CPH_JOB_SRC j) = false → isHost (s.dev.fldI (.cph i) Fld.CPH_JOB_DST j) = false →
      s.dev.jobAddr (s.dev.fldI (.cph i) Fld.CPH_JOB_DST j) (s.dev.fldI (.cph i) Fld.CPH_JOB_LEN j) = true → Completes (.cphJobDone i j []) s (fun t =>
        t.dev.fldI (.cph i) Fld.CPH_JOB_CTL_BUSY j = 0 ∧ t.dev.fldI (.cph i) Fld.CPH_JOB_CTL_RESULT j = 1 ∧ t.dev.slot i n = (s.dev.slot i n).issue ∧
        KeepsOutside (s.dev.fldI (.cph i) Fld.CPH_JOB_DST j) (s.dev.fldI (.cph i) Fld.CPH_JOB_LEN j) s t)) ∧
    (∀ r ch v, s.dev.mayAccess r (.ddr i ch) = true →
      (s.dev.fld (.ddr i ch) Fld.STATUS_HALTED ≠ 1 → Completes (.ddrXtsWrite r i ch v) s (fun t =>
        t.dev.fld (.ddr i ch) Fld.ERR_STAT_H_WRITE = 1 ∧ t.dev.fld (.ddr i ch) Fld.DDR_XTS_ENABLE = s.dev.fld (.ddr i ch) Fld.DDR_XTS_ENABLE ∧
        t.dev.ddrUndef = s.dev.ddrUndef ∧ KeepsMemory s t)) ∧
      (s.dev.fld (.ddr i ch) Fld.STATUS_HALTED = 1 → bit v 0 = false → s.dev.fld (.ddr i ch) Fld.DDR_XTS_ENABLE = 1 → Completes (.ddrXtsWrite r i ch v) s (fun t =>
        t.dev.fld (.ddr i ch) Fld.DDR_XTS_ENABLE = 0 ∧ t.dev.fld (.ddr i ch) Fld.DDR_XTS_SLOT = bits v 16 12 ∧
        t.dev.fld (.ddr i ch) Fld.DDR_STATE_KEY_LOST = 0 ∧ (∃ u, Tbl.look t.dev.ddrUndef (8 * i + ch) = some u ∧ u.fresh = []) ∧ KeepsMemory s t)) ∧
      (∀ k, s.dev.fld (.ddr i ch) Fld.DDR_STATE_KEY_LOST = 1 → k = s.dev.slot i (s.dev.fld (.ddr i ch) Fld.DDR_XTS_SLOT) → k.pkg = true → k.use 4 0 true = 0 →
        (Config.xtsKcv k.key % 2 ^ 64 = s.dev.fld (.ddr i ch) Fld.DDR_XTS_KCV_KCV → Completes (.ddrXtsResume r i ch) s (fun t =>
          t.dev.fld (.ddr i ch) Fld.DDR_STATE_KEY_LOST = 0 ∧ RegsOnly s t)) ∧
        (Config.xtsKcv k.key % 2 ^ 64 ≠ s.dev.fld (.ddr i ch) Fld.DDR_XTS_KCV_KCV → Completes (.ddrXtsResume r i ch) s (fun t =>
          t.dev.fld (.ddr i ch) Fld.DDR_STATE_KEY_LOST = 1 ∧ bit (t.dev.fld (.ddr i ch) Fld.ERR_STAT_BLOCK) 3 = true ∧ KeepsMemory s t))))

/-- GFT_WRITE, GFT_READ, GFT_SEND, GFT_FETCH_ADD, GFT_CMP_SWAP, GFT_REDUCE, GFT_POST_RECV and GFT_PACKET_SEND. -/
def Obligations.GftRequestsAndPackets : Prop :=
  ∀ (s : State) (f q id : Nat), s.Canonical →
    (∀ (x : Fetched) (o : Nat) (cmd : Instr) (need : Nat), s.entryOf f q 5 x → x.num 0 1 = o → x.num 4 4 = id →
      (o = 0x01 ∧ cmd = Instr.gftWrite f q ∨ o = 0x02 ∧ cmd = Instr.gftRead f q ∨ o = 0x04 ∧ cmd = Instr.gftSend f q ∨ o = 0x05 ∧ cmd = Instr.gftFetchAdd f q ∨
        o = 0x06 ∧ cmd = Instr.gftCmpSwap f q ∨ o = 0x08 ∧ cmd = Instr.gftReduce f q) → need = (if o = 5 ∨ o = 6 then 8 else x.num 28 4) →
      (∀ c, s.dev.conn id = some c → c.func = f → c.st ≠ 2 → c.st ≠ 3 → s.dev.reqRoom c.owner = true →
        (x.unusedZero o = true → x.sizeOk o = true → (need ≠ 0 → s.dev.funcMem f (x.num 8 8) need = true) →
          ((o = 5 ∨ o = 6) → (c.reqs.filter fun r => decide (r.op = 5 ∨ r.op = 6)).length < 16) →
          Completes cmd s (fun t => (∃ c' r y, t.dev.conn id = some c' ∧ c'.reqs = c.reqs ++ [r] ∧ c'.msgs = c.msgs ++ [y] ∧
            c'.nextMsn = (c.nextMsn + 1) % 2 ^ 32 ∧ r.op = o ∧ r.msn = c.nextMsn ∧ r.len = need ∧ r.status = none ∧
            r.client = .queue f q x.head (x.num 2 2) (bit (x.num 1 1) 3) ∧ y.req = r.id ∧ y.op = o ∧ y.msn = c.nextMsn ∧ y.len = need ∧ y.off = 0) ∧
            t.dev.fetched = s.dev.fetched.filter (fun y => decide (y.id ≠ x.id)) ∧ KeepsMemory s t)) ∧
        ((x.unusedZero o = false ∨ x.sizeOk o = false) → c.reqs = [] → s.dev.ddrUndef = [] → Completes cmd s (fun t =>
          Answers s t f q x.head (statusBody (x.num 2 2) 0x010F ++ leBytes 8 0) ∧ SlotOnly s t f q))) ∧
      (s.dev.conn id = none → s.dev.ddrUndef = [] → Completes cmd s (fun t =>
        Answers s t f q x.head (statusBody (x.num 2 2) 0x010A ++ leBytes 8 0) ∧ SlotOnly s t f q))) ∧
    (∀ (x : Fetched) (c : Conn), s.entryOf f q 5 x → x.num 0 1 = 0x10 → x.num 4 4 = id → s.dev.conn id = some c → c.func = f → c.st ≠ 2 → c.st ≠ 3 →
      s.dev.reqRoom c.owner = true → x.unusedZero 0x10 = true → x.sizeOk 0x10 = true → (x.num 28 4 ≠ 0 → s.dev.funcMem f (x.num 8 8) (x.num 28 4) = true) →
      c.bufs.length < 4096 → c.reqs = [] → bit (x.num 1 1) 3 = false → Completes (.gftPostRecv f q) s (fun t =>
        t.dev.conn id = some { c with bufs := c.bufs ++ [⟨f, q, x.head, x.num 2 2, x.num 8 8, x.num 28 4⟩] } ∧ KeepsMemory s t)) ∧
    (∀ c msg n p k, s.dev.conn id = some c → c.st = 0 ∨ c.st = 3 → c.enc = none → (c.unacked.find? (fun x => x.lost && !x.waiting)) = none →
      s.dev.nextNew c = some (msg, n) → s.payloadIs msg n p → (n = 0 → p = []) → c.pickPath none = some k → k < c.paths.length →
      Completes (.gftPacketSend id) s (fun t =>
        (∃ c', t.dev.conn id = some c' ∧ c'.unacked = c.unacked ++ [⟨c.nextPsn, msg, n, k, s.dev.clk.now, 1, false, 0, none, false⟩] ∧
          c'.nextPsn = (c.nextPsn + 1) % 2 ^ 32 ∧ c'.reqs = c.reqs ∧
          (hasPayload msg.op = true → msg.off + n < msg.len → c'.msgs = { msg with off := msg.off + n } :: c.msgs.tail)) ∧
        SendsOn s t c k c.nextPsn msg.gen (baseHeader msg.op (pktFlags msg.flags (!hasPayload msg.op || decide (msg.off = 0))
          (!hasPayload msg.op || decide (msg.len ≤ msg.off + n)) false false) (s.dev.fld .pkg Fld.PKG_ID_ID) c.rconn c.nextPsn msg.msn msg.off msg.pitch
          msg.attempt k n (s.dev.gftStamp c.owner % 2 ^ 32)) msg.ext p ∧ KeepsMemory s t)) ∧
    (∀ c x p k, s.dev.conn id = some c → c.st = 0 ∨ c.st = 3 → c.enc = none → (c.unacked.find? (fun x => x.lost && !x.waiting)) = some x →
      s.payloadIs x.msg x.len p → (x.len = 0 → p = []) → c.pickPath (some x.path) = some k → k < c.paths.length →
      Completes (.gftPacketSend id) s (fun t =>
        (∃ c', t.dev.conn id = some c' ∧ c'.nextPsn = c.nextPsn ∧ c'.msgs = c.msgs ∧ c'.reqs = c.reqs ∧
          c'.unacked = c.unacked.map (fun y => if y.psn = x.psn then
            { x with path := k, sentAt := s.dev.clk.now, sends := x.sends + 1, lost := false } else y)) ∧
        (∃ y fr, c.paths[k]? = some y ∧ t.dev.tmWait = s.dev.tmWait ++ [fr] ∧ fr.port = y.port) ∧ KeepsMemory s t))

/-- PORT_UP, PORT_DOWN, PORT_NARROWED, FEC_WINDOW, ACK_DELAY_EXPIRY, RTO_EXPIRY, RNR_DELAY_EXPIRY, BUSY_LIMIT_EXPIRY, PROBE_TIMEOUT, PROBE_INTERVAL,
CONTEXT_FETCH_DONE and CONN_MOVE. -/
def Obligations.PathsPortsAndTimers : Prop :=
  ∀ (s : State) (i p id psn k : Nat), s.Canonical →
    (i < 2 → s.dev.present (.eth i p) = true → (∀ j c, s.dev.conn j = some c → c.owner < 2) →
      (∀ sp g, s.dev.fld (.eth i p) Fld.ETH_STATE_UP = 0 →
        portMode (s.dev.fld (.eth i p) Fld.ETH_MODE_SPEED) (s.dev.fld (.eth i p) Fld.ETH_MODE_GROUP) (s.dev.fld (.eth i p) Fld.ETH_STATE_FAILED) = some (sp, g) → sp < 4 → g < 8 →
        (s.dev.fld (.eth i p) Fld.ETH_STATE_FAILED = 0 ∨ s.dev.fld (.eth i p) Fld.ETH_MODE_AUTO_NARROW = 1 → Completes (.portUp i p) s (fun t =>
          t.dev.fld (.eth i p) Fld.ETH_STATE_UP = 1 ∧ t.dev.fld (.eth i p) Fld.ETH_STATE_SPEED = sp ∧ t.dev.fld (.eth i p) Fld.ETH_STATE_GROUP = g ∧
          t.dev.conns = s.dev.conns ∧ t.pending = s.pending)) ∧
        (s.dev.fld (.eth i p) Fld.ETH_STATE_FAILED ≠ 0 → s.dev.fld (.eth i p) Fld.ETH_MODE_AUTO_NARROW = 1 → Completes (.portNarrowed i p) s (fun t =>
          t.dev.fld (.eth i p) Fld.ETH_STATE_UP = 0 ∧ t.dev.fld (.eth i p) Fld.ETH_STATE_SPEED = sp ∧ t.dev.fld (.eth i p) Fld.ETH_STATE_GROUP = g ∧
          t.dev.conns = s.dev.conns ∧ t.pending = s.pending))) ∧
      (s.dev.fld (.eth i p) Fld.ETH_STATE_UP = 1 →
        (∀ cause lanes, lanes < 256 → s.dev.fld (.eth i p) Fld.ETH_STATE_FAILED < 256 → Completes (.portDown i p cause lanes) s (fun t => t.dev.fld (.eth i p) Fld.ETH_STATE_UP = 0 ∧
          t.dev.fld (.eth i p) Fld.ETH_STATE_FAILED = (s.dev.fld (.eth i p) Fld.ETH_STATE_FAILED ||| lanes) ∧
          t.dev.cntOf (.eth i p) 7 = (s.dev.cntOf (.eth i p) 7 + 1) % 2 ^ 64 ∧
          (∀ j c y, t.dev.conn j = some c → y ∈ c.paths → y.port = 4 * i + p → y.st = 2) ∧ t.pending = s.pending)) ∧
        (∀ ce ucw, s.dev.fld (.eth i p) Fld.ETH_FEC_THRESH_UCW_PER_MS < ucw → (Tbl.lookD s.dev.fecBad (4 * i + p) (0, 0)).1 = 2 →
          Completes (.fecWindow i p ce ucw) s (fun t => t.dev.fld (.eth i p) Fld.ETH_STATE_UP = 0 ∧
            t.dev.cntOf (.eth i p) 5 = (s.dev.cntOf (.eth i p) 5 + ce) % 2 ^ 64 ∧
            t.dev.cntOf (.eth i p) 6 = (s.dev.cntOf (.eth i p) 6 + ucw) % 2 ^ 64 ∧ t.pending = s.pending)) ∧
        (∀ ce ucw, ce ≤ s.dev.fld (.eth i p) Fld.ETH_FEC_THRESH_CE_PER_MS → ucw ≤ s.dev.fld (.eth i p) Fld.ETH_FEC_THRESH_UCW_PER_MS →
          Completes (.fecWindow i p ce ucw) s (fun t => t.dev.fld (.eth i p) Fld.ETH_STATE_UP = 1 ∧ (Tbl.lookD t.dev.fecBad (4 * i + p) (0, 0)).1 = 0 ∧
            t.dev.cntOf (.eth i p) 5 = (s.dev.cntOf (.eth i p) 5 + ce) % 2 ^ 64 ∧ t.dev.conns = s.dev.conns ∧ KeepsMemory s t)))) ∧
    (∀ c, s.dev.conn id = some c →
      (c.firstUn ≠ none → c.enc = none → c.ackPath < c.paths.length → Completes (.ackDelayExpiry id) s (fun t =>
        t.dev.conn id = some { c with sinceAck := 0, ceCount := 0, firstUn := none, echo := 0 } ∧ t.dev.tmWait.length = s.dev.tmWait.length + 1 ∧
        KeepsMemory s t)) ∧
      (c.firstUn = none → exec (.ackDelayExpiry id) s = .next s) ∧
      (∀ x, (c.unacked.find? fun x => decide (x.psn = psn)) = some x → x.lost = false → x.waiting = false → 0 < x.sends →
        (x.sends ≤ s.dev.app c.page Fld.GFT_RETRY_RETRY_MAX → c.enc = none → Completes (.rtoExpiry id psn) s (fun t =>
          (∃ c', t.dev.conn id = some c' ∧ c'.unacked = c.unacked.map (fun y => if y.psn = psn then { y with lost := true } else y) ∧ c'.st = c.st) ∧
          KeepsMemory s t)) ∧
        (s.dev.app c.page Fld.GFT_RETRY_RETRY_MAX < x.sends → c.st ≠ 2 → Completes (.rtoExpiry id psn) s (fun t =>
          ∃ c', t.dev.conn id = some c' ∧ c'.st = 2 ∧ c'.unacked = [] ∧ c'.msgs = []))) ∧
      ((∃ x ∈ c.unacked, x.psn = psn ∧ x.waiting = true) → exec (.rnrDelayExpiry id psn) s = .next ⟨s.dev.setConn id { c with
        unacked := c.unacked.map fun x => if x.psn = psn then { x with waiting := false, lost := true, sends := 0 } else x }, s.mem, s.pending⟩) ∧
      ((∃ x ∈ c.unacked, x.psn = psn ∧ x.busy ≠ none) → c.st ≠ 2 → Completes (.busyLimitExpiry id psn) s (fun t =>
        ∃ c', t.dev.conn id = some c' ∧ c'.st = 2 ∧ c'.unacked = [] ∧ c'.msgs = [])) ∧
      (∀ x, c.paths[k]? = some x →
        (x.st = 1 → (∃ y ∈ c.paths, y.st = 0) → Completes (.probeTimeout id k) s (fun t =>
          t.dev.conn id = some { c with paths := c.paths.set k { x with st := 2, probesOk := 0, probeOut := false } } ∧ KeepsMemory s t)) ∧
        (x.st ≠ 1 → exec (.probeTimeout id k) s = .next s) ∧
        (x.st = 2 → s.dev.fld (.eth (x.port / 4) (x.port % 4)) Fld.ETH_STATE_UP = 1 → c.enc = none → Completes (.probeInterval id k) s (fun t =>
          t.dev.conn id = some { c with paths := c.paths.set k { x with probesOk := if x.probeOut then 0 else x.probesOk, probeOut := true } } ∧
          t.dev.tmWait.length = s.dev.tmWait.length + 1 ∧ KeepsMemory s t))) ∧
      (∀ x h, x ∈ (s.dev.gftDie i).miss → parseGft x.bytes = some h → h.conn = id → Completes (.contextFetchDone i id) s (fun t =>
        (∃ c', t.dev.conn id = some c' ∧ c'.cached = true) ∧ x ∈ (t.dev.gftDie i).rx ∧
        (∀ y g, y ∈ (t.dev.gftDie i).miss → parseGft y.bytes = some g → g.conn ≠ id) ∧ KeepsMemory s t)) ∧
      (∀ (ports : List (Nat × Nat)) slots, s.dev.model.idies.length = 2 → c.owner < 2 → c.st ≠ 2 → (∀ x ∈ c.paths, x.st = 2) → c.enc = none →
        ((∃ y ∈ ports, s.dev.fld (.eth (1 - c.owner) (y.1 % 4)) Fld.ETH_STATE_UP = 1) → Completes (.connMove id ports slots) s (fun t =>
          (∃ c', t.dev.conn id = some c' ∧ c'.owner = 1 - c.owner ∧ c'.paths.length = ports.length ∧ c'.unacked = c.unacked ∧ c'.reqs = c.reqs) ∧
          t.dev.tmWait.length = s.dev.tmWait.length + ports.length ∧ t.pending = s.pending)) ∧
        ((∀ y ∈ ports, s.dev.fld (.eth (1 - c.owner) (y.1 % 4)) Fld.ETH_STATE_UP = 0) → Completes (.connMove id ports slots) s (fun t =>
          ∃ c', t.dev.conn id = some c' ∧ c'.st = 2))))

/-- The receive commands RX_WRITE, RX_READ_REQ, RX_READ_RESP, RX_SEND, RX_FETCH_ADD, RX_CMP_SWAP, RX_ATOMIC_RESP, RX_REDUCE, RX_APPLIED, RX_ACK, RX_NAK,
RX_PROBE and RX_PROBE_REPLY. -/
def Obligations.GftReceives : Prop :=
  ∀ (s : State) (i id : Nat) (c : Conn) (x : RxPkt) (h : GftHdr), s.Canonical →
    (∀ op cmd, (op = 1 ∧ cmd = Instr.rxWrite i ∨ op = 2 ∧ cmd = Instr.rxReadReq i ∨ op = 3 ∧ cmd = Instr.rxReadResp i ∨ op = 4 ∧ cmd = Instr.rxSend i ∨
        op = 5 ∧ cmd = Instr.rxFetchAdd i ∨ op = 6 ∧ cmd = Instr.rxCmpSwap i ∨ op = 7 ∧ cmd = Instr.rxAtomicResp i ∨ op = 8 ∧ cmd = Instr.rxReduce i ∨
        op = 9 ∧ cmd = Instr.rxApplied i ∨ op = 0x10 ∧ cmd = Instr.rxAck i ∨ op = 0x11 ∧ cmd = Instr.rxNak i ∨ op = 0x12 ∧ cmd = Instr.rxProbe i ∨
        op = 0x13 ∧ cmd = Instr.rxProbeReply i) →
      (s.dev.present (.gft i) = true → i < 2 → ((s.dev.gftDie i).rx.find? fun y => match parseGft y.bytes with
          | some g => decide (g.op = op)
          | none => false) = some x → parseGft x.bytes = some h →
        (s.dev.conn h.conn = none ∨ (∃ k, s.dev.conn h.conn = some k ∧ (k.owner ≠ i ∨ k.peer ≠ h.src))) → Completes cmd s (fun t =>
          t.dev.cntOf (.gft i) 5 = (s.dev.cntOf (.gft i) 5 + 1) % 2 ^ 64 ∧ t.dev.conns = s.dev.conns ∧
          (t.dev.gftDie i).rx = (s.dev.gftDie i).rx.erase x ∧ KeepsMemory s t)) ∧
      (s.dev.present (.gft i) = true → i < 2 → ((s.dev.gftDie i).rx.find? fun y => match parseGft y.bytes with
          | some g => decide (g.op = op)
          | none => false) = some x → parseGft x.bytes = some h →
        s.dev.conn h.conn = some c → c.owner = i → c.peer = h.src → c.st = 0 → c.cached = true →
        icvOf c.nonce h.psn (if op = 1 ∨ op = 2 ∨ op = 5 ∨ op = 6 then h.e 8 4 / 2 ^ 24 else 0) h.covered ≠ h.icv → Completes cmd s (fun t =>
          t.dev.cntOf (.gft i) 7 = (s.dev.cntOf (.gft i) 7 + 1) % 2 ^ 64 ∧ t.dev.conns = s.dev.conns ∧ bit (t.dev.fld (.gft i) Fld.ERR_STAT_BLOCK) 0 = true ∧
          KeepsMemory s t)) ∧
      (s.Arrives i op id c x h → sequenced op = true → behindPsn h.psn c.cum = false → (if c.strict then 1 else 2048) ≤ ahead h.psn c.cum →
        Completes cmd s (fun t => t.dev.cntOf (.gft i) 9 = (s.dev.cntOf (.gft i) 9 + 1) % 2 ^ 64 ∧
          (∃ c', t.dev.conn id = some c' ∧ c'.cum = c.cum ∧ c'.placed = c.placed ∧ c'.reqs = c.reqs) ∧ KeepsMemory s t))) ∧
    (s.newPsn i id c h →
      (s.Arrives i 0x01 id c x h → s.keyAllows 1 (h.e 12 4) c h → bit h.flags 2 = false → h.off + h.body.length ≤ h.e 12 4 →
        s.plainRange (h.e 0 8 % 2 ^ 52 + h.off) h.body.length → Completes (.rxWrite i) s (fun t =>
          StoresAt s t (h.e 0 8 % 2 ^ 52 + h.off) h.body ∧ t.hasPlaced id h.psn)) ∧
      (s.Arrives i 0x02 id c x h → s.keyAllows 2 (h.e 12 4) c h → s.plainRange (h.e 0 8 % 2 ^ 52) (h.e 12 4) → Completes (.rxReadReq i) s (fun t =>
        (∃ c' y, t.dev.conn id = some c' ∧ c'.msgs = c.msgs ++ [y] ∧ y.op = 3 ∧ y.msn = h.msn ∧ y.src = .mem (h.e 0 8 % 2 ^ 52) ∧ y.len = h.e 12 4) ∧
        t.hasPlaced id h.psn ∧ KeepsMemory s t)) ∧
      (∀ r a, s.Arrives i 0x03 id c x h → c.reqs = [r] → r.op = 2 → r.msn = h.msn → r.status = none → r.dst = .mem a → r.got + h.body.length < r.len →
        s.plainRange (a + h.off) h.body.length → Completes (.rxReadResp i) s (fun t => StoresAt s t (a + h.off) h.body ∧ t.hasPlaced id h.psn ∧
          ∃ c', t.dev.conn id = some c' ∧ c'.reqs = [{ r with got := r.got + h.body.length }])) ∧
      (∀ b bs, s.Arrives i 0x04 id c x h → c.reinject = false → c.sends = [] → c.bufs = b :: bs → bit h.flags 1 = false → h.off + h.body.length ≤ b.len →
        s.plainRange (b.addr + h.off) h.body.length → Completes (.rxSend i) s (fun t => StoresAt s t (b.addr + h.off) h.body ∧ t.hasPlaced id h.psn ∧
          ∃ c', t.dev.conn id = some c' ∧ c'.bufs = bs ∧ c'.sends = [⟨h.msn, some b, h.body.length, none, false, []⟩])) ∧
      (s.Arrives i 0x04 id c x h → c.reinject = false → c.sends = [] → c.bufs = [] → h.path < c.paths.length → Completes (.rxSend i) s (fun t =>
        (∃ c', t.dev.conn id = some c' ∧ c'.cum = c.cum ∧ c'.placed = c.placed ∧ c'.sends = []) ∧
        t.dev.tmWait.length = s.dev.tmWait.length + 1 ∧ KeepsMemory s t)) ∧
      (∀ op cmd new a old, (op = 5 ∧ cmd = Instr.rxFetchAdd i ∧ new = (old + h.e 16 8) % 2 ^ 64 ∨
          op = 6 ∧ cmd = Instr.rxCmpSwap i ∧ new = (if old = h.e 16 8 then h.e 24 8 else old)) →
        s.Arrives i op id c x h → s.keyAllows op 8 c h → a = h.e 0 8 % 2 ^ 52 → a % 8 = 0 → (s.dev.setConn id c).atomicsHeld i < 16384 → s.plainRange a 8 →
        old = leNat ((List.range 8).map fun k => s.mem.rdByte (a + k)) → Completes cmd s (fun t =>
          StoresAt s t a (leBytes 8 new) ∧ t.hasPlaced id h.psn ∧ ∃ c' y, t.dev.conn id = some c' ∧ c'.msgs = c.msgs ++ [y] ∧ y.op = 7 ∧ y.op0 = old ∧ y.msn = h.msn)) ∧
      (∀ r a f q head cid, s.Arrives i 0x07 id c x h → c.reqs = [r] → (r.op = 5 ∨ r.op = 6) → r.msn = h.msn → r.status = none → r.dst = .mem a → r.len = 8 →
        r.client = .queue f q head cid false → s.plainRange a 8 → Completes (.rxAtomicResp i) s (fun t =>
          StoresAt s t a (leBytes 8 (h.e 0 8)) ∧ t.hasPlaced id h.psn ∧ ∃ c', t.dev.conn id = some c' ∧ c'.reqs = [])) ∧
      (∀ (e : GroupEntry) (st : GroupSt) off rank, s.Arrives i 0x08 id c x h → off = h.e 8 4 + h.off → rank = h.e 4 2 → s.dev.groupEntry s.mem i (h.e 0 4) = some e →
        st = s.dev.groupSt i (h.e 0 4) e → st.stalled = false → (∀ f ∈ st.feeds, f.1 = h.pitch → f.2.1 = rank → f.2.2 = id) → rank < e.ranks → h.e 6 1 = e.fmt →
        off % 256 = 0 → h.body.length = 256 → off + 256 ≤ e.len →
        (h.pitch = st.round → rank = st.nextRank → st.bits.contains (rank, off / 256) = false → rankWhole e (st.bits ++ [(rank, off / 256)]) rank = false →
          s.plainRange (e.target + off) 256 → Completes (.rxReduce i) s (fun t => t.hasPlaced id h.psn ∧ KeepsOutside (e.target + off) 256 s t ∧
            (∀ k, e.fmt = 1 → k < 128 → (List.range 2).map (fun j => t.mem.rdByte (e.target + off + 2 * k + j)) =
              leBytes 2 (addBf (leNat ((List.range 2).map fun j => s.mem.rdByte (e.target + off + 2 * k + j))) (leNat ((h.body.drop (2 * k)).take 2)))) ∧
            (∀ k, e.fmt = 0 → k < 64 → (List.range 4).map (fun j => t.mem.rdByte (e.target + off + 4 * k + j)) =
              leBytes 4 (add32 (leNat ((List.range 4).map fun j => s.mem.rdByte (e.target + off + 4 * k + j))) (leNat ((h.body.drop (4 * k)).take 4)))))) ∧
        (h.pitch = st.round → st.nextRank < rank → st.bits.contains (rank, off / 256) = false → rankWhole e (st.bits ++ [(rank, off / 256)]) st.nextRank = false →
          s.plainRange (e.stage rank off) 256 → Completes (.rxReduce i) s (fun t => StoresAt s t (e.stage rank off) h.body ∧ t.hasPlaced id h.psn)) ∧
        (behindPsn h.pitch st.round = true → Completes (.rxReduce i) s (fun t => t.hasPlaced id h.psn ∧ KeepsMemory s t ∧
          ∃ c' y, t.dev.conn id = some c' ∧ c'.msgs = c.msgs ++ [y] ∧ y.op = 9 ∧ y.group = h.e 0 4 ∧ y.rank = rank ∧ y.pitch = h.pitch))) ∧
      (∀ r, s.Arrives i 0x09 id c x h → c.reqs = [r] → r.op = 8 → r.group = h.e 0 4 → r.rank = h.e 4 2 → r.pitch = h.pitch → r.status = none →
        (∃ y ∈ c.unacked, y.msg.req = r.id) → Completes (.rxApplied i) s (fun t => t.hasPlaced id h.psn ∧ KeepsMemory s t ∧
          ∃ c', t.dev.conn id = some c' ∧ c'.reqs = [{ r with applied := true }]))) ∧
    (∀ (acked : TxPkt → Bool), s.Arrives i 0x10 id c x h → c.reqs = [] → (∀ y ∈ c.unacked, y.sends ≤ s.dev.app (.gft i) Fld.GFT_RETRY_RETRY_MAX) →
      acked = (fun y => behindPsn y.psn (h.e 0 4) || (decide (ahead y.psn (h.e 0 4) < 8 * h.body.length) && bit (leNat h.body) (ahead y.psn (h.e 0 4)))) →
      Completes (.rxAck i) s (fun t => (∃ c', t.dev.conn id = some c' ∧ c'.unacked.map TxPkt.psn = (c.unacked.filter fun y => !acked y).map TxPkt.psn) ∧
        t.dev.cntOf (.gft i) 18 = (s.dev.cntOf (.gft i) 18 + h.e 8 2) % 2 ^ 64 ∧ KeepsMemory s t)) ∧
    (∀ r y code, s.Arrives i 0x11 id c x h → c.reqs = [r] → r.status = none → (c.unacked.find? fun z => decide (z.psn = h.psn)) = some y → y.msg.req = r.id →
      h.e 12 1 = code →
      (∀ st f q head cid g, nakStatus code = some st → r.client = .queue f q head cid g → s.dev.ddrUndef = [] → Completes (.rxNak i) s (fun t =>
        Answers s t f q head (statusBody cid st ++ leBytes 8 h.psn) ∧ (∃ c', t.dev.conn id = some c' ∧ c'.reqs = []) ∧ SlotOnly s t f q)) ∧
      (code = 3 → y.rnr < s.dev.app (.gft i) Fld.GFT_RETRY_RNR_MAX → Completes (.rxNak i) s (fun t => (∃ c', t.dev.conn id = some c' ∧ c'.reqs = [r] ∧
        c'.unacked = c.unacked.map (fun z => if z.psn = h.psn then { z with rnr := z.rnr + 1, busy := none, waiting := true } else z)) ∧ KeepsMemory s t)) ∧
      (code = 4 → Completes (.rxNak i) s (fun t => (∃ c', t.dev.conn id = some c' ∧ c'.reqs = [r] ∧
        c'.unacked = c.unacked.map (fun z => if z.psn = h.psn then { z with busy := some (z.busy.getD s.dev.clk.now), waiting := true } else z)) ∧
        KeepsMemory s t))) ∧
    (s.Arrives i 0x12 id c x h → h.path < c.paths.length → Completes (.rxProbe i) s (fun t =>
      t.dev.tmWait.length = s.dev.tmWait.length + 1 ∧ (∃ c', t.dev.conn id = some c' ∧ c'.reqs = c.reqs ∧ c'.unacked = c.unacked) ∧ KeepsMemory s t)) ∧
    (∀ y, s.Arrives i 0x13 id c x h → c.paths[h.path]? = some y → (y.st = 1 ∨ y.st = 2 ∧ y.probesOk = 2) → Completes (.rxProbeReply i) s (fun t =>
      (∃ c', t.dev.conn id = some c' ∧ c'.paths = c.paths.set h.path { y with ip := x.ip, mac := x.mac, st := 0, probesOk := 0, probeOut := false }) ∧
      KeepsMemory s t))

/-- FRAME_RECEIVE, FRAME_DISPATCH, FRAME_PARSE, FRAME_LOOKUP, REORDER_RELEASE, REORDER_TIMEOUT, FRAME_EDIT, PME_SCAN, FRAME_DISPOSITION and
PLACEMENT_HEADER_WRITE. -/
def Obligations.FramesPassThePipeline : Prop :=
  ∀ (s : State) (i p n : Nat) (f : PipeFrame), s.Canonical → i < 2 → s.dev.pipeLive i = true → s.dev.ddrUndef = [] →
    (∀ bytes, s.dev.present (.eth i p) = true → s.dev.fld (.eth i p) Fld.ETH_STATE_UP = 1 →
      (∀ bad, bad = 1 ∨ bad = 2 → Completes (.frameReceive i p bytes bad) s (fun t =>
        t.dev.cntOf (.eth i p) 2 = (s.dev.cntOf (.eth i p) 2 + 1) % 2 ^ 64 ∧ RegsOnly s t)) ∧
      (64 ≤ wireLen bytes → wireLen bytes ≤ 9216 → beAt bytes 12 2 ≠ 0x8808 →
        ((s.dev.pipe i p).used + bytes.length ≤ 262144 → Completes (.frameReceive i p bytes 0) s (fun t =>
          (t.dev.pipe i p).fifo = (s.dev.pipe i p).fifo ++ [⟨(s.dev.pipe i p).next, bytes, s.dev.stamp ((8 + i) * 256 + 1 + p), s.dev.fld .pkg Fld.PKG_WAVE_EPOCH⟩] ∧
          (t.dev.pipe i p).next = (s.dev.pipe i p).next + 1 ∧ t.dev.cntOf (.eth i p) 1 = (s.dev.cntOf (.eth i p) 1 + 1) % 2 ^ 64 ∧
          t.dev.cntOf (.prs i) 0 = (s.dev.cntOf (.prs i) 0 + 1) % 2 ^ 64 ∧ KeepsMemory s t)) ∧
        (262144 < (s.dev.pipe i p).used + bytes.length → Completes (.frameReceive i p bytes 0) s (fun t =>
          t.dev.cntOf (.prs i) (4 + p) = (s.dev.cntOf (.prs i) (4 + p) + 1) % 2 ^ 64 ∧ RegsOnly s t)))) ∧
    (∀ x e rest, n = (s.dev.pipeDie i).turn → n < 5 → (s.dev.pipe i n).fifo = x :: rest → (s.dev.pipeDie i).idleEngine = some e →
      Completes (.frameDispatch i) s (fun t => (t.dev.pipe i n).fifo = rest ∧ (t.dev.pipeDie i).turn = (n + 1) % 5 ∧
        (∃ g, (t.dev.pipeDie i).frames = (s.dev.pipeDie i).frames ++ [g] ∧ g.input = n ∧ g.seq = x.seq ∧ g.stage = .parse ∧ g.engine = e ∧ g.raw = x.bytes ∧
          g.gPrs = s.dev.genFor (.prs i) x.epoch) ∧ KeepsMemory s t)) ∧
    ((s.dev.pipeDie i).frames.find? (fun g => decide (g.stage = .parse ∧ g.engine = n)) = some f →
      ((s.dev.viewOf i f).verdict = .malformed → Completes (.frameParse i n) s (fun t => (t.dev.pipeDie i).frames = s.framesBut i f ∧
        t.dev.cntOf (.prs i) 2 = (s.dev.cntOf (.prs i) 2 + 1) % 2 ^ 64 ∧ KeepsMemory s t)) ∧
      ((s.dev.viewOf i f).verdict = .badSum → Completes (.frameParse i n) s (fun t => (t.dev.pipeDie i).frames = s.framesBut i f ∧
        t.dev.cntOf (.prs i) 3 = (s.dev.cntOf (.prs i) 3 + 1) % 2 ^ 64 ∧ KeepsMemory s t)) ∧
      (∀ c, (s.dev.viewOf i f).verdict = .slow c → bit (s.dev.genVal (.prs i) Fld.PRS_SLOW_HOST_MASK 0 f.gPrs) (c - 1) = false →
        (s.dev.pipeDie i).slow.length < 4096 → Completes (.frameParse i n) s (fun t => (t.dev.pipeDie i).frames = s.framesBut i f ∧
          (t.dev.pipeDie i).slow = (s.dev.pipeDie i).slow ++ [⟨c, f.input, f.stamp, f.raw⟩] ∧
          t.dev.cntOf (.prs i) 11 = (s.dev.cntOf (.prs i) 11 + 1) % 2 ^ 64 ∧ KeepsMemory s t)) ∧
      ((s.dev.viewOf i f).verdict = .ok → s.dev.localGft i f.input (s.dev.viewOf i f) f.raw = false → Completes (.frameParse i n) s (fun t =>
        FrameBecomes s t i f { f with gCls := s.dev.genFor (.cls i) f.epoch, stage := .lookup } ∧ KeepsMemory s t)) ∧
      ((s.dev.viewOf i f).verdict = .ok → s.dev.localGft i f.input (s.dev.viewOf i f) f.raw = true →
        s.dev.genVal (.prs i) Fld.PRS_PORT_CFG_GFT_CLASSIFY f.input f.gPrs = 0 → Completes (.frameParse i n) s (fun t =>
          FrameBecomes s t i f { f with gft := true, gCls := s.dev.genFor (.cls i) f.epoch, stage := .reorder } ∧ KeepsMemory s t))) ∧
    (∀ seq, (s.dev.pipeDie i).frames.find? (fun g => decide (g.stage = .lookup ∧ g.input = n ∧ g.seq = seq)) = some f → Completes (.frameLookup i n seq) s (fun t =>
      FrameBecomes s t i f { f with stage := .reorder, chain := (s.dev.lookupChain i f (s.dev.viewOf i f) 4
        (s.dev.genVal (.prs i) Fld.PRS_PORT_CFG_FIRST_GROUP n f.gPrs) []).2 } ∧ KeepsMemory s t)) ∧
    ((s.dev.pipe i n).gone = [] →
      ((∀ g ∈ (s.dev.pipeDie i).held, g.input = n → (s.dev.pipe i n).expect ≤ g.seq) →
        (s.dev.pipeDie i).held.find? (fun g => decide (g.input = n ∧ g.seq = (s.dev.pipe i n).expect)) = some f → Completes (.reorderRelease i n) s (fun t =>
          FrameBecomes s t i f { f with stage := if f.gft then .dispose else .edit } ∧ (t.dev.pipe i n).expect = (s.dev.pipe i n).expect + 1 ∧ KeepsMemory s t)) ∧
      ((∀ g ∈ (s.dev.pipeDie i).held, g.input = n → (s.dev.pipe i n).expect < g.seq) → (∃ g ∈ (s.dev.pipeDie i).held, g.input = n) →
        Completes (.reorderTimeout i n) s (fun t => (t.dev.pipe i n).expect = (s.dev.pipe i n).expect + 1 ∧
          t.dev.cntOf (.prs i) 8 = (s.dev.cntOf (.prs i) 8 + 1) % 2 ^ 64 ∧ KeepsMemory s t))) ∧
    (∀ e a, s.dev.pipeAt i .edit = some f → f.chain = [(e, a)] → bit (e.getD 1 0) 34 = false → bit (e.getD 1 0) 39 = false →
      (∀ bs, editFrame (s.dev.viewOf i f) e (s.dev.editRec i (ew e 2 6 12) f.gCls) none f.raw = .ok (bs, 0) → wireLen bs ≤ 9216 → bit (e.getD 2 0) 30 = false →
        Completes (.frameEdit i) s (fun t => FrameBecomes s t i f { f with bytes := bs, stage := .dispose } ∧
          (bit (e.getD 1 0) 54 = true → ∀ k x, k = 16384 * i + bits (e.getD 1 0) 40 14 → x = Tbl.lookD s.dev.flowCnts k (0, 0) →
            Tbl.lookD t.dev.flowCnts k (0, 0) = ((x.1 + 1) % 2 ^ 64, (x.2 + wireLen f.raw) % 2 ^ 64)) ∧ KeepsMemory s t)) ∧
      (∀ c, editFrame (s.dev.viewOf i f) e (s.dev.editRec i (ew e 2 6 12) f.gCls) none f.raw = .error c →
        bit (s.dev.genVal (.prs i) Fld.PRS_SLOW_HOST_MASK 0 f.gPrs) (c - 1) = false → (s.dev.pipeDie i).slow.length < 4096 →
        Completes (.frameEdit i) s (fun t => (t.dev.pipeDie i).frames = s.framesBut i f ∧
          (t.dev.pipeDie i).slow = (s.dev.pipeDie i).slow ++ [⟨c, f.input, f.stamp, f.raw⟩] ∧ KeepsMemory s t))) ∧
    (∀ e mask act full new hit, s.dev.pipeAt i .pme = some f → f.chain.getLastD ([], none) = (e, none) →
      s.dev.pmeRule i (ew e 2 20 10) (s.dev.genFor (.pme i) f.epoch) = some (mask, act, full) →
      new = (match (s.dev.viewOf i f).pay with
        | some o => ((f.raw.take (s.dev.viewOf i f).fin).drop o).take 9216
        | none => []) → hit = s.dev.pmeMatch i (s.dev.genFor (.pme i) f.epoch) mask [] new true →
      (hit = none → Completes (.pmeScan i) s (fun t => FrameBecomes s t i f { f with scanned := true, stage := .dispose } ∧
        t.dev.cntOf (.pme i) 0 = (s.dev.cntOf (.pme i) 0 + 1) % 2 ^ 64 ∧ KeepsMemory s t)) ∧
      (hit ≠ none → act = 1 → Completes (.pmeScan i) s (fun t => (t.dev.pipeDie i).frames = s.framesBut i f ∧
        t.dev.cntOf (.pme i) 6 = (s.dev.cntOf (.pme i) 6 + 1) % 2 ^ 64 ∧ KeepsMemory s t))) ∧
    (∀ e sc, (s.dev.pipeDie i).frames.find? (fun g => decide (g.stage = .dispose) && decide (g.scanned = sc)) = some f → f.gft = false →
      e = (f.chain.getLastD ([], none)).1 →
      (ew e 0 0 4 = 0 → Completes (.frameDisposition i sc) s (fun t => (t.dev.pipeDie i).frames = s.framesBut i f ∧
        t.dev.tmWait = s.dev.tmWait ++ [⟨4 * i + ew e 0 6 2, ew e 0 8 5, 0, false, f.bytes, none, false, 0, f.epoch⟩] ∧ KeepsMemory s t)) ∧
      (ew e 0 0 4 = 5 → Completes (.frameDisposition i sc) s (fun t => (t.dev.pipeDie i).frames = s.framesBut i f ∧
        t.dev.cntOf (.cls i) 4 = (s.dev.cntOf (.cls i) 4 + 1) % 2 ^ 64 ∧ KeepsMemory s t)) ∧
      (∀ k r slot bs m, ew e 0 0 4 = 2 → k = ew e 0 34 10 → s.dev.placeRec i k f.gCls = some r →
        ((s.dev.place i k).head + 2 ^ 64 - (s.dev.place i k).c) % 2 ^ 64 < 2 ^ r.countLog →
        slot = r.base + (s.dev.place i k).head % 2 ^ r.countLog * 2 ^ r.slotLog →
        bs = stripOf (parseFrame (s.dev.parseCfg i f.gPrs f.input) f.bytes) r.strip f.bytes → m = min bs.length (2 ^ r.slotLog - 16) → s.plainRange (slot + 16) m →
        Completes (.frameDisposition i sc) s (fun t => (t.dev.pipeDie i).frames = s.framesBut i f ∧ StoresAt s t (slot + 16) (bs.take m) ∧
          (t.dev.place i k).heads = (s.dev.place i k).heads ++ [(f.input, m, decide (m < bs.length), f.stamp % 2 ^ 32, f.gCls)] ∧
          (t.dev.place i k).p = (s.dev.place i k).p))) ∧
    (∀ k input m trunc stamp gen rest r slot, (s.dev.place i k).heads = (input, m, trunc, stamp, gen) :: rest →
      r = placeOf (s.dev.loadedBytes i 1 (.cls i) gen (64 * k) 64) → bit r.flags 0 = false → slot = r.base + (s.dev.place i k).p % 2 ^ r.countLog * 2 ^ r.slotLog →
      s.plainRange slot 16 → Completes (.placementHeaderWrite i k) s (fun t =>
        StoresAt s t slot (leBytes 8 ((s.dev.place i k).p + 1) ++ leBytes 2 m ++ leBytes 1 input ++ leBytes 1 (b2n trunc) ++ leBytes 4 stamp) ∧
        (t.dev.place i k).p = ((s.dev.place i k).p + 1) % 2 ^ 64 ∧ (t.dev.place i k).heads = rest))

/-- CLS_TBL_WRITE, CLS_TBL_READ and CLS_FCNT_READ (R366, R367, R383). -/
def Obligations.MatchTableWindow : Prop :=
  ∀ (s : State) (r : Req) (i w v : Nat) (a : Nat) (g : Option Nat) (x : ClsSlot), s.Canonical → s.dev.mayAccess r (.cls i) = true →
    s.dev.selSlot r i = (a, g) → w = min 9 (s.dev.selOf (.cls i) Fld.CLS_TBL_SEL_WORD r) → x = Tbl.lookD s.dev.clsSlots a ⟨[0, 0, 0, 0], [0, 0, 0, 0, 0, 0]⟩ →
    (∀ b, b ≠ 64 → Completes (.clsTblWrite r i b v) s (fun t => t.dev.selOf (.cls i) Fld.CLS_TBL_STAT_RESULT r = 6 ∧ t.dev.clsSlots = s.dev.clsSlots ∧
        KeepsMemory s t) ∧
      Completes (.clsTblRead r i b) s (fun t => t.dev.selOf (.cls i) Fld.CLS_TBL_STAT_RESULT r = 6 ∧ .readValue r 0 ∈ t.dev.out ∧ KeepsMemory s t)) ∧
    (w ≠ 3 → x.valid = false → Completes (.clsTblWrite r i 64 v) s (fun t => Tbl.look t.dev.clsSlots a = some
      (if w < 4 then { x with words := x.words.set w (v % 2 ^ 64) } else { x with key := x.key.set (w - 4) (v % 2 ^ 64) }) ∧ KeepsMemory s t)) ∧
    (w ≠ 3 → x.valid = true → Completes (.clsTblWrite r i 64 v) s (fun t => t.dev.selOf (.cls i) Fld.CLS_TBL_STAT_RESULT r = 3 ∧
      t.dev.cntOf (.cls i) 14 = (s.dev.cntOf (.cls i) 14 + 1) % 2 ^ 64 ∧ t.dev.clsSlots = s.dev.clsSlots ∧ KeepsMemory s t)) ∧
    (∀ y c, w = 3 → y = { x with words := x.words.set 3 (v % 2 ^ 64) } → c = s.dev.entryCheck g y.words →
      (x.valid = false → bit (v % 2 ^ 64) 63 = true →
        (c = 0 → Completes (.clsTblWrite r i 64 v) s (fun t => Tbl.look t.dev.clsSlots a = some y ∧ t.dev.selOf (.cls i) Fld.CLS_TBL_STAT_RESULT r = 1 ∧
          KeepsMemory s t)) ∧
        (c ≠ 0 → Completes (.clsTblWrite r i 64 v) s (fun t => t.dev.clsSlots = s.dev.clsSlots ∧
          t.dev.selOf (.cls i) Fld.CLS_TBL_STAT_RESULT r = c ∧ KeepsMemory s t))) ∧
      (x.valid = true → bit (v % 2 ^ 64) 63 = false → Completes (.clsTblWrite r i 64 v) s (fun t => Tbl.look t.dev.clsSlots a = some y ∧
        Tbl.look t.dev.pmeFlows a = none ∧ t.dev.selOf (.cls i) Fld.CLS_TBL_STAT_RESULT r = 2 ∧ KeepsMemory s t))) ∧
    Completes (.clsTblRead r i 64) s (fun t => t.dev.out = s.dev.out ++ [.readValue r (if w < 4 then x.words.getD w 0 else x.key.getD (w - 4) 0)] ∧
      t.dev.clsSlots = s.dev.clsSlots ∧ KeepsMemory s t) ∧
    (∀ k y, k = 16384 * i + s.dev.fld (.cls i) Fld.CLS_FCNT_SEL_INDEX → y = Tbl.lookD s.dev.flowCnts k (0, 0) → Completes (.clsFcntRead r i) s (fun t =>
      t.dev.out = s.dev.out ++ [.readValue r y.1] ∧ t.dev.fld (.cls i) Fld.CLS_FCNT_BYTES = y.2 % 2 ^ 64 ∧ t.dev.flowCnts = s.dev.flowCnts ∧ KeepsMemory s t))

/-- TM_ENQUEUE, TM_ADMIT_RETRY, TM_TRANSMIT, GATE_ENTRY_CHANGE, GATE_LIST_TAKEOVER, PTP_STEP, TM_SAMPLE, TMG_SAMP_DATA_READ and ETH_TX. -/
def Obligations.TrafficManager : Prop :=
  ∀ (s : State) (i p q : Nat) (f : TmFrame) (x : TmPort), s.Canonical → i < 2 → p < 4 → q < 32 → x = s.dev.tmp i p →
    (s.dev.present (.tmg i) = true → s.dev.stopped (Page.tmg i).island = false →
      (s.dev.tmWait.find? (fun g => decide (g.port / 4 = i) && !g.waited) = some f → f.port % 4 = p → f.queue = q →
        (q = s.dev.class0Queue i → f.src = 0 → Completes (.tmEnqueue i) s (fun t => t.dev.tmWait = s.dev.tmWait.erase f ∧ t.dev.tmQueues = s.dev.tmQueues ∧
          t.dev.cntOf (.tmg i) 20 = (s.dev.cntOf (.tmg i) 20 + 1) % 2 ^ 64 ∧ bit (t.dev.fld (.tmg i) Fld.ERR_STAT_BLOCK) 0 = true ∧
          (f.tx = none → KeepsMemory s t))) ∧
        (q ≠ s.dev.class0Queue i ∨ (f.src = 3 ∧ f.cls0 = true) →
          (s.dev.admits i p q f.bytes = .yes → (∀ g ∈ s.dev.tmWait, g.waited = false) → (s.dev.qrecNow i (32 * p + q)).ecn = false →
            Completes (.tmEnqueue i) s (fun t => t.dev.tmWait = s.dev.tmWait.erase f ∧
              (t.dev.tmq i p q).frames = (s.dev.tmq i p q).frames ++ [{ f with at_ := s.dev.clk.now, waited := false }] ∧
              (f.tx = none → KeepsMemory s t) ∧
              (∀ fn sq head cid, f.tx = some (fn, sq, head, cid) → s.dev.ddrUndef = [] → Answers s t fn sq head (statusBody cid 0) ∧ SlotOnly s t fn sq))) ∧
          (s.dev.admits i p q f.bytes ≠ .yes →
            (2 ≤ f.src → Completes (.tmEnqueue i) s (fun t =>
              t.dev.tmWait = s.dev.tmWait.map (fun g => if g = f then { g with waited := true } else g) ∧
              t.dev.cntOf (.tmg i) (12 + p) = (s.dev.cntOf (.tmg i) (12 + p) + 1) % 2 ^ 64 ∧ (t.dev.tmq i p q).frames = (s.dev.tmq i p q).frames ∧
              KeepsMemory s t)) ∧
            (f.src < 2 → Completes (.tmEnqueue i) s (fun t => t.dev.tmWait = s.dev.tmWait.erase f ∧
              t.dev.cntOf (.tmg i) (8 + p) = (s.dev.cntOf (.tmg i) (8 + p) + 1) % 2 ^ 64 ∧ (t.dev.tmq i p q).frames = (s.dev.tmq i p q).frames ∧
              KeepsMemory s t))))) ∧
      (s.dev.tmWait.find? (fun g => decide (g.port = 4 * i + p ∧ g.queue = q) && g.waited) = some f → f.tx = none →
        (s.dev.qrecNow i (32 * p + q)).ecn = false →
        (s.dev.admits i p q f.bytes = .yes → Completes (.tmAdmitRetry i p q) s (fun t => t.dev.tmWait = s.dev.tmWait.erase f ∧
          (t.dev.tmq i p q).frames = (s.dev.tmq i p q).frames ++ [{ f with at_ := s.dev.clk.now, waited := false }] ∧ KeepsMemory s t)) ∧
        (s.dev.admits i p q f.bytes ≠ .yes → exec (.tmAdmitRetry i p q) s = .next s))) ∧
    (s.dev.present (.eth i p) = true → s.dev.fld (.eth i p) Fld.ETH_STATE_UP = 1 → s.dev.stopped (Page.tmg i).island = false →
      ∀ blocked elig rest, elig = (List.range 32).filter (fun r => s.dev.eligible i p r x blocked) →
        (elig = [] → exec (.tmTransmit i p blocked) s = .next s) ∧
        ((s.dev.tmq i p q).frames = f :: rest → elig.contains q = true →
          (q < 4 ∧ s.dev.capped i p q x elig = false ∧ (∀ r, r < q → elig.contains r = false) ∨
            4 ≤ q ∧ (∀ r, r < 4 → elig.contains r = false) ∧ x.turn = q ∧ x.granted = true ∧
              chargeOf (s.dev.qrecFor i (32 * p + q) f) f.bytes ≤ (s.dev.tmq i p q).deficit) →
          Completes (.tmTransmit i p blocked) s (fun t => (t.dev.tmq i p q).frames = rest ∧
            t.dev.out = s.dev.out ++ [.bytes "eth-frame" (4 * i + p) f.bytes] ∧ t.dev.cntOf (.tmg i) p = (s.dev.cntOf (.tmg i) p + 1) % 2 ^ 64 ∧
            t.dev.cntOf (.tmg i) (4 + p) = (s.dev.cntOf (.tmg i) (4 + p) + wireLen f.bytes) % 2 ^ 64 ∧
            (4 ≤ q → (t.dev.tmq i p q).deficit = if rest = [] then 0 else (s.dev.tmq i p q).deficit - chargeOf (s.dev.qrecFor i (32 * p + q) f) f.bytes) ∧
            (∀ r, r < 32 → r ≠ q → t.dev.tmq i p r = s.dev.tmq i p r) ∧ KeepsMemory s t))) ∧
    (s.dev.present (.eth i p) = true →
      (∀ g k, x.gate = some g → k = (entryAt g.entries (g.offset (s.dev.ptpNow x)) 0).1 → k ≠ x.entry → Completes (.gateEntryChange i p) s (fun t =>
        t.dev.tmp i p = { x with entry := k } ∧ KeepsMemory s t)) ∧
      (∀ g since wait, x.pend = some (g, since) → wait = (if g.cycle = 0 then 0 else (((g.base : Int) - (since : Int)) % (g.cycle : Int)).toNat) →
        ((since + wait : Nat) : Int) ≤ s.dev.ptpNow x → Completes (.gateListTakeover i p) s (fun t =>
          t.dev.tmp i p = { x with gate := some g, entry := 0, pend := none } ∧
          t.dev.cntOf (.tmg i) (16 + p) = (s.dev.cntOf (.tmg i) (16 + p) + 1) % 2 ^ 64 ∧ KeepsMemory s t)) ∧
      (∀ δ : Int, (δ.natAbs ≤ 1000 → exec (.ptpStep i p δ) s = .next ⟨s.dev.setTmp i p { x with ptp := x.ptp + δ }, s.mem, s.pending⟩) ∧
        (1000 < δ.natAbs → Completes (.ptpStep i p δ) s (fun t => (t.dev.tmp i p).ptp = x.ptp + δ ∧
          t.dev.cntOf (.tmg i) 21 = (s.dev.cntOf (.tmg i) 21 + 1) % 2 ^ 64 ∧ bit (t.dev.fld (.tmg i) Fld.ERR_STAT_BLOCK) 1 = true ∧ KeepsMemory s t)))) ∧
    (s.dev.present (.tmg i) = true → s.dev.app (.tmg i) Fld.TMG_SAMPLE_ENABLE ≠ 0 → Completes (.tmSample i) s (fun t =>
      (t.dev.tmq i p q).written = satAdd 24 (s.dev.tmq i p q).written 1 ∧ (t.dev.tmq i p q).next = ((s.dev.tmq i p q).next + 1) % 64 ∧
      (t.dev.tmq i p q).frames = (s.dev.tmq i p q).frames ∧
      (∃ e, Tbl.look (t.dev.tmq i p q).ring (s.dev.tmq i p q).next = some e ∧ e.depth = (s.dev.tmq i p q).bytes % 2 ^ 32 ∧
        e.frames = min (s.dev.tmq i p q).frames.length 65535) ∧ KeepsMemory s t)) ∧
    (s.dev.app (.tmg i) Fld.TMG_SAMPLE_ENABLE = 0 → exec (.tmSample i) s = .next s) ∧
    (∀ r e, s.dev.mayAccess r (.tmg i) = true → s.dev.selOf (.tmg i) Fld.TMG_SAMP_SEL_PORT r = p → s.dev.selOf (.tmg i) Fld.TMG_SAMP_SEL_QUEUE r = q →
      Tbl.look (s.dev.tmq i p q).ring (s.dev.selOf (.tmg i) Fld.TMG_SAMP_SEL_ENTRY r) = some e → Completes (.tmgSampDataRead r i) s (fun t =>
        t.dev.out = s.dev.out ++ [.readValue r (e.word % 2 ^ 32)] ∧
        Tbl.look t.dev.reg.latch (((Page.tmg i).base + 2) * 512 + r.id) = some (0, e.word) ∧ KeepsMemory s t)) ∧
    (∀ (y : Fetched) fn sq a n port, s.entryOf fn sq 2 y → a = y.num 0 8 → n = y.num 8 2 → port = y.num 10 1 → s.dev.ddrUndef = [] →
      (port < 8 → s.dev.present (.eth (port / 4) (port % 4)) = true → y.num 11 1 < 32 → 0 < n → n ≤ 9212 →
        (s.dev.funcMem fn a n = true → s.plainRange a n → Completes (.ethTx fn sq) s (fun t =>
          t.dev.tmWait = s.dev.tmWait ++ [⟨port, y.num 11 1, 2, false, (List.range n).map fun k => s.mem.rdByte (a + k), some (fn, sq, y.head, y.num 12 2), false, 0,
            s.dev.fld .pkg Fld.PKG_WAVE_EPOCH⟩] ∧ t.dev.fetched = s.dev.fetched.filter (fun z => decide (z.id ≠ y.id)) ∧ KeepsMemory s t)) ∧
        (s.dev.funcMem fn a n = false → Completes (.ethTx fn sq) s (fun t => Answers s t fn sq y.head (statusBody (y.num 12 2) 0x010E) ∧ SlotOnly s t fn sq ∧
          t.dev.tmWait = s.dev.tmWait))) ∧
      (n = 0 ∨ 9212 < n → Completes (.ethTx fn sq) s (fun t => Answers s t fn sq y.head (statusBody (y.num 12 2) 0x010F) ∧ SlotOnly s t fn sq ∧
        t.dev.tmWait = s.dev.tmWait)))

/-- SSD_UP, SSD_LINK_DOWN, SSD_MEMORY_REQUEST, BLOCK_READ, BLOCK_WRITE, BLOCK_FLUSH, BLOCK_DEALLOCATE, BLOCK_STAGE_ARRIVE, NVME_COMPLETION and NVME_TIMEOUT. -/
def Obligations.BlockCommands : Prop :=
  ∀ (s : State) (f q p : Nat), s.Canonical → s.dev.ddrUndef = [] →
    (∀ (x : Fetched) (op : Nat) (cmd : Instr), s.entryOf f q 4 x → x.num 0 1 = op →
      (op = 1 ∧ cmd = Instr.blockRead f q ∨ op = 2 ∧ cmd = Instr.blockWrite f q ∨ op = 3 ∧ cmd = Instr.blockFlush f q ∨ op = 4 ∧ cmd = Instr.blockDeallocate f q) →
      (∀ b ∈ s.dev.blocks, b.id < s.dev.nextNvme ∧ ¬(b.func = f ∧ b.queue = q ∧ b.op = 2)) →
      (∀ st, s.dev.blockCheck f x op = .error st → Completes cmd s (fun t =>
        Answers s t f q x.head (statusBody (x.num 2 2) st ++ leBytes 8 (if st = 0x020D then 0 else x.num 8 8)) ∧ t.dev.blocks = s.dev.blocks ∧
        t.dev.nvmes = s.dev.nvmes ∧ SlotOnly s t f q)) ∧
      (∀ (r : VnsRec) lba nlb k blk (e : Nat × Nat × Nat), s.dev.blockCheck f x op = .ok r → lba = x.num 8 8 → nlb = x.num 16 4 → r.place lba = (k, blk) →
        e = r.exts.getD k (0, 0, 0) →
        ((op = 4 ∨ op = 1 ∧ s.dev.freeSlots (min (r.run lba) nlb) ≠ []) → s.dev.ssdReady e.1 = false → Completes cmd s (fun t =>
          Answers s t f q x.head (statusBody (x.num 2 2) 0x0208 ++ leBytes 8 lba) ∧ t.dev.nvmes = s.dev.nvmes ∧ SlotOnly s t f q)) ∧
        (∀ sl, s.dev.ssdReady e.1 = true → op ≠ 3 → nlb ≤ r.run lba → sl = (if op = 4 then [] else s.dev.freeSlots nlb) → (op ≠ 4 → sl.length = nlb) →
          (op = 2 → s.plainRange (x.num 24 8) (4096 * nlb) ∧ s.dev.xferOf (.unit "block" s.dev.nextNvme 0) = none) → Completes cmd s (fun t =>
            t.dev.nvmes = s.dev.nvmes ++ [⟨s.dev.nextNvme + 1, s.dev.nextNvme, e.1, e.2.1, if op = 1 then 2 else if op = 2 then 1 else 9, blk, lba, nlb, sl, [], false,
              none⟩] ∧
            (∃ b, t.dev.blocks = s.dev.blocks ++ [b] ∧ b.id = s.dev.nextNvme ∧ b.cid = x.num 2 2 ∧ b.lba = lba ∧ b.nlb = nlb ∧ b.next = nlb ∧ b.left = 1 ∧
              b.status = 0 ∧
              (op = 2 → ∀ j, j < nlb → Tbl.look t.dev.stage (sl.getD j 0) =
                some (s.dev.sealBlock b (lba + j) ((List.range 4096).map fun y => s.mem.rdByte (x.num 24 8 + (4096 * j + y)))))) ∧ KeepsMemory s t)) ∧
        (∀ spaces, op = 3 → spaces = (r.exts.map fun e => (e.1, e.2.1)).eraseDups → spaces ≠ [] → (∀ y ∈ spaces, s.dev.ssdReady y.1 = true) →
          Completes cmd s (fun t => t.dev.nvmes.length = s.dev.nvmes.length + spaces.length ∧ (∀ c ∈ t.dev.nvmes, c ∈ s.dev.nvmes ∨ c.op = 0) ∧
            (∃ b, t.dev.blocks = s.dev.blocks ++ [b] ∧ b.cid = x.num 2 2 ∧ b.left = spaces.length ∧ b.status = 0) ∧ KeepsMemory s t)))) ∧
    (∀ (x : NvmeCmd) (b : BlockCmd), s.dev.nvmes = [x] → s.dev.blocks = [b] → b.id = x.cmd → b.nlb ≤ b.next → b.left = 1 → b.status = 0 → x.held = none → x.id < s.dev.nextNvme →
      s.dev.portOrphan x.port = false →
      (x.op ≠ 2 → ∀ res k v, v = (if x.op = 0 then 0 else x.first + k) → res < 3 → Completes (.nvmeCompletion x.id res k) s (fun t =>
        Answers s t b.func b.queue b.head (if res = 0 then statusBody b.cid 0 ++ leBytes 8 b.detail else if res = 2 then statusBody b.cid 0x0206 ++ leBytes 8 v
          else statusBody b.cid 0x0207 ++ leBytes 8 v) ∧ t.dev.nvmes = [] ∧ t.dev.blocks = [] ∧ SlotOnly s t b.func b.queue)) ∧
      Completes (.nvmeTimeout x.id) s (fun t => Answers s t b.func b.queue b.head (statusBody b.cid 0x0209 ++ leBytes 8 x.first) ∧ t.dev.nvmes = [] ∧
        t.dev.blocks = [] ∧ SlotOnly s t b.func b.queue) ∧
      (∀ k v data body a, x.op = 2 → k < x.count → x.done.contains k = false → v = x.first + k → data = body ++ leBytes 8 (guardOf v b.vns body) ++ leBytes 4 b.vns ++
          leBytes 4 0 → body.length = 4096 → bit b.rec_.flags 3 = false → bit b.flags 0 = false → a = b.maddr + 4096 * (v - b.lba) → s.plainRange a 4096 →
        (insSet k x.done).length < x.count → Completes (.blockStageArrive x.id k (some data)) s (fun t => StoresAt s t a body ∧
          t.dev.nvmes = [{ x with done := insSet k x.done }] ∧ t.dev.blocks = [b])) ∧
      (∀ k v data body g, x.op = 2 → x.count = 1 → x.done = [] → k = 0 → v = x.first → x.retry = false → data = body ++ g → body.length = 4096 → g.length = 16 →
        g ≠ leBytes 8 (guardOf v b.vns body) ++ leBytes 4 b.vns ++ leBytes 4 0 → bit b.rec_.flags 3 = false →
        Completes (.blockStageArrive x.id k (some data)) s (fun t => t.dev.cntOf s.dev.nvr 4 = (s.dev.cntOf s.dev.nvr 4 + 1) % 2 ^ 64 ∧
          (∃ y ∈ t.dev.nvmes, y.cmd = b.id ∧ y.op = 2 ∧ y.first = v ∧ y.count = 1 ∧ y.slba = x.slba ∧ y.retry = true) ∧ KeepsMemory s t))) ∧
    (s.dev.rootPorts = true →
      (∀ slot off (data : List Byte) old, old = (List.range 4112).map (fun k => (Tbl.lookD s.dev.stage slot []).getD k 0) → off + data.length ≤ 4112 →
        ((∃ c ∈ s.dev.nvmes, c.port = p ∧ slot ∈ c.live) →
          exec (.ssdMemoryRequest p true slot off 0 data) s = .next ⟨s.dev.setStage (Tbl.put s.dev.stage slot (setAt old off data)), s.mem, s.pending⟩ ∧
          (∀ n, off + n ≤ 4112 → Completes (.ssdMemoryRequest p false slot off n []) s (fun t =>
            t.dev.out = s.dev.out ++ [.bytes "ssd-read" p ((old.drop off).take n)] ∧ t.dev.stage = s.dev.stage ∧ KeepsMemory s t))) ∧
        ((∀ c ∈ s.dev.nvmes, c.port = p → slot ∉ c.live) → Completes (.ssdMemoryRequest p true slot off 0 data) s (fun t =>
          t.dev.cntOf s.dev.nvr 9 = (s.dev.cntOf s.dev.nvr 9 + 1) % 2 ^ 64 ∧ t.dev.stage = s.dev.stage ∧ KeepsMemory s t))) ∧
      (∀ lanes gen, p < 4 → lanes < 8 → gen < 16 → Completes (.ssdUp p lanes gen) s (fun t => t.dev.fldI s.dev.nvr Fld.NVR_PORT_STATE_UP p = 1 ∧
        t.dev.fldI s.dev.nvr Fld.NVR_PORT_STATE_LANES p = lanes ∧ t.dev.fldI s.dev.nvr Fld.NVR_PORT_STATE_GEN p = gen ∧
        t.dev.fldI s.dev.nvr Fld.NVR_PORT_STATE_READY p = 1 ∧ t.dev.nvmes = s.dev.nvmes ∧ t.pending = s.pending)) ∧
      (p < 8 → s.dev.fldI s.dev.nvr Fld.NVR_PORT_STATE_UP p = 1 →
        (∀ lanes gen, lanes < 8 → gen < 16 → Completes (.ssdLinkDown p (some (lanes, gen))) s (fun t =>
          t.dev.fldI s.dev.nvr Fld.NVR_PORT_STATE_LANES p = lanes ∧ t.dev.fldI s.dev.nvr Fld.NVR_PORT_STATE_GEN p = gen ∧
          t.dev.fldI s.dev.nvr Fld.NVR_PORT_STATE_UP p = 1 ∧ RegsOnly s t)) ∧
        Completes (.ssdLinkDown p none) s (fun t => t.dev.fldI s.dev.nvr Fld.NVR_PORT_STATE_UP p = 0 ∧ t.dev.fldI s.dev.nvr Fld.NVR_PORT_STATE_READY p = 0 ∧
          t.dev.fldI s.dev.nvr Fld.NVR_PORT_STATE_FAILED p = 1 ∧ (∀ c ∈ t.dev.nvmes, c.port ≠ p) ∧ t.pending = s.pending)))

/-- CVU_JOB and CVU_JOB_DONE (R427, R430 to R432). -/
def Obligations.ConsistencyJobs : Prop :=
  ∀ (s : State) (r : Req) (i h u alg : Nat), s.Canonical → i < 2 → h < 2 → u < 16 → alg = s.dev.fldI (.cvu i h) Fld.CVU_CFG_ALG u →
    (s.dev.mayAccess r (.cvu i h) = true → s.dev.unitOwner i h u = 0 → ∀ st fin,
      (s.dev.holdsLease r (.cvu i h) u = true → s.dev.fldI (.cvu i h) Fld.CVU_JOB_CTL_BUSY u = 0 → Completes (.cvuJob r i h u st fin) s (fun t =>
        t.dev.fldI (.cvu i h) Fld.CVU_JOB_CTL_BUSY u = 1 ∧ t.dev.fldI (.cvu i h) Fld.CVU_JOB_CTL_RESULT u = 0 ∧
        t.dev.fldI (.cvu i h) Fld.CVU_JOB_CTL_FINAL u = b2n fin ∧
        (st = true → s.dev.fldI (.cvu i h) Fld.CVU_CFG_FOLD u ≠ 1 → t.dev.fldI (.cvu i h) Fld.CVU_RUN u = cvuInit alg ∧ t.dev.fldI (.cvu i h) Fld.CVU_BYTES u = 0) ∧
        (st = false → t.dev.fldI (.cvu i h) Fld.CVU_RUN u = s.dev.fldI (.cvu i h) Fld.CVU_RUN u) ∧ RegsOnly s t)) ∧
      (s.dev.holdsLease r (.cvu i h) u = false → Completes (.cvuJob r i h u st fin) s (fun t => bit (t.dev.fld (.cvu i h) Fld.ERR_STAT_BLOCK) 2 = true ∧
        t.dev.fldI (.cvu i h) Fld.CVU_JOB_CTL_BUSY u = s.dev.fldI (.cvu i h) Fld.CVU_JOB_CTL_BUSY u ∧ KeepsMemory s t))) ∧
    (∀ a n bs v, s.dev.present (.cvu i h) = true → s.dev.fldI (.cvu i h) Fld.CVU_JOB_CTL_BUSY u = 1 → a = s.dev.fldI (.cvu i h) Fld.CVU_JOB_ADDR u →
      n = s.dev.fldI (.cvu i h) Fld.CVU_JOB_LEN u → s.plainRange a n → bs = (List.range n).map (fun k => s.mem.rdByte (a + k)) →
      s.dev.fldI (.cvu i h) Fld.CVU_CFG_FOLD u ≠ 2 → v = cvuRun alg (s.dev.fldI (.cvu i h) Fld.CVU_RUN u) bs →
      (s.dev.fldI (.cvu i h) Fld.CVU_JOB_CTL_FINAL u = 0 → Completes (.cvuJobDone i h u) s (fun t =>
        t.dev.fldI (.cvu i h) Fld.CVU_RUN u = v % 2 ^ 64 ∧ t.dev.fldI (.cvu i h) Fld.CVU_BYTES u = (s.dev.fldI (.cvu i h) Fld.CVU_BYTES u + n) % 2 ^ 64 ∧
        t.dev.fldI (.cvu i h) Fld.CVU_JOB_CTL_BUSY u = 0 ∧ t.dev.fldI (.cvu i h) Fld.CVU_JOB_CTL_RESULT u = 1 ∧ KeepsMemory s t)) ∧
      (∀ w, w = v ^^^ (if alg = 2 then 0 else cvuInit alg) → s.dev.fldI (.cvu i h) Fld.CVU_JOB_CTL_FINAL u = 1 → s.dev.fldI (.cvu i h) Fld.CVU_CFG_CMP u = 1 →
        (w = s.dev.fldI (.cvu i h) Fld.CVU_EXPECT u % 2 ^ cvuWidth alg → Completes (.cvuJobDone i h u) s (fun t =>
          t.dev.fldI (.cvu i h) Fld.CVU_JOB_CTL_RESULT u = 1 ∧ t.dev.fldI (.cvu i h) Fld.CVU_RUN u = w % 2 ^ 64 ∧
          t.dev.fldI (.cvu i h) Fld.CVU_JOB_CTL_BUSY u = 0 ∧ KeepsMemory s t)) ∧
        (w ≠ s.dev.fldI (.cvu i h) Fld.CVU_EXPECT u % 2 ^ cvuWidth alg → Completes (.cvuJobDone i h u) s (fun t =>
          t.dev.fldI (.cvu i h) Fld.CVU_JOB_CTL_RESULT u = 2 ∧ t.dev.fldI (.cvu i h) Fld.CVU_JOB_CTL_BUSY u = 0 ∧
          t.dev.cntOf (.cvu i h) 6 = (s.dev.cntOf (.cvu i h) 6 + 1) % 2 ^ 64 ∧ bit (t.dev.fld (.cvu i h) Fld.ERR_STAT_BLOCK) 0 = true ∧ KeepsMemory s t))))

/-- IDENTIFY, CREATE_QUEUE, DESTROY_QUEUE, CREATE_PARTITION, DESTROY_PARTITION, ATTACH_PARTITION, DETACH_PARTITION, FORWARD, SET_MAC, REGISTER_MEMORY,
DEREGISTER_MEMORY, CREATE_CONN, DESTROY_CONN, SET_VNS_TABLE, SET_BIVOUAC, SET_PKG_ID, CREW_FORM, MAILBOX_GO, VF_DENY, MBX_TIMEOUT, ATTACH_VNS and
KEY_SESSION. -/
def Obligations.AdminAndMailboxes : Prop :=
  ∀ (s : State) (x : Fetched) (n k : Nat), s.Canonical →
    (s.admin 0x01 x →
      (isHost x.dataAddr = true → Completes .identify s (fun t => AdminEnds s t x 0 [] ∧ (s.adminCqInHost → KeepsMemory s t))) ∧
      (s.dev.funcMem 0 x.dataAddr 4096 = false → Completes .identify s (fun t => AdminEnds s t x 0x010E [] ∧ SlotOnly s t 0 0))) ∧
    (∀ a mem, s.admin 0x02 x → s.dev.funcLive x.fn = false → Completes (.createQueue a k mem) s (fun t => AdminEnds s t x 0x1704 [] ∧ SlotOnly s t 0 0)) ∧
    (∀ a q mem, s.adminFor 0x02 x n → s.dev.queueArgsOk n a = true → (a.typ = 4 → s.dev.rootPorts = true) → (s.dev.heldBy s.mem n).2.1 < s.dev.app (.vf n) Fld.VF_QUOTA_QUEUES →
      s.dev.newQueue n q = some k → isHost a.base = true → Completes (.createQueue a q mem) s (fun t =>
        t.dev.queue n k = some ⟨a.typ, a.base, a.size, a.cq, a.vector, a.part, a.member, a.modCount, a.modUs, 0, 0, 1, false, false, [], 0, 0, 0⟩ ∧
        AdminEnds s t x 0 (leBytes 8 k) ∧ SlotOnly s t 0 0)) ∧
    (∀ y, s.adminFor 0x03 x n → s.dev.queue n k = some y → y.typ ≠ 7 → (isSq y.typ = true → y.typ = 3 ∨ (y.head = y.tail ∧ s.dev.queueBusy n k = false)) →
      (y.typ = 8 → ∀ kv ∈ s.dev.queues, kv.1 / 65536 = n → kv.2.cq = k → isSq kv.2.typ = false) → k < 65536 → Completes (.destroyQueue k) s (fun t =>
        t.dev.queue n k = none ∧ AdminEnds s t x 0 [] ∧ SlotOnly s t 0 0)) ∧
    (∀ mask (grants : List (Nat × Nat)), s.admin 0x04 x → k < s.dev.model.maxPart → k < 32 → mask ≠ 0 → mask < 2 ^ 32 →
      (∀ b, b < 32 → bit mask b = true → s.dev.hasTdie (b / 4) = true) → grants.length ≤ 16 → (∀ g ∈ grants, s.dev.grantOk g = true) → s.dev.part k = none →
      (∀ kv ∈ s.dev.parts, s.dev.qmask kv.1 &&& mask = 0) →
      apart ((s.dev.parts.flatMap fun kv : Nat × Partition => kv.2.grants.map fun g => (g.addr, g.addr + g.len)) ++ grants.map fun g => (g.1, g.1 + g.2)) = true →
      Completes (.createPartition k mask grants (0, 0)) s (fun t => t.dev.qmask k = mask ∧ t.dev.pState k = 0 ∧ AdminEnds s t x 0 [] ∧
        ∃ p, t.dev.part k = some p ∧ p.func = 0 ∧ p.image = none ∧ p.grants = grants.map fun g => ⟨g.1, g.2⟩)) ∧
    (∀ p, s.dev.part k = some p → k < 32 →
      (s.admin 0x05 x →
        (p.func = 0 → p.image = none → Completes (.destroyPartition k) s (fun t => t.dev.part k = none ∧ t.dev.qmask k = 0 ∧ AdminEnds s t x 0 [] ∧
          SlotOnly s t 0 0)) ∧
        (p.image ≠ none → Completes (.destroyPartition k) s (fun t => t.dev.part k = some p ∧ AdminEnds s t x 0x1703 [] ∧ SlotOnly s t 0 0))) ∧
      (s.adminFor 0x06 x n → p.func = 0 → p.image = none → (s.dev.heldBy s.mem n).1 < s.dev.app (.vf n) Fld.VF_QUOTA_PARTITIONS →
        Completes (.attachPartition k) s (fun t => t.dev.part k = some { p with func := n } ∧ AdminEnds s t x 0
          (leBytes 4 (s.dev.qmask k) ++ p.grants.flatMap fun g => leBytes 4 (g.addr / 0x200000) ++ leBytes 4 (g.len / 0x200000)) ∧ SlotOnly s t 0 0)) ∧
      (s.admin 0x07 x → p.func ≠ 0 → p.image = none → Completes (.detachPartition k) s (fun t => t.dev.part k = some { p with func := 0 } ∧
        AdminEnds s t x 0 [] ∧ SlotOnly s t 0 0))) ∧
    (∀ port addr, s.admin 0x09 x → port < 8 → s.dev.present (.eth (port / 4) (port % 4)) = true → s.dev.fld (.eth (port / 4) (port % 4)) Fld.COMMIT_BUSY = 0 →
      s.dev.reg.cur.Pairwise (fun a b => a.1 < b.1) → Completes (.setMac port addr) s (fun t =>
        t.dev.app (.eth (port / 4) (port % 4)) Fld.ETH_MAC_ADDR_ADDR = addr % 2 ^ 48 ∧ AdminEnds s t x 0 [] ∧ SlotOnly s t 0 0)) ∧
    (∀ (a : KeyArgs) e, s.adminFor 0x0A x n → a.key = none → a.len ≠ 0 → a.perm < 8 → a.allow < 2 ^ 16 → a.addr < 2 ^ 52 → s.dev.funcMem n a.addr a.len = true →
      (s.dev.heldBy s.mem n).2.2.1 < 1024 * s.dev.app (.vf n) Fld.VF_QUOTA_KEYS_K → s.dev.keyEntry s.mem k = some e → bit e.perm 7 = false →
      Tbl.look s.dev.keyTime k = none → s.plainRange (s.dev.keyAddr k) 32 → Completes (.registerMemory a k) s (fun t =>
        (s.adminCqInHost → StoresAt s t (s.dev.keyAddr k) (keyBytesOf a (s.dev.freeVal % 256) n)) ∧ Tbl.look t.dev.keyTime k = some s.dev.clk.now ∧
        AdminEnds s t x 0 (leBytes 4 (k + s.dev.freeVal % 256 * 2 ^ 24)))) ∧
    (∀ e, s.adminFor 0x0B x n → s.dev.ownKey s.mem n k = some e → s.plainRange (s.dev.keyAddr (k % 2 ^ 24) + 16) 1 → Completes (.deregisterMemory k) s (fun t =>
      (s.adminCqInHost → StoresAt s t (s.dev.keyAddr (k % 2 ^ 24) + 16) [BitVec.ofNat 8 (e.perm - 128)]) ∧ AdminEnds s t x 0 [])) ∧
    (∀ a, s.adminFor 0x0C x n → s.dev.connArgsOk a = true → a.enc = none → (s.dev.heldBy s.mem n).2.2.2 < s.dev.app (.vf n) Fld.VF_QUOTA_CONNS →
      s.dev.fld .pkg Fld.PKG_ID_VALID = 1 → s.dev.connFits k a.cls = true → Completes (.createConn a k) s (fun t => AdminEnds s t x 0 (leBytes 8 k) ∧ SlotOnly s t 0 0 ∧
        ∃ c, t.dev.conn k = some c ∧ c.func = n ∧ c.peer = a.peer ∧ c.cls = a.cls ∧ c.st = 0 ∧ c.cached = true ∧ c.nextPsn = a.psn ∧ c.cum = a.peerPsn ∧
          c.paths.length = a.paths.length)) ∧
    (∀ c, s.adminFor 0x0D x n → s.dev.conn k = some c → c.func = n → c.crew = false → c.reqs = [] → c.msgs = [] → c.unacked = [] → Completes (.destroyConn k) s (fun t =>
      t.dev.conn k = none ∧ AdminEnds s t x 0 [])) ∧
    (∀ count dest, s.admin 0x0E x → s.dev.rootPorts = true → 1 ≤ count → count ≤ 1024 → s.dev.funcMem 0 x.dataAddr (256 * count) = true →
      s.plainRange x.dataAddr (256 * count) → s.plainRange dest (256 * count) → dest % 4096 = 0 → s.dev.memKind dest = .hbm →
      (s.dev.app s.dev.nvr Fld.NVR_VNS_BASE_VALID = 1 → dest ≠ s.dev.app s.dev.nvr Fld.NVR_VNS_BASE_ADDR * 4096) → s.dev.fld s.dev.nvr Fld.COMMIT_BUSY = 0 →
      s.dev.oneGeneration s.dev.nvr = true → s.dev.reg.cur.Pairwise (fun a b => a.1 < b.1) →
      (∀ j, j < count → s.dev.vnsOk ((List.range 256).map fun y => s.mem.rdByte (x.dataAddr + (256 * j + y))) = true) → Completes (.setVnsTable count dest) s (fun t =>
        t.dev.app s.dev.nvr Fld.NVR_VNS_BASE_VALID = 1 ∧ t.dev.app s.dev.nvr Fld.NVR_VNS_BASE_ADDR = dest / 4096 ∧ t.dev.app s.dev.nvr Fld.NVR_VNS_COUNT_COUNT = count ∧
        (s.adminCqInHost → StoresAt s t dest ((List.range (256 * count)).map fun y => s.mem.rdByte (x.dataAddr + y))) ∧ AdminEnds s t x 0 [])) ∧
    (∀ i addr, s.admin 0x0F x → s.dev.present (.gft i) = true → addr % 4096 = 0 → addr < 2 ^ 52 → isHost addr = true → k ≤ 2 ^ 22 → Completes (.setBivouac i addr k) s (fun t =>
      t.dev.fld (.gft i) Fld.GFT_BIVOUAC_ENABLE = 1 ∧ t.dev.fld (.gft i) Fld.GFT_BIVOUAC_ADDR = addr / 4096 ∧ t.dev.fld (.gft i) Fld.GFT_BIVOUAC_SIZE_COUNT = k ∧
      AdminEnds s t x 0 [] ∧ SlotOnly s t 0 0)) ∧
    (s.admin 0x10 x → k < 2 ^ 14 → s.dev.cfg.straps.idSrc = 0 →
      (s.dev.fld .pkg Fld.PKG_ID_VALID = 0 → Completes (.setPkgId k) s (fun t => t.dev.fld .pkg Fld.PKG_ID_ID = k ∧ t.dev.fld .pkg Fld.PKG_ID_VALID = 1 ∧
        AdminEnds s t x 0 [] ∧ SlotOnly s t 0 0)) ∧
      (s.dev.fld .pkg Fld.PKG_ID_VALID = 1 → Completes (.setPkgId k) s (fun t => t.dev.fld .pkg Fld.PKG_ID_ID = s.dev.fld .pkg Fld.PKG_ID_ID ∧
        AdminEnds s t x 0x1703 [] ∧ SlotOnly s t 0 0))) ∧
    (∀ ms own ver conns, s.dev.crewOk ms own = true → s.dev.crewConnsOk ms own conns = true → s.dev.crew.members = [] →
      (s.dev.cfg.straps.crewRole = 1 → s.admin 0x11 x → own = 0 → Completes (.crewForm ms own ver conns) s (fun t => AdminEnds s t x 0 [] ∧
        t.dev.crew.members = ms.map (fun y => ⟨y.index, y.pkg, y.partner, y.addr, y.len⟩) ∧ t.dev.fld .pkg Fld.PKG_CREW_SIZE = ms.length ∧
        t.dev.fld .pkg Fld.PKG_CREW_INDEX = 0)) ∧
      (s.dev.cfg.straps.crewRole = 2 → s.dev.fwState = 7 → own ≠ 0 → s.dev.cfg.straps.idSrc ≠ 0 → Completes (.crewForm ms own ver conns) s (fun t =>
        t.dev.crew.members = ms.map (fun y => ⟨y.index, y.pkg, y.partner, y.addr, y.len⟩) ∧ t.dev.fld .pkg Fld.PKG_CREW_SIZE = ms.length ∧
        t.dev.fld .pkg Fld.PKG_CREW_INDEX = own ∧ KeepsMemory s t))) ∧
    (n ≠ 0 → s.dev.present (.mbx n) = true → s.dev.funcLive n = true → s.dev.link.flr.contains n = false →
      (s.dev.fld (.mbx n) Fld.VF_MBX_CTL_BUSY = 0 → Completes (.mailboxGo n) s (fun t =>
        t.dev.fld (.vf n) Fld.VF_MBX_COPY = s.dev.fld (.mbx n) Fld.VF_MBX_REQ % 2 ^ 2048 ∧ t.dev.fld (.mbx n) Fld.VF_MBX_CTL_BUSY = 1 ∧
        t.dev.fld (.mbx n) Fld.VF_MBX_CTL_SEQ = (s.dev.fld (.mbx n) Fld.VF_MBX_CTL_SEQ + 1) % 2 ^ 16 ∧ t.dev.fld (.vf n) Fld.VF_STATE_MBX_PENDING = 1 ∧
        t.dev.cntOf (.vf n) 2 = (s.dev.cntOf (.vf n) 2 + 1) % 2 ^ 64 ∧ KeepsMemory s t)) ∧
      (s.dev.fld (.mbx n) Fld.VF_MBX_CTL_BUSY = 1 → Completes (.mailboxGo n) s (fun t => t.dev.fld (.vf n) Fld.ERR_STAT_ACCESS = 1 ∧
        t.dev.fld (.vf n) Fld.VF_MBX_COPY = s.dev.fld (.vf n) Fld.VF_MBX_COPY ∧ KeepsMemory s t) ∧
        Completes (.mbxTimeout n) s (fun t => MailboxAnswered t n 0x1604 ∧ t.dev.cntOf (.vf n) 4 = (s.dev.cntOf (.vf n) 4 + 1) % 2 ^ 64 ∧ KeepsMemory s t))) ∧
    (∀ r st, n ≠ 0 → s.dev.mayAccess r (.vf n) = true → s.dev.fld (.vf n) Fld.VF_STATE_MBX_PENDING = 1 → st < 2 ^ 16 → Completes (.vfDeny r n st) s (fun t =>
      MailboxAnswered t n st ∧ t.dev.cntOf (.vf n) 3 = (s.dev.cntOf (.vf n) 3 + 1) % 2 ^ 64 ∧ KeepsMemory s t)) ∧
    (s.adminFor 0x08 x n → s.dev.fld (.vf n) Fld.VF_STATE_MBX_PENDING = 1 →
      (∀ q d e, ((s.dev.mbxCopy n).getD 0 0).toNat = mbxCode q → s.dev.perform s.mem n q = .fin d e →
        (∀ id c, s.dev.conn id = some c → ∀ r ∈ c.reqs, ∀ g j h i b, r.client = .queue g j h i b → g = c.func) → Completes (.forward q) s (fun t =>
          MailboxAnswered t n (e.mbx % 2 ^ 16) ∧ t.dev.conns = d.conns ∧ t.dev.parts = d.parts ∧ AdminEnds s t x 0 [])) ∧
      (((s.dev.mbxCopy n).getD 0 0).toNat = 0x0A → s.dev.rootPorts = true →
        (∀ r, s.dev.vnsRec k (s.dev.fld .pkg Fld.PKG_WAVE_EPOCH) = some r →
          (r.func = n → bit r.flags 3 = false → Completes (.attachVns k) s (fun t => MailboxAnswered t n 0 ∧
            t.dev.fld (.mbx n) Fld.VF_MBX_RESP / 2 ^ 64 % 2 ^ 64 = r.exts.length * r.extLen % 2 ^ 64 ∧ AdminEnds s t x 0 [] ∧ SlotOnly s t 0 0)) ∧
          (r.func ≠ n → Completes (.attachVns k) s (fun t => MailboxAnswered t n 0x1601 ∧ AdminEnds s t x 0 [] ∧ SlotOnly s t 0 0)))) ∧
      (((s.dev.mbxCopy n).getD 0 0).toNat = 0x0B → ∀ i q ans, s.dev.present (.kvt i) = true → q = { parseVReq ((s.dev.mbxCopy n).drop 8) false with owner := n } →
        (q.op = 7 ∨ q.op = 10 → Completes (.keySession i ans) s (fun t => MailboxAnswered t n 0x1601 ∧ t.dev.vaults = s.dev.vaults ∧ AdminEnds s t x 0 [] ∧
          SlotOnly s t 0 0)) ∧
        (q.op = 8 → s.dev.waitsForImport i q = false → s.dev.vaultRefuse i q = 0 → Completes (.keySession i ans) s (fun t => MailboxAnswered t n (t.dev.withApproved i 0) ∧
          (t.dev.vault i).slots = (s.dev.vault i).slots ∧ AdminEnds s t x 0 [] ∧ SlotOnly s t 0 0))))

/-- FW_LOAD_GO, MEMBER_FW_DELIVERY, TRAINING_COMPLETE, COX_WATCHDOG_EXPIRY, COX_WDT_KICK, COX_PANIC, TCM_UE, DOUBLE_TRAP, SRAM_WRITE, COX_POISON_LOAD,
COX_JRNL_APPEND, COX_TRIGGER_HALT, COX_DEBUG_RESUME, HOST_PULSE, HOST_PULSE_TIMEOUT, DETACH_HOLD_EXPIRY, PKG_ATTACH, HOST_LOST and HOST_ADOPT. -/
def Obligations.FirmwareLife : Prop :=
  ∀ (s : State) (r : Req) (i c pc : Nat) (failed : List (Nat × Nat)), s.Canonical →
    (s.dev.mayAccess r .pkg = true →
      (∀ v len, bit v 0 = true → len = s.dev.fld .pkg Fld.PKG_FW_LEN_BYTES → s.dev.fwState = 2 ∨ s.dev.fwState = 4 →
        (s.dev.busMaster 0 = true → 4096 ≤ len → len ≤ 16777216 → s.dev.tagRoom ≠ 0 → s.dev.link.expired.contains 0 = false →
          s.dev.xferOf (.unit "fw" 0 0) = none → Completes (.fwLoadGo r v) s (fun t => t.dev.fwState = 3 ∧
            (∃ y ∈ t.dev.xfers, y.want = .unit "fw" 0 0 ∧ y.len = len) ∧ KeepsMemory s t)) ∧
        (s.dev.busMaster 0 = false ∨ len < 4096 ∨ 16777216 < len → Completes (.fwLoadGo r v) s (fun t => t.dev.fwState = s.dev.fwState ∧
          t.dev.fld .pkg Fld.ERR_STAT_ACCESS = 1 ∧ KeepsMemory s t))) ∧
      (∀ v x, bit v 0 = true → s.dev.fwState = 3 → s.dev.xferOf (.unit "fw" 0 0) = some x → x.left = 0 → x.status = 0 → 4096 ≤ s.dev.fld .pkg Fld.PKG_FW_LEN_BYTES →
        s.dev.link.expired.contains 0 = false → Completes (.fwLoadGo r v) s (fun t => State.imageTaken s t x.bytes (s.dev.fld .pkg Fld.PKG_DRV_VER_MAJOR) ∧
          KeepsMemory s t)) ∧
      (∀ v, Completes (.hostPulse r v) s (fun t => t.dev.fld .pkg Fld.PKG_HOST_PULSE_VALUE = v % 2 ^ 32 ∧
        (s.dev.fwState = 7 → t.dev.fw.pulse = some s.dev.clk.now) ∧ (s.dev.fwState ≠ 7 → t.dev.fw = s.dev.fw) ∧ KeepsMemory s t)) ∧
      (∀ v, (s.dev.fwState ≠ 8 → Completes (.pkgAttach r v failed) s (fun t => t.dev.fld .pkg Fld.ERR_STAT_ACCESS = 1 ∧ t.dev.fwState = s.dev.fwState ∧
          KeepsMemory s t)) ∧
        (s.dev.fwState = 8 → bit v 0 = true → bit v 1 = true → s.dev.compatible = true → Completes (.pkgAttach r v failed) s (fun t => s.adopted t)) ∧
        (s.dev.fwState = 8 → bit v 0 = true → bit v 1 = false ∨ s.dev.compatible = false → Completes (.pkgAttach r v failed) s (fun t =>
          t.dev.fld .pkg Fld.PKG_RESET_CAUSE_LAST = 4 ∧ t.dev.parts = [] ∧ t.dev.queues = [] ∧ t.dev.conns = [] ∧ t.pending = s.pending)))) ∧
    (s.dev.fwState = 8 → s.dev.fld .pkg Fld.PKG_HOST_STATE_DETACHED = 1 → Completes (.detachHoldExpiry failed) s (fun t =>
      t.dev.fld .pkg Fld.PKG_RESET_CAUSE_LAST = 3 ∧ t.dev.parts = [] ∧ t.dev.queues = [] ∧ t.dev.conns = [] ∧ t.pending = s.pending)) ∧
    (s.dev.fwState = 7 →
      (s.dev.fw.pulse ≠ none → Completes .hostPulseTimeout s (fun t => t.dev.fwState = 8 ∧ t.dev.fld .pkg Fld.PKG_HOST_STATE_CAUSE = 1 ∧
        t.dev.fld .pkg Fld.PKG_HOST_STATE_DETACHED = 1 ∧ t.dev.fw.detach = some s.dev.clk.now ∧ t.dev.fw.pulse = none ∧ t.pending = s.pending)) ∧
      (s.dev.fw.pulse = none → exec .hostPulseTimeout s = .next s) ∧
      (∀ k, k < 8 → s.dev.cfg.straps.crewRole = 2 → Completes (.hostLost k) s (fun t => t.dev.fwState = 8 ∧ t.dev.fld .pkg Fld.PKG_HOST_STATE_CAUSE = k ∧
        t.dev.fw.pulse = none ∧ t.pending = s.pending))) ∧
    (s.dev.cfg.straps.crewRole = 2 →
      (s.dev.fwState = 8 → Completes .hostAdopt s (fun t => s.adopted t)) ∧
      (∀ img ver, s.dev.fwState = 2 ∨ s.dev.fwState = 4 → Completes (.memberFwDelivery img ver) s (fun t => State.imageTaken s t img (ver / 256 % 256) ∧
        t.dev.out = s.dev.out ++ [.msg "member-firmware" 0 [s.dev.fld .pkg Fld.PKG_CREW_INDEX, t.dev.fwState]] ∧ KeepsMemory s t))) ∧
    (∀ bad dimms uns, s.dev.fwState = 6 → (∀ n ∈ s.dev.model.tdies, ∃ e, e < 4 ∧ s.dev.peerDie n e ≠ 15) →
      (∀ n ∈ s.dev.model.tdies, ∀ k, k < 3 → s.dev.fld (.hbmc n k) Fld.HBMC_STATE_FAILED = 0) →
      ((∀ n ∈ s.dev.model.tdies, ∀ k, k < 3 → bad.contains (n, k) = false) → Completes (.trainingComplete [] [] bad dimms uns) s (fun t => t.dev.fwState = 7 ∧
        t.dev.fld .pkg Fld.PKG_TRAIN_PHASE = 3 ∧ (∀ n ∈ s.dev.model.tdies, t.dev.fld (.tdie n) Fld.TDIE_STATE_TRAINED = 1 ∧
          ∀ k, k < 3 → t.dev.fld (.hbmc n k) Fld.HBMC_STATE_TRAINED = 1) ∧ t.pending = s.pending)) ∧
      ((∃ n ∈ s.dev.model.tdies, ∃ k, k < 3 ∧ bad.contains (n, k) = true) → Completes (.trainingComplete [] [] bad dimms uns) s (fun t => t.dev.fwState = 15 ∧
        t.dev.fld .pkg Fld.PKG_TRAIN_FAILED = 1 ∧ t.pending = s.pending))) ∧
    (s.dev.present (.cox i c) = true →
      (∀ cmd cause, s.dev.coxState i c = 1 → (cause = 1 ∧ cmd = Instr.coxWatchdogExpiry i c pc ∨ cause = 4 ∧ s.dev.mayAccess r (.cox i c) = true ∧ cmd = Instr.coxPanic r i c pc ∨
          cause = 3 ∧ cmd = Instr.tcmUe i c pc ∨ cause = 2 ∧ cmd = Instr.doubleTrap i c pc ∨ cause = 5 ∧ cmd = Instr.sramWrite i c pc) →
        Completes cmd s (fun t => t.dev.fld (.cox i c) Fld.COX_CRASH_CAUSE = cause ∧ t.dev.fld (.cox i c) Fld.COX_CRASH_VALID = 1 ∧
          t.dev.fld (.cox i c) Fld.COX_CRASH_PC = pc % 2 ^ 64 ∧
          t.dev.fld (.cox i c) Fld.COX_STATE_CRASHES = satAdd 8 (s.dev.fld (.cox i c) Fld.COX_STATE_CRASHES) 1 % 2 ^ 8 ∧
          (if (match (s.dev.core i c).crashed with
              | some u => decide (s.dev.clk.now < u + 1000000000)
              | none => false) then t.dev.coxState i c = 3 ∧ (t.dev.core i c).restart = none
            else t.dev.coxState i c = 2 ∧ (t.dev.core i c).restart = some (s.dev.clk.now + 5000000)) ∧ t.pending = s.pending)) ∧
      exec (.coxWdtKick (.cox i c) i c) s = .next s ∧
      (s.dev.mayAccess r (.cox i c) = true → r ≠ .cox i c → Completes (.coxWdtKick r i c) s (fun t => t.dev.fld (.cox i c) Fld.ERR_STAT_ACCESS = 1 ∧ KeepsMemory s t)) ∧
      (∀ f q x st, s.dev.coxState i c = 1 → s.dev.oldest f q = some x → poisonStatus (s.dev.queueTyp f q) = some st → s.dev.ddrUndef = [] →
        Completes (.coxPoisonLoad i c f q) s (fun t => t.dev.cntOf (.cox i c) 2 = (s.dev.cntOf (.cox i c) 2 + 1) % 2 ^ 64 ∧
          Answers s t f q x.head (statusBody (x.num 2 2) st) ∧ t.dev.fetched = s.dev.fetched.filter (fun z => decide (z.id ≠ x.id)) ∧ SlotOnly s t f q)) ∧
      (∀ rec used, used = ((s.dev.core i c).journal.map List.length).sum → used + rec.length ≤ 262144 → Completes (.coxJrnlAppend (.cox i c) i c rec) s (fun t =>
        (t.dev.core i c).journal = (s.dev.core i c).journal ++ [rec] ∧ t.dev.fld (.cox i c) Fld.COX_JRNL_USED = used + rec.length ∧
        t.dev.cntOf (.cox i c) 3 = (s.dev.cntOf (.cox i c) 3 + 1) % 2 ^ 64 ∧ KeepsMemory s t)) ∧
      (s.dev.debugOpen = true → s.dev.coxState i c = 1 → Completes (.coxTriggerHalt i c) s (fun t => t.dev.coxState i c = 4 ∧
        t.dev.fld .bly Fld.BLY_STATE_DEBUG = 1 ∧
        (bit (s.dev.fld (.cox i c) Fld.COX_DBG_CFG_ON_HALT) 0 = true → ∀ k, k < 8 → s.dev.coxState i k = 1 → t.dev.coxState i k = 4) ∧
        (bit (s.dev.fld (.cox i c) Fld.COX_DBG_CFG_ON_HALT) 0 = false → ∀ k, k < 8 → k ≠ c → t.dev.coxState i k = s.dev.coxState i k) ∧
        (bit (s.dev.fld (.cox i c) Fld.COX_DBG_CFG_ON_HALT) 1 = true → s.dev.fldI .bly Fld.BLY_HOLD_CTL_ACTIVE 2 = 0 →
          t.dev.fldI .bly Fld.BLY_HOLD_CTL_ACTIVE 2 = 1 ∧ t.dev.fldI .bly Fld.BLY_HOLD_CTL_KIND 2 = 1) ∧ KeepsMemory s t)) ∧
      (s.dev.debugOpen = false → exec (.coxTriggerHalt i c) s = .next s) ∧
      (s.dev.debugOpen = true → s.dev.coxState i c = 4 → Completes (.coxDebugResume i c) s (fun t => t.dev.coxState i c = 1 ∧ RegsOnly s t)))

end
end

