-- ==== Sys2Proof/Laws/Memory.lean ====
section
/-!
SUPPORT. What the operations on memory do: each keeps the canonical form, a read after a write to the same place gives the value written, and a
write leaves every other place alone.
-/
namespace Sys2Proof.Machine

/-- The canonical form above a higher bound is canonical above a lower one. -/
theorem Memory.wfFrom_mono {lo lo' : Nat} (h : lo' ≤ lo) {m : Memory} (w : Memory.wfFrom lo m = true) : Memory.wfFrom lo' m = true := by
  cases m with
  | nil => rfl
  | cons c m =>
    obtain ⟨a, b⟩ := c
    simp only [Memory.wfFrom, Bool.and_eq_true, decide_eq_true_eq] at w ⊢
    exact ⟨⟨by omega, w.1.2⟩, w.2⟩

/-- Below its bound a canonical list has no cell. -/
theorem Memory.rdByte_below {lo : Nat} {m : Memory} (w : Memory.wfFrom lo m = true) {a : Nat} (h : a < lo) : Memory.rdByte m a = Memory.blank := by
  induction m generalizing lo with
  | nil => rfl
  | cons c m ih =>
    obtain ⟨k, b⟩ := c
    simp only [Memory.wfFrom, Bool.and_eq_true, decide_eq_true_eq] at w
    have hk : a ≠ k := by omega
    simp only [Memory.rdByte, hk, if_false]
    exact ih w.2 (by omega)

/-- Writing a byte keeps the canonical form. -/
theorem Memory.wrByte_wfFrom {lo : Nat} {m : Memory} (w : Memory.wfFrom lo m = true) (q : Nat) (v : Byte) (h : lo ≤ q) :
    Memory.wfFrom lo (Memory.wrByte m q v) = true := by
  induction m generalizing lo with
  | nil =>
    by_cases hv : v = Memory.blank <;> simp [Memory.wrByte, Memory.wfFrom, hv, h]
  | cons c m ih =>
    obtain ⟨a, b⟩ := c
    simp only [Memory.wfFrom, Bool.and_eq_true, decide_eq_true_eq] at w
    by_cases h1 : q < a
    · by_cases hv : v = Memory.blank
      · simp only [Memory.wrByte, h1, hv, if_true, Memory.wfFrom, Bool.and_eq_true, decide_eq_true_eq]
        exact w
      · simp only [Memory.wrByte, h1, hv, if_true, if_false, Memory.wfFrom, Bool.and_eq_true, decide_eq_true_eq]
        exact ⟨⟨h, hv⟩, ⟨by omega, w.1.2⟩, w.2⟩
    · by_cases h2 : q = a
      · subst h2
        by_cases hv : v = Memory.blank
        · simp only [Memory.wrByte, Nat.lt_irrefl, hv, if_true, if_false]
          exact Memory.wfFrom_mono (by omega) w.2
        · simp only [Memory.wrByte, Nat.lt_irrefl, hv, if_true, if_false, Memory.wfFrom, Bool.and_eq_true, decide_eq_true_eq]
          exact ⟨⟨h, hv⟩, w.2⟩
      · simp only [Memory.wrByte, h1, h2, if_false, Memory.wfFrom, Bool.and_eq_true, decide_eq_true_eq]
        exact ⟨w.1, ih w.2 (by omega)⟩

/-- A read after writing a byte. -/
theorem Memory.rdByte_wrByte {lo : Nat} {m : Memory} (w : Memory.wfFrom lo m = true) (q : Nat) (v : Byte) (a : Nat) :
    Memory.rdByte (Memory.wrByte m q v) a = if a = q then v else Memory.rdByte m a := by
  induction m generalizing lo with
  | nil =>
    by_cases hv : v = Memory.blank <;> by_cases ha : a = q <;> simp [Memory.wrByte, Memory.rdByte, hv, ha]
  | cons c m ih =>
    obtain ⟨k, b⟩ := c
    have w' := w
    simp only [Memory.wfFrom, Bool.and_eq_true, decide_eq_true_eq] at w
    by_cases h1 : q < k
    · by_cases hv : v = Memory.blank
      · simp only [Memory.wrByte, h1, hv, if_true]
        by_cases ha : a = q
        · subst ha
          have hk : a ≠ k := by omega
          simp only [Memory.rdByte, hk, if_false, if_true]
          exact Memory.rdByte_below w.2 (by omega)
        · simp only [ha, if_false]
      · by_cases ha : a = q <;> simp [Memory.wrByte, h1, hv, Memory.rdByte, ha]
    · by_cases h2 : q = k
      · subst h2
        by_cases hv : v = Memory.blank
        · simp only [Memory.wrByte, Nat.lt_irrefl, hv, if_true, if_false]
          by_cases ha : a = q
          · subst ha
            simp only [if_true]
            exact Memory.rdByte_below w.2 (by omega)
          · simp [Memory.rdByte, ha]
        · by_cases ha : a = q <;> simp [Memory.wrByte, hv, Memory.rdByte, ha]
      · simp only [Memory.wrByte, h1, h2, if_false, Memory.rdByte, ih w.2]
        by_cases hk : a = k
        · have : a ≠ q := by omega
          simp [hk, Ne.symm h2]
        · simp [hk]

/-- Writing bytes keeps the canonical form. -/
theorem Memory.wrBytes_wf {m : Memory} (w : m.wf = true) (a : Nat) (bs : List Byte) : (Memory.wrBytes m a bs).wf = true := by
  induction bs generalizing m a with
  | nil => exact w
  | cons b bs ih => exact ih (Memory.wrByte_wfFrom w a b (Nat.zero_le _)) (a + 1)

/-- Clearing a range keeps the canonical form. -/
theorem Memory.clear_wfFrom (lo n : Nat) {m : Memory} {k : Nat} (w : Memory.wfFrom k m = true) :
    Memory.wfFrom k (Memory.clear lo n m) = true := by
  induction m generalizing k with
  | nil => rfl
  | cons c m ih =>
    obtain ⟨a, b⟩ := c
    simp only [Memory.wfFrom, Bool.and_eq_true, decide_eq_true_eq] at w
    by_cases h : lo ≤ a ∧ a < lo + n
    · simp only [Memory.clear, h, and_self, if_true]
      exact Memory.wfFrom_mono (by omega) (ih w.2)
    · simp only [Memory.clear, h, if_false, Memory.wfFrom, Bool.and_eq_true, decide_eq_true_eq]
      exact ⟨w.1, ih w.2⟩

/-- One store keeps the canonical form. -/
theorem Memory.store_wf {m : Memory} (w : m.wf = true) (x : Store) : (m.store x).wf = true := by
  cases x with
  | bytes a bs => exact Memory.wrBytes_wf w a bs
  | zero a n => exact Memory.clear_wfFrom a n w

/-- The stores of a command keep the canonical form. -/
theorem Memory.storeAll_wf {m : Memory} (w : m.wf = true) (xs : List Store) : (m.storeAll xs).wf = true := by
  induction xs generalizing m with
  | nil => exact w
  | cons x xs ih => exact ih (Memory.store_wf w x)

end Sys2Proof.Machine
end

