-- ==== Sys2Proof/Laws/State.lean ====
section
/-!
SUPPORT. One lemma for each field under each update of a Device.
-/
namespace Sys2Proof.Machine

@[simp] theorem Device.setCfg_cfg (d : Device) (v : Cfg) : (d.setCfg v).cfg = v := rfl
@[simp] theorem Device.setCfg_clk (d : Device) (v : Cfg) : (d.setCfg v).clk = d.clk := rfl
@[simp] theorem Device.setCfg_reg (d : Device) (v : Cfg) : (d.setCfg v).reg = d.reg := rfl
@[simp] theorem Device.setCfg_rings (d : Device) (v : Cfg) : (d.setCfg v).rings = d.rings := rfl
@[simp] theorem Device.setCfg_out (d : Device) (v : Cfg) : (d.setCfg v).out = d.out := rfl
@[simp] theorem Device.setCfg_wr (d : Device) (v : Cfg) : (d.setCfg v).wr = d.wr := rfl
@[simp] theorem Device.setCfg_poison (d : Device) (v : Cfg) : (d.setCfg v).poison = d.poison := rfl
@[simp] theorem Device.setCfg_msix (d : Device) (v : Cfg) : (d.setCfg v).msix = d.msix := rfl
@[simp] theorem Device.setCfg_hold (d : Device) (v : Cfg) : (d.setCfg v).hold = d.hold := rfl
@[simp] theorem Device.setCfg_wave (d : Device) (v : Cfg) : (d.setCfg v).wave = d.wave := rfl
@[simp] theorem Device.setCfg_mbr (d : Device) (v : Cfg) : (d.setCfg v).mbr = d.mbr := rfl
@[simp] theorem Device.setCfg_corrs (d : Device) (v : Cfg) : (d.setCfg v).corrs = d.corrs := rfl
@[simp] theorem Device.setCfg_d2dReplays (d : Device) (v : Cfg) : (d.setCfg v).d2dReplays = d.d2dReplays := rfl
@[simp] theorem Device.setCfg_tiles (d : Device) (v : Cfg) : (d.setCfg v).tiles = d.tiles := rfl
@[simp] theorem Device.setCfg_mesh (d : Device) (v : Cfg) : (d.setCfg v).mesh = d.mesh := rfl
@[simp] theorem Device.setCfg_tokHold (d : Device) (v : Cfg) : (d.setCfg v).tokHold = d.tokHold := rfl
@[simp] theorem Device.setCfg_ropes (d : Device) (v : Cfg) : (d.setCfg v).ropes = d.ropes := rfl
@[simp] theorem Device.setCfg_ropeMoved (d : Device) (v : Cfg) : (d.setCfg v).ropeMoved = d.ropeMoved := rfl
@[simp] theorem Device.setCfg_flows (d : Device) (v : Cfg) : (d.setCfg v).flows = d.flows := rfl
@[simp] theorem Device.setCfg_tapQ (d : Device) (v : Cfg) : (d.setCfg v).tapQ = d.tapQ := rfl
@[simp] theorem Device.setCfg_nextFlow (d : Device) (v : Cfg) : (d.setCfg v).nextFlow = d.nextFlow := rfl
@[simp] theorem Device.setCfg_parts (d : Device) (v : Cfg) : (d.setCfg v).parts = d.parts := rfl
@[simp] theorem Device.setCfg_ceLog (d : Device) (v : Cfg) : (d.setCfg v).ceLog = d.ceLog := rfl
@[simp] theorem Device.setCfg_ddrUndef (d : Device) (v : Cfg) : (d.setCfg v).ddrUndef = d.ddrUndef := rfl
@[simp] theorem Device.setCfg_conns (d : Device) (v : Cfg) : (d.setCfg v).conns = d.conns := rfl
@[simp] theorem Device.setCfg_gft (d : Device) (v : Cfg) : (d.setCfg v).gft = d.gft := rfl
@[simp] theorem Device.setCfg_groups (d : Device) (v : Cfg) : (d.setCfg v).groups = d.groups := rfl
@[simp] theorem Device.setCfg_tmWait (d : Device) (v : Cfg) : (d.setCfg v).tmWait = d.tmWait := rfl
@[simp] theorem Device.setCfg_fecBad (d : Device) (v : Cfg) : (d.setCfg v).fecBad = d.fecBad := rfl
@[simp] theorem Device.setCfg_keyTime (d : Device) (v : Cfg) : (d.setCfg v).keyTime = d.keyTime := rfl
@[simp] theorem Device.setCfg_pipeIn (d : Device) (v : Cfg) : (d.setCfg v).pipeIn = d.pipeIn := rfl
@[simp] theorem Device.setCfg_pipes (d : Device) (v : Cfg) : (d.setCfg v).pipes = d.pipes := rfl
@[simp] theorem Device.setCfg_clsSlots (d : Device) (v : Cfg) : (d.setCfg v).clsSlots = d.clsSlots := rfl
@[simp] theorem Device.setCfg_flowCnts (d : Device) (v : Cfg) : (d.setCfg v).flowCnts = d.flowCnts := rfl
@[simp] theorem Device.setCfg_pmeFlows (d : Device) (v : Cfg) : (d.setCfg v).pmeFlows = d.pmeFlows := rfl
@[simp] theorem Device.setCfg_places (d : Device) (v : Cfg) : (d.setCfg v).places = d.places := rfl
@[simp] theorem Device.setCfg_loaded (d : Device) (v : Cfg) : (d.setCfg v).loaded = d.loaded := rfl
@[simp] theorem Device.setCfg_waveEpoch (d : Device) (v : Cfg) : (d.setCfg v).waveEpoch = d.waveEpoch := rfl
@[simp] theorem Device.setCfg_tmQueues (d : Device) (v : Cfg) : (d.setCfg v).tmQueues = d.tmQueues := rfl
@[simp] theorem Device.setCfg_tmPorts (d : Device) (v : Cfg) : (d.setCfg v).tmPorts = d.tmPorts := rfl
@[simp] theorem Device.setCfg_policers (d : Device) (v : Cfg) : (d.setCfg v).policers = d.policers := rfl
@[simp] theorem Device.setCfg_blocks (d : Device) (v : Cfg) : (d.setCfg v).blocks = d.blocks := rfl
@[simp] theorem Device.setCfg_nvmes (d : Device) (v : Cfg) : (d.setCfg v).nvmes = d.nvmes := rfl
@[simp] theorem Device.setCfg_nextNvme (d : Device) (v : Cfg) : (d.setCfg v).nextNvme = d.nextNvme := rfl
@[simp] theorem Device.setCfg_stage (d : Device) (v : Cfg) : (d.setCfg v).stage = d.stage := rfl
@[simp] theorem Device.setCfg_vaults (d : Device) (v : Cfg) : (d.setCfg v).vaults = d.vaults := rfl
@[simp] theorem Device.setCfg_hostReads (d : Device) (v : Cfg) : (d.setCfg v).hostReads = d.hostReads := rfl
@[simp] theorem Device.setCfg_link (d : Device) (v : Cfg) : (d.setCfg v).link = d.link := rfl
@[simp] theorem Device.setCfg_nextFetch (d : Device) (v : Cfg) : (d.setCfg v).nextFetch = d.nextFetch := rfl
@[simp] theorem Device.setCfg_xfers (d : Device) (v : Cfg) : (d.setCfg v).xfers = d.xfers := rfl
@[simp] theorem Device.setCfg_queues (d : Device) (v : Cfg) : (d.setCfg v).queues = d.queues := rfl
@[simp] theorem Device.setCfg_fetched (d : Device) (v : Cfg) : (d.setCfg v).fetched = d.fetched := rfl
@[simp] theorem Device.setCfg_heldW (d : Device) (v : Cfg) : (d.setCfg v).heldW = d.heldW := rfl
@[simp] theorem Device.setCfg_cores (d : Device) (v : Cfg) : (d.setCfg v).cores = d.cores := rfl
@[simp] theorem Device.setCfg_fw (d : Device) (v : Cfg) : (d.setCfg v).fw = d.fw := rfl
@[simp] theorem Device.setCfg_queueMem (d : Device) (v : Cfg) : (d.setCfg v).queueMem = d.queueMem := rfl
@[simp] theorem Device.setCfg_wlogs (d : Device) (v : Cfg) : (d.setCfg v).wlogs = d.wlogs := rfl
@[simp] theorem Device.setCfg_stores (d : Device) (v : Cfg) : (d.setCfg v).stores = d.stores := rfl
@[simp] theorem Device.setCfg_crew (d : Device) (v : Cfg) : (d.setCfg v).crew = d.crew := rfl
@[simp] theorem Device.setCfg_belay (d : Device) (v : Cfg) : (d.setCfg v).belay = d.belay := rfl
@[simp] theorem Device.setCfg_tel (d : Device) (v : Cfg) : (d.setCfg v).tel = d.tel := rfl
@[simp] theorem Device.setCfg_pwr (d : Device) (v : Cfg) : (d.setCfg v).pwr = d.pwr := rfl
@[simp] theorem Device.setClk_cfg (d : Device) (v : Clocks) : (d.setClk v).cfg = d.cfg := rfl
@[simp] theorem Device.setClk_clk (d : Device) (v : Clocks) : (d.setClk v).clk = v := rfl
@[simp] theorem Device.setClk_reg (d : Device) (v : Clocks) : (d.setClk v).reg = d.reg := rfl
@[simp] theorem Device.setClk_rings (d : Device) (v : Clocks) : (d.setClk v).rings = d.rings := rfl
@[simp] theorem Device.setClk_out (d : Device) (v : Clocks) : (d.setClk v).out = d.out := rfl
@[simp] theorem Device.setClk_wr (d : Device) (v : Clocks) : (d.setClk v).wr = d.wr := rfl
@[simp] theorem Device.setClk_poison (d : Device) (v : Clocks) : (d.setClk v).poison = d.poison := rfl
@[simp] theorem Device.setClk_msix (d : Device) (v : Clocks) : (d.setClk v).msix = d.msix := rfl
@[simp] theorem Device.setClk_hold (d : Device) (v : Clocks) : (d.setClk v).hold = d.hold := rfl
@[simp] theorem Device.setClk_wave (d : Device) (v : Clocks) : (d.setClk v).wave = d.wave := rfl
@[simp] theorem Device.setClk_mbr (d : Device) (v : Clocks) : (d.setClk v).mbr = d.mbr := rfl
@[simp] theorem Device.setClk_corrs (d : Device) (v : Clocks) : (d.setClk v).corrs = d.corrs := rfl
@[simp] theorem Device.setClk_d2dReplays (d : Device) (v : Clocks) : (d.setClk v).d2dReplays = d.d2dReplays := rfl
@[simp] theorem Device.setClk_tiles (d : Device) (v : Clocks) : (d.setClk v).tiles = d.tiles := rfl
@[simp] theorem Device.setClk_mesh (d : Device) (v : Clocks) : (d.setClk v).mesh = d.mesh := rfl
@[simp] theorem Device.setClk_tokHold (d : Device) (v : Clocks) : (d.setClk v).tokHold = d.tokHold := rfl
@[simp] theorem Device.setClk_ropes (d : Device) (v : Clocks) : (d.setClk v).ropes = d.ropes := rfl
@[simp] theorem Device.setClk_ropeMoved (d : Device) (v : Clocks) : (d.setClk v).ropeMoved = d.ropeMoved := rfl
@[simp] theorem Device.setClk_flows (d : Device) (v : Clocks) : (d.setClk v).flows = d.flows := rfl
@[simp] theorem Device.setClk_tapQ (d : Device) (v : Clocks) : (d.setClk v).tapQ = d.tapQ := rfl
@[simp] theorem Device.setClk_nextFlow (d : Device) (v : Clocks) : (d.setClk v).nextFlow = d.nextFlow := rfl
@[simp] theorem Device.setClk_parts (d : Device) (v : Clocks) : (d.setClk v).parts = d.parts := rfl
@[simp] theorem Device.setClk_ceLog (d : Device) (v : Clocks) : (d.setClk v).ceLog = d.ceLog := rfl
@[simp] theorem Device.setClk_ddrUndef (d : Device) (v : Clocks) : (d.setClk v).ddrUndef = d.ddrUndef := rfl
@[simp] theorem Device.setClk_conns (d : Device) (v : Clocks) : (d.setClk v).conns = d.conns := rfl
@[simp] theorem Device.setClk_gft (d : Device) (v : Clocks) : (d.setClk v).gft = d.gft := rfl
@[simp] theorem Device.setClk_groups (d : Device) (v : Clocks) : (d.setClk v).groups = d.groups := rfl
@[simp] theorem Device.setClk_tmWait (d : Device) (v : Clocks) : (d.setClk v).tmWait = d.tmWait := rfl
@[simp] theorem Device.setClk_fecBad (d : Device) (v : Clocks) : (d.setClk v).fecBad = d.fecBad := rfl
@[simp] theorem Device.setClk_keyTime (d : Device) (v : Clocks) : (d.setClk v).keyTime = d.keyTime := rfl
@[simp] theorem Device.setClk_pipeIn (d : Device) (v : Clocks) : (d.setClk v).pipeIn = d.pipeIn := rfl
@[simp] theorem Device.setClk_pipes (d : Device) (v : Clocks) : (d.setClk v).pipes = d.pipes := rfl
@[simp] theorem Device.setClk_clsSlots (d : Device) (v : Clocks) : (d.setClk v).clsSlots = d.clsSlots := rfl
@[simp] theorem Device.setClk_flowCnts (d : Device) (v : Clocks) : (d.setClk v).flowCnts = d.flowCnts := rfl
@[simp] theorem Device.setClk_pmeFlows (d : Device) (v : Clocks) : (d.setClk v).pmeFlows = d.pmeFlows := rfl
@[simp] theorem Device.setClk_places (d : Device) (v : Clocks) : (d.setClk v).places = d.places := rfl
@[simp] theorem Device.setClk_loaded (d : Device) (v : Clocks) : (d.setClk v).loaded = d.loaded := rfl
@[simp] theorem Device.setClk_waveEpoch (d : Device) (v : Clocks) : (d.setClk v).waveEpoch = d.waveEpoch := rfl
@[simp] theorem Device.setClk_tmQueues (d : Device) (v : Clocks) : (d.setClk v).tmQueues = d.tmQueues := rfl
@[simp] theorem Device.setClk_tmPorts (d : Device) (v : Clocks) : (d.setClk v).tmPorts = d.tmPorts := rfl
@[simp] theorem Device.setClk_policers (d : Device) (v : Clocks) : (d.setClk v).policers = d.policers := rfl
@[simp] theorem Device.setClk_blocks (d : Device) (v : Clocks) : (d.setClk v).blocks = d.blocks := rfl
@[simp] theorem Device.setClk_nvmes (d : Device) (v : Clocks) : (d.setClk v).nvmes = d.nvmes := rfl
@[simp] theorem Device.setClk_nextNvme (d : Device) (v : Clocks) : (d.setClk v).nextNvme = d.nextNvme := rfl
@[simp] theorem Device.setClk_stage (d : Device) (v : Clocks) : (d.setClk v).stage = d.stage := rfl
@[simp] theorem Device.setClk_vaults (d : Device) (v : Clocks) : (d.setClk v).vaults = d.vaults := rfl
@[simp] theorem Device.setClk_hostReads (d : Device) (v : Clocks) : (d.setClk v).hostReads = d.hostReads := rfl
@[simp] theorem Device.setClk_link (d : Device) (v : Clocks) : (d.setClk v).link = d.link := rfl
@[simp] theorem Device.setClk_nextFetch (d : Device) (v : Clocks) : (d.setClk v).nextFetch = d.nextFetch := rfl
@[simp] theorem Device.setClk_xfers (d : Device) (v : Clocks) : (d.setClk v).xfers = d.xfers := rfl
@[simp] theorem Device.setClk_queues (d : Device) (v : Clocks) : (d.setClk v).queues = d.queues := rfl
@[simp] theorem Device.setClk_fetched (d : Device) (v : Clocks) : (d.setClk v).fetched = d.fetched := rfl
@[simp] theorem Device.setClk_heldW (d : Device) (v : Clocks) : (d.setClk v).heldW = d.heldW := rfl
@[simp] theorem Device.setClk_cores (d : Device) (v : Clocks) : (d.setClk v).cores = d.cores := rfl
@[simp] theorem Device.setClk_fw (d : Device) (v : Clocks) : (d.setClk v).fw = d.fw := rfl
@[simp] theorem Device.setClk_queueMem (d : Device) (v : Clocks) : (d.setClk v).queueMem = d.queueMem := rfl
@[simp] theorem Device.setClk_wlogs (d : Device) (v : Clocks) : (d.setClk v).wlogs = d.wlogs := rfl
@[simp] theorem Device.setClk_stores (d : Device) (v : Clocks) : (d.setClk v).stores = d.stores := rfl
@[simp] theorem Device.setClk_crew (d : Device) (v : Clocks) : (d.setClk v).crew = d.crew := rfl
@[simp] theorem Device.setClk_belay (d : Device) (v : Clocks) : (d.setClk v).belay = d.belay := rfl
@[simp] theorem Device.setClk_tel (d : Device) (v : Clocks) : (d.setClk v).tel = d.tel := rfl
@[simp] theorem Device.setClk_pwr (d : Device) (v : Clocks) : (d.setClk v).pwr = d.pwr := rfl
@[simp] theorem Device.setReg_cfg (d : Device) (v : RegFile) : (d.setReg v).cfg = d.cfg := rfl
@[simp] theorem Device.setReg_clk (d : Device) (v : RegFile) : (d.setReg v).clk = d.clk := rfl
@[simp] theorem Device.setReg_reg (d : Device) (v : RegFile) : (d.setReg v).reg = v := rfl
@[simp] theorem Device.setReg_rings (d : Device) (v : RegFile) : (d.setReg v).rings = d.rings := rfl
@[simp] theorem Device.setReg_out (d : Device) (v : RegFile) : (d.setReg v).out = d.out := rfl
@[simp] theorem Device.setReg_wr (d : Device) (v : RegFile) : (d.setReg v).wr = d.wr := rfl
@[simp] theorem Device.setReg_poison (d : Device) (v : RegFile) : (d.setReg v).poison = d.poison := rfl
@[simp] theorem Device.setReg_msix (d : Device) (v : RegFile) : (d.setReg v).msix = d.msix := rfl
@[simp] theorem Device.setReg_hold (d : Device) (v : RegFile) : (d.setReg v).hold = d.hold := rfl
@[simp] theorem Device.setReg_wave (d : Device) (v : RegFile) : (d.setReg v).wave = d.wave := rfl
@[simp] theorem Device.setReg_mbr (d : Device) (v : RegFile) : (d.setReg v).mbr = d.mbr := rfl
@[simp] theorem Device.setReg_corrs (d : Device) (v : RegFile) : (d.setReg v).corrs = d.corrs := rfl
@[simp] theorem Device.setReg_d2dReplays (d : Device) (v : RegFile) : (d.setReg v).d2dReplays = d.d2dReplays := rfl
@[simp] theorem Device.setReg_tiles (d : Device) (v : RegFile) : (d.setReg v).tiles = d.tiles := rfl
@[simp] theorem Device.setReg_mesh (d : Device) (v : RegFile) : (d.setReg v).mesh = d.mesh := rfl
@[simp] theorem Device.setReg_tokHold (d : Device) (v : RegFile) : (d.setReg v).tokHold = d.tokHold := rfl
@[simp] theorem Device.setReg_ropes (d : Device) (v : RegFile) : (d.setReg v).ropes = d.ropes := rfl
@[simp] theorem Device.setReg_ropeMoved (d : Device) (v : RegFile) : (d.setReg v).ropeMoved = d.ropeMoved := rfl
@[simp] theorem Device.setReg_flows (d : Device) (v : RegFile) : (d.setReg v).flows = d.flows := rfl
@[simp] theorem Device.setReg_tapQ (d : Device) (v : RegFile) : (d.setReg v).tapQ = d.tapQ := rfl
@[simp] theorem Device.setReg_nextFlow (d : Device) (v : RegFile) : (d.setReg v).nextFlow = d.nextFlow := rfl
@[simp] theorem Device.setReg_parts (d : Device) (v : RegFile) : (d.setReg v).parts = d.parts := rfl
@[simp] theorem Device.setReg_ceLog (d : Device) (v : RegFile) : (d.setReg v).ceLog = d.ceLog := rfl
@[simp] theorem Device.setReg_ddrUndef (d : Device) (v : RegFile) : (d.setReg v).ddrUndef = d.ddrUndef := rfl
@[simp] theorem Device.setReg_conns (d : Device) (v : RegFile) : (d.setReg v).conns = d.conns := rfl
@[simp] theorem Device.setReg_gft (d : Device) (v : RegFile) : (d.setReg v).gft = d.gft := rfl
@[simp] theorem Device.setReg_groups (d : Device) (v : RegFile) : (d.setReg v).groups = d.groups := rfl
@[simp] theorem Device.setReg_tmWait (d : Device) (v : RegFile) : (d.setReg v).tmWait = d.tmWait := rfl
@[simp] theorem Device.setReg_fecBad (d : Device) (v : RegFile) : (d.setReg v).fecBad = d.fecBad := rfl
@[simp] theorem Device.setReg_keyTime (d : Device) (v : RegFile) : (d.setReg v).keyTime = d.keyTime := rfl
@[simp] theorem Device.setReg_pipeIn (d : Device) (v : RegFile) : (d.setReg v).pipeIn = d.pipeIn := rfl
@[simp] theorem Device.setReg_pipes (d : Device) (v : RegFile) : (d.setReg v).pipes = d.pipes := rfl
@[simp] theorem Device.setReg_clsSlots (d : Device) (v : RegFile) : (d.setReg v).clsSlots = d.clsSlots := rfl
@[simp] theorem Device.setReg_flowCnts (d : Device) (v : RegFile) : (d.setReg v).flowCnts = d.flowCnts := rfl
@[simp] theorem Device.setReg_pmeFlows (d : Device) (v : RegFile) : (d.setReg v).pmeFlows = d.pmeFlows := rfl
@[simp] theorem Device.setReg_places (d : Device) (v : RegFile) : (d.setReg v).places = d.places := rfl
@[simp] theorem Device.setReg_loaded (d : Device) (v : RegFile) : (d.setReg v).loaded = d.loaded := rfl
@[simp] theorem Device.setReg_waveEpoch (d : Device) (v : RegFile) : (d.setReg v).waveEpoch = d.waveEpoch := rfl
@[simp] theorem Device.setReg_tmQueues (d : Device) (v : RegFile) : (d.setReg v).tmQueues = d.tmQueues := rfl
@[simp] theorem Device.setReg_tmPorts (d : Device) (v : RegFile) : (d.setReg v).tmPorts = d.tmPorts := rfl
@[simp] theorem Device.setReg_policers (d : Device) (v : RegFile) : (d.setReg v).policers = d.policers := rfl
@[simp] theorem Device.setReg_blocks (d : Device) (v : RegFile) : (d.setReg v).blocks = d.blocks := rfl
@[simp] theorem Device.setReg_nvmes (d : Device) (v : RegFile) : (d.setReg v).nvmes = d.nvmes := rfl
@[simp] theorem Device.setReg_nextNvme (d : Device) (v : RegFile) : (d.setReg v).nextNvme = d.nextNvme := rfl
@[simp] theorem Device.setReg_stage (d : Device) (v : RegFile) : (d.setReg v).stage = d.stage := rfl
@[simp] theorem Device.setReg_vaults (d : Device) (v : RegFile) : (d.setReg v).vaults = d.vaults := rfl
@[simp] theorem Device.setReg_hostReads (d : Device) (v : RegFile) : (d.setReg v).hostReads = d.hostReads := rfl
@[simp] theorem Device.setReg_link (d : Device) (v : RegFile) : (d.setReg v).link = d.link := rfl
@[simp] theorem Device.setReg_nextFetch (d : Device) (v : RegFile) : (d.setReg v).nextFetch = d.nextFetch := rfl
@[simp] theorem Device.setReg_xfers (d : Device) (v : RegFile) : (d.setReg v).xfers = d.xfers := rfl
@[simp] theorem Device.setReg_queues (d : Device) (v : RegFile) : (d.setReg v).queues = d.queues := rfl
@[simp] theorem Device.setReg_fetched (d : Device) (v : RegFile) : (d.setReg v).fetched = d.fetched := rfl
@[simp] theorem Device.setReg_heldW (d : Device) (v : RegFile) : (d.setReg v).heldW = d.heldW := rfl
@[simp] theorem Device.setReg_cores (d : Device) (v : RegFile) : (d.setReg v).cores = d.cores := rfl
@[simp] theorem Device.setReg_fw (d : Device) (v : RegFile) : (d.setReg v).fw = d.fw := rfl
@[simp] theorem Device.setReg_queueMem (d : Device) (v : RegFile) : (d.setReg v).queueMem = d.queueMem := rfl
@[simp] theorem Device.setReg_wlogs (d : Device) (v : RegFile) : (d.setReg v).wlogs = d.wlogs := rfl
@[simp] theorem Device.setReg_stores (d : Device) (v : RegFile) : (d.setReg v).stores = d.stores := rfl
@[simp] theorem Device.setReg_crew (d : Device) (v : RegFile) : (d.setReg v).crew = d.crew := rfl
@[simp] theorem Device.setReg_belay (d : Device) (v : RegFile) : (d.setReg v).belay = d.belay := rfl
@[simp] theorem Device.setReg_tel (d : Device) (v : RegFile) : (d.setReg v).tel = d.tel := rfl
@[simp] theorem Device.setReg_pwr (d : Device) (v : RegFile) : (d.setReg v).pwr = d.pwr := rfl
@[simp] theorem Device.setRings_cfg (d : Device) (v : Tbl Ring) : (d.setRings v).cfg = d.cfg := rfl
@[simp] theorem Device.setRings_clk (d : Device) (v : Tbl Ring) : (d.setRings v).clk = d.clk := rfl
@[simp] theorem Device.setRings_reg (d : Device) (v : Tbl Ring) : (d.setRings v).reg = d.reg := rfl
@[simp] theorem Device.setRings_rings (d : Device) (v : Tbl Ring) : (d.setRings v).rings = v := rfl
@[simp] theorem Device.setRings_out (d : Device) (v : Tbl Ring) : (d.setRings v).out = d.out := rfl
@[simp] theorem Device.setRings_wr (d : Device) (v : Tbl Ring) : (d.setRings v).wr = d.wr := rfl
@[simp] theorem Device.setRings_poison (d : Device) (v : Tbl Ring) : (d.setRings v).poison = d.poison := rfl
@[simp] theorem Device.setRings_msix (d : Device) (v : Tbl Ring) : (d.setRings v).msix = d.msix := rfl
@[simp] theorem Device.setRings_hold (d : Device) (v : Tbl Ring) : (d.setRings v).hold = d.hold := rfl
@[simp] theorem Device.setRings_wave (d : Device) (v : Tbl Ring) : (d.setRings v).wave = d.wave := rfl
@[simp] theorem Device.setRings_mbr (d : Device) (v : Tbl Ring) : (d.setRings v).mbr = d.mbr := rfl
@[simp] theorem Device.setRings_corrs (d : Device) (v : Tbl Ring) : (d.setRings v).corrs = d.corrs := rfl
@[simp] theorem Device.setRings_d2dReplays (d : Device) (v : Tbl Ring) : (d.setRings v).d2dReplays = d.d2dReplays := rfl
@[simp] theorem Device.setRings_tiles (d : Device) (v : Tbl Ring) : (d.setRings v).tiles = d.tiles := rfl
@[simp] theorem Device.setRings_mesh (d : Device) (v : Tbl Ring) : (d.setRings v).mesh = d.mesh := rfl
@[simp] theorem Device.setRings_tokHold (d : Device) (v : Tbl Ring) : (d.setRings v).tokHold = d.tokHold := rfl
@[simp] theorem Device.setRings_ropes (d : Device) (v : Tbl Ring) : (d.setRings v).ropes = d.ropes := rfl
@[simp] theorem Device.setRings_ropeMoved (d : Device) (v : Tbl Ring) : (d.setRings v).ropeMoved = d.ropeMoved := rfl
@[simp] theorem Device.setRings_flows (d : Device) (v : Tbl Ring) : (d.setRings v).flows = d.flows := rfl
@[simp] theorem Device.setRings_tapQ (d : Device) (v : Tbl Ring) : (d.setRings v).tapQ = d.tapQ := rfl
@[simp] theorem Device.setRings_nextFlow (d : Device) (v : Tbl Ring) : (d.setRings v).nextFlow = d.nextFlow := rfl
@[simp] theorem Device.setRings_parts (d : Device) (v : Tbl Ring) : (d.setRings v).parts = d.parts := rfl
@[simp] theorem Device.setRings_ceLog (d : Device) (v : Tbl Ring) : (d.setRings v).ceLog = d.ceLog := rfl
@[simp] theorem Device.setRings_ddrUndef (d : Device) (v : Tbl Ring) : (d.setRings v).ddrUndef = d.ddrUndef := rfl
@[simp] theorem Device.setRings_conns (d : Device) (v : Tbl Ring) : (d.setRings v).conns = d.conns := rfl
@[simp] theorem Device.setRings_gft (d : Device) (v : Tbl Ring) : (d.setRings v).gft = d.gft := rfl
@[simp] theorem Device.setRings_groups (d : Device) (v : Tbl Ring) : (d.setRings v).groups = d.groups := rfl
@[simp] theorem Device.setRings_tmWait (d : Device) (v : Tbl Ring) : (d.setRings v).tmWait = d.tmWait := rfl
@[simp] theorem Device.setRings_fecBad (d : Device) (v : Tbl Ring) : (d.setRings v).fecBad = d.fecBad := rfl
@[simp] theorem Device.setRings_keyTime (d : Device) (v : Tbl Ring) : (d.setRings v).keyTime = d.keyTime := rfl
@[simp] theorem Device.setRings_pipeIn (d : Device) (v : Tbl Ring) : (d.setRings v).pipeIn = d.pipeIn := rfl
@[simp] theorem Device.setRings_pipes (d : Device) (v : Tbl Ring) : (d.setRings v).pipes = d.pipes := rfl
@[simp] theorem Device.setRings_clsSlots (d : Device) (v : Tbl Ring) : (d.setRings v).clsSlots = d.clsSlots := rfl
@[simp] theorem Device.setRings_flowCnts (d : Device) (v : Tbl Ring) : (d.setRings v).flowCnts = d.flowCnts := rfl
@[simp] theorem Device.setRings_pmeFlows (d : Device) (v : Tbl Ring) : (d.setRings v).pmeFlows = d.pmeFlows := rfl
@[simp] theorem Device.setRings_places (d : Device) (v : Tbl Ring) : (d.setRings v).places = d.places := rfl
@[simp] theorem Device.setRings_loaded (d : Device) (v : Tbl Ring) : (d.setRings v).loaded = d.loaded := rfl
@[simp] theorem Device.setRings_waveEpoch (d : Device) (v : Tbl Ring) : (d.setRings v).waveEpoch = d.waveEpoch := rfl
@[simp] theorem Device.setRings_tmQueues (d : Device) (v : Tbl Ring) : (d.setRings v).tmQueues = d.tmQueues := rfl
@[simp] theorem Device.setRings_tmPorts (d : Device) (v : Tbl Ring) : (d.setRings v).tmPorts = d.tmPorts := rfl
@[simp] theorem Device.setRings_policers (d : Device) (v : Tbl Ring) : (d.setRings v).policers = d.policers := rfl
@[simp] theorem Device.setRings_blocks (d : Device) (v : Tbl Ring) : (d.setRings v).blocks = d.blocks := rfl
@[simp] theorem Device.setRings_nvmes (d : Device) (v : Tbl Ring) : (d.setRings v).nvmes = d.nvmes := rfl
@[simp] theorem Device.setRings_nextNvme (d : Device) (v : Tbl Ring) : (d.setRings v).nextNvme = d.nextNvme := rfl
@[simp] theorem Device.setRings_stage (d : Device) (v : Tbl Ring) : (d.setRings v).stage = d.stage := rfl
@[simp] theorem Device.setRings_vaults (d : Device) (v : Tbl Ring) : (d.setRings v).vaults = d.vaults := rfl
@[simp] theorem Device.setRings_hostReads (d : Device) (v : Tbl Ring) : (d.setRings v).hostReads = d.hostReads := rfl
@[simp] theorem Device.setRings_link (d : Device) (v : Tbl Ring) : (d.setRings v).link = d.link := rfl
@[simp] theorem Device.setRings_nextFetch (d : Device) (v : Tbl Ring) : (d.setRings v).nextFetch = d.nextFetch := rfl
@[simp] theorem Device.setRings_xfers (d : Device) (v : Tbl Ring) : (d.setRings v).xfers = d.xfers := rfl
@[simp] theorem Device.setRings_queues (d : Device) (v : Tbl Ring) : (d.setRings v).queues = d.queues := rfl
@[simp] theorem Device.setRings_fetched (d : Device) (v : Tbl Ring) : (d.setRings v).fetched = d.fetched := rfl
@[simp] theorem Device.setRings_heldW (d : Device) (v : Tbl Ring) : (d.setRings v).heldW = d.heldW := rfl
@[simp] theorem Device.setRings_cores (d : Device) (v : Tbl Ring) : (d.setRings v).cores = d.cores := rfl
@[simp] theorem Device.setRings_fw (d : Device) (v : Tbl Ring) : (d.setRings v).fw = d.fw := rfl
@[simp] theorem Device.setRings_queueMem (d : Device) (v : Tbl Ring) : (d.setRings v).queueMem = d.queueMem := rfl
@[simp] theorem Device.setRings_wlogs (d : Device) (v : Tbl Ring) : (d.setRings v).wlogs = d.wlogs := rfl
@[simp] theorem Device.setRings_stores (d : Device) (v : Tbl Ring) : (d.setRings v).stores = d.stores := rfl
@[simp] theorem Device.setRings_crew (d : Device) (v : Tbl Ring) : (d.setRings v).crew = d.crew := rfl
@[simp] theorem Device.setRings_belay (d : Device) (v : Tbl Ring) : (d.setRings v).belay = d.belay := rfl
@[simp] theorem Device.setRings_tel (d : Device) (v : Tbl Ring) : (d.setRings v).tel = d.tel := rfl
@[simp] theorem Device.setRings_pwr (d : Device) (v : Tbl Ring) : (d.setRings v).pwr = d.pwr := rfl
@[simp] theorem Device.setOut_cfg (d : Device) (v : List Emit) : (d.setOut v).cfg = d.cfg := rfl
@[simp] theorem Device.setOut_clk (d : Device) (v : List Emit) : (d.setOut v).clk = d.clk := rfl
@[simp] theorem Device.setOut_reg (d : Device) (v : List Emit) : (d.setOut v).reg = d.reg := rfl
@[simp] theorem Device.setOut_rings (d : Device) (v : List Emit) : (d.setOut v).rings = d.rings := rfl
@[simp] theorem Device.setOut_out (d : Device) (v : List Emit) : (d.setOut v).out = v := rfl
@[simp] theorem Device.setOut_wr (d : Device) (v : List Emit) : (d.setOut v).wr = d.wr := rfl
@[simp] theorem Device.setOut_poison (d : Device) (v : List Emit) : (d.setOut v).poison = d.poison := rfl
@[simp] theorem Device.setOut_msix (d : Device) (v : List Emit) : (d.setOut v).msix = d.msix := rfl
@[simp] theorem Device.setOut_hold (d : Device) (v : List Emit) : (d.setOut v).hold = d.hold := rfl
@[simp] theorem Device.setOut_wave (d : Device) (v : List Emit) : (d.setOut v).wave = d.wave := rfl
@[simp] theorem Device.setOut_mbr (d : Device) (v : List Emit) : (d.setOut v).mbr = d.mbr := rfl
@[simp] theorem Device.setOut_corrs (d : Device) (v : List Emit) : (d.setOut v).corrs = d.corrs := rfl
@[simp] theorem Device.setOut_d2dReplays (d : Device) (v : List Emit) : (d.setOut v).d2dReplays = d.d2dReplays := rfl
@[simp] theorem Device.setOut_tiles (d : Device) (v : List Emit) : (d.setOut v).tiles = d.tiles := rfl
@[simp] theorem Device.setOut_mesh (d : Device) (v : List Emit) : (d.setOut v).mesh = d.mesh := rfl
@[simp] theorem Device.setOut_tokHold (d : Device) (v : List Emit) : (d.setOut v).tokHold = d.tokHold := rfl
@[simp] theorem Device.setOut_ropes (d : Device) (v : List Emit) : (d.setOut v).ropes = d.ropes := rfl
@[simp] theorem Device.setOut_ropeMoved (d : Device) (v : List Emit) : (d.setOut v).ropeMoved = d.ropeMoved := rfl
@[simp] theorem Device.setOut_flows (d : Device) (v : List Emit) : (d.setOut v).flows = d.flows := rfl
@[simp] theorem Device.setOut_tapQ (d : Device) (v : List Emit) : (d.setOut v).tapQ = d.tapQ := rfl
@[simp] theorem Device.setOut_nextFlow (d : Device) (v : List Emit) : (d.setOut v).nextFlow = d.nextFlow := rfl
@[simp] theorem Device.setOut_parts (d : Device) (v : List Emit) : (d.setOut v).parts = d.parts := rfl
@[simp] theorem Device.setOut_ceLog (d : Device) (v : List Emit) : (d.setOut v).ceLog = d.ceLog := rfl
@[simp] theorem Device.setOut_ddrUndef (d : Device) (v : List Emit) : (d.setOut v).ddrUndef = d.ddrUndef := rfl
@[simp] theorem Device.setOut_conns (d : Device) (v : List Emit) : (d.setOut v).conns = d.conns := rfl
@[simp] theorem Device.setOut_gft (d : Device) (v : List Emit) : (d.setOut v).gft = d.gft := rfl
@[simp] theorem Device.setOut_groups (d : Device) (v : List Emit) : (d.setOut v).groups = d.groups := rfl
@[simp] theorem Device.setOut_tmWait (d : Device) (v : List Emit) : (d.setOut v).tmWait = d.tmWait := rfl
@[simp] theorem Device.setOut_fecBad (d : Device) (v : List Emit) : (d.setOut v).fecBad = d.fecBad := rfl
@[simp] theorem Device.setOut_keyTime (d : Device) (v : List Emit) : (d.setOut v).keyTime = d.keyTime := rfl
@[simp] theorem Device.setOut_pipeIn (d : Device) (v : List Emit) : (d.setOut v).pipeIn = d.pipeIn := rfl
@[simp] theorem Device.setOut_pipes (d : Device) (v : List Emit) : (d.setOut v).pipes = d.pipes := rfl
@[simp] theorem Device.setOut_clsSlots (d : Device) (v : List Emit) : (d.setOut v).clsSlots = d.clsSlots := rfl
@[simp] theorem Device.setOut_flowCnts (d : Device) (v : List Emit) : (d.setOut v).flowCnts = d.flowCnts := rfl
@[simp] theorem Device.setOut_pmeFlows (d : Device) (v : List Emit) : (d.setOut v).pmeFlows = d.pmeFlows := rfl
@[simp] theorem Device.setOut_places (d : Device) (v : List Emit) : (d.setOut v).places = d.places := rfl
@[simp] theorem Device.setOut_loaded (d : Device) (v : List Emit) : (d.setOut v).loaded = d.loaded := rfl
@[simp] theorem Device.setOut_waveEpoch (d : Device) (v : List Emit) : (d.setOut v).waveEpoch = d.waveEpoch := rfl
@[simp] theorem Device.setOut_tmQueues (d : Device) (v : List Emit) : (d.setOut v).tmQueues = d.tmQueues := rfl
@[simp] theorem Device.setOut_tmPorts (d : Device) (v : List Emit) : (d.setOut v).tmPorts = d.tmPorts := rfl
@[simp] theorem Device.setOut_policers (d : Device) (v : List Emit) : (d.setOut v).policers = d.policers := rfl
@[simp] theorem Device.setOut_blocks (d : Device) (v : List Emit) : (d.setOut v).blocks = d.blocks := rfl
@[simp] theorem Device.setOut_nvmes (d : Device) (v : List Emit) : (d.setOut v).nvmes = d.nvmes := rfl
@[simp] theorem Device.setOut_nextNvme (d : Device) (v : List Emit) : (d.setOut v).nextNvme = d.nextNvme := rfl
@[simp] theorem Device.setOut_stage (d : Device) (v : List Emit) : (d.setOut v).stage = d.stage := rfl
@[simp] theorem Device.setOut_vaults (d : Device) (v : List Emit) : (d.setOut v).vaults = d.vaults := rfl
@[simp] theorem Device.setOut_hostReads (d : Device) (v : List Emit) : (d.setOut v).hostReads = d.hostReads := rfl
@[simp] theorem Device.setOut_link (d : Device) (v : List Emit) : (d.setOut v).link = d.link := rfl
@[simp] theorem Device.setOut_nextFetch (d : Device) (v : List Emit) : (d.setOut v).nextFetch = d.nextFetch := rfl
@[simp] theorem Device.setOut_xfers (d : Device) (v : List Emit) : (d.setOut v).xfers = d.xfers := rfl
@[simp] theorem Device.setOut_queues (d : Device) (v : List Emit) : (d.setOut v).queues = d.queues := rfl
@[simp] theorem Device.setOut_fetched (d : Device) (v : List Emit) : (d.setOut v).fetched = d.fetched := rfl
@[simp] theorem Device.setOut_heldW (d : Device) (v : List Emit) : (d.setOut v).heldW = d.heldW := rfl
@[simp] theorem Device.setOut_cores (d : Device) (v : List Emit) : (d.setOut v).cores = d.cores := rfl
@[simp] theorem Device.setOut_fw (d : Device) (v : List Emit) : (d.setOut v).fw = d.fw := rfl
@[simp] theorem Device.setOut_queueMem (d : Device) (v : List Emit) : (d.setOut v).queueMem = d.queueMem := rfl
@[simp] theorem Device.setOut_wlogs (d : Device) (v : List Emit) : (d.setOut v).wlogs = d.wlogs := rfl
@[simp] theorem Device.setOut_stores (d : Device) (v : List Emit) : (d.setOut v).stores = d.stores := rfl
@[simp] theorem Device.setOut_crew (d : Device) (v : List Emit) : (d.setOut v).crew = d.crew := rfl
@[simp] theorem Device.setOut_belay (d : Device) (v : List Emit) : (d.setOut v).belay = d.belay := rfl
@[simp] theorem Device.setOut_tel (d : Device) (v : List Emit) : (d.setOut v).tel = d.tel := rfl
@[simp] theorem Device.setOut_pwr (d : Device) (v : List Emit) : (d.setOut v).pwr = d.pwr := rfl
@[simp] theorem Device.setWr_cfg (d : Device) (v : List Store) : (d.setWr v).cfg = d.cfg := rfl
@[simp] theorem Device.setWr_clk (d : Device) (v : List Store) : (d.setWr v).clk = d.clk := rfl
@[simp] theorem Device.setWr_reg (d : Device) (v : List Store) : (d.setWr v).reg = d.reg := rfl
@[simp] theorem Device.setWr_rings (d : Device) (v : List Store) : (d.setWr v).rings = d.rings := rfl
@[simp] theorem Device.setWr_out (d : Device) (v : List Store) : (d.setWr v).out = d.out := rfl
@[simp] theorem Device.setWr_wr (d : Device) (v : List Store) : (d.setWr v).wr = v := rfl
@[simp] theorem Device.setWr_poison (d : Device) (v : List Store) : (d.setWr v).poison = d.poison := rfl
@[simp] theorem Device.setWr_msix (d : Device) (v : List Store) : (d.setWr v).msix = d.msix := rfl
@[simp] theorem Device.setWr_hold (d : Device) (v : List Store) : (d.setWr v).hold = d.hold := rfl
@[simp] theorem Device.setWr_wave (d : Device) (v : List Store) : (d.setWr v).wave = d.wave := rfl
@[simp] theorem Device.setWr_mbr (d : Device) (v : List Store) : (d.setWr v).mbr = d.mbr := rfl
@[simp] theorem Device.setWr_corrs (d : Device) (v : List Store) : (d.setWr v).corrs = d.corrs := rfl
@[simp] theorem Device.setWr_d2dReplays (d : Device) (v : List Store) : (d.setWr v).d2dReplays = d.d2dReplays := rfl
@[simp] theorem Device.setWr_tiles (d : Device) (v : List Store) : (d.setWr v).tiles = d.tiles := rfl
@[simp] theorem Device.setWr_mesh (d : Device) (v : List Store) : (d.setWr v).mesh = d.mesh := rfl
@[simp] theorem Device.setWr_tokHold (d : Device) (v : List Store) : (d.setWr v).tokHold = d.tokHold := rfl
@[simp] theorem Device.setWr_ropes (d : Device) (v : List Store) : (d.setWr v).ropes = d.ropes := rfl
@[simp] theorem Device.setWr_ropeMoved (d : Device) (v : List Store) : (d.setWr v).ropeMoved = d.ropeMoved := rfl
@[simp] theorem Device.setWr_flows (d : Device) (v : List Store) : (d.setWr v).flows = d.flows := rfl
@[simp] theorem Device.setWr_tapQ (d : Device) (v : List Store) : (d.setWr v).tapQ = d.tapQ := rfl
@[simp] theorem Device.setWr_nextFlow (d : Device) (v : List Store) : (d.setWr v).nextFlow = d.nextFlow := rfl
@[simp] theorem Device.setWr_parts (d : Device) (v : List Store) : (d.setWr v).parts = d.parts := rfl
@[simp] theorem Device.setWr_ceLog (d : Device) (v : List Store) : (d.setWr v).ceLog = d.ceLog := rfl
@[simp] theorem Device.setWr_ddrUndef (d : Device) (v : List Store) : (d.setWr v).ddrUndef = d.ddrUndef := rfl
@[simp] theorem Device.setWr_conns (d : Device) (v : List Store) : (d.setWr v).conns = d.conns := rfl
@[simp] theorem Device.setWr_gft (d : Device) (v : List Store) : (d.setWr v).gft = d.gft := rfl
@[simp] theorem Device.setWr_groups (d : Device) (v : List Store) : (d.setWr v).groups = d.groups := rfl
@[simp] theorem Device.setWr_tmWait (d : Device) (v : List Store) : (d.setWr v).tmWait = d.tmWait := rfl
@[simp] theorem Device.setWr_fecBad (d : Device) (v : List Store) : (d.setWr v).fecBad = d.fecBad := rfl
@[simp] theorem Device.setWr_keyTime (d : Device) (v : List Store) : (d.setWr v).keyTime = d.keyTime := rfl
@[simp] theorem Device.setWr_pipeIn (d : Device) (v : List Store) : (d.setWr v).pipeIn = d.pipeIn := rfl
@[simp] theorem Device.setWr_pipes (d : Device) (v : List Store) : (d.setWr v).pipes = d.pipes := rfl
@[simp] theorem Device.setWr_clsSlots (d : Device) (v : List Store) : (d.setWr v).clsSlots = d.clsSlots := rfl
@[simp] theorem Device.setWr_flowCnts (d : Device) (v : List Store) : (d.setWr v).flowCnts = d.flowCnts := rfl
@[simp] theorem Device.setWr_pmeFlows (d : Device) (v : List Store) : (d.setWr v).pmeFlows = d.pmeFlows := rfl
@[simp] theorem Device.setWr_places (d : Device) (v : List Store) : (d.setWr v).places = d.places := rfl
@[simp] theorem Device.setWr_loaded (d : Device) (v : List Store) : (d.setWr v).loaded = d.loaded := rfl
@[simp] theorem Device.setWr_waveEpoch (d : Device) (v : List Store) : (d.setWr v).waveEpoch = d.waveEpoch := rfl
@[simp] theorem Device.setWr_tmQueues (d : Device) (v : List Store) : (d.setWr v).tmQueues = d.tmQueues := rfl
@[simp] theorem Device.setWr_tmPorts (d : Device) (v : List Store) : (d.setWr v).tmPorts = d.tmPorts := rfl
@[simp] theorem Device.setWr_policers (d : Device) (v : List Store) : (d.setWr v).policers = d.policers := rfl
@[simp] theorem Device.setWr_blocks (d : Device) (v : List Store) : (d.setWr v).blocks = d.blocks := rfl
@[simp] theorem Device.setWr_nvmes (d : Device) (v : List Store) : (d.setWr v).nvmes = d.nvmes := rfl
@[simp] theorem Device.setWr_nextNvme (d : Device) (v : List Store) : (d.setWr v).nextNvme = d.nextNvme := rfl
@[simp] theorem Device.setWr_stage (d : Device) (v : List Store) : (d.setWr v).stage = d.stage := rfl
@[simp] theorem Device.setWr_vaults (d : Device) (v : List Store) : (d.setWr v).vaults = d.vaults := rfl
@[simp] theorem Device.setWr_hostReads (d : Device) (v : List Store) : (d.setWr v).hostReads = d.hostReads := rfl
@[simp] theorem Device.setWr_link (d : Device) (v : List Store) : (d.setWr v).link = d.link := rfl
@[simp] theorem Device.setWr_nextFetch (d : Device) (v : List Store) : (d.setWr v).nextFetch = d.nextFetch := rfl
@[simp] theorem Device.setWr_xfers (d : Device) (v : List Store) : (d.setWr v).xfers = d.xfers := rfl
@[simp] theorem Device.setWr_queues (d : Device) (v : List Store) : (d.setWr v).queues = d.queues := rfl
@[simp] theorem Device.setWr_fetched (d : Device) (v : List Store) : (d.setWr v).fetched = d.fetched := rfl
@[simp] theorem Device.setWr_heldW (d : Device) (v : List Store) : (d.setWr v).heldW = d.heldW := rfl
@[simp] theorem Device.setWr_cores (d : Device) (v : List Store) : (d.setWr v).cores = d.cores := rfl
@[simp] theorem Device.setWr_fw (d : Device) (v : List Store) : (d.setWr v).fw = d.fw := rfl
@[simp] theorem Device.setWr_queueMem (d : Device) (v : List Store) : (d.setWr v).queueMem = d.queueMem := rfl
@[simp] theorem Device.setWr_wlogs (d : Device) (v : List Store) : (d.setWr v).wlogs = d.wlogs := rfl
@[simp] theorem Device.setWr_stores (d : Device) (v : List Store) : (d.setWr v).stores = d.stores := rfl
@[simp] theorem Device.setWr_crew (d : Device) (v : List Store) : (d.setWr v).crew = d.crew := rfl
@[simp] theorem Device.setWr_belay (d : Device) (v : List Store) : (d.setWr v).belay = d.belay := rfl
@[simp] theorem Device.setWr_tel (d : Device) (v : List Store) : (d.setWr v).tel = d.tel := rfl
@[simp] theorem Device.setWr_pwr (d : Device) (v : List Store) : (d.setWr v).pwr = d.pwr := rfl
@[simp] theorem Device.setPoison_cfg (d : Device) (v : List Nat) : (d.setPoison v).cfg = d.cfg := rfl
@[simp] theorem Device.setPoison_clk (d : Device) (v : List Nat) : (d.setPoison v).clk = d.clk := rfl
@[simp] theorem Device.setPoison_reg (d : Device) (v : List Nat) : (d.setPoison v).reg = d.reg := rfl
@[simp] theorem Device.setPoison_rings (d : Device) (v : List Nat) : (d.setPoison v).rings = d.rings := rfl
@[simp] theorem Device.setPoison_out (d : Device) (v : List Nat) : (d.setPoison v).out = d.out := rfl
@[simp] theorem Device.setPoison_wr (d : Device) (v : List Nat) : (d.setPoison v).wr = d.wr := rfl
@[simp] theorem Device.setPoison_poison (d : Device) (v : List Nat) : (d.setPoison v).poison = v := rfl
@[simp] theorem Device.setPoison_msix (d : Device) (v : List Nat) : (d.setPoison v).msix = d.msix := rfl
@[simp] theorem Device.setPoison_hold (d : Device) (v : List Nat) : (d.setPoison v).hold = d.hold := rfl
@[simp] theorem Device.setPoison_wave (d : Device) (v : List Nat) : (d.setPoison v).wave = d.wave := rfl
@[simp] theorem Device.setPoison_mbr (d : Device) (v : List Nat) : (d.setPoison v).mbr = d.mbr := rfl
@[simp] theorem Device.setPoison_corrs (d : Device) (v : List Nat) : (d.setPoison v).corrs = d.corrs := rfl
@[simp] theorem Device.setPoison_d2dReplays (d : Device) (v : List Nat) : (d.setPoison v).d2dReplays = d.d2dReplays := rfl
@[simp] theorem Device.setPoison_tiles (d : Device) (v : List Nat) : (d.setPoison v).tiles = d.tiles := rfl
@[simp] theorem Device.setPoison_mesh (d : Device) (v : List Nat) : (d.setPoison v).mesh = d.mesh := rfl
@[simp] theorem Device.setPoison_tokHold (d : Device) (v : List Nat) : (d.setPoison v).tokHold = d.tokHold := rfl
@[simp] theorem Device.setPoison_ropes (d : Device) (v : List Nat) : (d.setPoison v).ropes = d.ropes := rfl
@[simp] theorem Device.setPoison_ropeMoved (d : Device) (v : List Nat) : (d.setPoison v).ropeMoved = d.ropeMoved := rfl
@[simp] theorem Device.setPoison_flows (d : Device) (v : List Nat) : (d.setPoison v).flows = d.flows := rfl
@[simp] theorem Device.setPoison_tapQ (d : Device) (v : List Nat) : (d.setPoison v).tapQ = d.tapQ := rfl
@[simp] theorem Device.setPoison_nextFlow (d : Device) (v : List Nat) : (d.setPoison v).nextFlow = d.nextFlow := rfl
@[simp] theorem Device.setPoison_parts (d : Device) (v : List Nat) : (d.setPoison v).parts = d.parts := rfl
@[simp] theorem Device.setPoison_ceLog (d : Device) (v : List Nat) : (d.setPoison v).ceLog = d.ceLog := rfl
@[simp] theorem Device.setPoison_ddrUndef (d : Device) (v : List Nat) : (d.setPoison v).ddrUndef = d.ddrUndef := rfl
@[simp] theorem Device.setPoison_conns (d : Device) (v : List Nat) : (d.setPoison v).conns = d.conns := rfl
@[simp] theorem Device.setPoison_gft (d : Device) (v : List Nat) : (d.setPoison v).gft = d.gft := rfl
@[simp] theorem Device.setPoison_groups (d : Device) (v : List Nat) : (d.setPoison v).groups = d.groups := rfl
@[simp] theorem Device.setPoison_tmWait (d : Device) (v : List Nat) : (d.setPoison v).tmWait = d.tmWait := rfl
@[simp] theorem Device.setPoison_fecBad (d : Device) (v : List Nat) : (d.setPoison v).fecBad = d.fecBad := rfl
@[simp] theorem Device.setPoison_keyTime (d : Device) (v : List Nat) : (d.setPoison v).keyTime = d.keyTime := rfl
@[simp] theorem Device.setPoison_pipeIn (d : Device) (v : List Nat) : (d.setPoison v).pipeIn = d.pipeIn := rfl
@[simp] theorem Device.setPoison_pipes (d : Device) (v : List Nat) : (d.setPoison v).pipes = d.pipes := rfl
@[simp] theorem Device.setPoison_clsSlots (d : Device) (v : List Nat) : (d.setPoison v).clsSlots = d.clsSlots := rfl
@[simp] theorem Device.setPoison_flowCnts (d : Device) (v : List Nat) : (d.setPoison v).flowCnts = d.flowCnts := rfl
@[simp] theorem Device.setPoison_pmeFlows (d : Device) (v : List Nat) : (d.setPoison v).pmeFlows = d.pmeFlows := rfl
@[simp] theorem Device.setPoison_places (d : Device) (v : List Nat) : (d.setPoison v).places = d.places := rfl
@[simp] theorem Device.setPoison_loaded (d : Device) (v : List Nat) : (d.setPoison v).loaded = d.loaded := rfl
@[simp] theorem Device.setPoison_waveEpoch (d : Device) (v : List Nat) : (d.setPoison v).waveEpoch = d.waveEpoch := rfl
@[simp] theorem Device.setPoison_tmQueues (d : Device) (v : List Nat) : (d.setPoison v).tmQueues = d.tmQueues := rfl
@[simp] theorem Device.setPoison_tmPorts (d : Device) (v : List Nat) : (d.setPoison v).tmPorts = d.tmPorts := rfl
@[simp] theorem Device.setPoison_policers (d : Device) (v : List Nat) : (d.setPoison v).policers = d.policers := rfl
@[simp] theorem Device.setPoison_blocks (d : Device) (v : List Nat) : (d.setPoison v).blocks = d.blocks := rfl
@[simp] theorem Device.setPoison_nvmes (d : Device) (v : List Nat) : (d.setPoison v).nvmes = d.nvmes := rfl
@[simp] theorem Device.setPoison_nextNvme (d : Device) (v : List Nat) : (d.setPoison v).nextNvme = d.nextNvme := rfl
@[simp] theorem Device.setPoison_stage (d : Device) (v : List Nat) : (d.setPoison v).stage = d.stage := rfl
@[simp] theorem Device.setPoison_vaults (d : Device) (v : List Nat) : (d.setPoison v).vaults = d.vaults := rfl
@[simp] theorem Device.setPoison_hostReads (d : Device) (v : List Nat) : (d.setPoison v).hostReads = d.hostReads := rfl
@[simp] theorem Device.setPoison_link (d : Device) (v : List Nat) : (d.setPoison v).link = d.link := rfl
@[simp] theorem Device.setPoison_nextFetch (d : Device) (v : List Nat) : (d.setPoison v).nextFetch = d.nextFetch := rfl
@[simp] theorem Device.setPoison_xfers (d : Device) (v : List Nat) : (d.setPoison v).xfers = d.xfers := rfl
@[simp] theorem Device.setPoison_queues (d : Device) (v : List Nat) : (d.setPoison v).queues = d.queues := rfl
@[simp] theorem Device.setPoison_fetched (d : Device) (v : List Nat) : (d.setPoison v).fetched = d.fetched := rfl
@[simp] theorem Device.setPoison_heldW (d : Device) (v : List Nat) : (d.setPoison v).heldW = d.heldW := rfl
@[simp] theorem Device.setPoison_cores (d : Device) (v : List Nat) : (d.setPoison v).cores = d.cores := rfl
@[simp] theorem Device.setPoison_fw (d : Device) (v : List Nat) : (d.setPoison v).fw = d.fw := rfl
@[simp] theorem Device.setPoison_queueMem (d : Device) (v : List Nat) : (d.setPoison v).queueMem = d.queueMem := rfl
@[simp] theorem Device.setPoison_wlogs (d : Device) (v : List Nat) : (d.setPoison v).wlogs = d.wlogs := rfl
@[simp] theorem Device.setPoison_stores (d : Device) (v : List Nat) : (d.setPoison v).stores = d.stores := rfl
@[simp] theorem Device.setPoison_crew (d : Device) (v : List Nat) : (d.setPoison v).crew = d.crew := rfl
@[simp] theorem Device.setPoison_belay (d : Device) (v : List Nat) : (d.setPoison v).belay = d.belay := rfl
@[simp] theorem Device.setPoison_tel (d : Device) (v : List Nat) : (d.setPoison v).tel = d.tel := rfl
@[simp] theorem Device.setPoison_pwr (d : Device) (v : List Nat) : (d.setPoison v).pwr = d.pwr := rfl
@[simp] theorem Device.setMsix_cfg (d : Device) (v : MsixSt) : (d.setMsix v).cfg = d.cfg := rfl
@[simp] theorem Device.setMsix_clk (d : Device) (v : MsixSt) : (d.setMsix v).clk = d.clk := rfl
@[simp] theorem Device.setMsix_reg (d : Device) (v : MsixSt) : (d.setMsix v).reg = d.reg := rfl
@[simp] theorem Device.setMsix_rings (d : Device) (v : MsixSt) : (d.setMsix v).rings = d.rings := rfl
@[simp] theorem Device.setMsix_out (d : Device) (v : MsixSt) : (d.setMsix v).out = d.out := rfl
@[simp] theorem Device.setMsix_wr (d : Device) (v : MsixSt) : (d.setMsix v).wr = d.wr := rfl
@[simp] theorem Device.setMsix_poison (d : Device) (v : MsixSt) : (d.setMsix v).poison = d.poison := rfl
@[simp] theorem Device.setMsix_msix (d : Device) (v : MsixSt) : (d.setMsix v).msix = v := rfl
@[simp] theorem Device.setMsix_hold (d : Device) (v : MsixSt) : (d.setMsix v).hold = d.hold := rfl
@[simp] theorem Device.setMsix_wave (d : Device) (v : MsixSt) : (d.setMsix v).wave = d.wave := rfl
@[simp] theorem Device.setMsix_mbr (d : Device) (v : MsixSt) : (d.setMsix v).mbr = d.mbr := rfl
@[simp] theorem Device.setMsix_corrs (d : Device) (v : MsixSt) : (d.setMsix v).corrs = d.corrs := rfl
@[simp] theorem Device.setMsix_d2dReplays (d : Device) (v : MsixSt) : (d.setMsix v).d2dReplays = d.d2dReplays := rfl
@[simp] theorem Device.setMsix_tiles (d : Device) (v : MsixSt) : (d.setMsix v).tiles = d.tiles := rfl
@[simp] theorem Device.setMsix_mesh (d : Device) (v : MsixSt) : (d.setMsix v).mesh = d.mesh := rfl
@[simp] theorem Device.setMsix_tokHold (d : Device) (v : MsixSt) : (d.setMsix v).tokHold = d.tokHold := rfl
@[simp] theorem Device.setMsix_ropes (d : Device) (v : MsixSt) : (d.setMsix v).ropes = d.ropes := rfl
@[simp] theorem Device.setMsix_ropeMoved (d : Device) (v : MsixSt) : (d.setMsix v).ropeMoved = d.ropeMoved := rfl
@[simp] theorem Device.setMsix_flows (d : Device) (v : MsixSt) : (d.setMsix v).flows = d.flows := rfl
@[simp] theorem Device.setMsix_tapQ (d : Device) (v : MsixSt) : (d.setMsix v).tapQ = d.tapQ := rfl
@[simp] theorem Device.setMsix_nextFlow (d : Device) (v : MsixSt) : (d.setMsix v).nextFlow = d.nextFlow := rfl
@[simp] theorem Device.setMsix_parts (d : Device) (v : MsixSt) : (d.setMsix v).parts = d.parts := rfl
@[simp] theorem Device.setMsix_ceLog (d : Device) (v : MsixSt) : (d.setMsix v).ceLog = d.ceLog := rfl
@[simp] theorem Device.setMsix_ddrUndef (d : Device) (v : MsixSt) : (d.setMsix v).ddrUndef = d.ddrUndef := rfl
@[simp] theorem Device.setMsix_conns (d : Device) (v : MsixSt) : (d.setMsix v).conns = d.conns := rfl
@[simp] theorem Device.setMsix_gft (d : Device) (v : MsixSt) : (d.setMsix v).gft = d.gft := rfl
@[simp] theorem Device.setMsix_groups (d : Device) (v : MsixSt) : (d.setMsix v).groups = d.groups := rfl
@[simp] theorem Device.setMsix_tmWait (d : Device) (v : MsixSt) : (d.setMsix v).tmWait = d.tmWait := rfl
@[simp] theorem Device.setMsix_fecBad (d : Device) (v : MsixSt) : (d.setMsix v).fecBad = d.fecBad := rfl
@[simp] theorem Device.setMsix_keyTime (d : Device) (v : MsixSt) : (d.setMsix v).keyTime = d.keyTime := rfl
@[simp] theorem Device.setMsix_pipeIn (d : Device) (v : MsixSt) : (d.setMsix v).pipeIn = d.pipeIn := rfl
@[simp] theorem Device.setMsix_pipes (d : Device) (v : MsixSt) : (d.setMsix v).pipes = d.pipes := rfl
@[simp] theorem Device.setMsix_clsSlots (d : Device) (v : MsixSt) : (d.setMsix v).clsSlots = d.clsSlots := rfl
@[simp] theorem Device.setMsix_flowCnts (d : Device) (v : MsixSt) : (d.setMsix v).flowCnts = d.flowCnts := rfl
@[simp] theorem Device.setMsix_pmeFlows (d : Device) (v : MsixSt) : (d.setMsix v).pmeFlows = d.pmeFlows := rfl
@[simp] theorem Device.setMsix_places (d : Device) (v : MsixSt) : (d.setMsix v).places = d.places := rfl
@[simp] theorem Device.setMsix_loaded (d : Device) (v : MsixSt) : (d.setMsix v).loaded = d.loaded := rfl
@[simp] theorem Device.setMsix_waveEpoch (d : Device) (v : MsixSt) : (d.setMsix v).waveEpoch = d.waveEpoch := rfl
@[simp] theorem Device.setMsix_tmQueues (d : Device) (v : MsixSt) : (d.setMsix v).tmQueues = d.tmQueues := rfl
@[simp] theorem Device.setMsix_tmPorts (d : Device) (v : MsixSt) : (d.setMsix v).tmPorts = d.tmPorts := rfl
@[simp] theorem Device.setMsix_policers (d : Device) (v : MsixSt) : (d.setMsix v).policers = d.policers := rfl
@[simp] theorem Device.setMsix_blocks (d : Device) (v : MsixSt) : (d.setMsix v).blocks = d.blocks := rfl
@[simp] theorem Device.setMsix_nvmes (d : Device) (v : MsixSt) : (d.setMsix v).nvmes = d.nvmes := rfl
@[simp] theorem Device.setMsix_nextNvme (d : Device) (v : MsixSt) : (d.setMsix v).nextNvme = d.nextNvme := rfl
@[simp] theorem Device.setMsix_stage (d : Device) (v : MsixSt) : (d.setMsix v).stage = d.stage := rfl
@[simp] theorem Device.setMsix_vaults (d : Device) (v : MsixSt) : (d.setMsix v).vaults = d.vaults := rfl
@[simp] theorem Device.setMsix_hostReads (d : Device) (v : MsixSt) : (d.setMsix v).hostReads = d.hostReads := rfl
@[simp] theorem Device.setMsix_link (d : Device) (v : MsixSt) : (d.setMsix v).link = d.link := rfl
@[simp] theorem Device.setMsix_nextFetch (d : Device) (v : MsixSt) : (d.setMsix v).nextFetch = d.nextFetch := rfl
@[simp] theorem Device.setMsix_xfers (d : Device) (v : MsixSt) : (d.setMsix v).xfers = d.xfers := rfl
@[simp] theorem Device.setMsix_queues (d : Device) (v : MsixSt) : (d.setMsix v).queues = d.queues := rfl
@[simp] theorem Device.setMsix_fetched (d : Device) (v : MsixSt) : (d.setMsix v).fetched = d.fetched := rfl
@[simp] theorem Device.setMsix_heldW (d : Device) (v : MsixSt) : (d.setMsix v).heldW = d.heldW := rfl
@[simp] theorem Device.setMsix_cores (d : Device) (v : MsixSt) : (d.setMsix v).cores = d.cores := rfl
@[simp] theorem Device.setMsix_fw (d : Device) (v : MsixSt) : (d.setMsix v).fw = d.fw := rfl
@[simp] theorem Device.setMsix_queueMem (d : Device) (v : MsixSt) : (d.setMsix v).queueMem = d.queueMem := rfl
@[simp] theorem Device.setMsix_wlogs (d : Device) (v : MsixSt) : (d.setMsix v).wlogs = d.wlogs := rfl
@[simp] theorem Device.setMsix_stores (d : Device) (v : MsixSt) : (d.setMsix v).stores = d.stores := rfl
@[simp] theorem Device.setMsix_crew (d : Device) (v : MsixSt) : (d.setMsix v).crew = d.crew := rfl
@[simp] theorem Device.setMsix_belay (d : Device) (v : MsixSt) : (d.setMsix v).belay = d.belay := rfl
@[simp] theorem Device.setMsix_tel (d : Device) (v : MsixSt) : (d.setMsix v).tel = d.tel := rfl
@[simp] theorem Device.setMsix_pwr (d : Device) (v : MsixSt) : (d.setMsix v).pwr = d.pwr := rfl
@[simp] theorem Device.setHold_cfg (d : Device) (v : Tbl Nat) : (d.setHold v).cfg = d.cfg := rfl
@[simp] theorem Device.setHold_clk (d : Device) (v : Tbl Nat) : (d.setHold v).clk = d.clk := rfl
@[simp] theorem Device.setHold_reg (d : Device) (v : Tbl Nat) : (d.setHold v).reg = d.reg := rfl
@[simp] theorem Device.setHold_rings (d : Device) (v : Tbl Nat) : (d.setHold v).rings = d.rings := rfl
@[simp] theorem Device.setHold_out (d : Device) (v : Tbl Nat) : (d.setHold v).out = d.out := rfl
@[simp] theorem Device.setHold_wr (d : Device) (v : Tbl Nat) : (d.setHold v).wr = d.wr := rfl
@[simp] theorem Device.setHold_poison (d : Device) (v : Tbl Nat) : (d.setHold v).poison = d.poison := rfl
@[simp] theorem Device.setHold_msix (d : Device) (v : Tbl Nat) : (d.setHold v).msix = d.msix := rfl
@[simp] theorem Device.setHold_hold (d : Device) (v : Tbl Nat) : (d.setHold v).hold = v := rfl
@[simp] theorem Device.setHold_wave (d : Device) (v : Tbl Nat) : (d.setHold v).wave = d.wave := rfl
@[simp] theorem Device.setHold_mbr (d : Device) (v : Tbl Nat) : (d.setHold v).mbr = d.mbr := rfl
@[simp] theorem Device.setHold_corrs (d : Device) (v : Tbl Nat) : (d.setHold v).corrs = d.corrs := rfl
@[simp] theorem Device.setHold_d2dReplays (d : Device) (v : Tbl Nat) : (d.setHold v).d2dReplays = d.d2dReplays := rfl
@[simp] theorem Device.setHold_tiles (d : Device) (v : Tbl Nat) : (d.setHold v).tiles = d.tiles := rfl
@[simp] theorem Device.setHold_mesh (d : Device) (v : Tbl Nat) : (d.setHold v).mesh = d.mesh := rfl
@[simp] theorem Device.setHold_tokHold (d : Device) (v : Tbl Nat) : (d.setHold v).tokHold = d.tokHold := rfl
@[simp] theorem Device.setHold_ropes (d : Device) (v : Tbl Nat) : (d.setHold v).ropes = d.ropes := rfl
@[simp] theorem Device.setHold_ropeMoved (d : Device) (v : Tbl Nat) : (d.setHold v).ropeMoved = d.ropeMoved := rfl
@[simp] theorem Device.setHold_flows (d : Device) (v : Tbl Nat) : (d.setHold v).flows = d.flows := rfl
@[simp] theorem Device.setHold_tapQ (d : Device) (v : Tbl Nat) : (d.setHold v).tapQ = d.tapQ := rfl
@[simp] theorem Device.setHold_nextFlow (d : Device) (v : Tbl Nat) : (d.setHold v).nextFlow = d.nextFlow := rfl
@[simp] theorem Device.setHold_parts (d : Device) (v : Tbl Nat) : (d.setHold v).parts = d.parts := rfl
@[simp] theorem Device.setHold_ceLog (d : Device) (v : Tbl Nat) : (d.setHold v).ceLog = d.ceLog := rfl
@[simp] theorem Device.setHold_ddrUndef (d : Device) (v : Tbl Nat) : (d.setHold v).ddrUndef = d.ddrUndef := rfl
@[simp] theorem Device.setHold_conns (d : Device) (v : Tbl Nat) : (d.setHold v).conns = d.conns := rfl
@[simp] theorem Device.setHold_gft (d : Device) (v : Tbl Nat) : (d.setHold v).gft = d.gft := rfl
@[simp] theorem Device.setHold_groups (d : Device) (v : Tbl Nat) : (d.setHold v).groups = d.groups := rfl
@[simp] theorem Device.setHold_tmWait (d : Device) (v : Tbl Nat) : (d.setHold v).tmWait = d.tmWait := rfl
@[simp] theorem Device.setHold_fecBad (d : Device) (v : Tbl Nat) : (d.setHold v).fecBad = d.fecBad := rfl
@[simp] theorem Device.setHold_keyTime (d : Device) (v : Tbl Nat) : (d.setHold v).keyTime = d.keyTime := rfl
@[simp] theorem Device.setHold_pipeIn (d : Device) (v : Tbl Nat) : (d.setHold v).pipeIn = d.pipeIn := rfl
@[simp] theorem Device.setHold_pipes (d : Device) (v : Tbl Nat) : (d.setHold v).pipes = d.pipes := rfl
@[simp] theorem Device.setHold_clsSlots (d : Device) (v : Tbl Nat) : (d.setHold v).clsSlots = d.clsSlots := rfl
@[simp] theorem Device.setHold_flowCnts (d : Device) (v : Tbl Nat) : (d.setHold v).flowCnts = d.flowCnts := rfl
@[simp] theorem Device.setHold_pmeFlows (d : Device) (v : Tbl Nat) : (d.setHold v).pmeFlows = d.pmeFlows := rfl
@[simp] theorem Device.setHold_places (d : Device) (v : Tbl Nat) : (d.setHold v).places = d.places := rfl
@[simp] theorem Device.setHold_loaded (d : Device) (v : Tbl Nat) : (d.setHold v).loaded = d.loaded := rfl
@[simp] theorem Device.setHold_waveEpoch (d : Device) (v : Tbl Nat) : (d.setHold v).waveEpoch = d.waveEpoch := rfl
@[simp] theorem Device.setHold_tmQueues (d : Device) (v : Tbl Nat) : (d.setHold v).tmQueues = d.tmQueues := rfl
@[simp] theorem Device.setHold_tmPorts (d : Device) (v : Tbl Nat) : (d.setHold v).tmPorts = d.tmPorts := rfl
@[simp] theorem Device.setHold_policers (d : Device) (v : Tbl Nat) : (d.setHold v).policers = d.policers := rfl
@[simp] theorem Device.setHold_blocks (d : Device) (v : Tbl Nat) : (d.setHold v).blocks = d.blocks := rfl
@[simp] theorem Device.setHold_nvmes (d : Device) (v : Tbl Nat) : (d.setHold v).nvmes = d.nvmes := rfl
@[simp] theorem Device.setHold_nextNvme (d : Device) (v : Tbl Nat) : (d.setHold v).nextNvme = d.nextNvme := rfl
@[simp] theorem Device.setHold_stage (d : Device) (v : Tbl Nat) : (d.setHold v).stage = d.stage := rfl
@[simp] theorem Device.setHold_vaults (d : Device) (v : Tbl Nat) : (d.setHold v).vaults = d.vaults := rfl
@[simp] theorem Device.setHold_hostReads (d : Device) (v : Tbl Nat) : (d.setHold v).hostReads = d.hostReads := rfl
@[simp] theorem Device.setHold_link (d : Device) (v : Tbl Nat) : (d.setHold v).link = d.link := rfl
@[simp] theorem Device.setHold_nextFetch (d : Device) (v : Tbl Nat) : (d.setHold v).nextFetch = d.nextFetch := rfl
@[simp] theorem Device.setHold_xfers (d : Device) (v : Tbl Nat) : (d.setHold v).xfers = d.xfers := rfl
@[simp] theorem Device.setHold_queues (d : Device) (v : Tbl Nat) : (d.setHold v).queues = d.queues := rfl
@[simp] theorem Device.setHold_fetched (d : Device) (v : Tbl Nat) : (d.setHold v).fetched = d.fetched := rfl
@[simp] theorem Device.setHold_heldW (d : Device) (v : Tbl Nat) : (d.setHold v).heldW = d.heldW := rfl
@[simp] theorem Device.setHold_cores (d : Device) (v : Tbl Nat) : (d.setHold v).cores = d.cores := rfl
@[simp] theorem Device.setHold_fw (d : Device) (v : Tbl Nat) : (d.setHold v).fw = d.fw := rfl
@[simp] theorem Device.setHold_queueMem (d : Device) (v : Tbl Nat) : (d.setHold v).queueMem = d.queueMem := rfl
@[simp] theorem Device.setHold_wlogs (d : Device) (v : Tbl Nat) : (d.setHold v).wlogs = d.wlogs := rfl
@[simp] theorem Device.setHold_stores (d : Device) (v : Tbl Nat) : (d.setHold v).stores = d.stores := rfl
@[simp] theorem Device.setHold_crew (d : Device) (v : Tbl Nat) : (d.setHold v).crew = d.crew := rfl
@[simp] theorem Device.setHold_belay (d : Device) (v : Tbl Nat) : (d.setHold v).belay = d.belay := rfl
@[simp] theorem Device.setHold_tel (d : Device) (v : Tbl Nat) : (d.setHold v).tel = d.tel := rfl
@[simp] theorem Device.setHold_pwr (d : Device) (v : Tbl Nat) : (d.setHold v).pwr = d.pwr := rfl
@[simp] theorem Device.setWave_cfg (d : Device) (v : WaveSt) : (d.setWave v).cfg = d.cfg := rfl
@[simp] theorem Device.setWave_clk (d : Device) (v : WaveSt) : (d.setWave v).clk = d.clk := rfl
@[simp] theorem Device.setWave_reg (d : Device) (v : WaveSt) : (d.setWave v).reg = d.reg := rfl
@[simp] theorem Device.setWave_rings (d : Device) (v : WaveSt) : (d.setWave v).rings = d.rings := rfl
@[simp] theorem Device.setWave_out (d : Device) (v : WaveSt) : (d.setWave v).out = d.out := rfl
@[simp] theorem Device.setWave_wr (d : Device) (v : WaveSt) : (d.setWave v).wr = d.wr := rfl
@[simp] theorem Device.setWave_poison (d : Device) (v : WaveSt) : (d.setWave v).poison = d.poison := rfl
@[simp] theorem Device.setWave_msix (d : Device) (v : WaveSt) : (d.setWave v).msix = d.msix := rfl
@[simp] theorem Device.setWave_hold (d : Device) (v : WaveSt) : (d.setWave v).hold = d.hold := rfl
@[simp] theorem Device.setWave_wave (d : Device) (v : WaveSt) : (d.setWave v).wave = v := rfl
@[simp] theorem Device.setWave_mbr (d : Device) (v : WaveSt) : (d.setWave v).mbr = d.mbr := rfl
@[simp] theorem Device.setWave_corrs (d : Device) (v : WaveSt) : (d.setWave v).corrs = d.corrs := rfl
@[simp] theorem Device.setWave_d2dReplays (d : Device) (v : WaveSt) : (d.setWave v).d2dReplays = d.d2dReplays := rfl
@[simp] theorem Device.setWave_tiles (d : Device) (v : WaveSt) : (d.setWave v).tiles = d.tiles := rfl
@[simp] theorem Device.setWave_mesh (d : Device) (v : WaveSt) : (d.setWave v).mesh = d.mesh := rfl
@[simp] theorem Device.setWave_tokHold (d : Device) (v : WaveSt) : (d.setWave v).tokHold = d.tokHold := rfl
@[simp] theorem Device.setWave_ropes (d : Device) (v : WaveSt) : (d.setWave v).ropes = d.ropes := rfl
@[simp] theorem Device.setWave_ropeMoved (d : Device) (v : WaveSt) : (d.setWave v).ropeMoved = d.ropeMoved := rfl
@[simp] theorem Device.setWave_flows (d : Device) (v : WaveSt) : (d.setWave v).flows = d.flows := rfl
@[simp] theorem Device.setWave_tapQ (d : Device) (v : WaveSt) : (d.setWave v).tapQ = d.tapQ := rfl
@[simp] theorem Device.setWave_nextFlow (d : Device) (v : WaveSt) : (d.setWave v).nextFlow = d.nextFlow := rfl
@[simp] theorem Device.setWave_parts (d : Device) (v : WaveSt) : (d.setWave v).parts = d.parts := rfl
@[simp] theorem Device.setWave_ceLog (d : Device) (v : WaveSt) : (d.setWave v).ceLog = d.ceLog := rfl
@[simp] theorem Device.setWave_ddrUndef (d : Device) (v : WaveSt) : (d.setWave v).ddrUndef = d.ddrUndef := rfl
@[simp] theorem Device.setWave_conns (d : Device) (v : WaveSt) : (d.setWave v).conns = d.conns := rfl
@[simp] theorem Device.setWave_gft (d : Device) (v : WaveSt) : (d.setWave v).gft = d.gft := rfl
@[simp] theorem Device.setWave_groups (d : Device) (v : WaveSt) : (d.setWave v).groups = d.groups := rfl
@[simp] theorem Device.setWave_tmWait (d : Device) (v : WaveSt) : (d.setWave v).tmWait = d.tmWait := rfl
@[simp] theorem Device.setWave_fecBad (d : Device) (v : WaveSt) : (d.setWave v).fecBad = d.fecBad := rfl
@[simp] theorem Device.setWave_keyTime (d : Device) (v : WaveSt) : (d.setWave v).keyTime = d.keyTime := rfl
@[simp] theorem Device.setWave_pipeIn (d : Device) (v : WaveSt) : (d.setWave v).pipeIn = d.pipeIn := rfl
@[simp] theorem Device.setWave_pipes (d : Device) (v : WaveSt) : (d.setWave v).pipes = d.pipes := rfl
@[simp] theorem Device.setWave_clsSlots (d : Device) (v : WaveSt) : (d.setWave v).clsSlots = d.clsSlots := rfl
@[simp] theorem Device.setWave_flowCnts (d : Device) (v : WaveSt) : (d.setWave v).flowCnts = d.flowCnts := rfl
@[simp] theorem Device.setWave_pmeFlows (d : Device) (v : WaveSt) : (d.setWave v).pmeFlows = d.pmeFlows := rfl
@[simp] theorem Device.setWave_places (d : Device) (v : WaveSt) : (d.setWave v).places = d.places := rfl
@[simp] theorem Device.setWave_loaded (d : Device) (v : WaveSt) : (d.setWave v).loaded = d.loaded := rfl
@[simp] theorem Device.setWave_waveEpoch (d : Device) (v : WaveSt) : (d.setWave v).waveEpoch = d.waveEpoch := rfl
@[simp] theorem Device.setWave_tmQueues (d : Device) (v : WaveSt) : (d.setWave v).tmQueues = d.tmQueues := rfl
@[simp] theorem Device.setWave_tmPorts (d : Device) (v : WaveSt) : (d.setWave v).tmPorts = d.tmPorts := rfl
@[simp] theorem Device.setWave_policers (d : Device) (v : WaveSt) : (d.setWave v).policers = d.policers := rfl
@[simp] theorem Device.setWave_blocks (d : Device) (v : WaveSt) : (d.setWave v).blocks = d.blocks := rfl
@[simp] theorem Device.setWave_nvmes (d : Device) (v : WaveSt) : (d.setWave v).nvmes = d.nvmes := rfl
@[simp] theorem Device.setWave_nextNvme (d : Device) (v : WaveSt) : (d.setWave v).nextNvme = d.nextNvme := rfl
@[simp] theorem Device.setWave_stage (d : Device) (v : WaveSt) : (d.setWave v).stage = d.stage := rfl
@[simp] theorem Device.setWave_vaults (d : Device) (v : WaveSt) : (d.setWave v).vaults = d.vaults := rfl
@[simp] theorem Device.setWave_hostReads (d : Device) (v : WaveSt) : (d.setWave v).hostReads = d.hostReads := rfl
@[simp] theorem Device.setWave_link (d : Device) (v : WaveSt) : (d.setWave v).link = d.link := rfl
@[simp] theorem Device.setWave_nextFetch (d : Device) (v : WaveSt) : (d.setWave v).nextFetch = d.nextFetch := rfl
@[simp] theorem Device.setWave_xfers (d : Device) (v : WaveSt) : (d.setWave v).xfers = d.xfers := rfl
@[simp] theorem Device.setWave_queues (d : Device) (v : WaveSt) : (d.setWave v).queues = d.queues := rfl
@[simp] theorem Device.setWave_fetched (d : Device) (v : WaveSt) : (d.setWave v).fetched = d.fetched := rfl
@[simp] theorem Device.setWave_heldW (d : Device) (v : WaveSt) : (d.setWave v).heldW = d.heldW := rfl
@[simp] theorem Device.setWave_cores (d : Device) (v : WaveSt) : (d.setWave v).cores = d.cores := rfl
@[simp] theorem Device.setWave_fw (d : Device) (v : WaveSt) : (d.setWave v).fw = d.fw := rfl
@[simp] theorem Device.setWave_queueMem (d : Device) (v : WaveSt) : (d.setWave v).queueMem = d.queueMem := rfl
@[simp] theorem Device.setWave_wlogs (d : Device) (v : WaveSt) : (d.setWave v).wlogs = d.wlogs := rfl
@[simp] theorem Device.setWave_stores (d : Device) (v : WaveSt) : (d.setWave v).stores = d.stores := rfl
@[simp] theorem Device.setWave_crew (d : Device) (v : WaveSt) : (d.setWave v).crew = d.crew := rfl
@[simp] theorem Device.setWave_belay (d : Device) (v : WaveSt) : (d.setWave v).belay = d.belay := rfl
@[simp] theorem Device.setWave_tel (d : Device) (v : WaveSt) : (d.setWave v).tel = d.tel := rfl
@[simp] theorem Device.setWave_pwr (d : Device) (v : WaveSt) : (d.setWave v).pwr = d.pwr := rfl
@[simp] theorem Device.setMbr_cfg (d : Device) (v : MbrSt) : (d.setMbr v).cfg = d.cfg := rfl
@[simp] theorem Device.setMbr_clk (d : Device) (v : MbrSt) : (d.setMbr v).clk = d.clk := rfl
@[simp] theorem Device.setMbr_reg (d : Device) (v : MbrSt) : (d.setMbr v).reg = d.reg := rfl
@[simp] theorem Device.setMbr_rings (d : Device) (v : MbrSt) : (d.setMbr v).rings = d.rings := rfl
@[simp] theorem Device.setMbr_out (d : Device) (v : MbrSt) : (d.setMbr v).out = d.out := rfl
@[simp] theorem Device.setMbr_wr (d : Device) (v : MbrSt) : (d.setMbr v).wr = d.wr := rfl
@[simp] theorem Device.setMbr_poison (d : Device) (v : MbrSt) : (d.setMbr v).poison = d.poison := rfl
@[simp] theorem Device.setMbr_msix (d : Device) (v : MbrSt) : (d.setMbr v).msix = d.msix := rfl
@[simp] theorem Device.setMbr_hold (d : Device) (v : MbrSt) : (d.setMbr v).hold = d.hold := rfl
@[simp] theorem Device.setMbr_wave (d : Device) (v : MbrSt) : (d.setMbr v).wave = d.wave := rfl
@[simp] theorem Device.setMbr_mbr (d : Device) (v : MbrSt) : (d.setMbr v).mbr = v := rfl
@[simp] theorem Device.setMbr_corrs (d : Device) (v : MbrSt) : (d.setMbr v).corrs = d.corrs := rfl
@[simp] theorem Device.setMbr_d2dReplays (d : Device) (v : MbrSt) : (d.setMbr v).d2dReplays = d.d2dReplays := rfl
@[simp] theorem Device.setMbr_tiles (d : Device) (v : MbrSt) : (d.setMbr v).tiles = d.tiles := rfl
@[simp] theorem Device.setMbr_mesh (d : Device) (v : MbrSt) : (d.setMbr v).mesh = d.mesh := rfl
@[simp] theorem Device.setMbr_tokHold (d : Device) (v : MbrSt) : (d.setMbr v).tokHold = d.tokHold := rfl
@[simp] theorem Device.setMbr_ropes (d : Device) (v : MbrSt) : (d.setMbr v).ropes = d.ropes := rfl
@[simp] theorem Device.setMbr_ropeMoved (d : Device) (v : MbrSt) : (d.setMbr v).ropeMoved = d.ropeMoved := rfl
@[simp] theorem Device.setMbr_flows (d : Device) (v : MbrSt) : (d.setMbr v).flows = d.flows := rfl
@[simp] theorem Device.setMbr_tapQ (d : Device) (v : MbrSt) : (d.setMbr v).tapQ = d.tapQ := rfl
@[simp] theorem Device.setMbr_nextFlow (d : Device) (v : MbrSt) : (d.setMbr v).nextFlow = d.nextFlow := rfl
@[simp] theorem Device.setMbr_parts (d : Device) (v : MbrSt) : (d.setMbr v).parts = d.parts := rfl
@[simp] theorem Device.setMbr_ceLog (d : Device) (v : MbrSt) : (d.setMbr v).ceLog = d.ceLog := rfl
@[simp] theorem Device.setMbr_ddrUndef (d : Device) (v : MbrSt) : (d.setMbr v).ddrUndef = d.ddrUndef := rfl
@[simp] theorem Device.setMbr_conns (d : Device) (v : MbrSt) : (d.setMbr v).conns = d.conns := rfl
@[simp] theorem Device.setMbr_gft (d : Device) (v : MbrSt) : (d.setMbr v).gft = d.gft := rfl
@[simp] theorem Device.setMbr_groups (d : Device) (v : MbrSt) : (d.setMbr v).groups = d.groups := rfl
@[simp] theorem Device.setMbr_tmWait (d : Device) (v : MbrSt) : (d.setMbr v).tmWait = d.tmWait := rfl
@[simp] theorem Device.setMbr_fecBad (d : Device) (v : MbrSt) : (d.setMbr v).fecBad = d.fecBad := rfl
@[simp] theorem Device.setMbr_keyTime (d : Device) (v : MbrSt) : (d.setMbr v).keyTime = d.keyTime := rfl
@[simp] theorem Device.setMbr_pipeIn (d : Device) (v : MbrSt) : (d.setMbr v).pipeIn = d.pipeIn := rfl
@[simp] theorem Device.setMbr_pipes (d : Device) (v : MbrSt) : (d.setMbr v).pipes = d.pipes := rfl
@[simp] theorem Device.setMbr_clsSlots (d : Device) (v : MbrSt) : (d.setMbr v).clsSlots = d.clsSlots := rfl
@[simp] theorem Device.setMbr_flowCnts (d : Device) (v : MbrSt) : (d.setMbr v).flowCnts = d.flowCnts := rfl
@[simp] theorem Device.setMbr_pmeFlows (d : Device) (v : MbrSt) : (d.setMbr v).pmeFlows = d.pmeFlows := rfl
@[simp] theorem Device.setMbr_places (d : Device) (v : MbrSt) : (d.setMbr v).places = d.places := rfl
@[simp] theorem Device.setMbr_loaded (d : Device) (v : MbrSt) : (d.setMbr v).loaded = d.loaded := rfl
@[simp] theorem Device.setMbr_waveEpoch (d : Device) (v : MbrSt) : (d.setMbr v).waveEpoch = d.waveEpoch := rfl
@[simp] theorem Device.setMbr_tmQueues (d : Device) (v : MbrSt) : (d.setMbr v).tmQueues = d.tmQueues := rfl
@[simp] theorem Device.setMbr_tmPorts (d : Device) (v : MbrSt) : (d.setMbr v).tmPorts = d.tmPorts := rfl
@[simp] theorem Device.setMbr_policers (d : Device) (v : MbrSt) : (d.setMbr v).policers = d.policers := rfl
@[simp] theorem Device.setMbr_blocks (d : Device) (v : MbrSt) : (d.setMbr v).blocks = d.blocks := rfl
@[simp] theorem Device.setMbr_nvmes (d : Device) (v : MbrSt) : (d.setMbr v).nvmes = d.nvmes := rfl
@[simp] theorem Device.setMbr_nextNvme (d : Device) (v : MbrSt) : (d.setMbr v).nextNvme = d.nextNvme := rfl
@[simp] theorem Device.setMbr_stage (d : Device) (v : MbrSt) : (d.setMbr v).stage = d.stage := rfl
@[simp] theorem Device.setMbr_vaults (d : Device) (v : MbrSt) : (d.setMbr v).vaults = d.vaults := rfl
@[simp] theorem Device.setMbr_hostReads (d : Device) (v : MbrSt) : (d.setMbr v).hostReads = d.hostReads := rfl
@[simp] theorem Device.setMbr_link (d : Device) (v : MbrSt) : (d.setMbr v).link = d.link := rfl
@[simp] theorem Device.setMbr_nextFetch (d : Device) (v : MbrSt) : (d.setMbr v).nextFetch = d.nextFetch := rfl
@[simp] theorem Device.setMbr_xfers (d : Device) (v : MbrSt) : (d.setMbr v).xfers = d.xfers := rfl
@[simp] theorem Device.setMbr_queues (d : Device) (v : MbrSt) : (d.setMbr v).queues = d.queues := rfl
@[simp] theorem Device.setMbr_fetched (d : Device) (v : MbrSt) : (d.setMbr v).fetched = d.fetched := rfl
@[simp] theorem Device.setMbr_heldW (d : Device) (v : MbrSt) : (d.setMbr v).heldW = d.heldW := rfl
@[simp] theorem Device.setMbr_cores (d : Device) (v : MbrSt) : (d.setMbr v).cores = d.cores := rfl
@[simp] theorem Device.setMbr_fw (d : Device) (v : MbrSt) : (d.setMbr v).fw = d.fw := rfl
@[simp] theorem Device.setMbr_queueMem (d : Device) (v : MbrSt) : (d.setMbr v).queueMem = d.queueMem := rfl
@[simp] theorem Device.setMbr_wlogs (d : Device) (v : MbrSt) : (d.setMbr v).wlogs = d.wlogs := rfl
@[simp] theorem Device.setMbr_stores (d : Device) (v : MbrSt) : (d.setMbr v).stores = d.stores := rfl
@[simp] theorem Device.setMbr_crew (d : Device) (v : MbrSt) : (d.setMbr v).crew = d.crew := rfl
@[simp] theorem Device.setMbr_belay (d : Device) (v : MbrSt) : (d.setMbr v).belay = d.belay := rfl
@[simp] theorem Device.setMbr_tel (d : Device) (v : MbrSt) : (d.setMbr v).tel = d.tel := rfl
@[simp] theorem Device.setMbr_pwr (d : Device) (v : MbrSt) : (d.setMbr v).pwr = d.pwr := rfl
@[simp] theorem Device.setCorrs_cfg (d : Device) (v : List Corr) : (d.setCorrs v).cfg = d.cfg := rfl
@[simp] theorem Device.setCorrs_clk (d : Device) (v : List Corr) : (d.setCorrs v).clk = d.clk := rfl
@[simp] theorem Device.setCorrs_reg (d : Device) (v : List Corr) : (d.setCorrs v).reg = d.reg := rfl
@[simp] theorem Device.setCorrs_rings (d : Device) (v : List Corr) : (d.setCorrs v).rings = d.rings := rfl
@[simp] theorem Device.setCorrs_out (d : Device) (v : List Corr) : (d.setCorrs v).out = d.out := rfl
@[simp] theorem Device.setCorrs_wr (d : Device) (v : List Corr) : (d.setCorrs v).wr = d.wr := rfl
@[simp] theorem Device.setCorrs_poison (d : Device) (v : List Corr) : (d.setCorrs v).poison = d.poison := rfl
@[simp] theorem Device.setCorrs_msix (d : Device) (v : List Corr) : (d.setCorrs v).msix = d.msix := rfl
@[simp] theorem Device.setCorrs_hold (d : Device) (v : List Corr) : (d.setCorrs v).hold = d.hold := rfl
@[simp] theorem Device.setCorrs_wave (d : Device) (v : List Corr) : (d.setCorrs v).wave = d.wave := rfl
@[simp] theorem Device.setCorrs_mbr (d : Device) (v : List Corr) : (d.setCorrs v).mbr = d.mbr := rfl
@[simp] theorem Device.setCorrs_corrs (d : Device) (v : List Corr) : (d.setCorrs v).corrs = v := rfl
@[simp] theorem Device.setCorrs_d2dReplays (d : Device) (v : List Corr) : (d.setCorrs v).d2dReplays = d.d2dReplays := rfl
@[simp] theorem Device.setCorrs_tiles (d : Device) (v : List Corr) : (d.setCorrs v).tiles = d.tiles := rfl
@[simp] theorem Device.setCorrs_mesh (d : Device) (v : List Corr) : (d.setCorrs v).mesh = d.mesh := rfl
@[simp] theorem Device.setCorrs_tokHold (d : Device) (v : List Corr) : (d.setCorrs v).tokHold = d.tokHold := rfl
@[simp] theorem Device.setCorrs_ropes (d : Device) (v : List Corr) : (d.setCorrs v).ropes = d.ropes := rfl
@[simp] theorem Device.setCorrs_ropeMoved (d : Device) (v : List Corr) : (d.setCorrs v).ropeMoved = d.ropeMoved := rfl
@[simp] theorem Device.setCorrs_flows (d : Device) (v : List Corr) : (d.setCorrs v).flows = d.flows := rfl
@[simp] theorem Device.setCorrs_tapQ (d : Device) (v : List Corr) : (d.setCorrs v).tapQ = d.tapQ := rfl
@[simp] theorem Device.setCorrs_nextFlow (d : Device) (v : List Corr) : (d.setCorrs v).nextFlow = d.nextFlow := rfl
@[simp] theorem Device.setCorrs_parts (d : Device) (v : List Corr) : (d.setCorrs v).parts = d.parts := rfl
@[simp] theorem Device.setCorrs_ceLog (d : Device) (v : List Corr) : (d.setCorrs v).ceLog = d.ceLog := rfl
@[simp] theorem Device.setCorrs_ddrUndef (d : Device) (v : List Corr) : (d.setCorrs v).ddrUndef = d.ddrUndef := rfl
@[simp] theorem Device.setCorrs_conns (d : Device) (v : List Corr) : (d.setCorrs v).conns = d.conns := rfl
@[simp] theorem Device.setCorrs_gft (d : Device) (v : List Corr) : (d.setCorrs v).gft = d.gft := rfl
@[simp] theorem Device.setCorrs_groups (d : Device) (v : List Corr) : (d.setCorrs v).groups = d.groups := rfl
@[simp] theorem Device.setCorrs_tmWait (d : Device) (v : List Corr) : (d.setCorrs v).tmWait = d.tmWait := rfl
@[simp] theorem Device.setCorrs_fecBad (d : Device) (v : List Corr) : (d.setCorrs v).fecBad = d.fecBad := rfl
@[simp] theorem Device.setCorrs_keyTime (d : Device) (v : List Corr) : (d.setCorrs v).keyTime = d.keyTime := rfl
@[simp] theorem Device.setCorrs_pipeIn (d : Device) (v : List Corr) : (d.setCorrs v).pipeIn = d.pipeIn := rfl
@[simp] theorem Device.setCorrs_pipes (d : Device) (v : List Corr) : (d.setCorrs v).pipes = d.pipes := rfl
@[simp] theorem Device.setCorrs_clsSlots (d : Device) (v : List Corr) : (d.setCorrs v).clsSlots = d.clsSlots := rfl
@[simp] theorem Device.setCorrs_flowCnts (d : Device) (v : List Corr) : (d.setCorrs v).flowCnts = d.flowCnts := rfl
@[simp] theorem Device.setCorrs_pmeFlows (d : Device) (v : List Corr) : (d.setCorrs v).pmeFlows = d.pmeFlows := rfl
@[simp] theorem Device.setCorrs_places (d : Device) (v : List Corr) : (d.setCorrs v).places = d.places := rfl
@[simp] theorem Device.setCorrs_loaded (d : Device) (v : List Corr) : (d.setCorrs v).loaded = d.loaded := rfl
@[simp] theorem Device.setCorrs_waveEpoch (d : Device) (v : List Corr) : (d.setCorrs v).waveEpoch = d.waveEpoch := rfl
@[simp] theorem Device.setCorrs_tmQueues (d : Device) (v : List Corr) : (d.setCorrs v).tmQueues = d.tmQueues := rfl
@[simp] theorem Device.setCorrs_tmPorts (d : Device) (v : List Corr) : (d.setCorrs v).tmPorts = d.tmPorts := rfl
@[simp] theorem Device.setCorrs_policers (d : Device) (v : List Corr) : (d.setCorrs v).policers = d.policers := rfl
@[simp] theorem Device.setCorrs_blocks (d : Device) (v : List Corr) : (d.setCorrs v).blocks = d.blocks := rfl
@[simp] theorem Device.setCorrs_nvmes (d : Device) (v : List Corr) : (d.setCorrs v).nvmes = d.nvmes := rfl
@[simp] theorem Device.setCorrs_nextNvme (d : Device) (v : List Corr) : (d.setCorrs v).nextNvme = d.nextNvme := rfl
@[simp] theorem Device.setCorrs_stage (d : Device) (v : List Corr) : (d.setCorrs v).stage = d.stage := rfl
@[simp] theorem Device.setCorrs_vaults (d : Device) (v : List Corr) : (d.setCorrs v).vaults = d.vaults := rfl
@[simp] theorem Device.setCorrs_hostReads (d : Device) (v : List Corr) : (d.setCorrs v).hostReads = d.hostReads := rfl
@[simp] theorem Device.setCorrs_link (d : Device) (v : List Corr) : (d.setCorrs v).link = d.link := rfl
@[simp] theorem Device.setCorrs_nextFetch (d : Device) (v : List Corr) : (d.setCorrs v).nextFetch = d.nextFetch := rfl
@[simp] theorem Device.setCorrs_xfers (d : Device) (v : List Corr) : (d.setCorrs v).xfers = d.xfers := rfl
@[simp] theorem Device.setCorrs_queues (d : Device) (v : List Corr) : (d.setCorrs v).queues = d.queues := rfl
@[simp] theorem Device.setCorrs_fetched (d : Device) (v : List Corr) : (d.setCorrs v).fetched = d.fetched := rfl
@[simp] theorem Device.setCorrs_heldW (d : Device) (v : List Corr) : (d.setCorrs v).heldW = d.heldW := rfl
@[simp] theorem Device.setCorrs_cores (d : Device) (v : List Corr) : (d.setCorrs v).cores = d.cores := rfl
@[simp] theorem Device.setCorrs_fw (d : Device) (v : List Corr) : (d.setCorrs v).fw = d.fw := rfl
@[simp] theorem Device.setCorrs_queueMem (d : Device) (v : List Corr) : (d.setCorrs v).queueMem = d.queueMem := rfl
@[simp] theorem Device.setCorrs_wlogs (d : Device) (v : List Corr) : (d.setCorrs v).wlogs = d.wlogs := rfl
@[simp] theorem Device.setCorrs_stores (d : Device) (v : List Corr) : (d.setCorrs v).stores = d.stores := rfl
@[simp] theorem Device.setCorrs_crew (d : Device) (v : List Corr) : (d.setCorrs v).crew = d.crew := rfl
@[simp] theorem Device.setCorrs_belay (d : Device) (v : List Corr) : (d.setCorrs v).belay = d.belay := rfl
@[simp] theorem Device.setCorrs_tel (d : Device) (v : List Corr) : (d.setCorrs v).tel = d.tel := rfl
@[simp] theorem Device.setCorrs_pwr (d : Device) (v : List Corr) : (d.setCorrs v).pwr = d.pwr := rfl
@[simp] theorem Device.setD2dReplays_cfg (d : Device) (v : Tbl Replays) : (d.setD2dReplays v).cfg = d.cfg := rfl
@[simp] theorem Device.setD2dReplays_clk (d : Device) (v : Tbl Replays) : (d.setD2dReplays v).clk = d.clk := rfl
@[simp] theorem Device.setD2dReplays_reg (d : Device) (v : Tbl Replays) : (d.setD2dReplays v).reg = d.reg := rfl
@[simp] theorem Device.setD2dReplays_rings (d : Device) (v : Tbl Replays) : (d.setD2dReplays v).rings = d.rings := rfl
@[simp] theorem Device.setD2dReplays_out (d : Device) (v : Tbl Replays) : (d.setD2dReplays v).out = d.out := rfl
@[simp] theorem Device.setD2dReplays_wr (d : Device) (v : Tbl Replays) : (d.setD2dReplays v).wr = d.wr := rfl
@[simp] theorem Device.setD2dReplays_poison (d : Device) (v : Tbl Replays) : (d.setD2dReplays v).poison = d.poison := rfl
@[simp] theorem Device.setD2dReplays_msix (d : Device) (v : Tbl Replays) : (d.setD2dReplays v).msix = d.msix := rfl
@[simp] theorem Device.setD2dReplays_hold (d : Device) (v : Tbl Replays) : (d.setD2dReplays v).hold = d.hold := rfl
@[simp] theorem Device.setD2dReplays_wave (d : Device) (v : Tbl Replays) : (d.setD2dReplays v).wave = d.wave := rfl
@[simp] theorem Device.setD2dReplays_mbr (d : Device) (v : Tbl Replays) : (d.setD2dReplays v).mbr = d.mbr := rfl
@[simp] theorem Device.setD2dReplays_corrs (d : Device) (v : Tbl Replays) : (d.setD2dReplays v).corrs = d.corrs := rfl
@[simp] theorem Device.setD2dReplays_d2dReplays (d : Device) (v : Tbl Replays) : (d.setD2dReplays v).d2dReplays = v := rfl
@[simp] theorem Device.setD2dReplays_tiles (d : Device) (v : Tbl Replays) : (d.setD2dReplays v).tiles = d.tiles := rfl
@[simp] theorem Device.setD2dReplays_mesh (d : Device) (v : Tbl Replays) : (d.setD2dReplays v).mesh = d.mesh := rfl
@[simp] theorem Device.setD2dReplays_tokHold (d : Device) (v : Tbl Replays) : (d.setD2dReplays v).tokHold = d.tokHold := rfl
@[simp] theorem Device.setD2dReplays_ropes (d : Device) (v : Tbl Replays) : (d.setD2dReplays v).ropes = d.ropes := rfl
@[simp] theorem Device.setD2dReplays_ropeMoved (d : Device) (v : Tbl Replays) : (d.setD2dReplays v).ropeMoved = d.ropeMoved := rfl
@[simp] theorem Device.setD2dReplays_flows (d : Device) (v : Tbl Replays) : (d.setD2dReplays v).flows = d.flows := rfl
@[simp] theorem Device.setD2dReplays_tapQ (d : Device) (v : Tbl Replays) : (d.setD2dReplays v).tapQ = d.tapQ := rfl
@[simp] theorem Device.setD2dReplays_nextFlow (d : Device) (v : Tbl Replays) : (d.setD2dReplays v).nextFlow = d.nextFlow := rfl
@[simp] theorem Device.setD2dReplays_parts (d : Device) (v : Tbl Replays) : (d.setD2dReplays v).parts = d.parts := rfl
@[simp] theorem Device.setD2dReplays_ceLog (d : Device) (v : Tbl Replays) : (d.setD2dReplays v).ceLog = d.ceLog := rfl
@[simp] theorem Device.setD2dReplays_ddrUndef (d : Device) (v : Tbl Replays) : (d.setD2dReplays v).ddrUndef = d.ddrUndef := rfl
@[simp] theorem Device.setD2dReplays_conns (d : Device) (v : Tbl Replays) : (d.setD2dReplays v).conns = d.conns := rfl
@[simp] theorem Device.setD2dReplays_gft (d : Device) (v : Tbl Replays) : (d.setD2dReplays v).gft = d.gft := rfl
@[simp] theorem Device.setD2dReplays_groups (d : Device) (v : Tbl Replays) : (d.setD2dReplays v).groups = d.groups := rfl
@[simp] theorem Device.setD2dReplays_tmWait (d : Device) (v : Tbl Replays) : (d.setD2dReplays v).tmWait = d.tmWait := rfl
@[simp] theorem Device.setD2dReplays_fecBad (d : Device) (v : Tbl Replays) : (d.setD2dReplays v).fecBad = d.fecBad := rfl
@[simp] theorem Device.setD2dReplays_keyTime (d : Device) (v : Tbl Replays) : (d.setD2dReplays v).keyTime = d.keyTime := rfl
@[simp] theorem Device.setD2dReplays_pipeIn (d : Device) (v : Tbl Replays) : (d.setD2dReplays v).pipeIn = d.pipeIn := rfl
@[simp] theorem Device.setD2dReplays_pipes (d : Device) (v : Tbl Replays) : (d.setD2dReplays v).pipes = d.pipes := rfl
@[simp] theorem Device.setD2dReplays_clsSlots (d : Device) (v : Tbl Replays) : (d.setD2dReplays v).clsSlots = d.clsSlots := rfl
@[simp] theorem Device.setD2dReplays_flowCnts (d : Device) (v : Tbl Replays) : (d.setD2dReplays v).flowCnts = d.flowCnts := rfl
@[simp] theorem Device.setD2dReplays_pmeFlows (d : Device) (v : Tbl Replays) : (d.setD2dReplays v).pmeFlows = d.pmeFlows := rfl
@[simp] theorem Device.setD2dReplays_places (d : Device) (v : Tbl Replays) : (d.setD2dReplays v).places = d.places := rfl
@[simp] theorem Device.setD2dReplays_loaded (d : Device) (v : Tbl Replays) : (d.setD2dReplays v).loaded = d.loaded := rfl
@[simp] theorem Device.setD2dReplays_waveEpoch (d : Device) (v : Tbl Replays) : (d.setD2dReplays v).waveEpoch = d.waveEpoch := rfl
@[simp] theorem Device.setD2dReplays_tmQueues (d : Device) (v : Tbl Replays) : (d.setD2dReplays v).tmQueues = d.tmQueues := rfl
@[simp] theorem Device.setD2dReplays_tmPorts (d : Device) (v : Tbl Replays) : (d.setD2dReplays v).tmPorts = d.tmPorts := rfl
@[simp] theorem Device.setD2dReplays_policers (d : Device) (v : Tbl Replays) : (d.setD2dReplays v).policers = d.policers := rfl
@[simp] theorem Device.setD2dReplays_blocks (d : Device) (v : Tbl Replays) : (d.setD2dReplays v).blocks = d.blocks := rfl
@[simp] theorem Device.setD2dReplays_nvmes (d : Device) (v : Tbl Replays) : (d.setD2dReplays v).nvmes = d.nvmes := rfl
@[simp] theorem Device.setD2dReplays_nextNvme (d : Device) (v : Tbl Replays) : (d.setD2dReplays v).nextNvme = d.nextNvme := rfl
@[simp] theorem Device.setD2dReplays_stage (d : Device) (v : Tbl Replays) : (d.setD2dReplays v).stage = d.stage := rfl
@[simp] theorem Device.setD2dReplays_vaults (d : Device) (v : Tbl Replays) : (d.setD2dReplays v).vaults = d.vaults := rfl
@[simp] theorem Device.setD2dReplays_hostReads (d : Device) (v : Tbl Replays) : (d.setD2dReplays v).hostReads = d.hostReads := rfl
@[simp] theorem Device.setD2dReplays_link (d : Device) (v : Tbl Replays) : (d.setD2dReplays v).link = d.link := rfl
@[simp] theorem Device.setD2dReplays_nextFetch (d : Device) (v : Tbl Replays) : (d.setD2dReplays v).nextFetch = d.nextFetch := rfl
@[simp] theorem Device.setD2dReplays_xfers (d : Device) (v : Tbl Replays) : (d.setD2dReplays v).xfers = d.xfers := rfl
@[simp] theorem Device.setD2dReplays_queues (d : Device) (v : Tbl Replays) : (d.setD2dReplays v).queues = d.queues := rfl
@[simp] theorem Device.setD2dReplays_fetched (d : Device) (v : Tbl Replays) : (d.setD2dReplays v).fetched = d.fetched := rfl
@[simp] theorem Device.setD2dReplays_heldW (d : Device) (v : Tbl Replays) : (d.setD2dReplays v).heldW = d.heldW := rfl
@[simp] theorem Device.setD2dReplays_cores (d : Device) (v : Tbl Replays) : (d.setD2dReplays v).cores = d.cores := rfl
@[simp] theorem Device.setD2dReplays_fw (d : Device) (v : Tbl Replays) : (d.setD2dReplays v).fw = d.fw := rfl
@[simp] theorem Device.setD2dReplays_queueMem (d : Device) (v : Tbl Replays) : (d.setD2dReplays v).queueMem = d.queueMem := rfl
@[simp] theorem Device.setD2dReplays_wlogs (d : Device) (v : Tbl Replays) : (d.setD2dReplays v).wlogs = d.wlogs := rfl
@[simp] theorem Device.setD2dReplays_stores (d : Device) (v : Tbl Replays) : (d.setD2dReplays v).stores = d.stores := rfl
@[simp] theorem Device.setD2dReplays_crew (d : Device) (v : Tbl Replays) : (d.setD2dReplays v).crew = d.crew := rfl
@[simp] theorem Device.setD2dReplays_belay (d : Device) (v : Tbl Replays) : (d.setD2dReplays v).belay = d.belay := rfl
@[simp] theorem Device.setD2dReplays_tel (d : Device) (v : Tbl Replays) : (d.setD2dReplays v).tel = d.tel := rfl
@[simp] theorem Device.setD2dReplays_pwr (d : Device) (v : Tbl Replays) : (d.setD2dReplays v).pwr = d.pwr := rfl
@[simp] theorem Device.setTiles_cfg (d : Device) (v : Tbl Tile) : (d.setTiles v).cfg = d.cfg := rfl
@[simp] theorem Device.setTiles_clk (d : Device) (v : Tbl Tile) : (d.setTiles v).clk = d.clk := rfl
@[simp] theorem Device.setTiles_reg (d : Device) (v : Tbl Tile) : (d.setTiles v).reg = d.reg := rfl
@[simp] theorem Device.setTiles_rings (d : Device) (v : Tbl Tile) : (d.setTiles v).rings = d.rings := rfl
@[simp] theorem Device.setTiles_out (d : Device) (v : Tbl Tile) : (d.setTiles v).out = d.out := rfl
@[simp] theorem Device.setTiles_wr (d : Device) (v : Tbl Tile) : (d.setTiles v).wr = d.wr := rfl
@[simp] theorem Device.setTiles_poison (d : Device) (v : Tbl Tile) : (d.setTiles v).poison = d.poison := rfl
@[simp] theorem Device.setTiles_msix (d : Device) (v : Tbl Tile) : (d.setTiles v).msix = d.msix := rfl
@[simp] theorem Device.setTiles_hold (d : Device) (v : Tbl Tile) : (d.setTiles v).hold = d.hold := rfl
@[simp] theorem Device.setTiles_wave (d : Device) (v : Tbl Tile) : (d.setTiles v).wave = d.wave := rfl
@[simp] theorem Device.setTiles_mbr (d : Device) (v : Tbl Tile) : (d.setTiles v).mbr = d.mbr := rfl
@[simp] theorem Device.setTiles_corrs (d : Device) (v : Tbl Tile) : (d.setTiles v).corrs = d.corrs := rfl
@[simp] theorem Device.setTiles_d2dReplays (d : Device) (v : Tbl Tile) : (d.setTiles v).d2dReplays = d.d2dReplays := rfl
@[simp] theorem Device.setTiles_tiles (d : Device) (v : Tbl Tile) : (d.setTiles v).tiles = v := rfl
@[simp] theorem Device.setTiles_mesh (d : Device) (v : Tbl Tile) : (d.setTiles v).mesh = d.mesh := rfl
@[simp] theorem Device.setTiles_tokHold (d : Device) (v : Tbl Tile) : (d.setTiles v).tokHold = d.tokHold := rfl
@[simp] theorem Device.setTiles_ropes (d : Device) (v : Tbl Tile) : (d.setTiles v).ropes = d.ropes := rfl
@[simp] theorem Device.setTiles_ropeMoved (d : Device) (v : Tbl Tile) : (d.setTiles v).ropeMoved = d.ropeMoved := rfl
@[simp] theorem Device.setTiles_flows (d : Device) (v : Tbl Tile) : (d.setTiles v).flows = d.flows := rfl
@[simp] theorem Device.setTiles_tapQ (d : Device) (v : Tbl Tile) : (d.setTiles v).tapQ = d.tapQ := rfl
@[simp] theorem Device.setTiles_nextFlow (d : Device) (v : Tbl Tile) : (d.setTiles v).nextFlow = d.nextFlow := rfl
@[simp] theorem Device.setTiles_parts (d : Device) (v : Tbl Tile) : (d.setTiles v).parts = d.parts := rfl
@[simp] theorem Device.setTiles_ceLog (d : Device) (v : Tbl Tile) : (d.setTiles v).ceLog = d.ceLog := rfl
@[simp] theorem Device.setTiles_ddrUndef (d : Device) (v : Tbl Tile) : (d.setTiles v).ddrUndef = d.ddrUndef := rfl
@[simp] theorem Device.setTiles_conns (d : Device) (v : Tbl Tile) : (d.setTiles v).conns = d.conns := rfl
@[simp] theorem Device.setTiles_gft (d : Device) (v : Tbl Tile) : (d.setTiles v).gft = d.gft := rfl
@[simp] theorem Device.setTiles_groups (d : Device) (v : Tbl Tile) : (d.setTiles v).groups = d.groups := rfl
@[simp] theorem Device.setTiles_tmWait (d : Device) (v : Tbl Tile) : (d.setTiles v).tmWait = d.tmWait := rfl
@[simp] theorem Device.setTiles_fecBad (d : Device) (v : Tbl Tile) : (d.setTiles v).fecBad = d.fecBad := rfl
@[simp] theorem Device.setTiles_keyTime (d : Device) (v : Tbl Tile) : (d.setTiles v).keyTime = d.keyTime := rfl
@[simp] theorem Device.setTiles_pipeIn (d : Device) (v : Tbl Tile) : (d.setTiles v).pipeIn = d.pipeIn := rfl
@[simp] theorem Device.setTiles_pipes (d : Device) (v : Tbl Tile) : (d.setTiles v).pipes = d.pipes := rfl
@[simp] theorem Device.setTiles_clsSlots (d : Device) (v : Tbl Tile) : (d.setTiles v).clsSlots = d.clsSlots := rfl
@[simp] theorem Device.setTiles_flowCnts (d : Device) (v : Tbl Tile) : (d.setTiles v).flowCnts = d.flowCnts := rfl
@[simp] theorem Device.setTiles_pmeFlows (d : Device) (v : Tbl Tile) : (d.setTiles v).pmeFlows = d.pmeFlows := rfl
@[simp] theorem Device.setTiles_places (d : Device) (v : Tbl Tile) : (d.setTiles v).places = d.places := rfl
@[simp] theorem Device.setTiles_loaded (d : Device) (v : Tbl Tile) : (d.setTiles v).loaded = d.loaded := rfl
@[simp] theorem Device.setTiles_waveEpoch (d : Device) (v : Tbl Tile) : (d.setTiles v).waveEpoch = d.waveEpoch := rfl
@[simp] theorem Device.setTiles_tmQueues (d : Device) (v : Tbl Tile) : (d.setTiles v).tmQueues = d.tmQueues := rfl
@[simp] theorem Device.setTiles_tmPorts (d : Device) (v : Tbl Tile) : (d.setTiles v).tmPorts = d.tmPorts := rfl
@[simp] theorem Device.setTiles_policers (d : Device) (v : Tbl Tile) : (d.setTiles v).policers = d.policers := rfl
@[simp] theorem Device.setTiles_blocks (d : Device) (v : Tbl Tile) : (d.setTiles v).blocks = d.blocks := rfl
@[simp] theorem Device.setTiles_nvmes (d : Device) (v : Tbl Tile) : (d.setTiles v).nvmes = d.nvmes := rfl
@[simp] theorem Device.setTiles_nextNvme (d : Device) (v : Tbl Tile) : (d.setTiles v).nextNvme = d.nextNvme := rfl
@[simp] theorem Device.setTiles_stage (d : Device) (v : Tbl Tile) : (d.setTiles v).stage = d.stage := rfl
@[simp] theorem Device.setTiles_vaults (d : Device) (v : Tbl Tile) : (d.setTiles v).vaults = d.vaults := rfl
@[simp] theorem Device.setTiles_hostReads (d : Device) (v : Tbl Tile) : (d.setTiles v).hostReads = d.hostReads := rfl
@[simp] theorem Device.setTiles_link (d : Device) (v : Tbl Tile) : (d.setTiles v).link = d.link := rfl
@[simp] theorem Device.setTiles_nextFetch (d : Device) (v : Tbl Tile) : (d.setTiles v).nextFetch = d.nextFetch := rfl
@[simp] theorem Device.setTiles_xfers (d : Device) (v : Tbl Tile) : (d.setTiles v).xfers = d.xfers := rfl
@[simp] theorem Device.setTiles_queues (d : Device) (v : Tbl Tile) : (d.setTiles v).queues = d.queues := rfl
@[simp] theorem Device.setTiles_fetched (d : Device) (v : Tbl Tile) : (d.setTiles v).fetched = d.fetched := rfl
@[simp] theorem Device.setTiles_heldW (d : Device) (v : Tbl Tile) : (d.setTiles v).heldW = d.heldW := rfl
@[simp] theorem Device.setTiles_cores (d : Device) (v : Tbl Tile) : (d.setTiles v).cores = d.cores := rfl
@[simp] theorem Device.setTiles_fw (d : Device) (v : Tbl Tile) : (d.setTiles v).fw = d.fw := rfl
@[simp] theorem Device.setTiles_queueMem (d : Device) (v : Tbl Tile) : (d.setTiles v).queueMem = d.queueMem := rfl
@[simp] theorem Device.setTiles_wlogs (d : Device) (v : Tbl Tile) : (d.setTiles v).wlogs = d.wlogs := rfl
@[simp] theorem Device.setTiles_stores (d : Device) (v : Tbl Tile) : (d.setTiles v).stores = d.stores := rfl
@[simp] theorem Device.setTiles_crew (d : Device) (v : Tbl Tile) : (d.setTiles v).crew = d.crew := rfl
@[simp] theorem Device.setTiles_belay (d : Device) (v : Tbl Tile) : (d.setTiles v).belay = d.belay := rfl
@[simp] theorem Device.setTiles_tel (d : Device) (v : Tbl Tile) : (d.setTiles v).tel = d.tel := rfl
@[simp] theorem Device.setTiles_pwr (d : Device) (v : Tbl Tile) : (d.setTiles v).pwr = d.pwr := rfl
@[simp] theorem Device.setMesh_cfg (d : Device) (v : Mesh) : (d.setMesh v).cfg = d.cfg := rfl
@[simp] theorem Device.setMesh_clk (d : Device) (v : Mesh) : (d.setMesh v).clk = d.clk := rfl
@[simp] theorem Device.setMesh_reg (d : Device) (v : Mesh) : (d.setMesh v).reg = d.reg := rfl
@[simp] theorem Device.setMesh_rings (d : Device) (v : Mesh) : (d.setMesh v).rings = d.rings := rfl
@[simp] theorem Device.setMesh_out (d : Device) (v : Mesh) : (d.setMesh v).out = d.out := rfl
@[simp] theorem Device.setMesh_wr (d : Device) (v : Mesh) : (d.setMesh v).wr = d.wr := rfl
@[simp] theorem Device.setMesh_poison (d : Device) (v : Mesh) : (d.setMesh v).poison = d.poison := rfl
@[simp] theorem Device.setMesh_msix (d : Device) (v : Mesh) : (d.setMesh v).msix = d.msix := rfl
@[simp] theorem Device.setMesh_hold (d : Device) (v : Mesh) : (d.setMesh v).hold = d.hold := rfl
@[simp] theorem Device.setMesh_wave (d : Device) (v : Mesh) : (d.setMesh v).wave = d.wave := rfl
@[simp] theorem Device.setMesh_mbr (d : Device) (v : Mesh) : (d.setMesh v).mbr = d.mbr := rfl
@[simp] theorem Device.setMesh_corrs (d : Device) (v : Mesh) : (d.setMesh v).corrs = d.corrs := rfl
@[simp] theorem Device.setMesh_d2dReplays (d : Device) (v : Mesh) : (d.setMesh v).d2dReplays = d.d2dReplays := rfl
@[simp] theorem Device.setMesh_tiles (d : Device) (v : Mesh) : (d.setMesh v).tiles = d.tiles := rfl
@[simp] theorem Device.setMesh_mesh (d : Device) (v : Mesh) : (d.setMesh v).mesh = v := rfl
@[simp] theorem Device.setMesh_tokHold (d : Device) (v : Mesh) : (d.setMesh v).tokHold = d.tokHold := rfl
@[simp] theorem Device.setMesh_ropes (d : Device) (v : Mesh) : (d.setMesh v).ropes = d.ropes := rfl
@[simp] theorem Device.setMesh_ropeMoved (d : Device) (v : Mesh) : (d.setMesh v).ropeMoved = d.ropeMoved := rfl
@[simp] theorem Device.setMesh_flows (d : Device) (v : Mesh) : (d.setMesh v).flows = d.flows := rfl
@[simp] theorem Device.setMesh_tapQ (d : Device) (v : Mesh) : (d.setMesh v).tapQ = d.tapQ := rfl
@[simp] theorem Device.setMesh_nextFlow (d : Device) (v : Mesh) : (d.setMesh v).nextFlow = d.nextFlow := rfl
@[simp] theorem Device.setMesh_parts (d : Device) (v : Mesh) : (d.setMesh v).parts = d.parts := rfl
@[simp] theorem Device.setMesh_ceLog (d : Device) (v : Mesh) : (d.setMesh v).ceLog = d.ceLog := rfl
@[simp] theorem Device.setMesh_ddrUndef (d : Device) (v : Mesh) : (d.setMesh v).ddrUndef = d.ddrUndef := rfl
@[simp] theorem Device.setMesh_conns (d : Device) (v : Mesh) : (d.setMesh v).conns = d.conns := rfl
@[simp] theorem Device.setMesh_gft (d : Device) (v : Mesh) : (d.setMesh v).gft = d.gft := rfl
@[simp] theorem Device.setMesh_groups (d : Device) (v : Mesh) : (d.setMesh v).groups = d.groups := rfl
@[simp] theorem Device.setMesh_tmWait (d : Device) (v : Mesh) : (d.setMesh v).tmWait = d.tmWait := rfl
@[simp] theorem Device.setMesh_fecBad (d : Device) (v : Mesh) : (d.setMesh v).fecBad = d.fecBad := rfl
@[simp] theorem Device.setMesh_keyTime (d : Device) (v : Mesh) : (d.setMesh v).keyTime = d.keyTime := rfl
@[simp] theorem Device.setMesh_pipeIn (d : Device) (v : Mesh) : (d.setMesh v).pipeIn = d.pipeIn := rfl
@[simp] theorem Device.setMesh_pipes (d : Device) (v : Mesh) : (d.setMesh v).pipes = d.pipes := rfl
@[simp] theorem Device.setMesh_clsSlots (d : Device) (v : Mesh) : (d.setMesh v).clsSlots = d.clsSlots := rfl
@[simp] theorem Device.setMesh_flowCnts (d : Device) (v : Mesh) : (d.setMesh v).flowCnts = d.flowCnts := rfl
@[simp] theorem Device.setMesh_pmeFlows (d : Device) (v : Mesh) : (d.setMesh v).pmeFlows = d.pmeFlows := rfl
@[simp] theorem Device.setMesh_places (d : Device) (v : Mesh) : (d.setMesh v).places = d.places := rfl
@[simp] theorem Device.setMesh_loaded (d : Device) (v : Mesh) : (d.setMesh v).loaded = d.loaded := rfl
@[simp] theorem Device.setMesh_waveEpoch (d : Device) (v : Mesh) : (d.setMesh v).waveEpoch = d.waveEpoch := rfl
@[simp] theorem Device.setMesh_tmQueues (d : Device) (v : Mesh) : (d.setMesh v).tmQueues = d.tmQueues := rfl
@[simp] theorem Device.setMesh_tmPorts (d : Device) (v : Mesh) : (d.setMesh v).tmPorts = d.tmPorts := rfl
@[simp] theorem Device.setMesh_policers (d : Device) (v : Mesh) : (d.setMesh v).policers = d.policers := rfl
@[simp] theorem Device.setMesh_blocks (d : Device) (v : Mesh) : (d.setMesh v).blocks = d.blocks := rfl
@[simp] theorem Device.setMesh_nvmes (d : Device) (v : Mesh) : (d.setMesh v).nvmes = d.nvmes := rfl
@[simp] theorem Device.setMesh_nextNvme (d : Device) (v : Mesh) : (d.setMesh v).nextNvme = d.nextNvme := rfl
@[simp] theorem Device.setMesh_stage (d : Device) (v : Mesh) : (d.setMesh v).stage = d.stage := rfl
@[simp] theorem Device.setMesh_vaults (d : Device) (v : Mesh) : (d.setMesh v).vaults = d.vaults := rfl
@[simp] theorem Device.setMesh_hostReads (d : Device) (v : Mesh) : (d.setMesh v).hostReads = d.hostReads := rfl
@[simp] theorem Device.setMesh_link (d : Device) (v : Mesh) : (d.setMesh v).link = d.link := rfl
@[simp] theorem Device.setMesh_nextFetch (d : Device) (v : Mesh) : (d.setMesh v).nextFetch = d.nextFetch := rfl
@[simp] theorem Device.setMesh_xfers (d : Device) (v : Mesh) : (d.setMesh v).xfers = d.xfers := rfl
@[simp] theorem Device.setMesh_queues (d : Device) (v : Mesh) : (d.setMesh v).queues = d.queues := rfl
@[simp] theorem Device.setMesh_fetched (d : Device) (v : Mesh) : (d.setMesh v).fetched = d.fetched := rfl
@[simp] theorem Device.setMesh_heldW (d : Device) (v : Mesh) : (d.setMesh v).heldW = d.heldW := rfl
@[simp] theorem Device.setMesh_cores (d : Device) (v : Mesh) : (d.setMesh v).cores = d.cores := rfl
@[simp] theorem Device.setMesh_fw (d : Device) (v : Mesh) : (d.setMesh v).fw = d.fw := rfl
@[simp] theorem Device.setMesh_queueMem (d : Device) (v : Mesh) : (d.setMesh v).queueMem = d.queueMem := rfl
@[simp] theorem Device.setMesh_wlogs (d : Device) (v : Mesh) : (d.setMesh v).wlogs = d.wlogs := rfl
@[simp] theorem Device.setMesh_stores (d : Device) (v : Mesh) : (d.setMesh v).stores = d.stores := rfl
@[simp] theorem Device.setMesh_crew (d : Device) (v : Mesh) : (d.setMesh v).crew = d.crew := rfl
@[simp] theorem Device.setMesh_belay (d : Device) (v : Mesh) : (d.setMesh v).belay = d.belay := rfl
@[simp] theorem Device.setMesh_tel (d : Device) (v : Mesh) : (d.setMesh v).tel = d.tel := rfl
@[simp] theorem Device.setMesh_pwr (d : Device) (v : Mesh) : (d.setMesh v).pwr = d.pwr := rfl
@[simp] theorem Device.setTokHold_cfg (d : Device) (v : Tbl (List TokenWrite)) : (d.setTokHold v).cfg = d.cfg := rfl
@[simp] theorem Device.setTokHold_clk (d : Device) (v : Tbl (List TokenWrite)) : (d.setTokHold v).clk = d.clk := rfl
@[simp] theorem Device.setTokHold_reg (d : Device) (v : Tbl (List TokenWrite)) : (d.setTokHold v).reg = d.reg := rfl
@[simp] theorem Device.setTokHold_rings (d : Device) (v : Tbl (List TokenWrite)) : (d.setTokHold v).rings = d.rings := rfl
@[simp] theorem Device.setTokHold_out (d : Device) (v : Tbl (List TokenWrite)) : (d.setTokHold v).out = d.out := rfl
@[simp] theorem Device.setTokHold_wr (d : Device) (v : Tbl (List TokenWrite)) : (d.setTokHold v).wr = d.wr := rfl
@[simp] theorem Device.setTokHold_poison (d : Device) (v : Tbl (List TokenWrite)) : (d.setTokHold v).poison = d.poison := rfl
@[simp] theorem Device.setTokHold_msix (d : Device) (v : Tbl (List TokenWrite)) : (d.setTokHold v).msix = d.msix := rfl
@[simp] theorem Device.setTokHold_hold (d : Device) (v : Tbl (List TokenWrite)) : (d.setTokHold v).hold = d.hold := rfl
@[simp] theorem Device.setTokHold_wave (d : Device) (v : Tbl (List TokenWrite)) : (d.setTokHold v).wave = d.wave := rfl
@[simp] theorem Device.setTokHold_mbr (d : Device) (v : Tbl (List TokenWrite)) : (d.setTokHold v).mbr = d.mbr := rfl
@[simp] theorem Device.setTokHold_corrs (d : Device) (v : Tbl (List TokenWrite)) : (d.setTokHold v).corrs = d.corrs := rfl
@[simp] theorem Device.setTokHold_d2dReplays (d : Device) (v : Tbl (List TokenWrite)) : (d.setTokHold v).d2dReplays = d.d2dReplays := rfl
@[simp] theorem Device.setTokHold_tiles (d : Device) (v : Tbl (List TokenWrite)) : (d.setTokHold v).tiles = d.tiles := rfl
@[simp] theorem Device.setTokHold_mesh (d : Device) (v : Tbl (List TokenWrite)) : (d.setTokHold v).mesh = d.mesh := rfl
@[simp] theorem Device.setTokHold_tokHold (d : Device) (v : Tbl (List TokenWrite)) : (d.setTokHold v).tokHold = v := rfl
@[simp] theorem Device.setTokHold_ropes (d : Device) (v : Tbl (List TokenWrite)) : (d.setTokHold v).ropes = d.ropes := rfl
@[simp] theorem Device.setTokHold_ropeMoved (d : Device) (v : Tbl (List TokenWrite)) : (d.setTokHold v).ropeMoved = d.ropeMoved := rfl
@[simp] theorem Device.setTokHold_flows (d : Device) (v : Tbl (List TokenWrite)) : (d.setTokHold v).flows = d.flows := rfl
@[simp] theorem Device.setTokHold_tapQ (d : Device) (v : Tbl (List TokenWrite)) : (d.setTokHold v).tapQ = d.tapQ := rfl
@[simp] theorem Device.setTokHold_nextFlow (d : Device) (v : Tbl (List TokenWrite)) : (d.setTokHold v).nextFlow = d.nextFlow := rfl
@[simp] theorem Device.setTokHold_parts (d : Device) (v : Tbl (List TokenWrite)) : (d.setTokHold v).parts = d.parts := rfl
@[simp] theorem Device.setTokHold_ceLog (d : Device) (v : Tbl (List TokenWrite)) : (d.setTokHold v).ceLog = d.ceLog := rfl
@[simp] theorem Device.setTokHold_ddrUndef (d : Device) (v : Tbl (List TokenWrite)) : (d.setTokHold v).ddrUndef = d.ddrUndef := rfl
@[simp] theorem Device.setTokHold_conns (d : Device) (v : Tbl (List TokenWrite)) : (d.setTokHold v).conns = d.conns := rfl
@[simp] theorem Device.setTokHold_gft (d : Device) (v : Tbl (List TokenWrite)) : (d.setTokHold v).gft = d.gft := rfl
@[simp] theorem Device.setTokHold_groups (d : Device) (v : Tbl (List TokenWrite)) : (d.setTokHold v).groups = d.groups := rfl
@[simp] theorem Device.setTokHold_tmWait (d : Device) (v : Tbl (List TokenWrite)) : (d.setTokHold v).tmWait = d.tmWait := rfl
@[simp] theorem Device.setTokHold_fecBad (d : Device) (v : Tbl (List TokenWrite)) : (d.setTokHold v).fecBad = d.fecBad := rfl
@[simp] theorem Device.setTokHold_keyTime (d : Device) (v : Tbl (List TokenWrite)) : (d.setTokHold v).keyTime = d.keyTime := rfl
@[simp] theorem Device.setTokHold_pipeIn (d : Device) (v : Tbl (List TokenWrite)) : (d.setTokHold v).pipeIn = d.pipeIn := rfl
@[simp] theorem Device.setTokHold_pipes (d : Device) (v : Tbl (List TokenWrite)) : (d.setTokHold v).pipes = d.pipes := rfl
@[simp] theorem Device.setTokHold_clsSlots (d : Device) (v : Tbl (List TokenWrite)) : (d.setTokHold v).clsSlots = d.clsSlots := rfl
@[simp] theorem Device.setTokHold_flowCnts (d : Device) (v : Tbl (List TokenWrite)) : (d.setTokHold v).flowCnts = d.flowCnts := rfl
@[simp] theorem Device.setTokHold_pmeFlows (d : Device) (v : Tbl (List TokenWrite)) : (d.setTokHold v).pmeFlows = d.pmeFlows := rfl
@[simp] theorem Device.setTokHold_places (d : Device) (v : Tbl (List TokenWrite)) : (d.setTokHold v).places = d.places := rfl
@[simp] theorem Device.setTokHold_loaded (d : Device) (v : Tbl (List TokenWrite)) : (d.setTokHold v).loaded = d.loaded := rfl
@[simp] theorem Device.setTokHold_waveEpoch (d : Device) (v : Tbl (List TokenWrite)) : (d.setTokHold v).waveEpoch = d.waveEpoch := rfl
@[simp] theorem Device.setTokHold_tmQueues (d : Device) (v : Tbl (List TokenWrite)) : (d.setTokHold v).tmQueues = d.tmQueues := rfl
@[simp] theorem Device.setTokHold_tmPorts (d : Device) (v : Tbl (List TokenWrite)) : (d.setTokHold v).tmPorts = d.tmPorts := rfl
@[simp] theorem Device.setTokHold_policers (d : Device) (v : Tbl (List TokenWrite)) : (d.setTokHold v).policers = d.policers := rfl
@[simp] theorem Device.setTokHold_blocks (d : Device) (v : Tbl (List TokenWrite)) : (d.setTokHold v).blocks = d.blocks := rfl
@[simp] theorem Device.setTokHold_nvmes (d : Device) (v : Tbl (List TokenWrite)) : (d.setTokHold v).nvmes = d.nvmes := rfl
@[simp] theorem Device.setTokHold_nextNvme (d : Device) (v : Tbl (List TokenWrite)) : (d.setTokHold v).nextNvme = d.nextNvme := rfl
@[simp] theorem Device.setTokHold_stage (d : Device) (v : Tbl (List TokenWrite)) : (d.setTokHold v).stage = d.stage := rfl
@[simp] theorem Device.setTokHold_vaults (d : Device) (v : Tbl (List TokenWrite)) : (d.setTokHold v).vaults = d.vaults := rfl
@[simp] theorem Device.setTokHold_hostReads (d : Device) (v : Tbl (List TokenWrite)) : (d.setTokHold v).hostReads = d.hostReads := rfl
@[simp] theorem Device.setTokHold_link (d : Device) (v : Tbl (List TokenWrite)) : (d.setTokHold v).link = d.link := rfl
@[simp] theorem Device.setTokHold_nextFetch (d : Device) (v : Tbl (List TokenWrite)) : (d.setTokHold v).nextFetch = d.nextFetch := rfl
@[simp] theorem Device.setTokHold_xfers (d : Device) (v : Tbl (List TokenWrite)) : (d.setTokHold v).xfers = d.xfers := rfl
@[simp] theorem Device.setTokHold_queues (d : Device) (v : Tbl (List TokenWrite)) : (d.setTokHold v).queues = d.queues := rfl
@[simp] theorem Device.setTokHold_fetched (d : Device) (v : Tbl (List TokenWrite)) : (d.setTokHold v).fetched = d.fetched := rfl
@[simp] theorem Device.setTokHold_heldW (d : Device) (v : Tbl (List TokenWrite)) : (d.setTokHold v).heldW = d.heldW := rfl
@[simp] theorem Device.setTokHold_cores (d : Device) (v : Tbl (List TokenWrite)) : (d.setTokHold v).cores = d.cores := rfl
@[simp] theorem Device.setTokHold_fw (d : Device) (v : Tbl (List TokenWrite)) : (d.setTokHold v).fw = d.fw := rfl
@[simp] theorem Device.setTokHold_queueMem (d : Device) (v : Tbl (List TokenWrite)) : (d.setTokHold v).queueMem = d.queueMem := rfl
@[simp] theorem Device.setTokHold_wlogs (d : Device) (v : Tbl (List TokenWrite)) : (d.setTokHold v).wlogs = d.wlogs := rfl
@[simp] theorem Device.setTokHold_stores (d : Device) (v : Tbl (List TokenWrite)) : (d.setTokHold v).stores = d.stores := rfl
@[simp] theorem Device.setTokHold_crew (d : Device) (v : Tbl (List TokenWrite)) : (d.setTokHold v).crew = d.crew := rfl
@[simp] theorem Device.setTokHold_belay (d : Device) (v : Tbl (List TokenWrite)) : (d.setTokHold v).belay = d.belay := rfl
@[simp] theorem Device.setTokHold_tel (d : Device) (v : Tbl (List TokenWrite)) : (d.setTokHold v).tel = d.tel := rfl
@[simp] theorem Device.setTokHold_pwr (d : Device) (v : Tbl (List TokenWrite)) : (d.setTokHold v).pwr = d.pwr := rfl
@[simp] theorem Device.setRopes_cfg (d : Device) (v : Tbl RopeCtx) : (d.setRopes v).cfg = d.cfg := rfl
@[simp] theorem Device.setRopes_clk (d : Device) (v : Tbl RopeCtx) : (d.setRopes v).clk = d.clk := rfl
@[simp] theorem Device.setRopes_reg (d : Device) (v : Tbl RopeCtx) : (d.setRopes v).reg = d.reg := rfl
@[simp] theorem Device.setRopes_rings (d : Device) (v : Tbl RopeCtx) : (d.setRopes v).rings = d.rings := rfl
@[simp] theorem Device.setRopes_out (d : Device) (v : Tbl RopeCtx) : (d.setRopes v).out = d.out := rfl
@[simp] theorem Device.setRopes_wr (d : Device) (v : Tbl RopeCtx) : (d.setRopes v).wr = d.wr := rfl
@[simp] theorem Device.setRopes_poison (d : Device) (v : Tbl RopeCtx) : (d.setRopes v).poison = d.poison := rfl
@[simp] theorem Device.setRopes_msix (d : Device) (v : Tbl RopeCtx) : (d.setRopes v).msix = d.msix := rfl
@[simp] theorem Device.setRopes_hold (d : Device) (v : Tbl RopeCtx) : (d.setRopes v).hold = d.hold := rfl
@[simp] theorem Device.setRopes_wave (d : Device) (v : Tbl RopeCtx) : (d.setRopes v).wave = d.wave := rfl
@[simp] theorem Device.setRopes_mbr (d : Device) (v : Tbl RopeCtx) : (d.setRopes v).mbr = d.mbr := rfl
@[simp] theorem Device.setRopes_corrs (d : Device) (v : Tbl RopeCtx) : (d.setRopes v).corrs = d.corrs := rfl
@[simp] theorem Device.setRopes_d2dReplays (d : Device) (v : Tbl RopeCtx) : (d.setRopes v).d2dReplays = d.d2dReplays := rfl
@[simp] theorem Device.setRopes_tiles (d : Device) (v : Tbl RopeCtx) : (d.setRopes v).tiles = d.tiles := rfl
@[simp] theorem Device.setRopes_mesh (d : Device) (v : Tbl RopeCtx) : (d.setRopes v).mesh = d.mesh := rfl
@[simp] theorem Device.setRopes_tokHold (d : Device) (v : Tbl RopeCtx) : (d.setRopes v).tokHold = d.tokHold := rfl
@[simp] theorem Device.setRopes_ropes (d : Device) (v : Tbl RopeCtx) : (d.setRopes v).ropes = v := rfl
@[simp] theorem Device.setRopes_ropeMoved (d : Device) (v : Tbl RopeCtx) : (d.setRopes v).ropeMoved = d.ropeMoved := rfl
@[simp] theorem Device.setRopes_flows (d : Device) (v : Tbl RopeCtx) : (d.setRopes v).flows = d.flows := rfl
@[simp] theorem Device.setRopes_tapQ (d : Device) (v : Tbl RopeCtx) : (d.setRopes v).tapQ = d.tapQ := rfl
@[simp] theorem Device.setRopes_nextFlow (d : Device) (v : Tbl RopeCtx) : (d.setRopes v).nextFlow = d.nextFlow := rfl
@[simp] theorem Device.setRopes_parts (d : Device) (v : Tbl RopeCtx) : (d.setRopes v).parts = d.parts := rfl
@[simp] theorem Device.setRopes_ceLog (d : Device) (v : Tbl RopeCtx) : (d.setRopes v).ceLog = d.ceLog := rfl
@[simp] theorem Device.setRopes_ddrUndef (d : Device) (v : Tbl RopeCtx) : (d.setRopes v).ddrUndef = d.ddrUndef := rfl
@[simp] theorem Device.setRopes_conns (d : Device) (v : Tbl RopeCtx) : (d.setRopes v).conns = d.conns := rfl
@[simp] theorem Device.setRopes_gft (d : Device) (v : Tbl RopeCtx) : (d.setRopes v).gft = d.gft := rfl
@[simp] theorem Device.setRopes_groups (d : Device) (v : Tbl RopeCtx) : (d.setRopes v).groups = d.groups := rfl
@[simp] theorem Device.setRopes_tmWait (d : Device) (v : Tbl RopeCtx) : (d.setRopes v).tmWait = d.tmWait := rfl
@[simp] theorem Device.setRopes_fecBad (d : Device) (v : Tbl RopeCtx) : (d.setRopes v).fecBad = d.fecBad := rfl
@[simp] theorem Device.setRopes_keyTime (d : Device) (v : Tbl RopeCtx) : (d.setRopes v).keyTime = d.keyTime := rfl
@[simp] theorem Device.setRopes_pipeIn (d : Device) (v : Tbl RopeCtx) : (d.setRopes v).pipeIn = d.pipeIn := rfl
@[simp] theorem Device.setRopes_pipes (d : Device) (v : Tbl RopeCtx) : (d.setRopes v).pipes = d.pipes := rfl
@[simp] theorem Device.setRopes_clsSlots (d : Device) (v : Tbl RopeCtx) : (d.setRopes v).clsSlots = d.clsSlots := rfl
@[simp] theorem Device.setRopes_flowCnts (d : Device) (v : Tbl RopeCtx) : (d.setRopes v).flowCnts = d.flowCnts := rfl
@[simp] theorem Device.setRopes_pmeFlows (d : Device) (v : Tbl RopeCtx) : (d.setRopes v).pmeFlows = d.pmeFlows := rfl
@[simp] theorem Device.setRopes_places (d : Device) (v : Tbl RopeCtx) : (d.setRopes v).places = d.places := rfl
@[simp] theorem Device.setRopes_loaded (d : Device) (v : Tbl RopeCtx) : (d.setRopes v).loaded = d.loaded := rfl
@[simp] theorem Device.setRopes_waveEpoch (d : Device) (v : Tbl RopeCtx) : (d.setRopes v).waveEpoch = d.waveEpoch := rfl
@[simp] theorem Device.setRopes_tmQueues (d : Device) (v : Tbl RopeCtx) : (d.setRopes v).tmQueues = d.tmQueues := rfl
@[simp] theorem Device.setRopes_tmPorts (d : Device) (v : Tbl RopeCtx) : (d.setRopes v).tmPorts = d.tmPorts := rfl
@[simp] theorem Device.setRopes_policers (d : Device) (v : Tbl RopeCtx) : (d.setRopes v).policers = d.policers := rfl
@[simp] theorem Device.setRopes_blocks (d : Device) (v : Tbl RopeCtx) : (d.setRopes v).blocks = d.blocks := rfl
@[simp] theorem Device.setRopes_nvmes (d : Device) (v : Tbl RopeCtx) : (d.setRopes v).nvmes = d.nvmes := rfl
@[simp] theorem Device.setRopes_nextNvme (d : Device) (v : Tbl RopeCtx) : (d.setRopes v).nextNvme = d.nextNvme := rfl
@[simp] theorem Device.setRopes_stage (d : Device) (v : Tbl RopeCtx) : (d.setRopes v).stage = d.stage := rfl
@[simp] theorem Device.setRopes_vaults (d : Device) (v : Tbl RopeCtx) : (d.setRopes v).vaults = d.vaults := rfl
@[simp] theorem Device.setRopes_hostReads (d : Device) (v : Tbl RopeCtx) : (d.setRopes v).hostReads = d.hostReads := rfl
@[simp] theorem Device.setRopes_link (d : Device) (v : Tbl RopeCtx) : (d.setRopes v).link = d.link := rfl
@[simp] theorem Device.setRopes_nextFetch (d : Device) (v : Tbl RopeCtx) : (d.setRopes v).nextFetch = d.nextFetch := rfl
@[simp] theorem Device.setRopes_xfers (d : Device) (v : Tbl RopeCtx) : (d.setRopes v).xfers = d.xfers := rfl
@[simp] theorem Device.setRopes_queues (d : Device) (v : Tbl RopeCtx) : (d.setRopes v).queues = d.queues := rfl
@[simp] theorem Device.setRopes_fetched (d : Device) (v : Tbl RopeCtx) : (d.setRopes v).fetched = d.fetched := rfl
@[simp] theorem Device.setRopes_heldW (d : Device) (v : Tbl RopeCtx) : (d.setRopes v).heldW = d.heldW := rfl
@[simp] theorem Device.setRopes_cores (d : Device) (v : Tbl RopeCtx) : (d.setRopes v).cores = d.cores := rfl
@[simp] theorem Device.setRopes_fw (d : Device) (v : Tbl RopeCtx) : (d.setRopes v).fw = d.fw := rfl
@[simp] theorem Device.setRopes_queueMem (d : Device) (v : Tbl RopeCtx) : (d.setRopes v).queueMem = d.queueMem := rfl
@[simp] theorem Device.setRopes_wlogs (d : Device) (v : Tbl RopeCtx) : (d.setRopes v).wlogs = d.wlogs := rfl
@[simp] theorem Device.setRopes_stores (d : Device) (v : Tbl RopeCtx) : (d.setRopes v).stores = d.stores := rfl
@[simp] theorem Device.setRopes_crew (d : Device) (v : Tbl RopeCtx) : (d.setRopes v).crew = d.crew := rfl
@[simp] theorem Device.setRopes_belay (d : Device) (v : Tbl RopeCtx) : (d.setRopes v).belay = d.belay := rfl
@[simp] theorem Device.setRopes_tel (d : Device) (v : Tbl RopeCtx) : (d.setRopes v).tel = d.tel := rfl
@[simp] theorem Device.setRopes_pwr (d : Device) (v : Tbl RopeCtx) : (d.setRopes v).pwr = d.pwr := rfl
@[simp] theorem Device.setRopeMoved_cfg (d : Device) (v : Tbl Nat) : (d.setRopeMoved v).cfg = d.cfg := rfl
@[simp] theorem Device.setRopeMoved_clk (d : Device) (v : Tbl Nat) : (d.setRopeMoved v).clk = d.clk := rfl
@[simp] theorem Device.setRopeMoved_reg (d : Device) (v : Tbl Nat) : (d.setRopeMoved v).reg = d.reg := rfl
@[simp] theorem Device.setRopeMoved_rings (d : Device) (v : Tbl Nat) : (d.setRopeMoved v).rings = d.rings := rfl
@[simp] theorem Device.setRopeMoved_out (d : Device) (v : Tbl Nat) : (d.setRopeMoved v).out = d.out := rfl
@[simp] theorem Device.setRopeMoved_wr (d : Device) (v : Tbl Nat) : (d.setRopeMoved v).wr = d.wr := rfl
@[simp] theorem Device.setRopeMoved_poison (d : Device) (v : Tbl Nat) : (d.setRopeMoved v).poison = d.poison := rfl
@[simp] theorem Device.setRopeMoved_msix (d : Device) (v : Tbl Nat) : (d.setRopeMoved v).msix = d.msix := rfl
@[simp] theorem Device.setRopeMoved_hold (d : Device) (v : Tbl Nat) : (d.setRopeMoved v).hold = d.hold := rfl
@[simp] theorem Device.setRopeMoved_wave (d : Device) (v : Tbl Nat) : (d.setRopeMoved v).wave = d.wave := rfl
@[simp] theorem Device.setRopeMoved_mbr (d : Device) (v : Tbl Nat) : (d.setRopeMoved v).mbr = d.mbr := rfl
@[simp] theorem Device.setRopeMoved_corrs (d : Device) (v : Tbl Nat) : (d.setRopeMoved v).corrs = d.corrs := rfl
@[simp] theorem Device.setRopeMoved_d2dReplays (d : Device) (v : Tbl Nat) : (d.setRopeMoved v).d2dReplays = d.d2dReplays := rfl
@[simp] theorem Device.setRopeMoved_tiles (d : Device) (v : Tbl Nat) : (d.setRopeMoved v).tiles = d.tiles := rfl
@[simp] theorem Device.setRopeMoved_mesh (d : Device) (v : Tbl Nat) : (d.setRopeMoved v).mesh = d.mesh := rfl
@[simp] theorem Device.setRopeMoved_tokHold (d : Device) (v : Tbl Nat) : (d.setRopeMoved v).tokHold = d.tokHold := rfl
@[simp] theorem Device.setRopeMoved_ropes (d : Device) (v : Tbl Nat) : (d.setRopeMoved v).ropes = d.ropes := rfl
@[simp] theorem Device.setRopeMoved_ropeMoved (d : Device) (v : Tbl Nat) : (d.setRopeMoved v).ropeMoved = v := rfl
@[simp] theorem Device.setRopeMoved_flows (d : Device) (v : Tbl Nat) : (d.setRopeMoved v).flows = d.flows := rfl
@[simp] theorem Device.setRopeMoved_tapQ (d : Device) (v : Tbl Nat) : (d.setRopeMoved v).tapQ = d.tapQ := rfl
@[simp] theorem Device.setRopeMoved_nextFlow (d : Device) (v : Tbl Nat) : (d.setRopeMoved v).nextFlow = d.nextFlow := rfl
@[simp] theorem Device.setRopeMoved_parts (d : Device) (v : Tbl Nat) : (d.setRopeMoved v).parts = d.parts := rfl
@[simp] theorem Device.setRopeMoved_ceLog (d : Device) (v : Tbl Nat) : (d.setRopeMoved v).ceLog = d.ceLog := rfl
@[simp] theorem Device.setRopeMoved_ddrUndef (d : Device) (v : Tbl Nat) : (d.setRopeMoved v).ddrUndef = d.ddrUndef := rfl
@[simp] theorem Device.setRopeMoved_conns (d : Device) (v : Tbl Nat) : (d.setRopeMoved v).conns = d.conns := rfl
@[simp] theorem Device.setRopeMoved_gft (d : Device) (v : Tbl Nat) : (d.setRopeMoved v).gft = d.gft := rfl
@[simp] theorem Device.setRopeMoved_groups (d : Device) (v : Tbl Nat) : (d.setRopeMoved v).groups = d.groups := rfl
@[simp] theorem Device.setRopeMoved_tmWait (d : Device) (v : Tbl Nat) : (d.setRopeMoved v).tmWait = d.tmWait := rfl
@[simp] theorem Device.setRopeMoved_fecBad (d : Device) (v : Tbl Nat) : (d.setRopeMoved v).fecBad = d.fecBad := rfl
@[simp] theorem Device.setRopeMoved_keyTime (d : Device) (v : Tbl Nat) : (d.setRopeMoved v).keyTime = d.keyTime := rfl
@[simp] theorem Device.setRopeMoved_pipeIn (d : Device) (v : Tbl Nat) : (d.setRopeMoved v).pipeIn = d.pipeIn := rfl
@[simp] theorem Device.setRopeMoved_pipes (d : Device) (v : Tbl Nat) : (d.setRopeMoved v).pipes = d.pipes := rfl
@[simp] theorem Device.setRopeMoved_clsSlots (d : Device) (v : Tbl Nat) : (d.setRopeMoved v).clsSlots = d.clsSlots := rfl
@[simp] theorem Device.setRopeMoved_flowCnts (d : Device) (v : Tbl Nat) : (d.setRopeMoved v).flowCnts = d.flowCnts := rfl
@[simp] theorem Device.setRopeMoved_pmeFlows (d : Device) (v : Tbl Nat) : (d.setRopeMoved v).pmeFlows = d.pmeFlows := rfl
@[simp] theorem Device.setRopeMoved_places (d : Device) (v : Tbl Nat) : (d.setRopeMoved v).places = d.places := rfl
@[simp] theorem Device.setRopeMoved_loaded (d : Device) (v : Tbl Nat) : (d.setRopeMoved v).loaded = d.loaded := rfl
@[simp] theorem Device.setRopeMoved_waveEpoch (d : Device) (v : Tbl Nat) : (d.setRopeMoved v).waveEpoch = d.waveEpoch := rfl
@[simp] theorem Device.setRopeMoved_tmQueues (d : Device) (v : Tbl Nat) : (d.setRopeMoved v).tmQueues = d.tmQueues := rfl
@[simp] theorem Device.setRopeMoved_tmPorts (d : Device) (v : Tbl Nat) : (d.setRopeMoved v).tmPorts = d.tmPorts := rfl
@[simp] theorem Device.setRopeMoved_policers (d : Device) (v : Tbl Nat) : (d.setRopeMoved v).policers = d.policers := rfl
@[simp] theorem Device.setRopeMoved_blocks (d : Device) (v : Tbl Nat) : (d.setRopeMoved v).blocks = d.blocks := rfl
@[simp] theorem Device.setRopeMoved_nvmes (d : Device) (v : Tbl Nat) : (d.setRopeMoved v).nvmes = d.nvmes := rfl
@[simp] theorem Device.setRopeMoved_nextNvme (d : Device) (v : Tbl Nat) : (d.setRopeMoved v).nextNvme = d.nextNvme := rfl
@[simp] theorem Device.setRopeMoved_stage (d : Device) (v : Tbl Nat) : (d.setRopeMoved v).stage = d.stage := rfl
@[simp] theorem Device.setRopeMoved_vaults (d : Device) (v : Tbl Nat) : (d.setRopeMoved v).vaults = d.vaults := rfl
@[simp] theorem Device.setRopeMoved_hostReads (d : Device) (v : Tbl Nat) : (d.setRopeMoved v).hostReads = d.hostReads := rfl
@[simp] theorem Device.setRopeMoved_link (d : Device) (v : Tbl Nat) : (d.setRopeMoved v).link = d.link := rfl
@[simp] theorem Device.setRopeMoved_nextFetch (d : Device) (v : Tbl Nat) : (d.setRopeMoved v).nextFetch = d.nextFetch := rfl
@[simp] theorem Device.setRopeMoved_xfers (d : Device) (v : Tbl Nat) : (d.setRopeMoved v).xfers = d.xfers := rfl
@[simp] theorem Device.setRopeMoved_queues (d : Device) (v : Tbl Nat) : (d.setRopeMoved v).queues = d.queues := rfl
@[simp] theorem Device.setRopeMoved_fetched (d : Device) (v : Tbl Nat) : (d.setRopeMoved v).fetched = d.fetched := rfl
@[simp] theorem Device.setRopeMoved_heldW (d : Device) (v : Tbl Nat) : (d.setRopeMoved v).heldW = d.heldW := rfl
@[simp] theorem Device.setRopeMoved_cores (d : Device) (v : Tbl Nat) : (d.setRopeMoved v).cores = d.cores := rfl
@[simp] theorem Device.setRopeMoved_fw (d : Device) (v : Tbl Nat) : (d.setRopeMoved v).fw = d.fw := rfl
@[simp] theorem Device.setRopeMoved_queueMem (d : Device) (v : Tbl Nat) : (d.setRopeMoved v).queueMem = d.queueMem := rfl
@[simp] theorem Device.setRopeMoved_wlogs (d : Device) (v : Tbl Nat) : (d.setRopeMoved v).wlogs = d.wlogs := rfl
@[simp] theorem Device.setRopeMoved_stores (d : Device) (v : Tbl Nat) : (d.setRopeMoved v).stores = d.stores := rfl
@[simp] theorem Device.setRopeMoved_crew (d : Device) (v : Tbl Nat) : (d.setRopeMoved v).crew = d.crew := rfl
@[simp] theorem Device.setRopeMoved_belay (d : Device) (v : Tbl Nat) : (d.setRopeMoved v).belay = d.belay := rfl
@[simp] theorem Device.setRopeMoved_tel (d : Device) (v : Tbl Nat) : (d.setRopeMoved v).tel = d.tel := rfl
@[simp] theorem Device.setRopeMoved_pwr (d : Device) (v : Tbl Nat) : (d.setRopeMoved v).pwr = d.pwr := rfl
@[simp] theorem Device.setFlows_cfg (d : Device) (v : Tbl Flow) : (d.setFlows v).cfg = d.cfg := rfl
@[simp] theorem Device.setFlows_clk (d : Device) (v : Tbl Flow) : (d.setFlows v).clk = d.clk := rfl
@[simp] theorem Device.setFlows_reg (d : Device) (v : Tbl Flow) : (d.setFlows v).reg = d.reg := rfl
@[simp] theorem Device.setFlows_rings (d : Device) (v : Tbl Flow) : (d.setFlows v).rings = d.rings := rfl
@[simp] theorem Device.setFlows_out (d : Device) (v : Tbl Flow) : (d.setFlows v).out = d.out := rfl
@[simp] theorem Device.setFlows_wr (d : Device) (v : Tbl Flow) : (d.setFlows v).wr = d.wr := rfl
@[simp] theorem Device.setFlows_poison (d : Device) (v : Tbl Flow) : (d.setFlows v).poison = d.poison := rfl
@[simp] theorem Device.setFlows_msix (d : Device) (v : Tbl Flow) : (d.setFlows v).msix = d.msix := rfl
@[simp] theorem Device.setFlows_hold (d : Device) (v : Tbl Flow) : (d.setFlows v).hold = d.hold := rfl
@[simp] theorem Device.setFlows_wave (d : Device) (v : Tbl Flow) : (d.setFlows v).wave = d.wave := rfl
@[simp] theorem Device.setFlows_mbr (d : Device) (v : Tbl Flow) : (d.setFlows v).mbr = d.mbr := rfl
@[simp] theorem Device.setFlows_corrs (d : Device) (v : Tbl Flow) : (d.setFlows v).corrs = d.corrs := rfl
@[simp] theorem Device.setFlows_d2dReplays (d : Device) (v : Tbl Flow) : (d.setFlows v).d2dReplays = d.d2dReplays := rfl
@[simp] theorem Device.setFlows_tiles (d : Device) (v : Tbl Flow) : (d.setFlows v).tiles = d.tiles := rfl
@[simp] theorem Device.setFlows_mesh (d : Device) (v : Tbl Flow) : (d.setFlows v).mesh = d.mesh := rfl
@[simp] theorem Device.setFlows_tokHold (d : Device) (v : Tbl Flow) : (d.setFlows v).tokHold = d.tokHold := rfl
@[simp] theorem Device.setFlows_ropes (d : Device) (v : Tbl Flow) : (d.setFlows v).ropes = d.ropes := rfl
@[simp] theorem Device.setFlows_ropeMoved (d : Device) (v : Tbl Flow) : (d.setFlows v).ropeMoved = d.ropeMoved := rfl
@[simp] theorem Device.setFlows_flows (d : Device) (v : Tbl Flow) : (d.setFlows v).flows = v := rfl
@[simp] theorem Device.setFlows_tapQ (d : Device) (v : Tbl Flow) : (d.setFlows v).tapQ = d.tapQ := rfl
@[simp] theorem Device.setFlows_nextFlow (d : Device) (v : Tbl Flow) : (d.setFlows v).nextFlow = d.nextFlow := rfl
@[simp] theorem Device.setFlows_parts (d : Device) (v : Tbl Flow) : (d.setFlows v).parts = d.parts := rfl
@[simp] theorem Device.setFlows_ceLog (d : Device) (v : Tbl Flow) : (d.setFlows v).ceLog = d.ceLog := rfl
@[simp] theorem Device.setFlows_ddrUndef (d : Device) (v : Tbl Flow) : (d.setFlows v).ddrUndef = d.ddrUndef := rfl
@[simp] theorem Device.setFlows_conns (d : Device) (v : Tbl Flow) : (d.setFlows v).conns = d.conns := rfl
@[simp] theorem Device.setFlows_gft (d : Device) (v : Tbl Flow) : (d.setFlows v).gft = d.gft := rfl
@[simp] theorem Device.setFlows_groups (d : Device) (v : Tbl Flow) : (d.setFlows v).groups = d.groups := rfl
@[simp] theorem Device.setFlows_tmWait (d : Device) (v : Tbl Flow) : (d.setFlows v).tmWait = d.tmWait := rfl
@[simp] theorem Device.setFlows_fecBad (d : Device) (v : Tbl Flow) : (d.setFlows v).fecBad = d.fecBad := rfl
@[simp] theorem Device.setFlows_keyTime (d : Device) (v : Tbl Flow) : (d.setFlows v).keyTime = d.keyTime := rfl
@[simp] theorem Device.setFlows_pipeIn (d : Device) (v : Tbl Flow) : (d.setFlows v).pipeIn = d.pipeIn := rfl
@[simp] theorem Device.setFlows_pipes (d : Device) (v : Tbl Flow) : (d.setFlows v).pipes = d.pipes := rfl
@[simp] theorem Device.setFlows_clsSlots (d : Device) (v : Tbl Flow) : (d.setFlows v).clsSlots = d.clsSlots := rfl
@[simp] theorem Device.setFlows_flowCnts (d : Device) (v : Tbl Flow) : (d.setFlows v).flowCnts = d.flowCnts := rfl
@[simp] theorem Device.setFlows_pmeFlows (d : Device) (v : Tbl Flow) : (d.setFlows v).pmeFlows = d.pmeFlows := rfl
@[simp] theorem Device.setFlows_places (d : Device) (v : Tbl Flow) : (d.setFlows v).places = d.places := rfl
@[simp] theorem Device.setFlows_loaded (d : Device) (v : Tbl Flow) : (d.setFlows v).loaded = d.loaded := rfl
@[simp] theorem Device.setFlows_waveEpoch (d : Device) (v : Tbl Flow) : (d.setFlows v).waveEpoch = d.waveEpoch := rfl
@[simp] theorem Device.setFlows_tmQueues (d : Device) (v : Tbl Flow) : (d.setFlows v).tmQueues = d.tmQueues := rfl
@[simp] theorem Device.setFlows_tmPorts (d : Device) (v : Tbl Flow) : (d.setFlows v).tmPorts = d.tmPorts := rfl
@[simp] theorem Device.setFlows_policers (d : Device) (v : Tbl Flow) : (d.setFlows v).policers = d.policers := rfl
@[simp] theorem Device.setFlows_blocks (d : Device) (v : Tbl Flow) : (d.setFlows v).blocks = d.blocks := rfl
@[simp] theorem Device.setFlows_nvmes (d : Device) (v : Tbl Flow) : (d.setFlows v).nvmes = d.nvmes := rfl
@[simp] theorem Device.setFlows_nextNvme (d : Device) (v : Tbl Flow) : (d.setFlows v).nextNvme = d.nextNvme := rfl
@[simp] theorem Device.setFlows_stage (d : Device) (v : Tbl Flow) : (d.setFlows v).stage = d.stage := rfl
@[simp] theorem Device.setFlows_vaults (d : Device) (v : Tbl Flow) : (d.setFlows v).vaults = d.vaults := rfl
@[simp] theorem Device.setFlows_hostReads (d : Device) (v : Tbl Flow) : (d.setFlows v).hostReads = d.hostReads := rfl
@[simp] theorem Device.setFlows_link (d : Device) (v : Tbl Flow) : (d.setFlows v).link = d.link := rfl
@[simp] theorem Device.setFlows_nextFetch (d : Device) (v : Tbl Flow) : (d.setFlows v).nextFetch = d.nextFetch := rfl
@[simp] theorem Device.setFlows_xfers (d : Device) (v : Tbl Flow) : (d.setFlows v).xfers = d.xfers := rfl
@[simp] theorem Device.setFlows_queues (d : Device) (v : Tbl Flow) : (d.setFlows v).queues = d.queues := rfl
@[simp] theorem Device.setFlows_fetched (d : Device) (v : Tbl Flow) : (d.setFlows v).fetched = d.fetched := rfl
@[simp] theorem Device.setFlows_heldW (d : Device) (v : Tbl Flow) : (d.setFlows v).heldW = d.heldW := rfl
@[simp] theorem Device.setFlows_cores (d : Device) (v : Tbl Flow) : (d.setFlows v).cores = d.cores := rfl
@[simp] theorem Device.setFlows_fw (d : Device) (v : Tbl Flow) : (d.setFlows v).fw = d.fw := rfl
@[simp] theorem Device.setFlows_queueMem (d : Device) (v : Tbl Flow) : (d.setFlows v).queueMem = d.queueMem := rfl
@[simp] theorem Device.setFlows_wlogs (d : Device) (v : Tbl Flow) : (d.setFlows v).wlogs = d.wlogs := rfl
@[simp] theorem Device.setFlows_stores (d : Device) (v : Tbl Flow) : (d.setFlows v).stores = d.stores := rfl
@[simp] theorem Device.setFlows_crew (d : Device) (v : Tbl Flow) : (d.setFlows v).crew = d.crew := rfl
@[simp] theorem Device.setFlows_belay (d : Device) (v : Tbl Flow) : (d.setFlows v).belay = d.belay := rfl
@[simp] theorem Device.setFlows_tel (d : Device) (v : Tbl Flow) : (d.setFlows v).tel = d.tel := rfl
@[simp] theorem Device.setFlows_pwr (d : Device) (v : Tbl Flow) : (d.setFlows v).pwr = d.pwr := rfl
@[simp] theorem Device.setTapQ_cfg (d : Device) (v : List TapDel) : (d.setTapQ v).cfg = d.cfg := rfl
@[simp] theorem Device.setTapQ_clk (d : Device) (v : List TapDel) : (d.setTapQ v).clk = d.clk := rfl
@[simp] theorem Device.setTapQ_reg (d : Device) (v : List TapDel) : (d.setTapQ v).reg = d.reg := rfl
@[simp] theorem Device.setTapQ_rings (d : Device) (v : List TapDel) : (d.setTapQ v).rings = d.rings := rfl
@[simp] theorem Device.setTapQ_out (d : Device) (v : List TapDel) : (d.setTapQ v).out = d.out := rfl
@[simp] theorem Device.setTapQ_wr (d : Device) (v : List TapDel) : (d.setTapQ v).wr = d.wr := rfl
@[simp] theorem Device.setTapQ_poison (d : Device) (v : List TapDel) : (d.setTapQ v).poison = d.poison := rfl
@[simp] theorem Device.setTapQ_msix (d : Device) (v : List TapDel) : (d.setTapQ v).msix = d.msix := rfl
@[simp] theorem Device.setTapQ_hold (d : Device) (v : List TapDel) : (d.setTapQ v).hold = d.hold := rfl
@[simp] theorem Device.setTapQ_wave (d : Device) (v : List TapDel) : (d.setTapQ v).wave = d.wave := rfl
@[simp] theorem Device.setTapQ_mbr (d : Device) (v : List TapDel) : (d.setTapQ v).mbr = d.mbr := rfl
@[simp] theorem Device.setTapQ_corrs (d : Device) (v : List TapDel) : (d.setTapQ v).corrs = d.corrs := rfl
@[simp] theorem Device.setTapQ_d2dReplays (d : Device) (v : List TapDel) : (d.setTapQ v).d2dReplays = d.d2dReplays := rfl
@[simp] theorem Device.setTapQ_tiles (d : Device) (v : List TapDel) : (d.setTapQ v).tiles = d.tiles := rfl
@[simp] theorem Device.setTapQ_mesh (d : Device) (v : List TapDel) : (d.setTapQ v).mesh = d.mesh := rfl
@[simp] theorem Device.setTapQ_tokHold (d : Device) (v : List TapDel) : (d.setTapQ v).tokHold = d.tokHold := rfl
@[simp] theorem Device.setTapQ_ropes (d : Device) (v : List TapDel) : (d.setTapQ v).ropes = d.ropes := rfl
@[simp] theorem Device.setTapQ_ropeMoved (d : Device) (v : List TapDel) : (d.setTapQ v).ropeMoved = d.ropeMoved := rfl
@[simp] theorem Device.setTapQ_flows (d : Device) (v : List TapDel) : (d.setTapQ v).flows = d.flows := rfl
@[simp] theorem Device.setTapQ_tapQ (d : Device) (v : List TapDel) : (d.setTapQ v).tapQ = v := rfl
@[simp] theorem Device.setTapQ_nextFlow (d : Device) (v : List TapDel) : (d.setTapQ v).nextFlow = d.nextFlow := rfl
@[simp] theorem Device.setTapQ_parts (d : Device) (v : List TapDel) : (d.setTapQ v).parts = d.parts := rfl
@[simp] theorem Device.setTapQ_ceLog (d : Device) (v : List TapDel) : (d.setTapQ v).ceLog = d.ceLog := rfl
@[simp] theorem Device.setTapQ_ddrUndef (d : Device) (v : List TapDel) : (d.setTapQ v).ddrUndef = d.ddrUndef := rfl
@[simp] theorem Device.setTapQ_conns (d : Device) (v : List TapDel) : (d.setTapQ v).conns = d.conns := rfl
@[simp] theorem Device.setTapQ_gft (d : Device) (v : List TapDel) : (d.setTapQ v).gft = d.gft := rfl
@[simp] theorem Device.setTapQ_groups (d : Device) (v : List TapDel) : (d.setTapQ v).groups = d.groups := rfl
@[simp] theorem Device.setTapQ_tmWait (d : Device) (v : List TapDel) : (d.setTapQ v).tmWait = d.tmWait := rfl
@[simp] theorem Device.setTapQ_fecBad (d : Device) (v : List TapDel) : (d.setTapQ v).fecBad = d.fecBad := rfl
@[simp] theorem Device.setTapQ_keyTime (d : Device) (v : List TapDel) : (d.setTapQ v).keyTime = d.keyTime := rfl
@[simp] theorem Device.setTapQ_pipeIn (d : Device) (v : List TapDel) : (d.setTapQ v).pipeIn = d.pipeIn := rfl
@[simp] theorem Device.setTapQ_pipes (d : Device) (v : List TapDel) : (d.setTapQ v).pipes = d.pipes := rfl
@[simp] theorem Device.setTapQ_clsSlots (d : Device) (v : List TapDel) : (d.setTapQ v).clsSlots = d.clsSlots := rfl
@[simp] theorem Device.setTapQ_flowCnts (d : Device) (v : List TapDel) : (d.setTapQ v).flowCnts = d.flowCnts := rfl
@[simp] theorem Device.setTapQ_pmeFlows (d : Device) (v : List TapDel) : (d.setTapQ v).pmeFlows = d.pmeFlows := rfl
@[simp] theorem Device.setTapQ_places (d : Device) (v : List TapDel) : (d.setTapQ v).places = d.places := rfl
@[simp] theorem Device.setTapQ_loaded (d : Device) (v : List TapDel) : (d.setTapQ v).loaded = d.loaded := rfl
@[simp] theorem Device.setTapQ_waveEpoch (d : Device) (v : List TapDel) : (d.setTapQ v).waveEpoch = d.waveEpoch := rfl
@[simp] theorem Device.setTapQ_tmQueues (d : Device) (v : List TapDel) : (d.setTapQ v).tmQueues = d.tmQueues := rfl
@[simp] theorem Device.setTapQ_tmPorts (d : Device) (v : List TapDel) : (d.setTapQ v).tmPorts = d.tmPorts := rfl
@[simp] theorem Device.setTapQ_policers (d : Device) (v : List TapDel) : (d.setTapQ v).policers = d.policers := rfl
@[simp] theorem Device.setTapQ_blocks (d : Device) (v : List TapDel) : (d.setTapQ v).blocks = d.blocks := rfl
@[simp] theorem Device.setTapQ_nvmes (d : Device) (v : List TapDel) : (d.setTapQ v).nvmes = d.nvmes := rfl
@[simp] theorem Device.setTapQ_nextNvme (d : Device) (v : List TapDel) : (d.setTapQ v).nextNvme = d.nextNvme := rfl
@[simp] theorem Device.setTapQ_stage (d : Device) (v : List TapDel) : (d.setTapQ v).stage = d.stage := rfl
@[simp] theorem Device.setTapQ_vaults (d : Device) (v : List TapDel) : (d.setTapQ v).vaults = d.vaults := rfl
@[simp] theorem Device.setTapQ_hostReads (d : Device) (v : List TapDel) : (d.setTapQ v).hostReads = d.hostReads := rfl
@[simp] theorem Device.setTapQ_link (d : Device) (v : List TapDel) : (d.setTapQ v).link = d.link := rfl
@[simp] theorem Device.setTapQ_nextFetch (d : Device) (v : List TapDel) : (d.setTapQ v).nextFetch = d.nextFetch := rfl
@[simp] theorem Device.setTapQ_xfers (d : Device) (v : List TapDel) : (d.setTapQ v).xfers = d.xfers := rfl
@[simp] theorem Device.setTapQ_queues (d : Device) (v : List TapDel) : (d.setTapQ v).queues = d.queues := rfl
@[simp] theorem Device.setTapQ_fetched (d : Device) (v : List TapDel) : (d.setTapQ v).fetched = d.fetched := rfl
@[simp] theorem Device.setTapQ_heldW (d : Device) (v : List TapDel) : (d.setTapQ v).heldW = d.heldW := rfl
@[simp] theorem Device.setTapQ_cores (d : Device) (v : List TapDel) : (d.setTapQ v).cores = d.cores := rfl
@[simp] theorem Device.setTapQ_fw (d : Device) (v : List TapDel) : (d.setTapQ v).fw = d.fw := rfl
@[simp] theorem Device.setTapQ_queueMem (d : Device) (v : List TapDel) : (d.setTapQ v).queueMem = d.queueMem := rfl
@[simp] theorem Device.setTapQ_wlogs (d : Device) (v : List TapDel) : (d.setTapQ v).wlogs = d.wlogs := rfl
@[simp] theorem Device.setTapQ_stores (d : Device) (v : List TapDel) : (d.setTapQ v).stores = d.stores := rfl
@[simp] theorem Device.setTapQ_crew (d : Device) (v : List TapDel) : (d.setTapQ v).crew = d.crew := rfl
@[simp] theorem Device.setTapQ_belay (d : Device) (v : List TapDel) : (d.setTapQ v).belay = d.belay := rfl
@[simp] theorem Device.setTapQ_tel (d : Device) (v : List TapDel) : (d.setTapQ v).tel = d.tel := rfl
@[simp] theorem Device.setTapQ_pwr (d : Device) (v : List TapDel) : (d.setTapQ v).pwr = d.pwr := rfl
@[simp] theorem Device.setNextFlow_cfg (d : Device) (v : Nat) : (d.setNextFlow v).cfg = d.cfg := rfl
@[simp] theorem Device.setNextFlow_clk (d : Device) (v : Nat) : (d.setNextFlow v).clk = d.clk := rfl
@[simp] theorem Device.setNextFlow_reg (d : Device) (v : Nat) : (d.setNextFlow v).reg = d.reg := rfl
@[simp] theorem Device.setNextFlow_rings (d : Device) (v : Nat) : (d.setNextFlow v).rings = d.rings := rfl
@[simp] theorem Device.setNextFlow_out (d : Device) (v : Nat) : (d.setNextFlow v).out = d.out := rfl
@[simp] theorem Device.setNextFlow_wr (d : Device) (v : Nat) : (d.setNextFlow v).wr = d.wr := rfl
@[simp] theorem Device.setNextFlow_poison (d : Device) (v : Nat) : (d.setNextFlow v).poison = d.poison := rfl
@[simp] theorem Device.setNextFlow_msix (d : Device) (v : Nat) : (d.setNextFlow v).msix = d.msix := rfl
@[simp] theorem Device.setNextFlow_hold (d : Device) (v : Nat) : (d.setNextFlow v).hold = d.hold := rfl
@[simp] theorem Device.setNextFlow_wave (d : Device) (v : Nat) : (d.setNextFlow v).wave = d.wave := rfl
@[simp] theorem Device.setNextFlow_mbr (d : Device) (v : Nat) : (d.setNextFlow v).mbr = d.mbr := rfl
@[simp] theorem Device.setNextFlow_corrs (d : Device) (v : Nat) : (d.setNextFlow v).corrs = d.corrs := rfl
@[simp] theorem Device.setNextFlow_d2dReplays (d : Device) (v : Nat) : (d.setNextFlow v).d2dReplays = d.d2dReplays := rfl
@[simp] theorem Device.setNextFlow_tiles (d : Device) (v : Nat) : (d.setNextFlow v).tiles = d.tiles := rfl
@[simp] theorem Device.setNextFlow_mesh (d : Device) (v : Nat) : (d.setNextFlow v).mesh = d.mesh := rfl
@[simp] theorem Device.setNextFlow_tokHold (d : Device) (v : Nat) : (d.setNextFlow v).tokHold = d.tokHold := rfl
@[simp] theorem Device.setNextFlow_ropes (d : Device) (v : Nat) : (d.setNextFlow v).ropes = d.ropes := rfl
@[simp] theorem Device.setNextFlow_ropeMoved (d : Device) (v : Nat) : (d.setNextFlow v).ropeMoved = d.ropeMoved := rfl
@[simp] theorem Device.setNextFlow_flows (d : Device) (v : Nat) : (d.setNextFlow v).flows = d.flows := rfl
@[simp] theorem Device.setNextFlow_tapQ (d : Device) (v : Nat) : (d.setNextFlow v).tapQ = d.tapQ := rfl
@[simp] theorem Device.setNextFlow_nextFlow (d : Device) (v : Nat) : (d.setNextFlow v).nextFlow = v := rfl
@[simp] theorem Device.setNextFlow_parts (d : Device) (v : Nat) : (d.setNextFlow v).parts = d.parts := rfl
@[simp] theorem Device.setNextFlow_ceLog (d : Device) (v : Nat) : (d.setNextFlow v).ceLog = d.ceLog := rfl
@[simp] theorem Device.setNextFlow_ddrUndef (d : Device) (v : Nat) : (d.setNextFlow v).ddrUndef = d.ddrUndef := rfl
@[simp] theorem Device.setNextFlow_conns (d : Device) (v : Nat) : (d.setNextFlow v).conns = d.conns := rfl
@[simp] theorem Device.setNextFlow_gft (d : Device) (v : Nat) : (d.setNextFlow v).gft = d.gft := rfl
@[simp] theorem Device.setNextFlow_groups (d : Device) (v : Nat) : (d.setNextFlow v).groups = d.groups := rfl
@[simp] theorem Device.setNextFlow_tmWait (d : Device) (v : Nat) : (d.setNextFlow v).tmWait = d.tmWait := rfl
@[simp] theorem Device.setNextFlow_fecBad (d : Device) (v : Nat) : (d.setNextFlow v).fecBad = d.fecBad := rfl
@[simp] theorem Device.setNextFlow_keyTime (d : Device) (v : Nat) : (d.setNextFlow v).keyTime = d.keyTime := rfl
@[simp] theorem Device.setNextFlow_pipeIn (d : Device) (v : Nat) : (d.setNextFlow v).pipeIn = d.pipeIn := rfl
@[simp] theorem Device.setNextFlow_pipes (d : Device) (v : Nat) : (d.setNextFlow v).pipes = d.pipes := rfl
@[simp] theorem Device.setNextFlow_clsSlots (d : Device) (v : Nat) : (d.setNextFlow v).clsSlots = d.clsSlots := rfl
@[simp] theorem Device.setNextFlow_flowCnts (d : Device) (v : Nat) : (d.setNextFlow v).flowCnts = d.flowCnts := rfl
@[simp] theorem Device.setNextFlow_pmeFlows (d : Device) (v : Nat) : (d.setNextFlow v).pmeFlows = d.pmeFlows := rfl
@[simp] theorem Device.setNextFlow_places (d : Device) (v : Nat) : (d.setNextFlow v).places = d.places := rfl
@[simp] theorem Device.setNextFlow_loaded (d : Device) (v : Nat) : (d.setNextFlow v).loaded = d.loaded := rfl
@[simp] theorem Device.setNextFlow_waveEpoch (d : Device) (v : Nat) : (d.setNextFlow v).waveEpoch = d.waveEpoch := rfl
@[simp] theorem Device.setNextFlow_tmQueues (d : Device) (v : Nat) : (d.setNextFlow v).tmQueues = d.tmQueues := rfl
@[simp] theorem Device.setNextFlow_tmPorts (d : Device) (v : Nat) : (d.setNextFlow v).tmPorts = d.tmPorts := rfl
@[simp] theorem Device.setNextFlow_policers (d : Device) (v : Nat) : (d.setNextFlow v).policers = d.policers := rfl
@[simp] theorem Device.setNextFlow_blocks (d : Device) (v : Nat) : (d.setNextFlow v).blocks = d.blocks := rfl
@[simp] theorem Device.setNextFlow_nvmes (d : Device) (v : Nat) : (d.setNextFlow v).nvmes = d.nvmes := rfl
@[simp] theorem Device.setNextFlow_nextNvme (d : Device) (v : Nat) : (d.setNextFlow v).nextNvme = d.nextNvme := rfl
@[simp] theorem Device.setNextFlow_stage (d : Device) (v : Nat) : (d.setNextFlow v).stage = d.stage := rfl
@[simp] theorem Device.setNextFlow_vaults (d : Device) (v : Nat) : (d.setNextFlow v).vaults = d.vaults := rfl
@[simp] theorem Device.setNextFlow_hostReads (d : Device) (v : Nat) : (d.setNextFlow v).hostReads = d.hostReads := rfl
@[simp] theorem Device.setNextFlow_link (d : Device) (v : Nat) : (d.setNextFlow v).link = d.link := rfl
@[simp] theorem Device.setNextFlow_nextFetch (d : Device) (v : Nat) : (d.setNextFlow v).nextFetch = d.nextFetch := rfl
@[simp] theorem Device.setNextFlow_xfers (d : Device) (v : Nat) : (d.setNextFlow v).xfers = d.xfers := rfl
@[simp] theorem Device.setNextFlow_queues (d : Device) (v : Nat) : (d.setNextFlow v).queues = d.queues := rfl
@[simp] theorem Device.setNextFlow_fetched (d : Device) (v : Nat) : (d.setNextFlow v).fetched = d.fetched := rfl
@[simp] theorem Device.setNextFlow_heldW (d : Device) (v : Nat) : (d.setNextFlow v).heldW = d.heldW := rfl
@[simp] theorem Device.setNextFlow_cores (d : Device) (v : Nat) : (d.setNextFlow v).cores = d.cores := rfl
@[simp] theorem Device.setNextFlow_fw (d : Device) (v : Nat) : (d.setNextFlow v).fw = d.fw := rfl
@[simp] theorem Device.setNextFlow_queueMem (d : Device) (v : Nat) : (d.setNextFlow v).queueMem = d.queueMem := rfl
@[simp] theorem Device.setNextFlow_wlogs (d : Device) (v : Nat) : (d.setNextFlow v).wlogs = d.wlogs := rfl
@[simp] theorem Device.setNextFlow_stores (d : Device) (v : Nat) : (d.setNextFlow v).stores = d.stores := rfl
@[simp] theorem Device.setNextFlow_crew (d : Device) (v : Nat) : (d.setNextFlow v).crew = d.crew := rfl
@[simp] theorem Device.setNextFlow_belay (d : Device) (v : Nat) : (d.setNextFlow v).belay = d.belay := rfl
@[simp] theorem Device.setNextFlow_tel (d : Device) (v : Nat) : (d.setNextFlow v).tel = d.tel := rfl
@[simp] theorem Device.setNextFlow_pwr (d : Device) (v : Nat) : (d.setNextFlow v).pwr = d.pwr := rfl
@[simp] theorem Device.setParts_cfg (d : Device) (v : Tbl Partition) : (d.setParts v).cfg = d.cfg := rfl
@[simp] theorem Device.setParts_clk (d : Device) (v : Tbl Partition) : (d.setParts v).clk = d.clk := rfl
@[simp] theorem Device.setParts_reg (d : Device) (v : Tbl Partition) : (d.setParts v).reg = d.reg := rfl
@[simp] theorem Device.setParts_rings (d : Device) (v : Tbl Partition) : (d.setParts v).rings = d.rings := rfl
@[simp] theorem Device.setParts_out (d : Device) (v : Tbl Partition) : (d.setParts v).out = d.out := rfl
@[simp] theorem Device.setParts_wr (d : Device) (v : Tbl Partition) : (d.setParts v).wr = d.wr := rfl
@[simp] theorem Device.setParts_poison (d : Device) (v : Tbl Partition) : (d.setParts v).poison = d.poison := rfl
@[simp] theorem Device.setParts_msix (d : Device) (v : Tbl Partition) : (d.setParts v).msix = d.msix := rfl
@[simp] theorem Device.setParts_hold (d : Device) (v : Tbl Partition) : (d.setParts v).hold = d.hold := rfl
@[simp] theorem Device.setParts_wave (d : Device) (v : Tbl Partition) : (d.setParts v).wave = d.wave := rfl
@[simp] theorem Device.setParts_mbr (d : Device) (v : Tbl Partition) : (d.setParts v).mbr = d.mbr := rfl
@[simp] theorem Device.setParts_corrs (d : Device) (v : Tbl Partition) : (d.setParts v).corrs = d.corrs := rfl
@[simp] theorem Device.setParts_d2dReplays (d : Device) (v : Tbl Partition) : (d.setParts v).d2dReplays = d.d2dReplays := rfl
@[simp] theorem Device.setParts_tiles (d : Device) (v : Tbl Partition) : (d.setParts v).tiles = d.tiles := rfl
@[simp] theorem Device.setParts_mesh (d : Device) (v : Tbl Partition) : (d.setParts v).mesh = d.mesh := rfl
@[simp] theorem Device.setParts_tokHold (d : Device) (v : Tbl Partition) : (d.setParts v).tokHold = d.tokHold := rfl
@[simp] theorem Device.setParts_ropes (d : Device) (v : Tbl Partition) : (d.setParts v).ropes = d.ropes := rfl
@[simp] theorem Device.setParts_ropeMoved (d : Device) (v : Tbl Partition) : (d.setParts v).ropeMoved = d.ropeMoved := rfl
@[simp] theorem Device.setParts_flows (d : Device) (v : Tbl Partition) : (d.setParts v).flows = d.flows := rfl
@[simp] theorem Device.setParts_tapQ (d : Device) (v : Tbl Partition) : (d.setParts v).tapQ = d.tapQ := rfl
@[simp] theorem Device.setParts_nextFlow (d : Device) (v : Tbl Partition) : (d.setParts v).nextFlow = d.nextFlow := rfl
@[simp] theorem Device.setParts_parts (d : Device) (v : Tbl Partition) : (d.setParts v).parts = v := rfl
@[simp] theorem Device.setParts_ceLog (d : Device) (v : Tbl Partition) : (d.setParts v).ceLog = d.ceLog := rfl
@[simp] theorem Device.setParts_ddrUndef (d : Device) (v : Tbl Partition) : (d.setParts v).ddrUndef = d.ddrUndef := rfl
@[simp] theorem Device.setParts_conns (d : Device) (v : Tbl Partition) : (d.setParts v).conns = d.conns := rfl
@[simp] theorem Device.setParts_gft (d : Device) (v : Tbl Partition) : (d.setParts v).gft = d.gft := rfl
@[simp] theorem Device.setParts_groups (d : Device) (v : Tbl Partition) : (d.setParts v).groups = d.groups := rfl
@[simp] theorem Device.setParts_tmWait (d : Device) (v : Tbl Partition) : (d.setParts v).tmWait = d.tmWait := rfl
@[simp] theorem Device.setParts_fecBad (d : Device) (v : Tbl Partition) : (d.setParts v).fecBad = d.fecBad := rfl
@[simp] theorem Device.setParts_keyTime (d : Device) (v : Tbl Partition) : (d.setParts v).keyTime = d.keyTime := rfl
@[simp] theorem Device.setParts_pipeIn (d : Device) (v : Tbl Partition) : (d.setParts v).pipeIn = d.pipeIn := rfl
@[simp] theorem Device.setParts_pipes (d : Device) (v : Tbl Partition) : (d.setParts v).pipes = d.pipes := rfl
@[simp] theorem Device.setParts_clsSlots (d : Device) (v : Tbl Partition) : (d.setParts v).clsSlots = d.clsSlots := rfl
@[simp] theorem Device.setParts_flowCnts (d : Device) (v : Tbl Partition) : (d.setParts v).flowCnts = d.flowCnts := rfl
@[simp] theorem Device.setParts_pmeFlows (d : Device) (v : Tbl Partition) : (d.setParts v).pmeFlows = d.pmeFlows := rfl
@[simp] theorem Device.setParts_places (d : Device) (v : Tbl Partition) : (d.setParts v).places = d.places := rfl
@[simp] theorem Device.setParts_loaded (d : Device) (v : Tbl Partition) : (d.setParts v).loaded = d.loaded := rfl
@[simp] theorem Device.setParts_waveEpoch (d : Device) (v : Tbl Partition) : (d.setParts v).waveEpoch = d.waveEpoch := rfl
@[simp] theorem Device.setParts_tmQueues (d : Device) (v : Tbl Partition) : (d.setParts v).tmQueues = d.tmQueues := rfl
@[simp] theorem Device.setParts_tmPorts (d : Device) (v : Tbl Partition) : (d.setParts v).tmPorts = d.tmPorts := rfl
@[simp] theorem Device.setParts_policers (d : Device) (v : Tbl Partition) : (d.setParts v).policers = d.policers := rfl
@[simp] theorem Device.setParts_blocks (d : Device) (v : Tbl Partition) : (d.setParts v).blocks = d.blocks := rfl
@[simp] theorem Device.setParts_nvmes (d : Device) (v : Tbl Partition) : (d.setParts v).nvmes = d.nvmes := rfl
@[simp] theorem Device.setParts_nextNvme (d : Device) (v : Tbl Partition) : (d.setParts v).nextNvme = d.nextNvme := rfl
@[simp] theorem Device.setParts_stage (d : Device) (v : Tbl Partition) : (d.setParts v).stage = d.stage := rfl
@[simp] theorem Device.setParts_vaults (d : Device) (v : Tbl Partition) : (d.setParts v).vaults = d.vaults := rfl
@[simp] theorem Device.setParts_hostReads (d : Device) (v : Tbl Partition) : (d.setParts v).hostReads = d.hostReads := rfl
@[simp] theorem Device.setParts_link (d : Device) (v : Tbl Partition) : (d.setParts v).link = d.link := rfl
@[simp] theorem Device.setParts_nextFetch (d : Device) (v : Tbl Partition) : (d.setParts v).nextFetch = d.nextFetch := rfl
@[simp] theorem Device.setParts_xfers (d : Device) (v : Tbl Partition) : (d.setParts v).xfers = d.xfers := rfl
@[simp] theorem Device.setParts_queues (d : Device) (v : Tbl Partition) : (d.setParts v).queues = d.queues := rfl
@[simp] theorem Device.setParts_fetched (d : Device) (v : Tbl Partition) : (d.setParts v).fetched = d.fetched := rfl
@[simp] theorem Device.setParts_heldW (d : Device) (v : Tbl Partition) : (d.setParts v).heldW = d.heldW := rfl
@[simp] theorem Device.setParts_cores (d : Device) (v : Tbl Partition) : (d.setParts v).cores = d.cores := rfl
@[simp] theorem Device.setParts_fw (d : Device) (v : Tbl Partition) : (d.setParts v).fw = d.fw := rfl
@[simp] theorem Device.setParts_queueMem (d : Device) (v : Tbl Partition) : (d.setParts v).queueMem = d.queueMem := rfl
@[simp] theorem Device.setParts_wlogs (d : Device) (v : Tbl Partition) : (d.setParts v).wlogs = d.wlogs := rfl
@[simp] theorem Device.setParts_stores (d : Device) (v : Tbl Partition) : (d.setParts v).stores = d.stores := rfl
@[simp] theorem Device.setParts_crew (d : Device) (v : Tbl Partition) : (d.setParts v).crew = d.crew := rfl
@[simp] theorem Device.setParts_belay (d : Device) (v : Tbl Partition) : (d.setParts v).belay = d.belay := rfl
@[simp] theorem Device.setParts_tel (d : Device) (v : Tbl Partition) : (d.setParts v).tel = d.tel := rfl
@[simp] theorem Device.setParts_pwr (d : Device) (v : Tbl Partition) : (d.setParts v).pwr = d.pwr := rfl
@[simp] theorem Device.setCeLog_cfg (d : Device) (v : Tbl (List Nat)) : (d.setCeLog v).cfg = d.cfg := rfl
@[simp] theorem Device.setCeLog_clk (d : Device) (v : Tbl (List Nat)) : (d.setCeLog v).clk = d.clk := rfl
@[simp] theorem Device.setCeLog_reg (d : Device) (v : Tbl (List Nat)) : (d.setCeLog v).reg = d.reg := rfl
@[simp] theorem Device.setCeLog_rings (d : Device) (v : Tbl (List Nat)) : (d.setCeLog v).rings = d.rings := rfl
@[simp] theorem Device.setCeLog_out (d : Device) (v : Tbl (List Nat)) : (d.setCeLog v).out = d.out := rfl
@[simp] theorem Device.setCeLog_wr (d : Device) (v : Tbl (List Nat)) : (d.setCeLog v).wr = d.wr := rfl
@[simp] theorem Device.setCeLog_poison (d : Device) (v : Tbl (List Nat)) : (d.setCeLog v).poison = d.poison := rfl
@[simp] theorem Device.setCeLog_msix (d : Device) (v : Tbl (List Nat)) : (d.setCeLog v).msix = d.msix := rfl
@[simp] theorem Device.setCeLog_hold (d : Device) (v : Tbl (List Nat)) : (d.setCeLog v).hold = d.hold := rfl
@[simp] theorem Device.setCeLog_wave (d : Device) (v : Tbl (List Nat)) : (d.setCeLog v).wave = d.wave := rfl
@[simp] theorem Device.setCeLog_mbr (d : Device) (v : Tbl (List Nat)) : (d.setCeLog v).mbr = d.mbr := rfl
@[simp] theorem Device.setCeLog_corrs (d : Device) (v : Tbl (List Nat)) : (d.setCeLog v).corrs = d.corrs := rfl
@[simp] theorem Device.setCeLog_d2dReplays (d : Device) (v : Tbl (List Nat)) : (d.setCeLog v).d2dReplays = d.d2dReplays := rfl
@[simp] theorem Device.setCeLog_tiles (d : Device) (v : Tbl (List Nat)) : (d.setCeLog v).tiles = d.tiles := rfl
@[simp] theorem Device.setCeLog_mesh (d : Device) (v : Tbl (List Nat)) : (d.setCeLog v).mesh = d.mesh := rfl
@[simp] theorem Device.setCeLog_tokHold (d : Device) (v : Tbl (List Nat)) : (d.setCeLog v).tokHold = d.tokHold := rfl
@[simp] theorem Device.setCeLog_ropes (d : Device) (v : Tbl (List Nat)) : (d.setCeLog v).ropes = d.ropes := rfl
@[simp] theorem Device.setCeLog_ropeMoved (d : Device) (v : Tbl (List Nat)) : (d.setCeLog v).ropeMoved = d.ropeMoved := rfl
@[simp] theorem Device.setCeLog_flows (d : Device) (v : Tbl (List Nat)) : (d.setCeLog v).flows = d.flows := rfl
@[simp] theorem Device.setCeLog_tapQ (d : Device) (v : Tbl (List Nat)) : (d.setCeLog v).tapQ = d.tapQ := rfl
@[simp] theorem Device.setCeLog_nextFlow (d : Device) (v : Tbl (List Nat)) : (d.setCeLog v).nextFlow = d.nextFlow := rfl
@[simp] theorem Device.setCeLog_parts (d : Device) (v : Tbl (List Nat)) : (d.setCeLog v).parts = d.parts := rfl
@[simp] theorem Device.setCeLog_ceLog (d : Device) (v : Tbl (List Nat)) : (d.setCeLog v).ceLog = v := rfl
@[simp] theorem Device.setCeLog_ddrUndef (d : Device) (v : Tbl (List Nat)) : (d.setCeLog v).ddrUndef = d.ddrUndef := rfl
@[simp] theorem Device.setCeLog_conns (d : Device) (v : Tbl (List Nat)) : (d.setCeLog v).conns = d.conns := rfl
@[simp] theorem Device.setCeLog_gft (d : Device) (v : Tbl (List Nat)) : (d.setCeLog v).gft = d.gft := rfl
@[simp] theorem Device.setCeLog_groups (d : Device) (v : Tbl (List Nat)) : (d.setCeLog v).groups = d.groups := rfl
@[simp] theorem Device.setCeLog_tmWait (d : Device) (v : Tbl (List Nat)) : (d.setCeLog v).tmWait = d.tmWait := rfl
@[simp] theorem Device.setCeLog_fecBad (d : Device) (v : Tbl (List Nat)) : (d.setCeLog v).fecBad = d.fecBad := rfl
@[simp] theorem Device.setCeLog_keyTime (d : Device) (v : Tbl (List Nat)) : (d.setCeLog v).keyTime = d.keyTime := rfl
@[simp] theorem Device.setCeLog_pipeIn (d : Device) (v : Tbl (List Nat)) : (d.setCeLog v).pipeIn = d.pipeIn := rfl
@[simp] theorem Device.setCeLog_pipes (d : Device) (v : Tbl (List Nat)) : (d.setCeLog v).pipes = d.pipes := rfl
@[simp] theorem Device.setCeLog_clsSlots (d : Device) (v : Tbl (List Nat)) : (d.setCeLog v).clsSlots = d.clsSlots := rfl
@[simp] theorem Device.setCeLog_flowCnts (d : Device) (v : Tbl (List Nat)) : (d.setCeLog v).flowCnts = d.flowCnts := rfl
@[simp] theorem Device.setCeLog_pmeFlows (d : Device) (v : Tbl (List Nat)) : (d.setCeLog v).pmeFlows = d.pmeFlows := rfl
@[simp] theorem Device.setCeLog_places (d : Device) (v : Tbl (List Nat)) : (d.setCeLog v).places = d.places := rfl
@[simp] theorem Device.setCeLog_loaded (d : Device) (v : Tbl (List Nat)) : (d.setCeLog v).loaded = d.loaded := rfl
@[simp] theorem Device.setCeLog_waveEpoch (d : Device) (v : Tbl (List Nat)) : (d.setCeLog v).waveEpoch = d.waveEpoch := rfl
@[simp] theorem Device.setCeLog_tmQueues (d : Device) (v : Tbl (List Nat)) : (d.setCeLog v).tmQueues = d.tmQueues := rfl
@[simp] theorem Device.setCeLog_tmPorts (d : Device) (v : Tbl (List Nat)) : (d.setCeLog v).tmPorts = d.tmPorts := rfl
@[simp] theorem Device.setCeLog_policers (d : Device) (v : Tbl (List Nat)) : (d.setCeLog v).policers = d.policers := rfl
@[simp] theorem Device.setCeLog_blocks (d : Device) (v : Tbl (List Nat)) : (d.setCeLog v).blocks = d.blocks := rfl
@[simp] theorem Device.setCeLog_nvmes (d : Device) (v : Tbl (List Nat)) : (d.setCeLog v).nvmes = d.nvmes := rfl
@[simp] theorem Device.setCeLog_nextNvme (d : Device) (v : Tbl (List Nat)) : (d.setCeLog v).nextNvme = d.nextNvme := rfl
@[simp] theorem Device.setCeLog_stage (d : Device) (v : Tbl (List Nat)) : (d.setCeLog v).stage = d.stage := rfl
@[simp] theorem Device.setCeLog_vaults (d : Device) (v : Tbl (List Nat)) : (d.setCeLog v).vaults = d.vaults := rfl
@[simp] theorem Device.setCeLog_hostReads (d : Device) (v : Tbl (List Nat)) : (d.setCeLog v).hostReads = d.hostReads := rfl
@[simp] theorem Device.setCeLog_link (d : Device) (v : Tbl (List Nat)) : (d.setCeLog v).link = d.link := rfl
@[simp] theorem Device.setCeLog_nextFetch (d : Device) (v : Tbl (List Nat)) : (d.setCeLog v).nextFetch = d.nextFetch := rfl
@[simp] theorem Device.setCeLog_xfers (d : Device) (v : Tbl (List Nat)) : (d.setCeLog v).xfers = d.xfers := rfl
@[simp] theorem Device.setCeLog_queues (d : Device) (v : Tbl (List Nat)) : (d.setCeLog v).queues = d.queues := rfl
@[simp] theorem Device.setCeLog_fetched (d : Device) (v : Tbl (List Nat)) : (d.setCeLog v).fetched = d.fetched := rfl
@[simp] theorem Device.setCeLog_heldW (d : Device) (v : Tbl (List Nat)) : (d.setCeLog v).heldW = d.heldW := rfl
@[simp] theorem Device.setCeLog_cores (d : Device) (v : Tbl (List Nat)) : (d.setCeLog v).cores = d.cores := rfl
@[simp] theorem Device.setCeLog_fw (d : Device) (v : Tbl (List Nat)) : (d.setCeLog v).fw = d.fw := rfl
@[simp] theorem Device.setCeLog_queueMem (d : Device) (v : Tbl (List Nat)) : (d.setCeLog v).queueMem = d.queueMem := rfl
@[simp] theorem Device.setCeLog_wlogs (d : Device) (v : Tbl (List Nat)) : (d.setCeLog v).wlogs = d.wlogs := rfl
@[simp] theorem Device.setCeLog_stores (d : Device) (v : Tbl (List Nat)) : (d.setCeLog v).stores = d.stores := rfl
@[simp] theorem Device.setCeLog_crew (d : Device) (v : Tbl (List Nat)) : (d.setCeLog v).crew = d.crew := rfl
@[simp] theorem Device.setCeLog_belay (d : Device) (v : Tbl (List Nat)) : (d.setCeLog v).belay = d.belay := rfl
@[simp] theorem Device.setCeLog_tel (d : Device) (v : Tbl (List Nat)) : (d.setCeLog v).tel = d.tel := rfl
@[simp] theorem Device.setCeLog_pwr (d : Device) (v : Tbl (List Nat)) : (d.setCeLog v).pwr = d.pwr := rfl
@[simp] theorem Device.setDdrUndef_cfg (d : Device) (v : Tbl Undef) : (d.setDdrUndef v).cfg = d.cfg := rfl
@[simp] theorem Device.setDdrUndef_clk (d : Device) (v : Tbl Undef) : (d.setDdrUndef v).clk = d.clk := rfl
@[simp] theorem Device.setDdrUndef_reg (d : Device) (v : Tbl Undef) : (d.setDdrUndef v).reg = d.reg := rfl
@[simp] theorem Device.setDdrUndef_rings (d : Device) (v : Tbl Undef) : (d.setDdrUndef v).rings = d.rings := rfl
@[simp] theorem Device.setDdrUndef_out (d : Device) (v : Tbl Undef) : (d.setDdrUndef v).out = d.out := rfl
@[simp] theorem Device.setDdrUndef_wr (d : Device) (v : Tbl Undef) : (d.setDdrUndef v).wr = d.wr := rfl
@[simp] theorem Device.setDdrUndef_poison (d : Device) (v : Tbl Undef) : (d.setDdrUndef v).poison = d.poison := rfl
@[simp] theorem Device.setDdrUndef_msix (d : Device) (v : Tbl Undef) : (d.setDdrUndef v).msix = d.msix := rfl
@[simp] theorem Device.setDdrUndef_hold (d : Device) (v : Tbl Undef) : (d.setDdrUndef v).hold = d.hold := rfl
@[simp] theorem Device.setDdrUndef_wave (d : Device) (v : Tbl Undef) : (d.setDdrUndef v).wave = d.wave := rfl
@[simp] theorem Device.setDdrUndef_mbr (d : Device) (v : Tbl Undef) : (d.setDdrUndef v).mbr = d.mbr := rfl
@[simp] theorem Device.setDdrUndef_corrs (d : Device) (v : Tbl Undef) : (d.setDdrUndef v).corrs = d.corrs := rfl
@[simp] theorem Device.setDdrUndef_d2dReplays (d : Device) (v : Tbl Undef) : (d.setDdrUndef v).d2dReplays = d.d2dReplays := rfl
@[simp] theorem Device.setDdrUndef_tiles (d : Device) (v : Tbl Undef) : (d.setDdrUndef v).tiles = d.tiles := rfl
@[simp] theorem Device.setDdrUndef_mesh (d : Device) (v : Tbl Undef) : (d.setDdrUndef v).mesh = d.mesh := rfl
@[simp] theorem Device.setDdrUndef_tokHold (d : Device) (v : Tbl Undef) : (d.setDdrUndef v).tokHold = d.tokHold := rfl
@[simp] theorem Device.setDdrUndef_ropes (d : Device) (v : Tbl Undef) : (d.setDdrUndef v).ropes = d.ropes := rfl
@[simp] theorem Device.setDdrUndef_ropeMoved (d : Device) (v : Tbl Undef) : (d.setDdrUndef v).ropeMoved = d.ropeMoved := rfl
@[simp] theorem Device.setDdrUndef_flows (d : Device) (v : Tbl Undef) : (d.setDdrUndef v).flows = d.flows := rfl
@[simp] theorem Device.setDdrUndef_tapQ (d : Device) (v : Tbl Undef) : (d.setDdrUndef v).tapQ = d.tapQ := rfl
@[simp] theorem Device.setDdrUndef_nextFlow (d : Device) (v : Tbl Undef) : (d.setDdrUndef v).nextFlow = d.nextFlow := rfl
@[simp] theorem Device.setDdrUndef_parts (d : Device) (v : Tbl Undef) : (d.setDdrUndef v).parts = d.parts := rfl
@[simp] theorem Device.setDdrUndef_ceLog (d : Device) (v : Tbl Undef) : (d.setDdrUndef v).ceLog = d.ceLog := rfl
@[simp] theorem Device.setDdrUndef_ddrUndef (d : Device) (v : Tbl Undef) : (d.setDdrUndef v).ddrUndef = v := rfl
@[simp] theorem Device.setDdrUndef_conns (d : Device) (v : Tbl Undef) : (d.setDdrUndef v).conns = d.conns := rfl
@[simp] theorem Device.setDdrUndef_gft (d : Device) (v : Tbl Undef) : (d.setDdrUndef v).gft = d.gft := rfl
@[simp] theorem Device.setDdrUndef_groups (d : Device) (v : Tbl Undef) : (d.setDdrUndef v).groups = d.groups := rfl
@[simp] theorem Device.setDdrUndef_tmWait (d : Device) (v : Tbl Undef) : (d.setDdrUndef v).tmWait = d.tmWait := rfl
@[simp] theorem Device.setDdrUndef_fecBad (d : Device) (v : Tbl Undef) : (d.setDdrUndef v).fecBad = d.fecBad := rfl
@[simp] theorem Device.setDdrUndef_keyTime (d : Device) (v : Tbl Undef) : (d.setDdrUndef v).keyTime = d.keyTime := rfl
@[simp] theorem Device.setDdrUndef_pipeIn (d : Device) (v : Tbl Undef) : (d.setDdrUndef v).pipeIn = d.pipeIn := rfl
@[simp] theorem Device.setDdrUndef_pipes (d : Device) (v : Tbl Undef) : (d.setDdrUndef v).pipes = d.pipes := rfl
@[simp] theorem Device.setDdrUndef_clsSlots (d : Device) (v : Tbl Undef) : (d.setDdrUndef v).clsSlots = d.clsSlots := rfl
@[simp] theorem Device.setDdrUndef_flowCnts (d : Device) (v : Tbl Undef) : (d.setDdrUndef v).flowCnts = d.flowCnts := rfl
@[simp] theorem Device.setDdrUndef_pmeFlows (d : Device) (v : Tbl Undef) : (d.setDdrUndef v).pmeFlows = d.pmeFlows := rfl
@[simp] theorem Device.setDdrUndef_places (d : Device) (v : Tbl Undef) : (d.setDdrUndef v).places = d.places := rfl
@[simp] theorem Device.setDdrUndef_loaded (d : Device) (v : Tbl Undef) : (d.setDdrUndef v).loaded = d.loaded := rfl
@[simp] theorem Device.setDdrUndef_waveEpoch (d : Device) (v : Tbl Undef) : (d.setDdrUndef v).waveEpoch = d.waveEpoch := rfl
@[simp] theorem Device.setDdrUndef_tmQueues (d : Device) (v : Tbl Undef) : (d.setDdrUndef v).tmQueues = d.tmQueues := rfl
@[simp] theorem Device.setDdrUndef_tmPorts (d : Device) (v : Tbl Undef) : (d.setDdrUndef v).tmPorts = d.tmPorts := rfl
@[simp] theorem Device.setDdrUndef_policers (d : Device) (v : Tbl Undef) : (d.setDdrUndef v).policers = d.policers := rfl
@[simp] theorem Device.setDdrUndef_blocks (d : Device) (v : Tbl Undef) : (d.setDdrUndef v).blocks = d.blocks := rfl
@[simp] theorem Device.setDdrUndef_nvmes (d : Device) (v : Tbl Undef) : (d.setDdrUndef v).nvmes = d.nvmes := rfl
@[simp] theorem Device.setDdrUndef_nextNvme (d : Device) (v : Tbl Undef) : (d.setDdrUndef v).nextNvme = d.nextNvme := rfl
@[simp] theorem Device.setDdrUndef_stage (d : Device) (v : Tbl Undef) : (d.setDdrUndef v).stage = d.stage := rfl
@[simp] theorem Device.setDdrUndef_vaults (d : Device) (v : Tbl Undef) : (d.setDdrUndef v).vaults = d.vaults := rfl
@[simp] theorem Device.setDdrUndef_hostReads (d : Device) (v : Tbl Undef) : (d.setDdrUndef v).hostReads = d.hostReads := rfl
@[simp] theorem Device.setDdrUndef_link (d : Device) (v : Tbl Undef) : (d.setDdrUndef v).link = d.link := rfl
@[simp] theorem Device.setDdrUndef_nextFetch (d : Device) (v : Tbl Undef) : (d.setDdrUndef v).nextFetch = d.nextFetch := rfl
@[simp] theorem Device.setDdrUndef_xfers (d : Device) (v : Tbl Undef) : (d.setDdrUndef v).xfers = d.xfers := rfl
@[simp] theorem Device.setDdrUndef_queues (d : Device) (v : Tbl Undef) : (d.setDdrUndef v).queues = d.queues := rfl
@[simp] theorem Device.setDdrUndef_fetched (d : Device) (v : Tbl Undef) : (d.setDdrUndef v).fetched = d.fetched := rfl
@[simp] theorem Device.setDdrUndef_heldW (d : Device) (v : Tbl Undef) : (d.setDdrUndef v).heldW = d.heldW := rfl
@[simp] theorem Device.setDdrUndef_cores (d : Device) (v : Tbl Undef) : (d.setDdrUndef v).cores = d.cores := rfl
@[simp] theorem Device.setDdrUndef_fw (d : Device) (v : Tbl Undef) : (d.setDdrUndef v).fw = d.fw := rfl
@[simp] theorem Device.setDdrUndef_queueMem (d : Device) (v : Tbl Undef) : (d.setDdrUndef v).queueMem = d.queueMem := rfl
@[simp] theorem Device.setDdrUndef_wlogs (d : Device) (v : Tbl Undef) : (d.setDdrUndef v).wlogs = d.wlogs := rfl
@[simp] theorem Device.setDdrUndef_stores (d : Device) (v : Tbl Undef) : (d.setDdrUndef v).stores = d.stores := rfl
@[simp] theorem Device.setDdrUndef_crew (d : Device) (v : Tbl Undef) : (d.setDdrUndef v).crew = d.crew := rfl
@[simp] theorem Device.setDdrUndef_belay (d : Device) (v : Tbl Undef) : (d.setDdrUndef v).belay = d.belay := rfl
@[simp] theorem Device.setDdrUndef_tel (d : Device) (v : Tbl Undef) : (d.setDdrUndef v).tel = d.tel := rfl
@[simp] theorem Device.setDdrUndef_pwr (d : Device) (v : Tbl Undef) : (d.setDdrUndef v).pwr = d.pwr := rfl
@[simp] theorem Device.setConns_cfg (d : Device) (v : Tbl Conn) : (d.setConns v).cfg = d.cfg := rfl
@[simp] theorem Device.setConns_clk (d : Device) (v : Tbl Conn) : (d.setConns v).clk = d.clk := rfl
@[simp] theorem Device.setConns_reg (d : Device) (v : Tbl Conn) : (d.setConns v).reg = d.reg := rfl
@[simp] theorem Device.setConns_rings (d : Device) (v : Tbl Conn) : (d.setConns v).rings = d.rings := rfl
@[simp] theorem Device.setConns_out (d : Device) (v : Tbl Conn) : (d.setConns v).out = d.out := rfl
@[simp] theorem Device.setConns_wr (d : Device) (v : Tbl Conn) : (d.setConns v).wr = d.wr := rfl
@[simp] theorem Device.setConns_poison (d : Device) (v : Tbl Conn) : (d.setConns v).poison = d.poison := rfl
@[simp] theorem Device.setConns_msix (d : Device) (v : Tbl Conn) : (d.setConns v).msix = d.msix := rfl
@[simp] theorem Device.setConns_hold (d : Device) (v : Tbl Conn) : (d.setConns v).hold = d.hold := rfl
@[simp] theorem Device.setConns_wave (d : Device) (v : Tbl Conn) : (d.setConns v).wave = d.wave := rfl
@[simp] theorem Device.setConns_mbr (d : Device) (v : Tbl Conn) : (d.setConns v).mbr = d.mbr := rfl
@[simp] theorem Device.setConns_corrs (d : Device) (v : Tbl Conn) : (d.setConns v).corrs = d.corrs := rfl
@[simp] theorem Device.setConns_d2dReplays (d : Device) (v : Tbl Conn) : (d.setConns v).d2dReplays = d.d2dReplays := rfl
@[simp] theorem Device.setConns_tiles (d : Device) (v : Tbl Conn) : (d.setConns v).tiles = d.tiles := rfl
@[simp] theorem Device.setConns_mesh (d : Device) (v : Tbl Conn) : (d.setConns v).mesh = d.mesh := rfl
@[simp] theorem Device.setConns_tokHold (d : Device) (v : Tbl Conn) : (d.setConns v).tokHold = d.tokHold := rfl
@[simp] theorem Device.setConns_ropes (d : Device) (v : Tbl Conn) : (d.setConns v).ropes = d.ropes := rfl
@[simp] theorem Device.setConns_ropeMoved (d : Device) (v : Tbl Conn) : (d.setConns v).ropeMoved = d.ropeMoved := rfl
@[simp] theorem Device.setConns_flows (d : Device) (v : Tbl Conn) : (d.setConns v).flows = d.flows := rfl
@[simp] theorem Device.setConns_tapQ (d : Device) (v : Tbl Conn) : (d.setConns v).tapQ = d.tapQ := rfl
@[simp] theorem Device.setConns_nextFlow (d : Device) (v : Tbl Conn) : (d.setConns v).nextFlow = d.nextFlow := rfl
@[simp] theorem Device.setConns_parts (d : Device) (v : Tbl Conn) : (d.setConns v).parts = d.parts := rfl
@[simp] theorem Device.setConns_ceLog (d : Device) (v : Tbl Conn) : (d.setConns v).ceLog = d.ceLog := rfl
@[simp] theorem Device.setConns_ddrUndef (d : Device) (v : Tbl Conn) : (d.setConns v).ddrUndef = d.ddrUndef := rfl
@[simp] theorem Device.setConns_conns (d : Device) (v : Tbl Conn) : (d.setConns v).conns = v := rfl
@[simp] theorem Device.setConns_gft (d : Device) (v : Tbl Conn) : (d.setConns v).gft = d.gft := rfl
@[simp] theorem Device.setConns_groups (d : Device) (v : Tbl Conn) : (d.setConns v).groups = d.groups := rfl
@[simp] theorem Device.setConns_tmWait (d : Device) (v : Tbl Conn) : (d.setConns v).tmWait = d.tmWait := rfl
@[simp] theorem Device.setConns_fecBad (d : Device) (v : Tbl Conn) : (d.setConns v).fecBad = d.fecBad := rfl
@[simp] theorem Device.setConns_keyTime (d : Device) (v : Tbl Conn) : (d.setConns v).keyTime = d.keyTime := rfl
@[simp] theorem Device.setConns_pipeIn (d : Device) (v : Tbl Conn) : (d.setConns v).pipeIn = d.pipeIn := rfl
@[simp] theorem Device.setConns_pipes (d : Device) (v : Tbl Conn) : (d.setConns v).pipes = d.pipes := rfl
@[simp] theorem Device.setConns_clsSlots (d : Device) (v : Tbl Conn) : (d.setConns v).clsSlots = d.clsSlots := rfl
@[simp] theorem Device.setConns_flowCnts (d : Device) (v : Tbl Conn) : (d.setConns v).flowCnts = d.flowCnts := rfl
@[simp] theorem Device.setConns_pmeFlows (d : Device) (v : Tbl Conn) : (d.setConns v).pmeFlows = d.pmeFlows := rfl
@[simp] theorem Device.setConns_places (d : Device) (v : Tbl Conn) : (d.setConns v).places = d.places := rfl
@[simp] theorem Device.setConns_loaded (d : Device) (v : Tbl Conn) : (d.setConns v).loaded = d.loaded := rfl
@[simp] theorem Device.setConns_waveEpoch (d : Device) (v : Tbl Conn) : (d.setConns v).waveEpoch = d.waveEpoch := rfl
@[simp] theorem Device.setConns_tmQueues (d : Device) (v : Tbl Conn) : (d.setConns v).tmQueues = d.tmQueues := rfl
@[simp] theorem Device.setConns_tmPorts (d : Device) (v : Tbl Conn) : (d.setConns v).tmPorts = d.tmPorts := rfl
@[simp] theorem Device.setConns_policers (d : Device) (v : Tbl Conn) : (d.setConns v).policers = d.policers := rfl
@[simp] theorem Device.setConns_blocks (d : Device) (v : Tbl Conn) : (d.setConns v).blocks = d.blocks := rfl
@[simp] theorem Device.setConns_nvmes (d : Device) (v : Tbl Conn) : (d.setConns v).nvmes = d.nvmes := rfl
@[simp] theorem Device.setConns_nextNvme (d : Device) (v : Tbl Conn) : (d.setConns v).nextNvme = d.nextNvme := rfl
@[simp] theorem Device.setConns_stage (d : Device) (v : Tbl Conn) : (d.setConns v).stage = d.stage := rfl
@[simp] theorem Device.setConns_vaults (d : Device) (v : Tbl Conn) : (d.setConns v).vaults = d.vaults := rfl
@[simp] theorem Device.setConns_hostReads (d : Device) (v : Tbl Conn) : (d.setConns v).hostReads = d.hostReads := rfl
@[simp] theorem Device.setConns_link (d : Device) (v : Tbl Conn) : (d.setConns v).link = d.link := rfl
@[simp] theorem Device.setConns_nextFetch (d : Device) (v : Tbl Conn) : (d.setConns v).nextFetch = d.nextFetch := rfl
@[simp] theorem Device.setConns_xfers (d : Device) (v : Tbl Conn) : (d.setConns v).xfers = d.xfers := rfl
@[simp] theorem Device.setConns_queues (d : Device) (v : Tbl Conn) : (d.setConns v).queues = d.queues := rfl
@[simp] theorem Device.setConns_fetched (d : Device) (v : Tbl Conn) : (d.setConns v).fetched = d.fetched := rfl
@[simp] theorem Device.setConns_heldW (d : Device) (v : Tbl Conn) : (d.setConns v).heldW = d.heldW := rfl
@[simp] theorem Device.setConns_cores (d : Device) (v : Tbl Conn) : (d.setConns v).cores = d.cores := rfl
@[simp] theorem Device.setConns_fw (d : Device) (v : Tbl Conn) : (d.setConns v).fw = d.fw := rfl
@[simp] theorem Device.setConns_queueMem (d : Device) (v : Tbl Conn) : (d.setConns v).queueMem = d.queueMem := rfl
@[simp] theorem Device.setConns_wlogs (d : Device) (v : Tbl Conn) : (d.setConns v).wlogs = d.wlogs := rfl
@[simp] theorem Device.setConns_stores (d : Device) (v : Tbl Conn) : (d.setConns v).stores = d.stores := rfl
@[simp] theorem Device.setConns_crew (d : Device) (v : Tbl Conn) : (d.setConns v).crew = d.crew := rfl
@[simp] theorem Device.setConns_belay (d : Device) (v : Tbl Conn) : (d.setConns v).belay = d.belay := rfl
@[simp] theorem Device.setConns_tel (d : Device) (v : Tbl Conn) : (d.setConns v).tel = d.tel := rfl
@[simp] theorem Device.setConns_pwr (d : Device) (v : Tbl Conn) : (d.setConns v).pwr = d.pwr := rfl
@[simp] theorem Device.setGft_cfg (d : Device) (v : Tbl GftDie) : (d.setGft v).cfg = d.cfg := rfl
@[simp] theorem Device.setGft_clk (d : Device) (v : Tbl GftDie) : (d.setGft v).clk = d.clk := rfl
@[simp] theorem Device.setGft_reg (d : Device) (v : Tbl GftDie) : (d.setGft v).reg = d.reg := rfl
@[simp] theorem Device.setGft_rings (d : Device) (v : Tbl GftDie) : (d.setGft v).rings = d.rings := rfl
@[simp] theorem Device.setGft_out (d : Device) (v : Tbl GftDie) : (d.setGft v).out = d.out := rfl
@[simp] theorem Device.setGft_wr (d : Device) (v : Tbl GftDie) : (d.setGft v).wr = d.wr := rfl
@[simp] theorem Device.setGft_poison (d : Device) (v : Tbl GftDie) : (d.setGft v).poison = d.poison := rfl
@[simp] theorem Device.setGft_msix (d : Device) (v : Tbl GftDie) : (d.setGft v).msix = d.msix := rfl
@[simp] theorem Device.setGft_hold (d : Device) (v : Tbl GftDie) : (d.setGft v).hold = d.hold := rfl
@[simp] theorem Device.setGft_wave (d : Device) (v : Tbl GftDie) : (d.setGft v).wave = d.wave := rfl
@[simp] theorem Device.setGft_mbr (d : Device) (v : Tbl GftDie) : (d.setGft v).mbr = d.mbr := rfl
@[simp] theorem Device.setGft_corrs (d : Device) (v : Tbl GftDie) : (d.setGft v).corrs = d.corrs := rfl
@[simp] theorem Device.setGft_d2dReplays (d : Device) (v : Tbl GftDie) : (d.setGft v).d2dReplays = d.d2dReplays := rfl
@[simp] theorem Device.setGft_tiles (d : Device) (v : Tbl GftDie) : (d.setGft v).tiles = d.tiles := rfl
@[simp] theorem Device.setGft_mesh (d : Device) (v : Tbl GftDie) : (d.setGft v).mesh = d.mesh := rfl
@[simp] theorem Device.setGft_tokHold (d : Device) (v : Tbl GftDie) : (d.setGft v).tokHold = d.tokHold := rfl
@[simp] theorem Device.setGft_ropes (d : Device) (v : Tbl GftDie) : (d.setGft v).ropes = d.ropes := rfl
@[simp] theorem Device.setGft_ropeMoved (d : Device) (v : Tbl GftDie) : (d.setGft v).ropeMoved = d.ropeMoved := rfl
@[simp] theorem Device.setGft_flows (d : Device) (v : Tbl GftDie) : (d.setGft v).flows = d.flows := rfl
@[simp] theorem Device.setGft_tapQ (d : Device) (v : Tbl GftDie) : (d.setGft v).tapQ = d.tapQ := rfl
@[simp] theorem Device.setGft_nextFlow (d : Device) (v : Tbl GftDie) : (d.setGft v).nextFlow = d.nextFlow := rfl
@[simp] theorem Device.setGft_parts (d : Device) (v : Tbl GftDie) : (d.setGft v).parts = d.parts := rfl
@[simp] theorem Device.setGft_ceLog (d : Device) (v : Tbl GftDie) : (d.setGft v).ceLog = d.ceLog := rfl
@[simp] theorem Device.setGft_ddrUndef (d : Device) (v : Tbl GftDie) : (d.setGft v).ddrUndef = d.ddrUndef := rfl
@[simp] theorem Device.setGft_conns (d : Device) (v : Tbl GftDie) : (d.setGft v).conns = d.conns := rfl
@[simp] theorem Device.setGft_gft (d : Device) (v : Tbl GftDie) : (d.setGft v).gft = v := rfl
@[simp] theorem Device.setGft_groups (d : Device) (v : Tbl GftDie) : (d.setGft v).groups = d.groups := rfl
@[simp] theorem Device.setGft_tmWait (d : Device) (v : Tbl GftDie) : (d.setGft v).tmWait = d.tmWait := rfl
@[simp] theorem Device.setGft_fecBad (d : Device) (v : Tbl GftDie) : (d.setGft v).fecBad = d.fecBad := rfl
@[simp] theorem Device.setGft_keyTime (d : Device) (v : Tbl GftDie) : (d.setGft v).keyTime = d.keyTime := rfl
@[simp] theorem Device.setGft_pipeIn (d : Device) (v : Tbl GftDie) : (d.setGft v).pipeIn = d.pipeIn := rfl
@[simp] theorem Device.setGft_pipes (d : Device) (v : Tbl GftDie) : (d.setGft v).pipes = d.pipes := rfl
@[simp] theorem Device.setGft_clsSlots (d : Device) (v : Tbl GftDie) : (d.setGft v).clsSlots = d.clsSlots := rfl
@[simp] theorem Device.setGft_flowCnts (d : Device) (v : Tbl GftDie) : (d.setGft v).flowCnts = d.flowCnts := rfl
@[simp] theorem Device.setGft_pmeFlows (d : Device) (v : Tbl GftDie) : (d.setGft v).pmeFlows = d.pmeFlows := rfl
@[simp] theorem Device.setGft_places (d : Device) (v : Tbl GftDie) : (d.setGft v).places = d.places := rfl
@[simp] theorem Device.setGft_loaded (d : Device) (v : Tbl GftDie) : (d.setGft v).loaded = d.loaded := rfl
@[simp] theorem Device.setGft_waveEpoch (d : Device) (v : Tbl GftDie) : (d.setGft v).waveEpoch = d.waveEpoch := rfl
@[simp] theorem Device.setGft_tmQueues (d : Device) (v : Tbl GftDie) : (d.setGft v).tmQueues = d.tmQueues := rfl
@[simp] theorem Device.setGft_tmPorts (d : Device) (v : Tbl GftDie) : (d.setGft v).tmPorts = d.tmPorts := rfl
@[simp] theorem Device.setGft_policers (d : Device) (v : Tbl GftDie) : (d.setGft v).policers = d.policers := rfl
@[simp] theorem Device.setGft_blocks (d : Device) (v : Tbl GftDie) : (d.setGft v).blocks = d.blocks := rfl
@[simp] theorem Device.setGft_nvmes (d : Device) (v : Tbl GftDie) : (d.setGft v).nvmes = d.nvmes := rfl
@[simp] theorem Device.setGft_nextNvme (d : Device) (v : Tbl GftDie) : (d.setGft v).nextNvme = d.nextNvme := rfl
@[simp] theorem Device.setGft_stage (d : Device) (v : Tbl GftDie) : (d.setGft v).stage = d.stage := rfl
@[simp] theorem Device.setGft_vaults (d : Device) (v : Tbl GftDie) : (d.setGft v).vaults = d.vaults := rfl
@[simp] theorem Device.setGft_hostReads (d : Device) (v : Tbl GftDie) : (d.setGft v).hostReads = d.hostReads := rfl
@[simp] theorem Device.setGft_link (d : Device) (v : Tbl GftDie) : (d.setGft v).link = d.link := rfl
@[simp] theorem Device.setGft_nextFetch (d : Device) (v : Tbl GftDie) : (d.setGft v).nextFetch = d.nextFetch := rfl
@[simp] theorem Device.setGft_xfers (d : Device) (v : Tbl GftDie) : (d.setGft v).xfers = d.xfers := rfl
@[simp] theorem Device.setGft_queues (d : Device) (v : Tbl GftDie) : (d.setGft v).queues = d.queues := rfl
@[simp] theorem Device.setGft_fetched (d : Device) (v : Tbl GftDie) : (d.setGft v).fetched = d.fetched := rfl
@[simp] theorem Device.setGft_heldW (d : Device) (v : Tbl GftDie) : (d.setGft v).heldW = d.heldW := rfl
@[simp] theorem Device.setGft_cores (d : Device) (v : Tbl GftDie) : (d.setGft v).cores = d.cores := rfl
@[simp] theorem Device.setGft_fw (d : Device) (v : Tbl GftDie) : (d.setGft v).fw = d.fw := rfl
@[simp] theorem Device.setGft_queueMem (d : Device) (v : Tbl GftDie) : (d.setGft v).queueMem = d.queueMem := rfl
@[simp] theorem Device.setGft_wlogs (d : Device) (v : Tbl GftDie) : (d.setGft v).wlogs = d.wlogs := rfl
@[simp] theorem Device.setGft_stores (d : Device) (v : Tbl GftDie) : (d.setGft v).stores = d.stores := rfl
@[simp] theorem Device.setGft_crew (d : Device) (v : Tbl GftDie) : (d.setGft v).crew = d.crew := rfl
@[simp] theorem Device.setGft_belay (d : Device) (v : Tbl GftDie) : (d.setGft v).belay = d.belay := rfl
@[simp] theorem Device.setGft_tel (d : Device) (v : Tbl GftDie) : (d.setGft v).tel = d.tel := rfl
@[simp] theorem Device.setGft_pwr (d : Device) (v : Tbl GftDie) : (d.setGft v).pwr = d.pwr := rfl
@[simp] theorem Device.setGroups_cfg (d : Device) (v : Tbl GroupSt) : (d.setGroups v).cfg = d.cfg := rfl
@[simp] theorem Device.setGroups_clk (d : Device) (v : Tbl GroupSt) : (d.setGroups v).clk = d.clk := rfl
@[simp] theorem Device.setGroups_reg (d : Device) (v : Tbl GroupSt) : (d.setGroups v).reg = d.reg := rfl
@[simp] theorem Device.setGroups_rings (d : Device) (v : Tbl GroupSt) : (d.setGroups v).rings = d.rings := rfl
@[simp] theorem Device.setGroups_out (d : Device) (v : Tbl GroupSt) : (d.setGroups v).out = d.out := rfl
@[simp] theorem Device.setGroups_wr (d : Device) (v : Tbl GroupSt) : (d.setGroups v).wr = d.wr := rfl
@[simp] theorem Device.setGroups_poison (d : Device) (v : Tbl GroupSt) : (d.setGroups v).poison = d.poison := rfl
@[simp] theorem Device.setGroups_msix (d : Device) (v : Tbl GroupSt) : (d.setGroups v).msix = d.msix := rfl
@[simp] theorem Device.setGroups_hold (d : Device) (v : Tbl GroupSt) : (d.setGroups v).hold = d.hold := rfl
@[simp] theorem Device.setGroups_wave (d : Device) (v : Tbl GroupSt) : (d.setGroups v).wave = d.wave := rfl
@[simp] theorem Device.setGroups_mbr (d : Device) (v : Tbl GroupSt) : (d.setGroups v).mbr = d.mbr := rfl
@[simp] theorem Device.setGroups_corrs (d : Device) (v : Tbl GroupSt) : (d.setGroups v).corrs = d.corrs := rfl
@[simp] theorem Device.setGroups_d2dReplays (d : Device) (v : Tbl GroupSt) : (d.setGroups v).d2dReplays = d.d2dReplays := rfl
@[simp] theorem Device.setGroups_tiles (d : Device) (v : Tbl GroupSt) : (d.setGroups v).tiles = d.tiles := rfl
@[simp] theorem Device.setGroups_mesh (d : Device) (v : Tbl GroupSt) : (d.setGroups v).mesh = d.mesh := rfl
@[simp] theorem Device.setGroups_tokHold (d : Device) (v : Tbl GroupSt) : (d.setGroups v).tokHold = d.tokHold := rfl
@[simp] theorem Device.setGroups_ropes (d : Device) (v : Tbl GroupSt) : (d.setGroups v).ropes = d.ropes := rfl
@[simp] theorem Device.setGroups_ropeMoved (d : Device) (v : Tbl GroupSt) : (d.setGroups v).ropeMoved = d.ropeMoved := rfl
@[simp] theorem Device.setGroups_flows (d : Device) (v : Tbl GroupSt) : (d.setGroups v).flows = d.flows := rfl
@[simp] theorem Device.setGroups_tapQ (d : Device) (v : Tbl GroupSt) : (d.setGroups v).tapQ = d.tapQ := rfl
@[simp] theorem Device.setGroups_nextFlow (d : Device) (v : Tbl GroupSt) : (d.setGroups v).nextFlow = d.nextFlow := rfl
@[simp] theorem Device.setGroups_parts (d : Device) (v : Tbl GroupSt) : (d.setGroups v).parts = d.parts := rfl
@[simp] theorem Device.setGroups_ceLog (d : Device) (v : Tbl GroupSt) : (d.setGroups v).ceLog = d.ceLog := rfl
@[simp] theorem Device.setGroups_ddrUndef (d : Device) (v : Tbl GroupSt) : (d.setGroups v).ddrUndef = d.ddrUndef := rfl
@[simp] theorem Device.setGroups_conns (d : Device) (v : Tbl GroupSt) : (d.setGroups v).conns = d.conns := rfl
@[simp] theorem Device.setGroups_gft (d : Device) (v : Tbl GroupSt) : (d.setGroups v).gft = d.gft := rfl
@[simp] theorem Device.setGroups_groups (d : Device) (v : Tbl GroupSt) : (d.setGroups v).groups = v := rfl
@[simp] theorem Device.setGroups_tmWait (d : Device) (v : Tbl GroupSt) : (d.setGroups v).tmWait = d.tmWait := rfl
@[simp] theorem Device.setGroups_fecBad (d : Device) (v : Tbl GroupSt) : (d.setGroups v).fecBad = d.fecBad := rfl
@[simp] theorem Device.setGroups_keyTime (d : Device) (v : Tbl GroupSt) : (d.setGroups v).keyTime = d.keyTime := rfl
@[simp] theorem Device.setGroups_pipeIn (d : Device) (v : Tbl GroupSt) : (d.setGroups v).pipeIn = d.pipeIn := rfl
@[simp] theorem Device.setGroups_pipes (d : Device) (v : Tbl GroupSt) : (d.setGroups v).pipes = d.pipes := rfl
@[simp] theorem Device.setGroups_clsSlots (d : Device) (v : Tbl GroupSt) : (d.setGroups v).clsSlots = d.clsSlots := rfl
@[simp] theorem Device.setGroups_flowCnts (d : Device) (v : Tbl GroupSt) : (d.setGroups v).flowCnts = d.flowCnts := rfl
@[simp] theorem Device.setGroups_pmeFlows (d : Device) (v : Tbl GroupSt) : (d.setGroups v).pmeFlows = d.pmeFlows := rfl
@[simp] theorem Device.setGroups_places (d : Device) (v : Tbl GroupSt) : (d.setGroups v).places = d.places := rfl
@[simp] theorem Device.setGroups_loaded (d : Device) (v : Tbl GroupSt) : (d.setGroups v).loaded = d.loaded := rfl
@[simp] theorem Device.setGroups_waveEpoch (d : Device) (v : Tbl GroupSt) : (d.setGroups v).waveEpoch = d.waveEpoch := rfl
@[simp] theorem Device.setGroups_tmQueues (d : Device) (v : Tbl GroupSt) : (d.setGroups v).tmQueues = d.tmQueues := rfl
@[simp] theorem Device.setGroups_tmPorts (d : Device) (v : Tbl GroupSt) : (d.setGroups v).tmPorts = d.tmPorts := rfl
@[simp] theorem Device.setGroups_policers (d : Device) (v : Tbl GroupSt) : (d.setGroups v).policers = d.policers := rfl
@[simp] theorem Device.setGroups_blocks (d : Device) (v : Tbl GroupSt) : (d.setGroups v).blocks = d.blocks := rfl
@[simp] theorem Device.setGroups_nvmes (d : Device) (v : Tbl GroupSt) : (d.setGroups v).nvmes = d.nvmes := rfl
@[simp] theorem Device.setGroups_nextNvme (d : Device) (v : Tbl GroupSt) : (d.setGroups v).nextNvme = d.nextNvme := rfl
@[simp] theorem Device.setGroups_stage (d : Device) (v : Tbl GroupSt) : (d.setGroups v).stage = d.stage := rfl
@[simp] theorem Device.setGroups_vaults (d : Device) (v : Tbl GroupSt) : (d.setGroups v).vaults = d.vaults := rfl
@[simp] theorem Device.setGroups_hostReads (d : Device) (v : Tbl GroupSt) : (d.setGroups v).hostReads = d.hostReads := rfl
@[simp] theorem Device.setGroups_link (d : Device) (v : Tbl GroupSt) : (d.setGroups v).link = d.link := rfl
@[simp] theorem Device.setGroups_nextFetch (d : Device) (v : Tbl GroupSt) : (d.setGroups v).nextFetch = d.nextFetch := rfl
@[simp] theorem Device.setGroups_xfers (d : Device) (v : Tbl GroupSt) : (d.setGroups v).xfers = d.xfers := rfl
@[simp] theorem Device.setGroups_queues (d : Device) (v : Tbl GroupSt) : (d.setGroups v).queues = d.queues := rfl
@[simp] theorem Device.setGroups_fetched (d : Device) (v : Tbl GroupSt) : (d.setGroups v).fetched = d.fetched := rfl
@[simp] theorem Device.setGroups_heldW (d : Device) (v : Tbl GroupSt) : (d.setGroups v).heldW = d.heldW := rfl
@[simp] theorem Device.setGroups_cores (d : Device) (v : Tbl GroupSt) : (d.setGroups v).cores = d.cores := rfl
@[simp] theorem Device.setGroups_fw (d : Device) (v : Tbl GroupSt) : (d.setGroups v).fw = d.fw := rfl
@[simp] theorem Device.setGroups_queueMem (d : Device) (v : Tbl GroupSt) : (d.setGroups v).queueMem = d.queueMem := rfl
@[simp] theorem Device.setGroups_wlogs (d : Device) (v : Tbl GroupSt) : (d.setGroups v).wlogs = d.wlogs := rfl
@[simp] theorem Device.setGroups_stores (d : Device) (v : Tbl GroupSt) : (d.setGroups v).stores = d.stores := rfl
@[simp] theorem Device.setGroups_crew (d : Device) (v : Tbl GroupSt) : (d.setGroups v).crew = d.crew := rfl
@[simp] theorem Device.setGroups_belay (d : Device) (v : Tbl GroupSt) : (d.setGroups v).belay = d.belay := rfl
@[simp] theorem Device.setGroups_tel (d : Device) (v : Tbl GroupSt) : (d.setGroups v).tel = d.tel := rfl
@[simp] theorem Device.setGroups_pwr (d : Device) (v : Tbl GroupSt) : (d.setGroups v).pwr = d.pwr := rfl
@[simp] theorem Device.setTmWait_cfg (d : Device) (v : List TmFrame) : (d.setTmWait v).cfg = d.cfg := rfl
@[simp] theorem Device.setTmWait_clk (d : Device) (v : List TmFrame) : (d.setTmWait v).clk = d.clk := rfl
@[simp] theorem Device.setTmWait_reg (d : Device) (v : List TmFrame) : (d.setTmWait v).reg = d.reg := rfl
@[simp] theorem Device.setTmWait_rings (d : Device) (v : List TmFrame) : (d.setTmWait v).rings = d.rings := rfl
@[simp] theorem Device.setTmWait_out (d : Device) (v : List TmFrame) : (d.setTmWait v).out = d.out := rfl
@[simp] theorem Device.setTmWait_wr (d : Device) (v : List TmFrame) : (d.setTmWait v).wr = d.wr := rfl
@[simp] theorem Device.setTmWait_poison (d : Device) (v : List TmFrame) : (d.setTmWait v).poison = d.poison := rfl
@[simp] theorem Device.setTmWait_msix (d : Device) (v : List TmFrame) : (d.setTmWait v).msix = d.msix := rfl
@[simp] theorem Device.setTmWait_hold (d : Device) (v : List TmFrame) : (d.setTmWait v).hold = d.hold := rfl
@[simp] theorem Device.setTmWait_wave (d : Device) (v : List TmFrame) : (d.setTmWait v).wave = d.wave := rfl
@[simp] theorem Device.setTmWait_mbr (d : Device) (v : List TmFrame) : (d.setTmWait v).mbr = d.mbr := rfl
@[simp] theorem Device.setTmWait_corrs (d : Device) (v : List TmFrame) : (d.setTmWait v).corrs = d.corrs := rfl
@[simp] theorem Device.setTmWait_d2dReplays (d : Device) (v : List TmFrame) : (d.setTmWait v).d2dReplays = d.d2dReplays := rfl
@[simp] theorem Device.setTmWait_tiles (d : Device) (v : List TmFrame) : (d.setTmWait v).tiles = d.tiles := rfl
@[simp] theorem Device.setTmWait_mesh (d : Device) (v : List TmFrame) : (d.setTmWait v).mesh = d.mesh := rfl
@[simp] theorem Device.setTmWait_tokHold (d : Device) (v : List TmFrame) : (d.setTmWait v).tokHold = d.tokHold := rfl
@[simp] theorem Device.setTmWait_ropes (d : Device) (v : List TmFrame) : (d.setTmWait v).ropes = d.ropes := rfl
@[simp] theorem Device.setTmWait_ropeMoved (d : Device) (v : List TmFrame) : (d.setTmWait v).ropeMoved = d.ropeMoved := rfl
@[simp] theorem Device.setTmWait_flows (d : Device) (v : List TmFrame) : (d.setTmWait v).flows = d.flows := rfl
@[simp] theorem Device.setTmWait_tapQ (d : Device) (v : List TmFrame) : (d.setTmWait v).tapQ = d.tapQ := rfl
@[simp] theorem Device.setTmWait_nextFlow (d : Device) (v : List TmFrame) : (d.setTmWait v).nextFlow = d.nextFlow := rfl
@[simp] theorem Device.setTmWait_parts (d : Device) (v : List TmFrame) : (d.setTmWait v).parts = d.parts := rfl
@[simp] theorem Device.setTmWait_ceLog (d : Device) (v : List TmFrame) : (d.setTmWait v).ceLog = d.ceLog := rfl
@[simp] theorem Device.setTmWait_ddrUndef (d : Device) (v : List TmFrame) : (d.setTmWait v).ddrUndef = d.ddrUndef := rfl
@[simp] theorem Device.setTmWait_conns (d : Device) (v : List TmFrame) : (d.setTmWait v).conns = d.conns := rfl
@[simp] theorem Device.setTmWait_gft (d : Device) (v : List TmFrame) : (d.setTmWait v).gft = d.gft := rfl
@[simp] theorem Device.setTmWait_groups (d : Device) (v : List TmFrame) : (d.setTmWait v).groups = d.groups := rfl
@[simp] theorem Device.setTmWait_tmWait (d : Device) (v : List TmFrame) : (d.setTmWait v).tmWait = v := rfl
@[simp] theorem Device.setTmWait_fecBad (d : Device) (v : List TmFrame) : (d.setTmWait v).fecBad = d.fecBad := rfl
@[simp] theorem Device.setTmWait_keyTime (d : Device) (v : List TmFrame) : (d.setTmWait v).keyTime = d.keyTime := rfl
@[simp] theorem Device.setTmWait_pipeIn (d : Device) (v : List TmFrame) : (d.setTmWait v).pipeIn = d.pipeIn := rfl
@[simp] theorem Device.setTmWait_pipes (d : Device) (v : List TmFrame) : (d.setTmWait v).pipes = d.pipes := rfl
@[simp] theorem Device.setTmWait_clsSlots (d : Device) (v : List TmFrame) : (d.setTmWait v).clsSlots = d.clsSlots := rfl
@[simp] theorem Device.setTmWait_flowCnts (d : Device) (v : List TmFrame) : (d.setTmWait v).flowCnts = d.flowCnts := rfl
@[simp] theorem Device.setTmWait_pmeFlows (d : Device) (v : List TmFrame) : (d.setTmWait v).pmeFlows = d.pmeFlows := rfl
@[simp] theorem Device.setTmWait_places (d : Device) (v : List TmFrame) : (d.setTmWait v).places = d.places := rfl
@[simp] theorem Device.setTmWait_loaded (d : Device) (v : List TmFrame) : (d.setTmWait v).loaded = d.loaded := rfl
@[simp] theorem Device.setTmWait_waveEpoch (d : Device) (v : List TmFrame) : (d.setTmWait v).waveEpoch = d.waveEpoch := rfl
@[simp] theorem Device.setTmWait_tmQueues (d : Device) (v : List TmFrame) : (d.setTmWait v).tmQueues = d.tmQueues := rfl
@[simp] theorem Device.setTmWait_tmPorts (d : Device) (v : List TmFrame) : (d.setTmWait v).tmPorts = d.tmPorts := rfl
@[simp] theorem Device.setTmWait_policers (d : Device) (v : List TmFrame) : (d.setTmWait v).policers = d.policers := rfl
@[simp] theorem Device.setTmWait_blocks (d : Device) (v : List TmFrame) : (d.setTmWait v).blocks = d.blocks := rfl
@[simp] theorem Device.setTmWait_nvmes (d : Device) (v : List TmFrame) : (d.setTmWait v).nvmes = d.nvmes := rfl
@[simp] theorem Device.setTmWait_nextNvme (d : Device) (v : List TmFrame) : (d.setTmWait v).nextNvme = d.nextNvme := rfl
@[simp] theorem Device.setTmWait_stage (d : Device) (v : List TmFrame) : (d.setTmWait v).stage = d.stage := rfl
@[simp] theorem Device.setTmWait_vaults (d : Device) (v : List TmFrame) : (d.setTmWait v).vaults = d.vaults := rfl
@[simp] theorem Device.setTmWait_hostReads (d : Device) (v : List TmFrame) : (d.setTmWait v).hostReads = d.hostReads := rfl
@[simp] theorem Device.setTmWait_link (d : Device) (v : List TmFrame) : (d.setTmWait v).link = d.link := rfl
@[simp] theorem Device.setTmWait_nextFetch (d : Device) (v : List TmFrame) : (d.setTmWait v).nextFetch = d.nextFetch := rfl
@[simp] theorem Device.setTmWait_xfers (d : Device) (v : List TmFrame) : (d.setTmWait v).xfers = d.xfers := rfl
@[simp] theorem Device.setTmWait_queues (d : Device) (v : List TmFrame) : (d.setTmWait v).queues = d.queues := rfl
@[simp] theorem Device.setTmWait_fetched (d : Device) (v : List TmFrame) : (d.setTmWait v).fetched = d.fetched := rfl
@[simp] theorem Device.setTmWait_heldW (d : Device) (v : List TmFrame) : (d.setTmWait v).heldW = d.heldW := rfl
@[simp] theorem Device.setTmWait_cores (d : Device) (v : List TmFrame) : (d.setTmWait v).cores = d.cores := rfl
@[simp] theorem Device.setTmWait_fw (d : Device) (v : List TmFrame) : (d.setTmWait v).fw = d.fw := rfl
@[simp] theorem Device.setTmWait_queueMem (d : Device) (v : List TmFrame) : (d.setTmWait v).queueMem = d.queueMem := rfl
@[simp] theorem Device.setTmWait_wlogs (d : Device) (v : List TmFrame) : (d.setTmWait v).wlogs = d.wlogs := rfl
@[simp] theorem Device.setTmWait_stores (d : Device) (v : List TmFrame) : (d.setTmWait v).stores = d.stores := rfl
@[simp] theorem Device.setTmWait_crew (d : Device) (v : List TmFrame) : (d.setTmWait v).crew = d.crew := rfl
@[simp] theorem Device.setTmWait_belay (d : Device) (v : List TmFrame) : (d.setTmWait v).belay = d.belay := rfl
@[simp] theorem Device.setTmWait_tel (d : Device) (v : List TmFrame) : (d.setTmWait v).tel = d.tel := rfl
@[simp] theorem Device.setTmWait_pwr (d : Device) (v : List TmFrame) : (d.setTmWait v).pwr = d.pwr := rfl
@[simp] theorem Device.setFecBad_cfg (d : Device) (v : Tbl (Nat × Nat)) : (d.setFecBad v).cfg = d.cfg := rfl
@[simp] theorem Device.setFecBad_clk (d : Device) (v : Tbl (Nat × Nat)) : (d.setFecBad v).clk = d.clk := rfl
@[simp] theorem Device.setFecBad_reg (d : Device) (v : Tbl (Nat × Nat)) : (d.setFecBad v).reg = d.reg := rfl
@[simp] theorem Device.setFecBad_rings (d : Device) (v : Tbl (Nat × Nat)) : (d.setFecBad v).rings = d.rings := rfl
@[simp] theorem Device.setFecBad_out (d : Device) (v : Tbl (Nat × Nat)) : (d.setFecBad v).out = d.out := rfl
@[simp] theorem Device.setFecBad_wr (d : Device) (v : Tbl (Nat × Nat)) : (d.setFecBad v).wr = d.wr := rfl
@[simp] theorem Device.setFecBad_poison (d : Device) (v : Tbl (Nat × Nat)) : (d.setFecBad v).poison = d.poison := rfl
@[simp] theorem Device.setFecBad_msix (d : Device) (v : Tbl (Nat × Nat)) : (d.setFecBad v).msix = d.msix := rfl
@[simp] theorem Device.setFecBad_hold (d : Device) (v : Tbl (Nat × Nat)) : (d.setFecBad v).hold = d.hold := rfl
@[simp] theorem Device.setFecBad_wave (d : Device) (v : Tbl (Nat × Nat)) : (d.setFecBad v).wave = d.wave := rfl
@[simp] theorem Device.setFecBad_mbr (d : Device) (v : Tbl (Nat × Nat)) : (d.setFecBad v).mbr = d.mbr := rfl
@[simp] theorem Device.setFecBad_corrs (d : Device) (v : Tbl (Nat × Nat)) : (d.setFecBad v).corrs = d.corrs := rfl
@[simp] theorem Device.setFecBad_d2dReplays (d : Device) (v : Tbl (Nat × Nat)) : (d.setFecBad v).d2dReplays = d.d2dReplays := rfl
@[simp] theorem Device.setFecBad_tiles (d : Device) (v : Tbl (Nat × Nat)) : (d.setFecBad v).tiles = d.tiles := rfl
@[simp] theorem Device.setFecBad_mesh (d : Device) (v : Tbl (Nat × Nat)) : (d.setFecBad v).mesh = d.mesh := rfl
@[simp] theorem Device.setFecBad_tokHold (d : Device) (v : Tbl (Nat × Nat)) : (d.setFecBad v).tokHold = d.tokHold := rfl
@[simp] theorem Device.setFecBad_ropes (d : Device) (v : Tbl (Nat × Nat)) : (d.setFecBad v).ropes = d.ropes := rfl
@[simp] theorem Device.setFecBad_ropeMoved (d : Device) (v : Tbl (Nat × Nat)) : (d.setFecBad v).ropeMoved = d.ropeMoved := rfl
@[simp] theorem Device.setFecBad_flows (d : Device) (v : Tbl (Nat × Nat)) : (d.setFecBad v).flows = d.flows := rfl
@[simp] theorem Device.setFecBad_tapQ (d : Device) (v : Tbl (Nat × Nat)) : (d.setFecBad v).tapQ = d.tapQ := rfl
@[simp] theorem Device.setFecBad_nextFlow (d : Device) (v : Tbl (Nat × Nat)) : (d.setFecBad v).nextFlow = d.nextFlow := rfl
@[simp] theorem Device.setFecBad_parts (d : Device) (v : Tbl (Nat × Nat)) : (d.setFecBad v).parts = d.parts := rfl
@[simp] theorem Device.setFecBad_ceLog (d : Device) (v : Tbl (Nat × Nat)) : (d.setFecBad v).ceLog = d.ceLog := rfl
@[simp] theorem Device.setFecBad_ddrUndef (d : Device) (v : Tbl (Nat × Nat)) : (d.setFecBad v).ddrUndef = d.ddrUndef := rfl
@[simp] theorem Device.setFecBad_conns (d : Device) (v : Tbl (Nat × Nat)) : (d.setFecBad v).conns = d.conns := rfl
@[simp] theorem Device.setFecBad_gft (d : Device) (v : Tbl (Nat × Nat)) : (d.setFecBad v).gft = d.gft := rfl
@[simp] theorem Device.setFecBad_groups (d : Device) (v : Tbl (Nat × Nat)) : (d.setFecBad v).groups = d.groups := rfl
@[simp] theorem Device.setFecBad_tmWait (d : Device) (v : Tbl (Nat × Nat)) : (d.setFecBad v).tmWait = d.tmWait := rfl
@[simp] theorem Device.setFecBad_fecBad (d : Device) (v : Tbl (Nat × Nat)) : (d.setFecBad v).fecBad = v := rfl
@[simp] theorem Device.setFecBad_keyTime (d : Device) (v : Tbl (Nat × Nat)) : (d.setFecBad v).keyTime = d.keyTime := rfl
@[simp] theorem Device.setFecBad_pipeIn (d : Device) (v : Tbl (Nat × Nat)) : (d.setFecBad v).pipeIn = d.pipeIn := rfl
@[simp] theorem Device.setFecBad_pipes (d : Device) (v : Tbl (Nat × Nat)) : (d.setFecBad v).pipes = d.pipes := rfl
@[simp] theorem Device.setFecBad_clsSlots (d : Device) (v : Tbl (Nat × Nat)) : (d.setFecBad v).clsSlots = d.clsSlots := rfl
@[simp] theorem Device.setFecBad_flowCnts (d : Device) (v : Tbl (Nat × Nat)) : (d.setFecBad v).flowCnts = d.flowCnts := rfl
@[simp] theorem Device.setFecBad_pmeFlows (d : Device) (v : Tbl (Nat × Nat)) : (d.setFecBad v).pmeFlows = d.pmeFlows := rfl
@[simp] theorem Device.setFecBad_places (d : Device) (v : Tbl (Nat × Nat)) : (d.setFecBad v).places = d.places := rfl
@[simp] theorem Device.setFecBad_loaded (d : Device) (v : Tbl (Nat × Nat)) : (d.setFecBad v).loaded = d.loaded := rfl
@[simp] theorem Device.setFecBad_waveEpoch (d : Device) (v : Tbl (Nat × Nat)) : (d.setFecBad v).waveEpoch = d.waveEpoch := rfl
@[simp] theorem Device.setFecBad_tmQueues (d : Device) (v : Tbl (Nat × Nat)) : (d.setFecBad v).tmQueues = d.tmQueues := rfl
@[simp] theorem Device.setFecBad_tmPorts (d : Device) (v : Tbl (Nat × Nat)) : (d.setFecBad v).tmPorts = d.tmPorts := rfl
@[simp] theorem Device.setFecBad_policers (d : Device) (v : Tbl (Nat × Nat)) : (d.setFecBad v).policers = d.policers := rfl
@[simp] theorem Device.setFecBad_blocks (d : Device) (v : Tbl (Nat × Nat)) : (d.setFecBad v).blocks = d.blocks := rfl
@[simp] theorem Device.setFecBad_nvmes (d : Device) (v : Tbl (Nat × Nat)) : (d.setFecBad v).nvmes = d.nvmes := rfl
@[simp] theorem Device.setFecBad_nextNvme (d : Device) (v : Tbl (Nat × Nat)) : (d.setFecBad v).nextNvme = d.nextNvme := rfl
@[simp] theorem Device.setFecBad_stage (d : Device) (v : Tbl (Nat × Nat)) : (d.setFecBad v).stage = d.stage := rfl
@[simp] theorem Device.setFecBad_vaults (d : Device) (v : Tbl (Nat × Nat)) : (d.setFecBad v).vaults = d.vaults := rfl
@[simp] theorem Device.setFecBad_hostReads (d : Device) (v : Tbl (Nat × Nat)) : (d.setFecBad v).hostReads = d.hostReads := rfl
@[simp] theorem Device.setFecBad_link (d : Device) (v : Tbl (Nat × Nat)) : (d.setFecBad v).link = d.link := rfl
@[simp] theorem Device.setFecBad_nextFetch (d : Device) (v : Tbl (Nat × Nat)) : (d.setFecBad v).nextFetch = d.nextFetch := rfl
@[simp] theorem Device.setFecBad_xfers (d : Device) (v : Tbl (Nat × Nat)) : (d.setFecBad v).xfers = d.xfers := rfl
@[simp] theorem Device.setFecBad_queues (d : Device) (v : Tbl (Nat × Nat)) : (d.setFecBad v).queues = d.queues := rfl
@[simp] theorem Device.setFecBad_fetched (d : Device) (v : Tbl (Nat × Nat)) : (d.setFecBad v).fetched = d.fetched := rfl
@[simp] theorem Device.setFecBad_heldW (d : Device) (v : Tbl (Nat × Nat)) : (d.setFecBad v).heldW = d.heldW := rfl
@[simp] theorem Device.setFecBad_cores (d : Device) (v : Tbl (Nat × Nat)) : (d.setFecBad v).cores = d.cores := rfl
@[simp] theorem Device.setFecBad_fw (d : Device) (v : Tbl (Nat × Nat)) : (d.setFecBad v).fw = d.fw := rfl
@[simp] theorem Device.setFecBad_queueMem (d : Device) (v : Tbl (Nat × Nat)) : (d.setFecBad v).queueMem = d.queueMem := rfl
@[simp] theorem Device.setFecBad_wlogs (d : Device) (v : Tbl (Nat × Nat)) : (d.setFecBad v).wlogs = d.wlogs := rfl
@[simp] theorem Device.setFecBad_stores (d : Device) (v : Tbl (Nat × Nat)) : (d.setFecBad v).stores = d.stores := rfl
@[simp] theorem Device.setFecBad_crew (d : Device) (v : Tbl (Nat × Nat)) : (d.setFecBad v).crew = d.crew := rfl
@[simp] theorem Device.setFecBad_belay (d : Device) (v : Tbl (Nat × Nat)) : (d.setFecBad v).belay = d.belay := rfl
@[simp] theorem Device.setFecBad_tel (d : Device) (v : Tbl (Nat × Nat)) : (d.setFecBad v).tel = d.tel := rfl
@[simp] theorem Device.setFecBad_pwr (d : Device) (v : Tbl (Nat × Nat)) : (d.setFecBad v).pwr = d.pwr := rfl
@[simp] theorem Device.setKeyTime_cfg (d : Device) (v : Tbl Nat) : (d.setKeyTime v).cfg = d.cfg := rfl
@[simp] theorem Device.setKeyTime_clk (d : Device) (v : Tbl Nat) : (d.setKeyTime v).clk = d.clk := rfl
@[simp] theorem Device.setKeyTime_reg (d : Device) (v : Tbl Nat) : (d.setKeyTime v).reg = d.reg := rfl
@[simp] theorem Device.setKeyTime_rings (d : Device) (v : Tbl Nat) : (d.setKeyTime v).rings = d.rings := rfl
@[simp] theorem Device.setKeyTime_out (d : Device) (v : Tbl Nat) : (d.setKeyTime v).out = d.out := rfl
@[simp] theorem Device.setKeyTime_wr (d : Device) (v : Tbl Nat) : (d.setKeyTime v).wr = d.wr := rfl
@[simp] theorem Device.setKeyTime_poison (d : Device) (v : Tbl Nat) : (d.setKeyTime v).poison = d.poison := rfl
@[simp] theorem Device.setKeyTime_msix (d : Device) (v : Tbl Nat) : (d.setKeyTime v).msix = d.msix := rfl
@[simp] theorem Device.setKeyTime_hold (d : Device) (v : Tbl Nat) : (d.setKeyTime v).hold = d.hold := rfl
@[simp] theorem Device.setKeyTime_wave (d : Device) (v : Tbl Nat) : (d.setKeyTime v).wave = d.wave := rfl
@[simp] theorem Device.setKeyTime_mbr (d : Device) (v : Tbl Nat) : (d.setKeyTime v).mbr = d.mbr := rfl
@[simp] theorem Device.setKeyTime_corrs (d : Device) (v : Tbl Nat) : (d.setKeyTime v).corrs = d.corrs := rfl
@[simp] theorem Device.setKeyTime_d2dReplays (d : Device) (v : Tbl Nat) : (d.setKeyTime v).d2dReplays = d.d2dReplays := rfl
@[simp] theorem Device.setKeyTime_tiles (d : Device) (v : Tbl Nat) : (d.setKeyTime v).tiles = d.tiles := rfl
@[simp] theorem Device.setKeyTime_mesh (d : Device) (v : Tbl Nat) : (d.setKeyTime v).mesh = d.mesh := rfl
@[simp] theorem Device.setKeyTime_tokHold (d : Device) (v : Tbl Nat) : (d.setKeyTime v).tokHold = d.tokHold := rfl
@[simp] theorem Device.setKeyTime_ropes (d : Device) (v : Tbl Nat) : (d.setKeyTime v).ropes = d.ropes := rfl
@[simp] theorem Device.setKeyTime_ropeMoved (d : Device) (v : Tbl Nat) : (d.setKeyTime v).ropeMoved = d.ropeMoved := rfl
@[simp] theorem Device.setKeyTime_flows (d : Device) (v : Tbl Nat) : (d.setKeyTime v).flows = d.flows := rfl
@[simp] theorem Device.setKeyTime_tapQ (d : Device) (v : Tbl Nat) : (d.setKeyTime v).tapQ = d.tapQ := rfl
@[simp] theorem Device.setKeyTime_nextFlow (d : Device) (v : Tbl Nat) : (d.setKeyTime v).nextFlow = d.nextFlow := rfl
@[simp] theorem Device.setKeyTime_parts (d : Device) (v : Tbl Nat) : (d.setKeyTime v).parts = d.parts := rfl
@[simp] theorem Device.setKeyTime_ceLog (d : Device) (v : Tbl Nat) : (d.setKeyTime v).ceLog = d.ceLog := rfl
@[simp] theorem Device.setKeyTime_ddrUndef (d : Device) (v : Tbl Nat) : (d.setKeyTime v).ddrUndef = d.ddrUndef := rfl
@[simp] theorem Device.setKeyTime_conns (d : Device) (v : Tbl Nat) : (d.setKeyTime v).conns = d.conns := rfl
@[simp] theorem Device.setKeyTime_gft (d : Device) (v : Tbl Nat) : (d.setKeyTime v).gft = d.gft := rfl
@[simp] theorem Device.setKeyTime_groups (d : Device) (v : Tbl Nat) : (d.setKeyTime v).groups = d.groups := rfl
@[simp] theorem Device.setKeyTime_tmWait (d : Device) (v : Tbl Nat) : (d.setKeyTime v).tmWait = d.tmWait := rfl
@[simp] theorem Device.setKeyTime_fecBad (d : Device) (v : Tbl Nat) : (d.setKeyTime v).fecBad = d.fecBad := rfl
@[simp] theorem Device.setKeyTime_keyTime (d : Device) (v : Tbl Nat) : (d.setKeyTime v).keyTime = v := rfl
@[simp] theorem Device.setKeyTime_pipeIn (d : Device) (v : Tbl Nat) : (d.setKeyTime v).pipeIn = d.pipeIn := rfl
@[simp] theorem Device.setKeyTime_pipes (d : Device) (v : Tbl Nat) : (d.setKeyTime v).pipes = d.pipes := rfl
@[simp] theorem Device.setKeyTime_clsSlots (d : Device) (v : Tbl Nat) : (d.setKeyTime v).clsSlots = d.clsSlots := rfl
@[simp] theorem Device.setKeyTime_flowCnts (d : Device) (v : Tbl Nat) : (d.setKeyTime v).flowCnts = d.flowCnts := rfl
@[simp] theorem Device.setKeyTime_pmeFlows (d : Device) (v : Tbl Nat) : (d.setKeyTime v).pmeFlows = d.pmeFlows := rfl
@[simp] theorem Device.setKeyTime_places (d : Device) (v : Tbl Nat) : (d.setKeyTime v).places = d.places := rfl
@[simp] theorem Device.setKeyTime_loaded (d : Device) (v : Tbl Nat) : (d.setKeyTime v).loaded = d.loaded := rfl
@[simp] theorem Device.setKeyTime_waveEpoch (d : Device) (v : Tbl Nat) : (d.setKeyTime v).waveEpoch = d.waveEpoch := rfl
@[simp] theorem Device.setKeyTime_tmQueues (d : Device) (v : Tbl Nat) : (d.setKeyTime v).tmQueues = d.tmQueues := rfl
@[simp] theorem Device.setKeyTime_tmPorts (d : Device) (v : Tbl Nat) : (d.setKeyTime v).tmPorts = d.tmPorts := rfl
@[simp] theorem Device.setKeyTime_policers (d : Device) (v : Tbl Nat) : (d.setKeyTime v).policers = d.policers := rfl
@[simp] theorem Device.setKeyTime_blocks (d : Device) (v : Tbl Nat) : (d.setKeyTime v).blocks = d.blocks := rfl
@[simp] theorem Device.setKeyTime_nvmes (d : Device) (v : Tbl Nat) : (d.setKeyTime v).nvmes = d.nvmes := rfl
@[simp] theorem Device.setKeyTime_nextNvme (d : Device) (v : Tbl Nat) : (d.setKeyTime v).nextNvme = d.nextNvme := rfl
@[simp] theorem Device.setKeyTime_stage (d : Device) (v : Tbl Nat) : (d.setKeyTime v).stage = d.stage := rfl
@[simp] theorem Device.setKeyTime_vaults (d : Device) (v : Tbl Nat) : (d.setKeyTime v).vaults = d.vaults := rfl
@[simp] theorem Device.setKeyTime_hostReads (d : Device) (v : Tbl Nat) : (d.setKeyTime v).hostReads = d.hostReads := rfl
@[simp] theorem Device.setKeyTime_link (d : Device) (v : Tbl Nat) : (d.setKeyTime v).link = d.link := rfl
@[simp] theorem Device.setKeyTime_nextFetch (d : Device) (v : Tbl Nat) : (d.setKeyTime v).nextFetch = d.nextFetch := rfl
@[simp] theorem Device.setKeyTime_xfers (d : Device) (v : Tbl Nat) : (d.setKeyTime v).xfers = d.xfers := rfl
@[simp] theorem Device.setKeyTime_queues (d : Device) (v : Tbl Nat) : (d.setKeyTime v).queues = d.queues := rfl
@[simp] theorem Device.setKeyTime_fetched (d : Device) (v : Tbl Nat) : (d.setKeyTime v).fetched = d.fetched := rfl
@[simp] theorem Device.setKeyTime_heldW (d : Device) (v : Tbl Nat) : (d.setKeyTime v).heldW = d.heldW := rfl
@[simp] theorem Device.setKeyTime_cores (d : Device) (v : Tbl Nat) : (d.setKeyTime v).cores = d.cores := rfl
@[simp] theorem Device.setKeyTime_fw (d : Device) (v : Tbl Nat) : (d.setKeyTime v).fw = d.fw := rfl
@[simp] theorem Device.setKeyTime_queueMem (d : Device) (v : Tbl Nat) : (d.setKeyTime v).queueMem = d.queueMem := rfl
@[simp] theorem Device.setKeyTime_wlogs (d : Device) (v : Tbl Nat) : (d.setKeyTime v).wlogs = d.wlogs := rfl
@[simp] theorem Device.setKeyTime_stores (d : Device) (v : Tbl Nat) : (d.setKeyTime v).stores = d.stores := rfl
@[simp] theorem Device.setKeyTime_crew (d : Device) (v : Tbl Nat) : (d.setKeyTime v).crew = d.crew := rfl
@[simp] theorem Device.setKeyTime_belay (d : Device) (v : Tbl Nat) : (d.setKeyTime v).belay = d.belay := rfl
@[simp] theorem Device.setKeyTime_tel (d : Device) (v : Tbl Nat) : (d.setKeyTime v).tel = d.tel := rfl
@[simp] theorem Device.setKeyTime_pwr (d : Device) (v : Tbl Nat) : (d.setKeyTime v).pwr = d.pwr := rfl
@[simp] theorem Device.setPipeIn_cfg (d : Device) (v : Tbl PipeIn) : (d.setPipeIn v).cfg = d.cfg := rfl
@[simp] theorem Device.setPipeIn_clk (d : Device) (v : Tbl PipeIn) : (d.setPipeIn v).clk = d.clk := rfl
@[simp] theorem Device.setPipeIn_reg (d : Device) (v : Tbl PipeIn) : (d.setPipeIn v).reg = d.reg := rfl
@[simp] theorem Device.setPipeIn_rings (d : Device) (v : Tbl PipeIn) : (d.setPipeIn v).rings = d.rings := rfl
@[simp] theorem Device.setPipeIn_out (d : Device) (v : Tbl PipeIn) : (d.setPipeIn v).out = d.out := rfl
@[simp] theorem Device.setPipeIn_wr (d : Device) (v : Tbl PipeIn) : (d.setPipeIn v).wr = d.wr := rfl
@[simp] theorem Device.setPipeIn_poison (d : Device) (v : Tbl PipeIn) : (d.setPipeIn v).poison = d.poison := rfl
@[simp] theorem Device.setPipeIn_msix (d : Device) (v : Tbl PipeIn) : (d.setPipeIn v).msix = d.msix := rfl
@[simp] theorem Device.setPipeIn_hold (d : Device) (v : Tbl PipeIn) : (d.setPipeIn v).hold = d.hold := rfl
@[simp] theorem Device.setPipeIn_wave (d : Device) (v : Tbl PipeIn) : (d.setPipeIn v).wave = d.wave := rfl
@[simp] theorem Device.setPipeIn_mbr (d : Device) (v : Tbl PipeIn) : (d.setPipeIn v).mbr = d.mbr := rfl
@[simp] theorem Device.setPipeIn_corrs (d : Device) (v : Tbl PipeIn) : (d.setPipeIn v).corrs = d.corrs := rfl
@[simp] theorem Device.setPipeIn_d2dReplays (d : Device) (v : Tbl PipeIn) : (d.setPipeIn v).d2dReplays = d.d2dReplays := rfl
@[simp] theorem Device.setPipeIn_tiles (d : Device) (v : Tbl PipeIn) : (d.setPipeIn v).tiles = d.tiles := rfl
@[simp] theorem Device.setPipeIn_mesh (d : Device) (v : Tbl PipeIn) : (d.setPipeIn v).mesh = d.mesh := rfl
@[simp] theorem Device.setPipeIn_tokHold (d : Device) (v : Tbl PipeIn) : (d.setPipeIn v).tokHold = d.tokHold := rfl
@[simp] theorem Device.setPipeIn_ropes (d : Device) (v : Tbl PipeIn) : (d.setPipeIn v).ropes = d.ropes := rfl
@[simp] theorem Device.setPipeIn_ropeMoved (d : Device) (v : Tbl PipeIn) : (d.setPipeIn v).ropeMoved = d.ropeMoved := rfl
@[simp] theorem Device.setPipeIn_flows (d : Device) (v : Tbl PipeIn) : (d.setPipeIn v).flows = d.flows := rfl
@[simp] theorem Device.setPipeIn_tapQ (d : Device) (v : Tbl PipeIn) : (d.setPipeIn v).tapQ = d.tapQ := rfl
@[simp] theorem Device.setPipeIn_nextFlow (d : Device) (v : Tbl PipeIn) : (d.setPipeIn v).nextFlow = d.nextFlow := rfl
@[simp] theorem Device.setPipeIn_parts (d : Device) (v : Tbl PipeIn) : (d.setPipeIn v).parts = d.parts := rfl
@[simp] theorem Device.setPipeIn_ceLog (d : Device) (v : Tbl PipeIn) : (d.setPipeIn v).ceLog = d.ceLog := rfl
@[simp] theorem Device.setPipeIn_ddrUndef (d : Device) (v : Tbl PipeIn) : (d.setPipeIn v).ddrUndef = d.ddrUndef := rfl
@[simp] theorem Device.setPipeIn_conns (d : Device) (v : Tbl PipeIn) : (d.setPipeIn v).conns = d.conns := rfl
@[simp] theorem Device.setPipeIn_gft (d : Device) (v : Tbl PipeIn) : (d.setPipeIn v).gft = d.gft := rfl
@[simp] theorem Device.setPipeIn_groups (d : Device) (v : Tbl PipeIn) : (d.setPipeIn v).groups = d.groups := rfl
@[simp] theorem Device.setPipeIn_tmWait (d : Device) (v : Tbl PipeIn) : (d.setPipeIn v).tmWait = d.tmWait := rfl
@[simp] theorem Device.setPipeIn_fecBad (d : Device) (v : Tbl PipeIn) : (d.setPipeIn v).fecBad = d.fecBad := rfl
@[simp] theorem Device.setPipeIn_keyTime (d : Device) (v : Tbl PipeIn) : (d.setPipeIn v).keyTime = d.keyTime := rfl
@[simp] theorem Device.setPipeIn_pipeIn (d : Device) (v : Tbl PipeIn) : (d.setPipeIn v).pipeIn = v := rfl
@[simp] theorem Device.setPipeIn_pipes (d : Device) (v : Tbl PipeIn) : (d.setPipeIn v).pipes = d.pipes := rfl
@[simp] theorem Device.setPipeIn_clsSlots (d : Device) (v : Tbl PipeIn) : (d.setPipeIn v).clsSlots = d.clsSlots := rfl
@[simp] theorem Device.setPipeIn_flowCnts (d : Device) (v : Tbl PipeIn) : (d.setPipeIn v).flowCnts = d.flowCnts := rfl
@[simp] theorem Device.setPipeIn_pmeFlows (d : Device) (v : Tbl PipeIn) : (d.setPipeIn v).pmeFlows = d.pmeFlows := rfl
@[simp] theorem Device.setPipeIn_places (d : Device) (v : Tbl PipeIn) : (d.setPipeIn v).places = d.places := rfl
@[simp] theorem Device.setPipeIn_loaded (d : Device) (v : Tbl PipeIn) : (d.setPipeIn v).loaded = d.loaded := rfl
@[simp] theorem Device.setPipeIn_waveEpoch (d : Device) (v : Tbl PipeIn) : (d.setPipeIn v).waveEpoch = d.waveEpoch := rfl
@[simp] theorem Device.setPipeIn_tmQueues (d : Device) (v : Tbl PipeIn) : (d.setPipeIn v).tmQueues = d.tmQueues := rfl
@[simp] theorem Device.setPipeIn_tmPorts (d : Device) (v : Tbl PipeIn) : (d.setPipeIn v).tmPorts = d.tmPorts := rfl
@[simp] theorem Device.setPipeIn_policers (d : Device) (v : Tbl PipeIn) : (d.setPipeIn v).policers = d.policers := rfl
@[simp] theorem Device.setPipeIn_blocks (d : Device) (v : Tbl PipeIn) : (d.setPipeIn v).blocks = d.blocks := rfl
@[simp] theorem Device.setPipeIn_nvmes (d : Device) (v : Tbl PipeIn) : (d.setPipeIn v).nvmes = d.nvmes := rfl
@[simp] theorem Device.setPipeIn_nextNvme (d : Device) (v : Tbl PipeIn) : (d.setPipeIn v).nextNvme = d.nextNvme := rfl
@[simp] theorem Device.setPipeIn_stage (d : Device) (v : Tbl PipeIn) : (d.setPipeIn v).stage = d.stage := rfl
@[simp] theorem Device.setPipeIn_vaults (d : Device) (v : Tbl PipeIn) : (d.setPipeIn v).vaults = d.vaults := rfl
@[simp] theorem Device.setPipeIn_hostReads (d : Device) (v : Tbl PipeIn) : (d.setPipeIn v).hostReads = d.hostReads := rfl
@[simp] theorem Device.setPipeIn_link (d : Device) (v : Tbl PipeIn) : (d.setPipeIn v).link = d.link := rfl
@[simp] theorem Device.setPipeIn_nextFetch (d : Device) (v : Tbl PipeIn) : (d.setPipeIn v).nextFetch = d.nextFetch := rfl
@[simp] theorem Device.setPipeIn_xfers (d : Device) (v : Tbl PipeIn) : (d.setPipeIn v).xfers = d.xfers := rfl
@[simp] theorem Device.setPipeIn_queues (d : Device) (v : Tbl PipeIn) : (d.setPipeIn v).queues = d.queues := rfl
@[simp] theorem Device.setPipeIn_fetched (d : Device) (v : Tbl PipeIn) : (d.setPipeIn v).fetched = d.fetched := rfl
@[simp] theorem Device.setPipeIn_heldW (d : Device) (v : Tbl PipeIn) : (d.setPipeIn v).heldW = d.heldW := rfl
@[simp] theorem Device.setPipeIn_cores (d : Device) (v : Tbl PipeIn) : (d.setPipeIn v).cores = d.cores := rfl
@[simp] theorem Device.setPipeIn_fw (d : Device) (v : Tbl PipeIn) : (d.setPipeIn v).fw = d.fw := rfl
@[simp] theorem Device.setPipeIn_queueMem (d : Device) (v : Tbl PipeIn) : (d.setPipeIn v).queueMem = d.queueMem := rfl
@[simp] theorem Device.setPipeIn_wlogs (d : Device) (v : Tbl PipeIn) : (d.setPipeIn v).wlogs = d.wlogs := rfl
@[simp] theorem Device.setPipeIn_stores (d : Device) (v : Tbl PipeIn) : (d.setPipeIn v).stores = d.stores := rfl
@[simp] theorem Device.setPipeIn_crew (d : Device) (v : Tbl PipeIn) : (d.setPipeIn v).crew = d.crew := rfl
@[simp] theorem Device.setPipeIn_belay (d : Device) (v : Tbl PipeIn) : (d.setPipeIn v).belay = d.belay := rfl
@[simp] theorem Device.setPipeIn_tel (d : Device) (v : Tbl PipeIn) : (d.setPipeIn v).tel = d.tel := rfl
@[simp] theorem Device.setPipeIn_pwr (d : Device) (v : Tbl PipeIn) : (d.setPipeIn v).pwr = d.pwr := rfl
@[simp] theorem Device.setPipes_cfg (d : Device) (v : Tbl PipeDie) : (d.setPipes v).cfg = d.cfg := rfl
@[simp] theorem Device.setPipes_clk (d : Device) (v : Tbl PipeDie) : (d.setPipes v).clk = d.clk := rfl
@[simp] theorem Device.setPipes_reg (d : Device) (v : Tbl PipeDie) : (d.setPipes v).reg = d.reg := rfl
@[simp] theorem Device.setPipes_rings (d : Device) (v : Tbl PipeDie) : (d.setPipes v).rings = d.rings := rfl
@[simp] theorem Device.setPipes_out (d : Device) (v : Tbl PipeDie) : (d.setPipes v).out = d.out := rfl
@[simp] theorem Device.setPipes_wr (d : Device) (v : Tbl PipeDie) : (d.setPipes v).wr = d.wr := rfl
@[simp] theorem Device.setPipes_poison (d : Device) (v : Tbl PipeDie) : (d.setPipes v).poison = d.poison := rfl
@[simp] theorem Device.setPipes_msix (d : Device) (v : Tbl PipeDie) : (d.setPipes v).msix = d.msix := rfl
@[simp] theorem Device.setPipes_hold (d : Device) (v : Tbl PipeDie) : (d.setPipes v).hold = d.hold := rfl
@[simp] theorem Device.setPipes_wave (d : Device) (v : Tbl PipeDie) : (d.setPipes v).wave = d.wave := rfl
@[simp] theorem Device.setPipes_mbr (d : Device) (v : Tbl PipeDie) : (d.setPipes v).mbr = d.mbr := rfl
@[simp] theorem Device.setPipes_corrs (d : Device) (v : Tbl PipeDie) : (d.setPipes v).corrs = d.corrs := rfl
@[simp] theorem Device.setPipes_d2dReplays (d : Device) (v : Tbl PipeDie) : (d.setPipes v).d2dReplays = d.d2dReplays := rfl
@[simp] theorem Device.setPipes_tiles (d : Device) (v : Tbl PipeDie) : (d.setPipes v).tiles = d.tiles := rfl
@[simp] theorem Device.setPipes_mesh (d : Device) (v : Tbl PipeDie) : (d.setPipes v).mesh = d.mesh := rfl
@[simp] theorem Device.setPipes_tokHold (d : Device) (v : Tbl PipeDie) : (d.setPipes v).tokHold = d.tokHold := rfl
@[simp] theorem Device.setPipes_ropes (d : Device) (v : Tbl PipeDie) : (d.setPipes v).ropes = d.ropes := rfl
@[simp] theorem Device.setPipes_ropeMoved (d : Device) (v : Tbl PipeDie) : (d.setPipes v).ropeMoved = d.ropeMoved := rfl
@[simp] theorem Device.setPipes_flows (d : Device) (v : Tbl PipeDie) : (d.setPipes v).flows = d.flows := rfl
@[simp] theorem Device.setPipes_tapQ (d : Device) (v : Tbl PipeDie) : (d.setPipes v).tapQ = d.tapQ := rfl
@[simp] theorem Device.setPipes_nextFlow (d : Device) (v : Tbl PipeDie) : (d.setPipes v).nextFlow = d.nextFlow := rfl
@[simp] theorem Device.setPipes_parts (d : Device) (v : Tbl PipeDie) : (d.setPipes v).parts = d.parts := rfl
@[simp] theorem Device.setPipes_ceLog (d : Device) (v : Tbl PipeDie) : (d.setPipes v).ceLog = d.ceLog := rfl
@[simp] theorem Device.setPipes_ddrUndef (d : Device) (v : Tbl PipeDie) : (d.setPipes v).ddrUndef = d.ddrUndef := rfl
@[simp] theorem Device.setPipes_conns (d : Device) (v : Tbl PipeDie) : (d.setPipes v).conns = d.conns := rfl
@[simp] theorem Device.setPipes_gft (d : Device) (v : Tbl PipeDie) : (d.setPipes v).gft = d.gft := rfl
@[simp] theorem Device.setPipes_groups (d : Device) (v : Tbl PipeDie) : (d.setPipes v).groups = d.groups := rfl
@[simp] theorem Device.setPipes_tmWait (d : Device) (v : Tbl PipeDie) : (d.setPipes v).tmWait = d.tmWait := rfl
@[simp] theorem Device.setPipes_fecBad (d : Device) (v : Tbl PipeDie) : (d.setPipes v).fecBad = d.fecBad := rfl
@[simp] theorem Device.setPipes_keyTime (d : Device) (v : Tbl PipeDie) : (d.setPipes v).keyTime = d.keyTime := rfl
@[simp] theorem Device.setPipes_pipeIn (d : Device) (v : Tbl PipeDie) : (d.setPipes v).pipeIn = d.pipeIn := rfl
@[simp] theorem Device.setPipes_pipes (d : Device) (v : Tbl PipeDie) : (d.setPipes v).pipes = v := rfl
@[simp] theorem Device.setPipes_clsSlots (d : Device) (v : Tbl PipeDie) : (d.setPipes v).clsSlots = d.clsSlots := rfl
@[simp] theorem Device.setPipes_flowCnts (d : Device) (v : Tbl PipeDie) : (d.setPipes v).flowCnts = d.flowCnts := rfl
@[simp] theorem Device.setPipes_pmeFlows (d : Device) (v : Tbl PipeDie) : (d.setPipes v).pmeFlows = d.pmeFlows := rfl
@[simp] theorem Device.setPipes_places (d : Device) (v : Tbl PipeDie) : (d.setPipes v).places = d.places := rfl
@[simp] theorem Device.setPipes_loaded (d : Device) (v : Tbl PipeDie) : (d.setPipes v).loaded = d.loaded := rfl
@[simp] theorem Device.setPipes_waveEpoch (d : Device) (v : Tbl PipeDie) : (d.setPipes v).waveEpoch = d.waveEpoch := rfl
@[simp] theorem Device.setPipes_tmQueues (d : Device) (v : Tbl PipeDie) : (d.setPipes v).tmQueues = d.tmQueues := rfl
@[simp] theorem Device.setPipes_tmPorts (d : Device) (v : Tbl PipeDie) : (d.setPipes v).tmPorts = d.tmPorts := rfl
@[simp] theorem Device.setPipes_policers (d : Device) (v : Tbl PipeDie) : (d.setPipes v).policers = d.policers := rfl
@[simp] theorem Device.setPipes_blocks (d : Device) (v : Tbl PipeDie) : (d.setPipes v).blocks = d.blocks := rfl
@[simp] theorem Device.setPipes_nvmes (d : Device) (v : Tbl PipeDie) : (d.setPipes v).nvmes = d.nvmes := rfl
@[simp] theorem Device.setPipes_nextNvme (d : Device) (v : Tbl PipeDie) : (d.setPipes v).nextNvme = d.nextNvme := rfl
@[simp] theorem Device.setPipes_stage (d : Device) (v : Tbl PipeDie) : (d.setPipes v).stage = d.stage := rfl
@[simp] theorem Device.setPipes_vaults (d : Device) (v : Tbl PipeDie) : (d.setPipes v).vaults = d.vaults := rfl
@[simp] theorem Device.setPipes_hostReads (d : Device) (v : Tbl PipeDie) : (d.setPipes v).hostReads = d.hostReads := rfl
@[simp] theorem Device.setPipes_link (d : Device) (v : Tbl PipeDie) : (d.setPipes v).link = d.link := rfl
@[simp] theorem Device.setPipes_nextFetch (d : Device) (v : Tbl PipeDie) : (d.setPipes v).nextFetch = d.nextFetch := rfl
@[simp] theorem Device.setPipes_xfers (d : Device) (v : Tbl PipeDie) : (d.setPipes v).xfers = d.xfers := rfl
@[simp] theorem Device.setPipes_queues (d : Device) (v : Tbl PipeDie) : (d.setPipes v).queues = d.queues := rfl
@[simp] theorem Device.setPipes_fetched (d : Device) (v : Tbl PipeDie) : (d.setPipes v).fetched = d.fetched := rfl
@[simp] theorem Device.setPipes_heldW (d : Device) (v : Tbl PipeDie) : (d.setPipes v).heldW = d.heldW := rfl
@[simp] theorem Device.setPipes_cores (d : Device) (v : Tbl PipeDie) : (d.setPipes v).cores = d.cores := rfl
@[simp] theorem Device.setPipes_fw (d : Device) (v : Tbl PipeDie) : (d.setPipes v).fw = d.fw := rfl
@[simp] theorem Device.setPipes_queueMem (d : Device) (v : Tbl PipeDie) : (d.setPipes v).queueMem = d.queueMem := rfl
@[simp] theorem Device.setPipes_wlogs (d : Device) (v : Tbl PipeDie) : (d.setPipes v).wlogs = d.wlogs := rfl
@[simp] theorem Device.setPipes_stores (d : Device) (v : Tbl PipeDie) : (d.setPipes v).stores = d.stores := rfl
@[simp] theorem Device.setPipes_crew (d : Device) (v : Tbl PipeDie) : (d.setPipes v).crew = d.crew := rfl
@[simp] theorem Device.setPipes_belay (d : Device) (v : Tbl PipeDie) : (d.setPipes v).belay = d.belay := rfl
@[simp] theorem Device.setPipes_tel (d : Device) (v : Tbl PipeDie) : (d.setPipes v).tel = d.tel := rfl
@[simp] theorem Device.setPipes_pwr (d : Device) (v : Tbl PipeDie) : (d.setPipes v).pwr = d.pwr := rfl
@[simp] theorem Device.setClsSlots_cfg (d : Device) (v : Tbl ClsSlot) : (d.setClsSlots v).cfg = d.cfg := rfl
@[simp] theorem Device.setClsSlots_clk (d : Device) (v : Tbl ClsSlot) : (d.setClsSlots v).clk = d.clk := rfl
@[simp] theorem Device.setClsSlots_reg (d : Device) (v : Tbl ClsSlot) : (d.setClsSlots v).reg = d.reg := rfl
@[simp] theorem Device.setClsSlots_rings (d : Device) (v : Tbl ClsSlot) : (d.setClsSlots v).rings = d.rings := rfl
@[simp] theorem Device.setClsSlots_out (d : Device) (v : Tbl ClsSlot) : (d.setClsSlots v).out = d.out := rfl
@[simp] theorem Device.setClsSlots_wr (d : Device) (v : Tbl ClsSlot) : (d.setClsSlots v).wr = d.wr := rfl
@[simp] theorem Device.setClsSlots_poison (d : Device) (v : Tbl ClsSlot) : (d.setClsSlots v).poison = d.poison := rfl
@[simp] theorem Device.setClsSlots_msix (d : Device) (v : Tbl ClsSlot) : (d.setClsSlots v).msix = d.msix := rfl
@[simp] theorem Device.setClsSlots_hold (d : Device) (v : Tbl ClsSlot) : (d.setClsSlots v).hold = d.hold := rfl
@[simp] theorem Device.setClsSlots_wave (d : Device) (v : Tbl ClsSlot) : (d.setClsSlots v).wave = d.wave := rfl
@[simp] theorem Device.setClsSlots_mbr (d : Device) (v : Tbl ClsSlot) : (d.setClsSlots v).mbr = d.mbr := rfl
@[simp] theorem Device.setClsSlots_corrs (d : Device) (v : Tbl ClsSlot) : (d.setClsSlots v).corrs = d.corrs := rfl
@[simp] theorem Device.setClsSlots_d2dReplays (d : Device) (v : Tbl ClsSlot) : (d.setClsSlots v).d2dReplays = d.d2dReplays := rfl
@[simp] theorem Device.setClsSlots_tiles (d : Device) (v : Tbl ClsSlot) : (d.setClsSlots v).tiles = d.tiles := rfl
@[simp] theorem Device.setClsSlots_mesh (d : Device) (v : Tbl ClsSlot) : (d.setClsSlots v).mesh = d.mesh := rfl
@[simp] theorem Device.setClsSlots_tokHold (d : Device) (v : Tbl ClsSlot) : (d.setClsSlots v).tokHold = d.tokHold := rfl
@[simp] theorem Device.setClsSlots_ropes (d : Device) (v : Tbl ClsSlot) : (d.setClsSlots v).ropes = d.ropes := rfl
@[simp] theorem Device.setClsSlots_ropeMoved (d : Device) (v : Tbl ClsSlot) : (d.setClsSlots v).ropeMoved = d.ropeMoved := rfl
@[simp] theorem Device.setClsSlots_flows (d : Device) (v : Tbl ClsSlot) : (d.setClsSlots v).flows = d.flows := rfl
@[simp] theorem Device.setClsSlots_tapQ (d : Device) (v : Tbl ClsSlot) : (d.setClsSlots v).tapQ = d.tapQ := rfl
@[simp] theorem Device.setClsSlots_nextFlow (d : Device) (v : Tbl ClsSlot) : (d.setClsSlots v).nextFlow = d.nextFlow := rfl
@[simp] theorem Device.setClsSlots_parts (d : Device) (v : Tbl ClsSlot) : (d.setClsSlots v).parts = d.parts := rfl
@[simp] theorem Device.setClsSlots_ceLog (d : Device) (v : Tbl ClsSlot) : (d.setClsSlots v).ceLog = d.ceLog := rfl
@[simp] theorem Device.setClsSlots_ddrUndef (d : Device) (v : Tbl ClsSlot) : (d.setClsSlots v).ddrUndef = d.ddrUndef := rfl
@[simp] theorem Device.setClsSlots_conns (d : Device) (v : Tbl ClsSlot) : (d.setClsSlots v).conns = d.conns := rfl
@[simp] theorem Device.setClsSlots_gft (d : Device) (v : Tbl ClsSlot) : (d.setClsSlots v).gft = d.gft := rfl
@[simp] theorem Device.setClsSlots_groups (d : Device) (v : Tbl ClsSlot) : (d.setClsSlots v).groups = d.groups := rfl
@[simp] theorem Device.setClsSlots_tmWait (d : Device) (v : Tbl ClsSlot) : (d.setClsSlots v).tmWait = d.tmWait := rfl
@[simp] theorem Device.setClsSlots_fecBad (d : Device) (v : Tbl ClsSlot) : (d.setClsSlots v).fecBad = d.fecBad := rfl
@[simp] theorem Device.setClsSlots_keyTime (d : Device) (v : Tbl ClsSlot) : (d.setClsSlots v).keyTime = d.keyTime := rfl
@[simp] theorem Device.setClsSlots_pipeIn (d : Device) (v : Tbl ClsSlot) : (d.setClsSlots v).pipeIn = d.pipeIn := rfl
@[simp] theorem Device.setClsSlots_pipes (d : Device) (v : Tbl ClsSlot) : (d.setClsSlots v).pipes = d.pipes := rfl
@[simp] theorem Device.setClsSlots_clsSlots (d : Device) (v : Tbl ClsSlot) : (d.setClsSlots v).clsSlots = v := rfl
@[simp] theorem Device.setClsSlots_flowCnts (d : Device) (v : Tbl ClsSlot) : (d.setClsSlots v).flowCnts = d.flowCnts := rfl
@[simp] theorem Device.setClsSlots_pmeFlows (d : Device) (v : Tbl ClsSlot) : (d.setClsSlots v).pmeFlows = d.pmeFlows := rfl
@[simp] theorem Device.setClsSlots_places (d : Device) (v : Tbl ClsSlot) : (d.setClsSlots v).places = d.places := rfl
@[simp] theorem Device.setClsSlots_loaded (d : Device) (v : Tbl ClsSlot) : (d.setClsSlots v).loaded = d.loaded := rfl
@[simp] theorem Device.setClsSlots_waveEpoch (d : Device) (v : Tbl ClsSlot) : (d.setClsSlots v).waveEpoch = d.waveEpoch := rfl
@[simp] theorem Device.setClsSlots_tmQueues (d : Device) (v : Tbl ClsSlot) : (d.setClsSlots v).tmQueues = d.tmQueues := rfl
@[simp] theorem Device.setClsSlots_tmPorts (d : Device) (v : Tbl ClsSlot) : (d.setClsSlots v).tmPorts = d.tmPorts := rfl
@[simp] theorem Device.setClsSlots_policers (d : Device) (v : Tbl ClsSlot) : (d.setClsSlots v).policers = d.policers := rfl
@[simp] theorem Device.setClsSlots_blocks (d : Device) (v : Tbl ClsSlot) : (d.setClsSlots v).blocks = d.blocks := rfl
@[simp] theorem Device.setClsSlots_nvmes (d : Device) (v : Tbl ClsSlot) : (d.setClsSlots v).nvmes = d.nvmes := rfl
@[simp] theorem Device.setClsSlots_nextNvme (d : Device) (v : Tbl ClsSlot) : (d.setClsSlots v).nextNvme = d.nextNvme := rfl
@[simp] theorem Device.setClsSlots_stage (d : Device) (v : Tbl ClsSlot) : (d.setClsSlots v).stage = d.stage := rfl
@[simp] theorem Device.setClsSlots_vaults (d : Device) (v : Tbl ClsSlot) : (d.setClsSlots v).vaults = d.vaults := rfl
@[simp] theorem Device.setClsSlots_hostReads (d : Device) (v : Tbl ClsSlot) : (d.setClsSlots v).hostReads = d.hostReads := rfl
@[simp] theorem Device.setClsSlots_link (d : Device) (v : Tbl ClsSlot) : (d.setClsSlots v).link = d.link := rfl
@[simp] theorem Device.setClsSlots_nextFetch (d : Device) (v : Tbl ClsSlot) : (d.setClsSlots v).nextFetch = d.nextFetch := rfl
@[simp] theorem Device.setClsSlots_xfers (d : Device) (v : Tbl ClsSlot) : (d.setClsSlots v).xfers = d.xfers := rfl
@[simp] theorem Device.setClsSlots_queues (d : Device) (v : Tbl ClsSlot) : (d.setClsSlots v).queues = d.queues := rfl
@[simp] theorem Device.setClsSlots_fetched (d : Device) (v : Tbl ClsSlot) : (d.setClsSlots v).fetched = d.fetched := rfl
@[simp] theorem Device.setClsSlots_heldW (d : Device) (v : Tbl ClsSlot) : (d.setClsSlots v).heldW = d.heldW := rfl
@[simp] theorem Device.setClsSlots_cores (d : Device) (v : Tbl ClsSlot) : (d.setClsSlots v).cores = d.cores := rfl
@[simp] theorem Device.setClsSlots_fw (d : Device) (v : Tbl ClsSlot) : (d.setClsSlots v).fw = d.fw := rfl
@[simp] theorem Device.setClsSlots_queueMem (d : Device) (v : Tbl ClsSlot) : (d.setClsSlots v).queueMem = d.queueMem := rfl
@[simp] theorem Device.setClsSlots_wlogs (d : Device) (v : Tbl ClsSlot) : (d.setClsSlots v).wlogs = d.wlogs := rfl
@[simp] theorem Device.setClsSlots_stores (d : Device) (v : Tbl ClsSlot) : (d.setClsSlots v).stores = d.stores := rfl
@[simp] theorem Device.setClsSlots_crew (d : Device) (v : Tbl ClsSlot) : (d.setClsSlots v).crew = d.crew := rfl
@[simp] theorem Device.setClsSlots_belay (d : Device) (v : Tbl ClsSlot) : (d.setClsSlots v).belay = d.belay := rfl
@[simp] theorem Device.setClsSlots_tel (d : Device) (v : Tbl ClsSlot) : (d.setClsSlots v).tel = d.tel := rfl
@[simp] theorem Device.setClsSlots_pwr (d : Device) (v : Tbl ClsSlot) : (d.setClsSlots v).pwr = d.pwr := rfl
@[simp] theorem Device.setFlowCnts_cfg (d : Device) (v : Tbl (Nat × Nat)) : (d.setFlowCnts v).cfg = d.cfg := rfl
@[simp] theorem Device.setFlowCnts_clk (d : Device) (v : Tbl (Nat × Nat)) : (d.setFlowCnts v).clk = d.clk := rfl
@[simp] theorem Device.setFlowCnts_reg (d : Device) (v : Tbl (Nat × Nat)) : (d.setFlowCnts v).reg = d.reg := rfl
@[simp] theorem Device.setFlowCnts_rings (d : Device) (v : Tbl (Nat × Nat)) : (d.setFlowCnts v).rings = d.rings := rfl
@[simp] theorem Device.setFlowCnts_out (d : Device) (v : Tbl (Nat × Nat)) : (d.setFlowCnts v).out = d.out := rfl
@[simp] theorem Device.setFlowCnts_wr (d : Device) (v : Tbl (Nat × Nat)) : (d.setFlowCnts v).wr = d.wr := rfl
@[simp] theorem Device.setFlowCnts_poison (d : Device) (v : Tbl (Nat × Nat)) : (d.setFlowCnts v).poison = d.poison := rfl
@[simp] theorem Device.setFlowCnts_msix (d : Device) (v : Tbl (Nat × Nat)) : (d.setFlowCnts v).msix = d.msix := rfl
@[simp] theorem Device.setFlowCnts_hold (d : Device) (v : Tbl (Nat × Nat)) : (d.setFlowCnts v).hold = d.hold := rfl
@[simp] theorem Device.setFlowCnts_wave (d : Device) (v : Tbl (Nat × Nat)) : (d.setFlowCnts v).wave = d.wave := rfl
@[simp] theorem Device.setFlowCnts_mbr (d : Device) (v : Tbl (Nat × Nat)) : (d.setFlowCnts v).mbr = d.mbr := rfl
@[simp] theorem Device.setFlowCnts_corrs (d : Device) (v : Tbl (Nat × Nat)) : (d.setFlowCnts v).corrs = d.corrs := rfl
@[simp] theorem Device.setFlowCnts_d2dReplays (d : Device) (v : Tbl (Nat × Nat)) : (d.setFlowCnts v).d2dReplays = d.d2dReplays := rfl
@[simp] theorem Device.setFlowCnts_tiles (d : Device) (v : Tbl (Nat × Nat)) : (d.setFlowCnts v).tiles = d.tiles := rfl
@[simp] theorem Device.setFlowCnts_mesh (d : Device) (v : Tbl (Nat × Nat)) : (d.setFlowCnts v).mesh = d.mesh := rfl
@[simp] theorem Device.setFlowCnts_tokHold (d : Device) (v : Tbl (Nat × Nat)) : (d.setFlowCnts v).tokHold = d.tokHold := rfl
@[simp] theorem Device.setFlowCnts_ropes (d : Device) (v : Tbl (Nat × Nat)) : (d.setFlowCnts v).ropes = d.ropes := rfl
@[simp] theorem Device.setFlowCnts_ropeMoved (d : Device) (v : Tbl (Nat × Nat)) : (d.setFlowCnts v).ropeMoved = d.ropeMoved := rfl
@[simp] theorem Device.setFlowCnts_flows (d : Device) (v : Tbl (Nat × Nat)) : (d.setFlowCnts v).flows = d.flows := rfl
@[simp] theorem Device.setFlowCnts_tapQ (d : Device) (v : Tbl (Nat × Nat)) : (d.setFlowCnts v).tapQ = d.tapQ := rfl
@[simp] theorem Device.setFlowCnts_nextFlow (d : Device) (v : Tbl (Nat × Nat)) : (d.setFlowCnts v).nextFlow = d.nextFlow := rfl
@[simp] theorem Device.setFlowCnts_parts (d : Device) (v : Tbl (Nat × Nat)) : (d.setFlowCnts v).parts = d.parts := rfl
@[simp] theorem Device.setFlowCnts_ceLog (d : Device) (v : Tbl (Nat × Nat)) : (d.setFlowCnts v).ceLog = d.ceLog := rfl
@[simp] theorem Device.setFlowCnts_ddrUndef (d : Device) (v : Tbl (Nat × Nat)) : (d.setFlowCnts v).ddrUndef = d.ddrUndef := rfl
@[simp] theorem Device.setFlowCnts_conns (d : Device) (v : Tbl (Nat × Nat)) : (d.setFlowCnts v).conns = d.conns := rfl
@[simp] theorem Device.setFlowCnts_gft (d : Device) (v : Tbl (Nat × Nat)) : (d.setFlowCnts v).gft = d.gft := rfl
@[simp] theorem Device.setFlowCnts_groups (d : Device) (v : Tbl (Nat × Nat)) : (d.setFlowCnts v).groups = d.groups := rfl
@[simp] theorem Device.setFlowCnts_tmWait (d : Device) (v : Tbl (Nat × Nat)) : (d.setFlowCnts v).tmWait = d.tmWait := rfl
@[simp] theorem Device.setFlowCnts_fecBad (d : Device) (v : Tbl (Nat × Nat)) : (d.setFlowCnts v).fecBad = d.fecBad := rfl
@[simp] theorem Device.setFlowCnts_keyTime (d : Device) (v : Tbl (Nat × Nat)) : (d.setFlowCnts v).keyTime = d.keyTime := rfl
@[simp] theorem Device.setFlowCnts_pipeIn (d : Device) (v : Tbl (Nat × Nat)) : (d.setFlowCnts v).pipeIn = d.pipeIn := rfl
@[simp] theorem Device.setFlowCnts_pipes (d : Device) (v : Tbl (Nat × Nat)) : (d.setFlowCnts v).pipes = d.pipes := rfl
@[simp] theorem Device.setFlowCnts_clsSlots (d : Device) (v : Tbl (Nat × Nat)) : (d.setFlowCnts v).clsSlots = d.clsSlots := rfl
@[simp] theorem Device.setFlowCnts_flowCnts (d : Device) (v : Tbl (Nat × Nat)) : (d.setFlowCnts v).flowCnts = v := rfl
@[simp] theorem Device.setFlowCnts_pmeFlows (d : Device) (v : Tbl (Nat × Nat)) : (d.setFlowCnts v).pmeFlows = d.pmeFlows := rfl
@[simp] theorem Device.setFlowCnts_places (d : Device) (v : Tbl (Nat × Nat)) : (d.setFlowCnts v).places = d.places := rfl
@[simp] theorem Device.setFlowCnts_loaded (d : Device) (v : Tbl (Nat × Nat)) : (d.setFlowCnts v).loaded = d.loaded := rfl
@[simp] theorem Device.setFlowCnts_waveEpoch (d : Device) (v : Tbl (Nat × Nat)) : (d.setFlowCnts v).waveEpoch = d.waveEpoch := rfl
@[simp] theorem Device.setFlowCnts_tmQueues (d : Device) (v : Tbl (Nat × Nat)) : (d.setFlowCnts v).tmQueues = d.tmQueues := rfl
@[simp] theorem Device.setFlowCnts_tmPorts (d : Device) (v : Tbl (Nat × Nat)) : (d.setFlowCnts v).tmPorts = d.tmPorts := rfl
@[simp] theorem Device.setFlowCnts_policers (d : Device) (v : Tbl (Nat × Nat)) : (d.setFlowCnts v).policers = d.policers := rfl
@[simp] theorem Device.setFlowCnts_blocks (d : Device) (v : Tbl (Nat × Nat)) : (d.setFlowCnts v).blocks = d.blocks := rfl
@[simp] theorem Device.setFlowCnts_nvmes (d : Device) (v : Tbl (Nat × Nat)) : (d.setFlowCnts v).nvmes = d.nvmes := rfl
@[simp] theorem Device.setFlowCnts_nextNvme (d : Device) (v : Tbl (Nat × Nat)) : (d.setFlowCnts v).nextNvme = d.nextNvme := rfl
@[simp] theorem Device.setFlowCnts_stage (d : Device) (v : Tbl (Nat × Nat)) : (d.setFlowCnts v).stage = d.stage := rfl
@[simp] theorem Device.setFlowCnts_vaults (d : Device) (v : Tbl (Nat × Nat)) : (d.setFlowCnts v).vaults = d.vaults := rfl
@[simp] theorem Device.setFlowCnts_hostReads (d : Device) (v : Tbl (Nat × Nat)) : (d.setFlowCnts v).hostReads = d.hostReads := rfl
@[simp] theorem Device.setFlowCnts_link (d : Device) (v : Tbl (Nat × Nat)) : (d.setFlowCnts v).link = d.link := rfl
@[simp] theorem Device.setFlowCnts_nextFetch (d : Device) (v : Tbl (Nat × Nat)) : (d.setFlowCnts v).nextFetch = d.nextFetch := rfl
@[simp] theorem Device.setFlowCnts_xfers (d : Device) (v : Tbl (Nat × Nat)) : (d.setFlowCnts v).xfers = d.xfers := rfl
@[simp] theorem Device.setFlowCnts_queues (d : Device) (v : Tbl (Nat × Nat)) : (d.setFlowCnts v).queues = d.queues := rfl
@[simp] theorem Device.setFlowCnts_fetched (d : Device) (v : Tbl (Nat × Nat)) : (d.setFlowCnts v).fetched = d.fetched := rfl
@[simp] theorem Device.setFlowCnts_heldW (d : Device) (v : Tbl (Nat × Nat)) : (d.setFlowCnts v).heldW = d.heldW := rfl
@[simp] theorem Device.setFlowCnts_cores (d : Device) (v : Tbl (Nat × Nat)) : (d.setFlowCnts v).cores = d.cores := rfl
@[simp] theorem Device.setFlowCnts_fw (d : Device) (v : Tbl (Nat × Nat)) : (d.setFlowCnts v).fw = d.fw := rfl
@[simp] theorem Device.setFlowCnts_queueMem (d : Device) (v : Tbl (Nat × Nat)) : (d.setFlowCnts v).queueMem = d.queueMem := rfl
@[simp] theorem Device.setFlowCnts_wlogs (d : Device) (v : Tbl (Nat × Nat)) : (d.setFlowCnts v).wlogs = d.wlogs := rfl
@[simp] theorem Device.setFlowCnts_stores (d : Device) (v : Tbl (Nat × Nat)) : (d.setFlowCnts v).stores = d.stores := rfl
@[simp] theorem Device.setFlowCnts_crew (d : Device) (v : Tbl (Nat × Nat)) : (d.setFlowCnts v).crew = d.crew := rfl
@[simp] theorem Device.setFlowCnts_belay (d : Device) (v : Tbl (Nat × Nat)) : (d.setFlowCnts v).belay = d.belay := rfl
@[simp] theorem Device.setFlowCnts_tel (d : Device) (v : Tbl (Nat × Nat)) : (d.setFlowCnts v).tel = d.tel := rfl
@[simp] theorem Device.setFlowCnts_pwr (d : Device) (v : Tbl (Nat × Nat)) : (d.setFlowCnts v).pwr = d.pwr := rfl
@[simp] theorem Device.setPmeFlows_cfg (d : Device) (v : Tbl PmeFlow) : (d.setPmeFlows v).cfg = d.cfg := rfl
@[simp] theorem Device.setPmeFlows_clk (d : Device) (v : Tbl PmeFlow) : (d.setPmeFlows v).clk = d.clk := rfl
@[simp] theorem Device.setPmeFlows_reg (d : Device) (v : Tbl PmeFlow) : (d.setPmeFlows v).reg = d.reg := rfl
@[simp] theorem Device.setPmeFlows_rings (d : Device) (v : Tbl PmeFlow) : (d.setPmeFlows v).rings = d.rings := rfl
@[simp] theorem Device.setPmeFlows_out (d : Device) (v : Tbl PmeFlow) : (d.setPmeFlows v).out = d.out := rfl
@[simp] theorem Device.setPmeFlows_wr (d : Device) (v : Tbl PmeFlow) : (d.setPmeFlows v).wr = d.wr := rfl
@[simp] theorem Device.setPmeFlows_poison (d : Device) (v : Tbl PmeFlow) : (d.setPmeFlows v).poison = d.poison := rfl
@[simp] theorem Device.setPmeFlows_msix (d : Device) (v : Tbl PmeFlow) : (d.setPmeFlows v).msix = d.msix := rfl
@[simp] theorem Device.setPmeFlows_hold (d : Device) (v : Tbl PmeFlow) : (d.setPmeFlows v).hold = d.hold := rfl
@[simp] theorem Device.setPmeFlows_wave (d : Device) (v : Tbl PmeFlow) : (d.setPmeFlows v).wave = d.wave := rfl
@[simp] theorem Device.setPmeFlows_mbr (d : Device) (v : Tbl PmeFlow) : (d.setPmeFlows v).mbr = d.mbr := rfl
@[simp] theorem Device.setPmeFlows_corrs (d : Device) (v : Tbl PmeFlow) : (d.setPmeFlows v).corrs = d.corrs := rfl
@[simp] theorem Device.setPmeFlows_d2dReplays (d : Device) (v : Tbl PmeFlow) : (d.setPmeFlows v).d2dReplays = d.d2dReplays := rfl
@[simp] theorem Device.setPmeFlows_tiles (d : Device) (v : Tbl PmeFlow) : (d.setPmeFlows v).tiles = d.tiles := rfl
@[simp] theorem Device.setPmeFlows_mesh (d : Device) (v : Tbl PmeFlow) : (d.setPmeFlows v).mesh = d.mesh := rfl
@[simp] theorem Device.setPmeFlows_tokHold (d : Device) (v : Tbl PmeFlow) : (d.setPmeFlows v).tokHold = d.tokHold := rfl
@[simp] theorem Device.setPmeFlows_ropes (d : Device) (v : Tbl PmeFlow) : (d.setPmeFlows v).ropes = d.ropes := rfl
@[simp] theorem Device.setPmeFlows_ropeMoved (d : Device) (v : Tbl PmeFlow) : (d.setPmeFlows v).ropeMoved = d.ropeMoved := rfl
@[simp] theorem Device.setPmeFlows_flows (d : Device) (v : Tbl PmeFlow) : (d.setPmeFlows v).flows = d.flows := rfl
@[simp] theorem Device.setPmeFlows_tapQ (d : Device) (v : Tbl PmeFlow) : (d.setPmeFlows v).tapQ = d.tapQ := rfl
@[simp] theorem Device.setPmeFlows_nextFlow (d : Device) (v : Tbl PmeFlow) : (d.setPmeFlows v).nextFlow = d.nextFlow := rfl
@[simp] theorem Device.setPmeFlows_parts (d : Device) (v : Tbl PmeFlow) : (d.setPmeFlows v).parts = d.parts := rfl
@[simp] theorem Device.setPmeFlows_ceLog (d : Device) (v : Tbl PmeFlow) : (d.setPmeFlows v).ceLog = d.ceLog := rfl
@[simp] theorem Device.setPmeFlows_ddrUndef (d : Device) (v : Tbl PmeFlow) : (d.setPmeFlows v).ddrUndef = d.ddrUndef := rfl
@[simp] theorem Device.setPmeFlows_conns (d : Device) (v : Tbl PmeFlow) : (d.setPmeFlows v).conns = d.conns := rfl
@[simp] theorem Device.setPmeFlows_gft (d : Device) (v : Tbl PmeFlow) : (d.setPmeFlows v).gft = d.gft := rfl
@[simp] theorem Device.setPmeFlows_groups (d : Device) (v : Tbl PmeFlow) : (d.setPmeFlows v).groups = d.groups := rfl
@[simp] theorem Device.setPmeFlows_tmWait (d : Device) (v : Tbl PmeFlow) : (d.setPmeFlows v).tmWait = d.tmWait := rfl
@[simp] theorem Device.setPmeFlows_fecBad (d : Device) (v : Tbl PmeFlow) : (d.setPmeFlows v).fecBad = d.fecBad := rfl
@[simp] theorem Device.setPmeFlows_keyTime (d : Device) (v : Tbl PmeFlow) : (d.setPmeFlows v).keyTime = d.keyTime := rfl
@[simp] theorem Device.setPmeFlows_pipeIn (d : Device) (v : Tbl PmeFlow) : (d.setPmeFlows v).pipeIn = d.pipeIn := rfl
@[simp] theorem Device.setPmeFlows_pipes (d : Device) (v : Tbl PmeFlow) : (d.setPmeFlows v).pipes = d.pipes := rfl
@[simp] theorem Device.setPmeFlows_clsSlots (d : Device) (v : Tbl PmeFlow) : (d.setPmeFlows v).clsSlots = d.clsSlots := rfl
@[simp] theorem Device.setPmeFlows_flowCnts (d : Device) (v : Tbl PmeFlow) : (d.setPmeFlows v).flowCnts = d.flowCnts := rfl
@[simp] theorem Device.setPmeFlows_pmeFlows (d : Device) (v : Tbl PmeFlow) : (d.setPmeFlows v).pmeFlows = v := rfl
@[simp] theorem Device.setPmeFlows_places (d : Device) (v : Tbl PmeFlow) : (d.setPmeFlows v).places = d.places := rfl
@[simp] theorem Device.setPmeFlows_loaded (d : Device) (v : Tbl PmeFlow) : (d.setPmeFlows v).loaded = d.loaded := rfl
@[simp] theorem Device.setPmeFlows_waveEpoch (d : Device) (v : Tbl PmeFlow) : (d.setPmeFlows v).waveEpoch = d.waveEpoch := rfl
@[simp] theorem Device.setPmeFlows_tmQueues (d : Device) (v : Tbl PmeFlow) : (d.setPmeFlows v).tmQueues = d.tmQueues := rfl
@[simp] theorem Device.setPmeFlows_tmPorts (d : Device) (v : Tbl PmeFlow) : (d.setPmeFlows v).tmPorts = d.tmPorts := rfl
@[simp] theorem Device.setPmeFlows_policers (d : Device) (v : Tbl PmeFlow) : (d.setPmeFlows v).policers = d.policers := rfl
@[simp] theorem Device.setPmeFlows_blocks (d : Device) (v : Tbl PmeFlow) : (d.setPmeFlows v).blocks = d.blocks := rfl
@[simp] theorem Device.setPmeFlows_nvmes (d : Device) (v : Tbl PmeFlow) : (d.setPmeFlows v).nvmes = d.nvmes := rfl
@[simp] theorem Device.setPmeFlows_nextNvme (d : Device) (v : Tbl PmeFlow) : (d.setPmeFlows v).nextNvme = d.nextNvme := rfl
@[simp] theorem Device.setPmeFlows_stage (d : Device) (v : Tbl PmeFlow) : (d.setPmeFlows v).stage = d.stage := rfl
@[simp] theorem Device.setPmeFlows_vaults (d : Device) (v : Tbl PmeFlow) : (d.setPmeFlows v).vaults = d.vaults := rfl
@[simp] theorem Device.setPmeFlows_hostReads (d : Device) (v : Tbl PmeFlow) : (d.setPmeFlows v).hostReads = d.hostReads := rfl
@[simp] theorem Device.setPmeFlows_link (d : Device) (v : Tbl PmeFlow) : (d.setPmeFlows v).link = d.link := rfl
@[simp] theorem Device.setPmeFlows_nextFetch (d : Device) (v : Tbl PmeFlow) : (d.setPmeFlows v).nextFetch = d.nextFetch := rfl
@[simp] theorem Device.setPmeFlows_xfers (d : Device) (v : Tbl PmeFlow) : (d.setPmeFlows v).xfers = d.xfers := rfl
@[simp] theorem Device.setPmeFlows_queues (d : Device) (v : Tbl PmeFlow) : (d.setPmeFlows v).queues = d.queues := rfl
@[simp] theorem Device.setPmeFlows_fetched (d : Device) (v : Tbl PmeFlow) : (d.setPmeFlows v).fetched = d.fetched := rfl
@[simp] theorem Device.setPmeFlows_heldW (d : Device) (v : Tbl PmeFlow) : (d.setPmeFlows v).heldW = d.heldW := rfl
@[simp] theorem Device.setPmeFlows_cores (d : Device) (v : Tbl PmeFlow) : (d.setPmeFlows v).cores = d.cores := rfl
@[simp] theorem Device.setPmeFlows_fw (d : Device) (v : Tbl PmeFlow) : (d.setPmeFlows v).fw = d.fw := rfl
@[simp] theorem Device.setPmeFlows_queueMem (d : Device) (v : Tbl PmeFlow) : (d.setPmeFlows v).queueMem = d.queueMem := rfl
@[simp] theorem Device.setPmeFlows_wlogs (d : Device) (v : Tbl PmeFlow) : (d.setPmeFlows v).wlogs = d.wlogs := rfl
@[simp] theorem Device.setPmeFlows_stores (d : Device) (v : Tbl PmeFlow) : (d.setPmeFlows v).stores = d.stores := rfl
@[simp] theorem Device.setPmeFlows_crew (d : Device) (v : Tbl PmeFlow) : (d.setPmeFlows v).crew = d.crew := rfl
@[simp] theorem Device.setPmeFlows_belay (d : Device) (v : Tbl PmeFlow) : (d.setPmeFlows v).belay = d.belay := rfl
@[simp] theorem Device.setPmeFlows_tel (d : Device) (v : Tbl PmeFlow) : (d.setPmeFlows v).tel = d.tel := rfl
@[simp] theorem Device.setPmeFlows_pwr (d : Device) (v : Tbl PmeFlow) : (d.setPmeFlows v).pwr = d.pwr := rfl
@[simp] theorem Device.setPlaces_cfg (d : Device) (v : Tbl PlaceSt) : (d.setPlaces v).cfg = d.cfg := rfl
@[simp] theorem Device.setPlaces_clk (d : Device) (v : Tbl PlaceSt) : (d.setPlaces v).clk = d.clk := rfl
@[simp] theorem Device.setPlaces_reg (d : Device) (v : Tbl PlaceSt) : (d.setPlaces v).reg = d.reg := rfl
@[simp] theorem Device.setPlaces_rings (d : Device) (v : Tbl PlaceSt) : (d.setPlaces v).rings = d.rings := rfl
@[simp] theorem Device.setPlaces_out (d : Device) (v : Tbl PlaceSt) : (d.setPlaces v).out = d.out := rfl
@[simp] theorem Device.setPlaces_wr (d : Device) (v : Tbl PlaceSt) : (d.setPlaces v).wr = d.wr := rfl
@[simp] theorem Device.setPlaces_poison (d : Device) (v : Tbl PlaceSt) : (d.setPlaces v).poison = d.poison := rfl
@[simp] theorem Device.setPlaces_msix (d : Device) (v : Tbl PlaceSt) : (d.setPlaces v).msix = d.msix := rfl
@[simp] theorem Device.setPlaces_hold (d : Device) (v : Tbl PlaceSt) : (d.setPlaces v).hold = d.hold := rfl
@[simp] theorem Device.setPlaces_wave (d : Device) (v : Tbl PlaceSt) : (d.setPlaces v).wave = d.wave := rfl
@[simp] theorem Device.setPlaces_mbr (d : Device) (v : Tbl PlaceSt) : (d.setPlaces v).mbr = d.mbr := rfl
@[simp] theorem Device.setPlaces_corrs (d : Device) (v : Tbl PlaceSt) : (d.setPlaces v).corrs = d.corrs := rfl
@[simp] theorem Device.setPlaces_d2dReplays (d : Device) (v : Tbl PlaceSt) : (d.setPlaces v).d2dReplays = d.d2dReplays := rfl
@[simp] theorem Device.setPlaces_tiles (d : Device) (v : Tbl PlaceSt) : (d.setPlaces v).tiles = d.tiles := rfl
@[simp] theorem Device.setPlaces_mesh (d : Device) (v : Tbl PlaceSt) : (d.setPlaces v).mesh = d.mesh := rfl
@[simp] theorem Device.setPlaces_tokHold (d : Device) (v : Tbl PlaceSt) : (d.setPlaces v).tokHold = d.tokHold := rfl
@[simp] theorem Device.setPlaces_ropes (d : Device) (v : Tbl PlaceSt) : (d.setPlaces v).ropes = d.ropes := rfl
@[simp] theorem Device.setPlaces_ropeMoved (d : Device) (v : Tbl PlaceSt) : (d.setPlaces v).ropeMoved = d.ropeMoved := rfl
@[simp] theorem Device.setPlaces_flows (d : Device) (v : Tbl PlaceSt) : (d.setPlaces v).flows = d.flows := rfl
@[simp] theorem Device.setPlaces_tapQ (d : Device) (v : Tbl PlaceSt) : (d.setPlaces v).tapQ = d.tapQ := rfl
@[simp] theorem Device.setPlaces_nextFlow (d : Device) (v : Tbl PlaceSt) : (d.setPlaces v).nextFlow = d.nextFlow := rfl
@[simp] theorem Device.setPlaces_parts (d : Device) (v : Tbl PlaceSt) : (d.setPlaces v).parts = d.parts := rfl
@[simp] theorem Device.setPlaces_ceLog (d : Device) (v : Tbl PlaceSt) : (d.setPlaces v).ceLog = d.ceLog := rfl
@[simp] theorem Device.setPlaces_ddrUndef (d : Device) (v : Tbl PlaceSt) : (d.setPlaces v).ddrUndef = d.ddrUndef := rfl
@[simp] theorem Device.setPlaces_conns (d : Device) (v : Tbl PlaceSt) : (d.setPlaces v).conns = d.conns := rfl
@[simp] theorem Device.setPlaces_gft (d : Device) (v : Tbl PlaceSt) : (d.setPlaces v).gft = d.gft := rfl
@[simp] theorem Device.setPlaces_groups (d : Device) (v : Tbl PlaceSt) : (d.setPlaces v).groups = d.groups := rfl
@[simp] theorem Device.setPlaces_tmWait (d : Device) (v : Tbl PlaceSt) : (d.setPlaces v).tmWait = d.tmWait := rfl
@[simp] theorem Device.setPlaces_fecBad (d : Device) (v : Tbl PlaceSt) : (d.setPlaces v).fecBad = d.fecBad := rfl
@[simp] theorem Device.setPlaces_keyTime (d : Device) (v : Tbl PlaceSt) : (d.setPlaces v).keyTime = d.keyTime := rfl
@[simp] theorem Device.setPlaces_pipeIn (d : Device) (v : Tbl PlaceSt) : (d.setPlaces v).pipeIn = d.pipeIn := rfl
@[simp] theorem Device.setPlaces_pipes (d : Device) (v : Tbl PlaceSt) : (d.setPlaces v).pipes = d.pipes := rfl
@[simp] theorem Device.setPlaces_clsSlots (d : Device) (v : Tbl PlaceSt) : (d.setPlaces v).clsSlots = d.clsSlots := rfl
@[simp] theorem Device.setPlaces_flowCnts (d : Device) (v : Tbl PlaceSt) : (d.setPlaces v).flowCnts = d.flowCnts := rfl
@[simp] theorem Device.setPlaces_pmeFlows (d : Device) (v : Tbl PlaceSt) : (d.setPlaces v).pmeFlows = d.pmeFlows := rfl
@[simp] theorem Device.setPlaces_places (d : Device) (v : Tbl PlaceSt) : (d.setPlaces v).places = v := rfl
@[simp] theorem Device.setPlaces_loaded (d : Device) (v : Tbl PlaceSt) : (d.setPlaces v).loaded = d.loaded := rfl
@[simp] theorem Device.setPlaces_waveEpoch (d : Device) (v : Tbl PlaceSt) : (d.setPlaces v).waveEpoch = d.waveEpoch := rfl
@[simp] theorem Device.setPlaces_tmQueues (d : Device) (v : Tbl PlaceSt) : (d.setPlaces v).tmQueues = d.tmQueues := rfl
@[simp] theorem Device.setPlaces_tmPorts (d : Device) (v : Tbl PlaceSt) : (d.setPlaces v).tmPorts = d.tmPorts := rfl
@[simp] theorem Device.setPlaces_policers (d : Device) (v : Tbl PlaceSt) : (d.setPlaces v).policers = d.policers := rfl
@[simp] theorem Device.setPlaces_blocks (d : Device) (v : Tbl PlaceSt) : (d.setPlaces v).blocks = d.blocks := rfl
@[simp] theorem Device.setPlaces_nvmes (d : Device) (v : Tbl PlaceSt) : (d.setPlaces v).nvmes = d.nvmes := rfl
@[simp] theorem Device.setPlaces_nextNvme (d : Device) (v : Tbl PlaceSt) : (d.setPlaces v).nextNvme = d.nextNvme := rfl
@[simp] theorem Device.setPlaces_stage (d : Device) (v : Tbl PlaceSt) : (d.setPlaces v).stage = d.stage := rfl
@[simp] theorem Device.setPlaces_vaults (d : Device) (v : Tbl PlaceSt) : (d.setPlaces v).vaults = d.vaults := rfl
@[simp] theorem Device.setPlaces_hostReads (d : Device) (v : Tbl PlaceSt) : (d.setPlaces v).hostReads = d.hostReads := rfl
@[simp] theorem Device.setPlaces_link (d : Device) (v : Tbl PlaceSt) : (d.setPlaces v).link = d.link := rfl
@[simp] theorem Device.setPlaces_nextFetch (d : Device) (v : Tbl PlaceSt) : (d.setPlaces v).nextFetch = d.nextFetch := rfl
@[simp] theorem Device.setPlaces_xfers (d : Device) (v : Tbl PlaceSt) : (d.setPlaces v).xfers = d.xfers := rfl
@[simp] theorem Device.setPlaces_queues (d : Device) (v : Tbl PlaceSt) : (d.setPlaces v).queues = d.queues := rfl
@[simp] theorem Device.setPlaces_fetched (d : Device) (v : Tbl PlaceSt) : (d.setPlaces v).fetched = d.fetched := rfl
@[simp] theorem Device.setPlaces_heldW (d : Device) (v : Tbl PlaceSt) : (d.setPlaces v).heldW = d.heldW := rfl
@[simp] theorem Device.setPlaces_cores (d : Device) (v : Tbl PlaceSt) : (d.setPlaces v).cores = d.cores := rfl
@[simp] theorem Device.setPlaces_fw (d : Device) (v : Tbl PlaceSt) : (d.setPlaces v).fw = d.fw := rfl
@[simp] theorem Device.setPlaces_queueMem (d : Device) (v : Tbl PlaceSt) : (d.setPlaces v).queueMem = d.queueMem := rfl
@[simp] theorem Device.setPlaces_wlogs (d : Device) (v : Tbl PlaceSt) : (d.setPlaces v).wlogs = d.wlogs := rfl
@[simp] theorem Device.setPlaces_stores (d : Device) (v : Tbl PlaceSt) : (d.setPlaces v).stores = d.stores := rfl
@[simp] theorem Device.setPlaces_crew (d : Device) (v : Tbl PlaceSt) : (d.setPlaces v).crew = d.crew := rfl
@[simp] theorem Device.setPlaces_belay (d : Device) (v : Tbl PlaceSt) : (d.setPlaces v).belay = d.belay := rfl
@[simp] theorem Device.setPlaces_tel (d : Device) (v : Tbl PlaceSt) : (d.setPlaces v).tel = d.tel := rfl
@[simp] theorem Device.setPlaces_pwr (d : Device) (v : Tbl PlaceSt) : (d.setPlaces v).pwr = d.pwr := rfl
@[simp] theorem Device.setLoaded_cfg (d : Device) (v : Tbl Memory) : (d.setLoaded v).cfg = d.cfg := rfl
@[simp] theorem Device.setLoaded_clk (d : Device) (v : Tbl Memory) : (d.setLoaded v).clk = d.clk := rfl
@[simp] theorem Device.setLoaded_reg (d : Device) (v : Tbl Memory) : (d.setLoaded v).reg = d.reg := rfl
@[simp] theorem Device.setLoaded_rings (d : Device) (v : Tbl Memory) : (d.setLoaded v).rings = d.rings := rfl
@[simp] theorem Device.setLoaded_out (d : Device) (v : Tbl Memory) : (d.setLoaded v).out = d.out := rfl
@[simp] theorem Device.setLoaded_wr (d : Device) (v : Tbl Memory) : (d.setLoaded v).wr = d.wr := rfl
@[simp] theorem Device.setLoaded_poison (d : Device) (v : Tbl Memory) : (d.setLoaded v).poison = d.poison := rfl
@[simp] theorem Device.setLoaded_msix (d : Device) (v : Tbl Memory) : (d.setLoaded v).msix = d.msix := rfl
@[simp] theorem Device.setLoaded_hold (d : Device) (v : Tbl Memory) : (d.setLoaded v).hold = d.hold := rfl
@[simp] theorem Device.setLoaded_wave (d : Device) (v : Tbl Memory) : (d.setLoaded v).wave = d.wave := rfl
@[simp] theorem Device.setLoaded_mbr (d : Device) (v : Tbl Memory) : (d.setLoaded v).mbr = d.mbr := rfl
@[simp] theorem Device.setLoaded_corrs (d : Device) (v : Tbl Memory) : (d.setLoaded v).corrs = d.corrs := rfl
@[simp] theorem Device.setLoaded_d2dReplays (d : Device) (v : Tbl Memory) : (d.setLoaded v).d2dReplays = d.d2dReplays := rfl
@[simp] theorem Device.setLoaded_tiles (d : Device) (v : Tbl Memory) : (d.setLoaded v).tiles = d.tiles := rfl
@[simp] theorem Device.setLoaded_mesh (d : Device) (v : Tbl Memory) : (d.setLoaded v).mesh = d.mesh := rfl
@[simp] theorem Device.setLoaded_tokHold (d : Device) (v : Tbl Memory) : (d.setLoaded v).tokHold = d.tokHold := rfl
@[simp] theorem Device.setLoaded_ropes (d : Device) (v : Tbl Memory) : (d.setLoaded v).ropes = d.ropes := rfl
@[simp] theorem Device.setLoaded_ropeMoved (d : Device) (v : Tbl Memory) : (d.setLoaded v).ropeMoved = d.ropeMoved := rfl
@[simp] theorem Device.setLoaded_flows (d : Device) (v : Tbl Memory) : (d.setLoaded v).flows = d.flows := rfl
@[simp] theorem Device.setLoaded_tapQ (d : Device) (v : Tbl Memory) : (d.setLoaded v).tapQ = d.tapQ := rfl
@[simp] theorem Device.setLoaded_nextFlow (d : Device) (v : Tbl Memory) : (d.setLoaded v).nextFlow = d.nextFlow := rfl
@[simp] theorem Device.setLoaded_parts (d : Device) (v : Tbl Memory) : (d.setLoaded v).parts = d.parts := rfl
@[simp] theorem Device.setLoaded_ceLog (d : Device) (v : Tbl Memory) : (d.setLoaded v).ceLog = d.ceLog := rfl
@[simp] theorem Device.setLoaded_ddrUndef (d : Device) (v : Tbl Memory) : (d.setLoaded v).ddrUndef = d.ddrUndef := rfl
@[simp] theorem Device.setLoaded_conns (d : Device) (v : Tbl Memory) : (d.setLoaded v).conns = d.conns := rfl
@[simp] theorem Device.setLoaded_gft (d : Device) (v : Tbl Memory) : (d.setLoaded v).gft = d.gft := rfl
@[simp] theorem Device.setLoaded_groups (d : Device) (v : Tbl Memory) : (d.setLoaded v).groups = d.groups := rfl
@[simp] theorem Device.setLoaded_tmWait (d : Device) (v : Tbl Memory) : (d.setLoaded v).tmWait = d.tmWait := rfl
@[simp] theorem Device.setLoaded_fecBad (d : Device) (v : Tbl Memory) : (d.setLoaded v).fecBad = d.fecBad := rfl
@[simp] theorem Device.setLoaded_keyTime (d : Device) (v : Tbl Memory) : (d.setLoaded v).keyTime = d.keyTime := rfl
@[simp] theorem Device.setLoaded_pipeIn (d : Device) (v : Tbl Memory) : (d.setLoaded v).pipeIn = d.pipeIn := rfl
@[simp] theorem Device.setLoaded_pipes (d : Device) (v : Tbl Memory) : (d.setLoaded v).pipes = d.pipes := rfl
@[simp] theorem Device.setLoaded_clsSlots (d : Device) (v : Tbl Memory) : (d.setLoaded v).clsSlots = d.clsSlots := rfl
@[simp] theorem Device.setLoaded_flowCnts (d : Device) (v : Tbl Memory) : (d.setLoaded v).flowCnts = d.flowCnts := rfl
@[simp] theorem Device.setLoaded_pmeFlows (d : Device) (v : Tbl Memory) : (d.setLoaded v).pmeFlows = d.pmeFlows := rfl
@[simp] theorem Device.setLoaded_places (d : Device) (v : Tbl Memory) : (d.setLoaded v).places = d.places := rfl
@[simp] theorem Device.setLoaded_loaded (d : Device) (v : Tbl Memory) : (d.setLoaded v).loaded = v := rfl
@[simp] theorem Device.setLoaded_waveEpoch (d : Device) (v : Tbl Memory) : (d.setLoaded v).waveEpoch = d.waveEpoch := rfl
@[simp] theorem Device.setLoaded_tmQueues (d : Device) (v : Tbl Memory) : (d.setLoaded v).tmQueues = d.tmQueues := rfl
@[simp] theorem Device.setLoaded_tmPorts (d : Device) (v : Tbl Memory) : (d.setLoaded v).tmPorts = d.tmPorts := rfl
@[simp] theorem Device.setLoaded_policers (d : Device) (v : Tbl Memory) : (d.setLoaded v).policers = d.policers := rfl
@[simp] theorem Device.setLoaded_blocks (d : Device) (v : Tbl Memory) : (d.setLoaded v).blocks = d.blocks := rfl
@[simp] theorem Device.setLoaded_nvmes (d : Device) (v : Tbl Memory) : (d.setLoaded v).nvmes = d.nvmes := rfl
@[simp] theorem Device.setLoaded_nextNvme (d : Device) (v : Tbl Memory) : (d.setLoaded v).nextNvme = d.nextNvme := rfl
@[simp] theorem Device.setLoaded_stage (d : Device) (v : Tbl Memory) : (d.setLoaded v).stage = d.stage := rfl
@[simp] theorem Device.setLoaded_vaults (d : Device) (v : Tbl Memory) : (d.setLoaded v).vaults = d.vaults := rfl
@[simp] theorem Device.setLoaded_hostReads (d : Device) (v : Tbl Memory) : (d.setLoaded v).hostReads = d.hostReads := rfl
@[simp] theorem Device.setLoaded_link (d : Device) (v : Tbl Memory) : (d.setLoaded v).link = d.link := rfl
@[simp] theorem Device.setLoaded_nextFetch (d : Device) (v : Tbl Memory) : (d.setLoaded v).nextFetch = d.nextFetch := rfl
@[simp] theorem Device.setLoaded_xfers (d : Device) (v : Tbl Memory) : (d.setLoaded v).xfers = d.xfers := rfl
@[simp] theorem Device.setLoaded_queues (d : Device) (v : Tbl Memory) : (d.setLoaded v).queues = d.queues := rfl
@[simp] theorem Device.setLoaded_fetched (d : Device) (v : Tbl Memory) : (d.setLoaded v).fetched = d.fetched := rfl
@[simp] theorem Device.setLoaded_heldW (d : Device) (v : Tbl Memory) : (d.setLoaded v).heldW = d.heldW := rfl
@[simp] theorem Device.setLoaded_cores (d : Device) (v : Tbl Memory) : (d.setLoaded v).cores = d.cores := rfl
@[simp] theorem Device.setLoaded_fw (d : Device) (v : Tbl Memory) : (d.setLoaded v).fw = d.fw := rfl
@[simp] theorem Device.setLoaded_queueMem (d : Device) (v : Tbl Memory) : (d.setLoaded v).queueMem = d.queueMem := rfl
@[simp] theorem Device.setLoaded_wlogs (d : Device) (v : Tbl Memory) : (d.setLoaded v).wlogs = d.wlogs := rfl
@[simp] theorem Device.setLoaded_stores (d : Device) (v : Tbl Memory) : (d.setLoaded v).stores = d.stores := rfl
@[simp] theorem Device.setLoaded_crew (d : Device) (v : Tbl Memory) : (d.setLoaded v).crew = d.crew := rfl
@[simp] theorem Device.setLoaded_belay (d : Device) (v : Tbl Memory) : (d.setLoaded v).belay = d.belay := rfl
@[simp] theorem Device.setLoaded_tel (d : Device) (v : Tbl Memory) : (d.setLoaded v).tel = d.tel := rfl
@[simp] theorem Device.setLoaded_pwr (d : Device) (v : Tbl Memory) : (d.setLoaded v).pwr = d.pwr := rfl
@[simp] theorem Device.setWaveEpoch_cfg (d : Device) (v : Tbl Nat) : (d.setWaveEpoch v).cfg = d.cfg := rfl
@[simp] theorem Device.setWaveEpoch_clk (d : Device) (v : Tbl Nat) : (d.setWaveEpoch v).clk = d.clk := rfl
@[simp] theorem Device.setWaveEpoch_reg (d : Device) (v : Tbl Nat) : (d.setWaveEpoch v).reg = d.reg := rfl
@[simp] theorem Device.setWaveEpoch_rings (d : Device) (v : Tbl Nat) : (d.setWaveEpoch v).rings = d.rings := rfl
@[simp] theorem Device.setWaveEpoch_out (d : Device) (v : Tbl Nat) : (d.setWaveEpoch v).out = d.out := rfl
@[simp] theorem Device.setWaveEpoch_wr (d : Device) (v : Tbl Nat) : (d.setWaveEpoch v).wr = d.wr := rfl
@[simp] theorem Device.setWaveEpoch_poison (d : Device) (v : Tbl Nat) : (d.setWaveEpoch v).poison = d.poison := rfl
@[simp] theorem Device.setWaveEpoch_msix (d : Device) (v : Tbl Nat) : (d.setWaveEpoch v).msix = d.msix := rfl
@[simp] theorem Device.setWaveEpoch_hold (d : Device) (v : Tbl Nat) : (d.setWaveEpoch v).hold = d.hold := rfl
@[simp] theorem Device.setWaveEpoch_wave (d : Device) (v : Tbl Nat) : (d.setWaveEpoch v).wave = d.wave := rfl
@[simp] theorem Device.setWaveEpoch_mbr (d : Device) (v : Tbl Nat) : (d.setWaveEpoch v).mbr = d.mbr := rfl
@[simp] theorem Device.setWaveEpoch_corrs (d : Device) (v : Tbl Nat) : (d.setWaveEpoch v).corrs = d.corrs := rfl
@[simp] theorem Device.setWaveEpoch_d2dReplays (d : Device) (v : Tbl Nat) : (d.setWaveEpoch v).d2dReplays = d.d2dReplays := rfl
@[simp] theorem Device.setWaveEpoch_tiles (d : Device) (v : Tbl Nat) : (d.setWaveEpoch v).tiles = d.tiles := rfl
@[simp] theorem Device.setWaveEpoch_mesh (d : Device) (v : Tbl Nat) : (d.setWaveEpoch v).mesh = d.mesh := rfl
@[simp] theorem Device.setWaveEpoch_tokHold (d : Device) (v : Tbl Nat) : (d.setWaveEpoch v).tokHold = d.tokHold := rfl
@[simp] theorem Device.setWaveEpoch_ropes (d : Device) (v : Tbl Nat) : (d.setWaveEpoch v).ropes = d.ropes := rfl
@[simp] theorem Device.setWaveEpoch_ropeMoved (d : Device) (v : Tbl Nat) : (d.setWaveEpoch v).ropeMoved = d.ropeMoved := rfl
@[simp] theorem Device.setWaveEpoch_flows (d : Device) (v : Tbl Nat) : (d.setWaveEpoch v).flows = d.flows := rfl
@[simp] theorem Device.setWaveEpoch_tapQ (d : Device) (v : Tbl Nat) : (d.setWaveEpoch v).tapQ = d.tapQ := rfl
@[simp] theorem Device.setWaveEpoch_nextFlow (d : Device) (v : Tbl Nat) : (d.setWaveEpoch v).nextFlow = d.nextFlow := rfl
@[simp] theorem Device.setWaveEpoch_parts (d : Device) (v : Tbl Nat) : (d.setWaveEpoch v).parts = d.parts := rfl
@[simp] theorem Device.setWaveEpoch_ceLog (d : Device) (v : Tbl Nat) : (d.setWaveEpoch v).ceLog = d.ceLog := rfl
@[simp] theorem Device.setWaveEpoch_ddrUndef (d : Device) (v : Tbl Nat) : (d.setWaveEpoch v).ddrUndef = d.ddrUndef := rfl
@[simp] theorem Device.setWaveEpoch_conns (d : Device) (v : Tbl Nat) : (d.setWaveEpoch v).conns = d.conns := rfl
@[simp] theorem Device.setWaveEpoch_gft (d : Device) (v : Tbl Nat) : (d.setWaveEpoch v).gft = d.gft := rfl
@[simp] theorem Device.setWaveEpoch_groups (d : Device) (v : Tbl Nat) : (d.setWaveEpoch v).groups = d.groups := rfl
@[simp] theorem Device.setWaveEpoch_tmWait (d : Device) (v : Tbl Nat) : (d.setWaveEpoch v).tmWait = d.tmWait := rfl
@[simp] theorem Device.setWaveEpoch_fecBad (d : Device) (v : Tbl Nat) : (d.setWaveEpoch v).fecBad = d.fecBad := rfl
@[simp] theorem Device.setWaveEpoch_keyTime (d : Device) (v : Tbl Nat) : (d.setWaveEpoch v).keyTime = d.keyTime := rfl
@[simp] theorem Device.setWaveEpoch_pipeIn (d : Device) (v : Tbl Nat) : (d.setWaveEpoch v).pipeIn = d.pipeIn := rfl
@[simp] theorem Device.setWaveEpoch_pipes (d : Device) (v : Tbl Nat) : (d.setWaveEpoch v).pipes = d.pipes := rfl
@[simp] theorem Device.setWaveEpoch_clsSlots (d : Device) (v : Tbl Nat) : (d.setWaveEpoch v).clsSlots = d.clsSlots := rfl
@[simp] theorem Device.setWaveEpoch_flowCnts (d : Device) (v : Tbl Nat) : (d.setWaveEpoch v).flowCnts = d.flowCnts := rfl
@[simp] theorem Device.setWaveEpoch_pmeFlows (d : Device) (v : Tbl Nat) : (d.setWaveEpoch v).pmeFlows = d.pmeFlows := rfl
@[simp] theorem Device.setWaveEpoch_places (d : Device) (v : Tbl Nat) : (d.setWaveEpoch v).places = d.places := rfl
@[simp] theorem Device.setWaveEpoch_loaded (d : Device) (v : Tbl Nat) : (d.setWaveEpoch v).loaded = d.loaded := rfl
@[simp] theorem Device.setWaveEpoch_waveEpoch (d : Device) (v : Tbl Nat) : (d.setWaveEpoch v).waveEpoch = v := rfl
@[simp] theorem Device.setWaveEpoch_tmQueues (d : Device) (v : Tbl Nat) : (d.setWaveEpoch v).tmQueues = d.tmQueues := rfl
@[simp] theorem Device.setWaveEpoch_tmPorts (d : Device) (v : Tbl Nat) : (d.setWaveEpoch v).tmPorts = d.tmPorts := rfl
@[simp] theorem Device.setWaveEpoch_policers (d : Device) (v : Tbl Nat) : (d.setWaveEpoch v).policers = d.policers := rfl
@[simp] theorem Device.setWaveEpoch_blocks (d : Device) (v : Tbl Nat) : (d.setWaveEpoch v).blocks = d.blocks := rfl
@[simp] theorem Device.setWaveEpoch_nvmes (d : Device) (v : Tbl Nat) : (d.setWaveEpoch v).nvmes = d.nvmes := rfl
@[simp] theorem Device.setWaveEpoch_nextNvme (d : Device) (v : Tbl Nat) : (d.setWaveEpoch v).nextNvme = d.nextNvme := rfl
@[simp] theorem Device.setWaveEpoch_stage (d : Device) (v : Tbl Nat) : (d.setWaveEpoch v).stage = d.stage := rfl
@[simp] theorem Device.setWaveEpoch_vaults (d : Device) (v : Tbl Nat) : (d.setWaveEpoch v).vaults = d.vaults := rfl
@[simp] theorem Device.setWaveEpoch_hostReads (d : Device) (v : Tbl Nat) : (d.setWaveEpoch v).hostReads = d.hostReads := rfl
@[simp] theorem Device.setWaveEpoch_link (d : Device) (v : Tbl Nat) : (d.setWaveEpoch v).link = d.link := rfl
@[simp] theorem Device.setWaveEpoch_nextFetch (d : Device) (v : Tbl Nat) : (d.setWaveEpoch v).nextFetch = d.nextFetch := rfl
@[simp] theorem Device.setWaveEpoch_xfers (d : Device) (v : Tbl Nat) : (d.setWaveEpoch v).xfers = d.xfers := rfl
@[simp] theorem Device.setWaveEpoch_queues (d : Device) (v : Tbl Nat) : (d.setWaveEpoch v).queues = d.queues := rfl
@[simp] theorem Device.setWaveEpoch_fetched (d : Device) (v : Tbl Nat) : (d.setWaveEpoch v).fetched = d.fetched := rfl
@[simp] theorem Device.setWaveEpoch_heldW (d : Device) (v : Tbl Nat) : (d.setWaveEpoch v).heldW = d.heldW := rfl
@[simp] theorem Device.setWaveEpoch_cores (d : Device) (v : Tbl Nat) : (d.setWaveEpoch v).cores = d.cores := rfl
@[simp] theorem Device.setWaveEpoch_fw (d : Device) (v : Tbl Nat) : (d.setWaveEpoch v).fw = d.fw := rfl
@[simp] theorem Device.setWaveEpoch_queueMem (d : Device) (v : Tbl Nat) : (d.setWaveEpoch v).queueMem = d.queueMem := rfl
@[simp] theorem Device.setWaveEpoch_wlogs (d : Device) (v : Tbl Nat) : (d.setWaveEpoch v).wlogs = d.wlogs := rfl
@[simp] theorem Device.setWaveEpoch_stores (d : Device) (v : Tbl Nat) : (d.setWaveEpoch v).stores = d.stores := rfl
@[simp] theorem Device.setWaveEpoch_crew (d : Device) (v : Tbl Nat) : (d.setWaveEpoch v).crew = d.crew := rfl
@[simp] theorem Device.setWaveEpoch_belay (d : Device) (v : Tbl Nat) : (d.setWaveEpoch v).belay = d.belay := rfl
@[simp] theorem Device.setWaveEpoch_tel (d : Device) (v : Tbl Nat) : (d.setWaveEpoch v).tel = d.tel := rfl
@[simp] theorem Device.setWaveEpoch_pwr (d : Device) (v : Tbl Nat) : (d.setWaveEpoch v).pwr = d.pwr := rfl
@[simp] theorem Device.setTmQueues_cfg (d : Device) (v : Tbl TmQueue) : (d.setTmQueues v).cfg = d.cfg := rfl
@[simp] theorem Device.setTmQueues_clk (d : Device) (v : Tbl TmQueue) : (d.setTmQueues v).clk = d.clk := rfl
@[simp] theorem Device.setTmQueues_reg (d : Device) (v : Tbl TmQueue) : (d.setTmQueues v).reg = d.reg := rfl
@[simp] theorem Device.setTmQueues_rings (d : Device) (v : Tbl TmQueue) : (d.setTmQueues v).rings = d.rings := rfl
@[simp] theorem Device.setTmQueues_out (d : Device) (v : Tbl TmQueue) : (d.setTmQueues v).out = d.out := rfl
@[simp] theorem Device.setTmQueues_wr (d : Device) (v : Tbl TmQueue) : (d.setTmQueues v).wr = d.wr := rfl
@[simp] theorem Device.setTmQueues_poison (d : Device) (v : Tbl TmQueue) : (d.setTmQueues v).poison = d.poison := rfl
@[simp] theorem Device.setTmQueues_msix (d : Device) (v : Tbl TmQueue) : (d.setTmQueues v).msix = d.msix := rfl
@[simp] theorem Device.setTmQueues_hold (d : Device) (v : Tbl TmQueue) : (d.setTmQueues v).hold = d.hold := rfl
@[simp] theorem Device.setTmQueues_wave (d : Device) (v : Tbl TmQueue) : (d.setTmQueues v).wave = d.wave := rfl
@[simp] theorem Device.setTmQueues_mbr (d : Device) (v : Tbl TmQueue) : (d.setTmQueues v).mbr = d.mbr := rfl
@[simp] theorem Device.setTmQueues_corrs (d : Device) (v : Tbl TmQueue) : (d.setTmQueues v).corrs = d.corrs := rfl
@[simp] theorem Device.setTmQueues_d2dReplays (d : Device) (v : Tbl TmQueue) : (d.setTmQueues v).d2dReplays = d.d2dReplays := rfl
@[simp] theorem Device.setTmQueues_tiles (d : Device) (v : Tbl TmQueue) : (d.setTmQueues v).tiles = d.tiles := rfl
@[simp] theorem Device.setTmQueues_mesh (d : Device) (v : Tbl TmQueue) : (d.setTmQueues v).mesh = d.mesh := rfl
@[simp] theorem Device.setTmQueues_tokHold (d : Device) (v : Tbl TmQueue) : (d.setTmQueues v).tokHold = d.tokHold := rfl
@[simp] theorem Device.setTmQueues_ropes (d : Device) (v : Tbl TmQueue) : (d.setTmQueues v).ropes = d.ropes := rfl
@[simp] theorem Device.setTmQueues_ropeMoved (d : Device) (v : Tbl TmQueue) : (d.setTmQueues v).ropeMoved = d.ropeMoved := rfl
@[simp] theorem Device.setTmQueues_flows (d : Device) (v : Tbl TmQueue) : (d.setTmQueues v).flows = d.flows := rfl
@[simp] theorem Device.setTmQueues_tapQ (d : Device) (v : Tbl TmQueue) : (d.setTmQueues v).tapQ = d.tapQ := rfl
@[simp] theorem Device.setTmQueues_nextFlow (d : Device) (v : Tbl TmQueue) : (d.setTmQueues v).nextFlow = d.nextFlow := rfl
@[simp] theorem Device.setTmQueues_parts (d : Device) (v : Tbl TmQueue) : (d.setTmQueues v).parts = d.parts := rfl
@[simp] theorem Device.setTmQueues_ceLog (d : Device) (v : Tbl TmQueue) : (d.setTmQueues v).ceLog = d.ceLog := rfl
@[simp] theorem Device.setTmQueues_ddrUndef (d : Device) (v : Tbl TmQueue) : (d.setTmQueues v).ddrUndef = d.ddrUndef := rfl
@[simp] theorem Device.setTmQueues_conns (d : Device) (v : Tbl TmQueue) : (d.setTmQueues v).conns = d.conns := rfl
@[simp] theorem Device.setTmQueues_gft (d : Device) (v : Tbl TmQueue) : (d.setTmQueues v).gft = d.gft := rfl
@[simp] theorem Device.setTmQueues_groups (d : Device) (v : Tbl TmQueue) : (d.setTmQueues v).groups = d.groups := rfl
@[simp] theorem Device.setTmQueues_tmWait (d : Device) (v : Tbl TmQueue) : (d.setTmQueues v).tmWait = d.tmWait := rfl
@[simp] theorem Device.setTmQueues_fecBad (d : Device) (v : Tbl TmQueue) : (d.setTmQueues v).fecBad = d.fecBad := rfl
@[simp] theorem Device.setTmQueues_keyTime (d : Device) (v : Tbl TmQueue) : (d.setTmQueues v).keyTime = d.keyTime := rfl
@[simp] theorem Device.setTmQueues_pipeIn (d : Device) (v : Tbl TmQueue) : (d.setTmQueues v).pipeIn = d.pipeIn := rfl
@[simp] theorem Device.setTmQueues_pipes (d : Device) (v : Tbl TmQueue) : (d.setTmQueues v).pipes = d.pipes := rfl
@[simp] theorem Device.setTmQueues_clsSlots (d : Device) (v : Tbl TmQueue) : (d.setTmQueues v).clsSlots = d.clsSlots := rfl
@[simp] theorem Device.setTmQueues_flowCnts (d : Device) (v : Tbl TmQueue) : (d.setTmQueues v).flowCnts = d.flowCnts := rfl
@[simp] theorem Device.setTmQueues_pmeFlows (d : Device) (v : Tbl TmQueue) : (d.setTmQueues v).pmeFlows = d.pmeFlows := rfl
@[simp] theorem Device.setTmQueues_places (d : Device) (v : Tbl TmQueue) : (d.setTmQueues v).places = d.places := rfl
@[simp] theorem Device.setTmQueues_loaded (d : Device) (v : Tbl TmQueue) : (d.setTmQueues v).loaded = d.loaded := rfl
@[simp] theorem Device.setTmQueues_waveEpoch (d : Device) (v : Tbl TmQueue) : (d.setTmQueues v).waveEpoch = d.waveEpoch := rfl
@[simp] theorem Device.setTmQueues_tmQueues (d : Device) (v : Tbl TmQueue) : (d.setTmQueues v).tmQueues = v := rfl
@[simp] theorem Device.setTmQueues_tmPorts (d : Device) (v : Tbl TmQueue) : (d.setTmQueues v).tmPorts = d.tmPorts := rfl
@[simp] theorem Device.setTmQueues_policers (d : Device) (v : Tbl TmQueue) : (d.setTmQueues v).policers = d.policers := rfl
@[simp] theorem Device.setTmQueues_blocks (d : Device) (v : Tbl TmQueue) : (d.setTmQueues v).blocks = d.blocks := rfl
@[simp] theorem Device.setTmQueues_nvmes (d : Device) (v : Tbl TmQueue) : (d.setTmQueues v).nvmes = d.nvmes := rfl
@[simp] theorem Device.setTmQueues_nextNvme (d : Device) (v : Tbl TmQueue) : (d.setTmQueues v).nextNvme = d.nextNvme := rfl
@[simp] theorem Device.setTmQueues_stage (d : Device) (v : Tbl TmQueue) : (d.setTmQueues v).stage = d.stage := rfl
@[simp] theorem Device.setTmQueues_vaults (d : Device) (v : Tbl TmQueue) : (d.setTmQueues v).vaults = d.vaults := rfl
@[simp] theorem Device.setTmQueues_hostReads (d : Device) (v : Tbl TmQueue) : (d.setTmQueues v).hostReads = d.hostReads := rfl
@[simp] theorem Device.setTmQueues_link (d : Device) (v : Tbl TmQueue) : (d.setTmQueues v).link = d.link := rfl
@[simp] theorem Device.setTmQueues_nextFetch (d : Device) (v : Tbl TmQueue) : (d.setTmQueues v).nextFetch = d.nextFetch := rfl
@[simp] theorem Device.setTmQueues_xfers (d : Device) (v : Tbl TmQueue) : (d.setTmQueues v).xfers = d.xfers := rfl
@[simp] theorem Device.setTmQueues_queues (d : Device) (v : Tbl TmQueue) : (d.setTmQueues v).queues = d.queues := rfl
@[simp] theorem Device.setTmQueues_fetched (d : Device) (v : Tbl TmQueue) : (d.setTmQueues v).fetched = d.fetched := rfl
@[simp] theorem Device.setTmQueues_heldW (d : Device) (v : Tbl TmQueue) : (d.setTmQueues v).heldW = d.heldW := rfl
@[simp] theorem Device.setTmQueues_cores (d : Device) (v : Tbl TmQueue) : (d.setTmQueues v).cores = d.cores := rfl
@[simp] theorem Device.setTmQueues_fw (d : Device) (v : Tbl TmQueue) : (d.setTmQueues v).fw = d.fw := rfl
@[simp] theorem Device.setTmQueues_queueMem (d : Device) (v : Tbl TmQueue) : (d.setTmQueues v).queueMem = d.queueMem := rfl
@[simp] theorem Device.setTmQueues_wlogs (d : Device) (v : Tbl TmQueue) : (d.setTmQueues v).wlogs = d.wlogs := rfl
@[simp] theorem Device.setTmQueues_stores (d : Device) (v : Tbl TmQueue) : (d.setTmQueues v).stores = d.stores := rfl
@[simp] theorem Device.setTmQueues_crew (d : Device) (v : Tbl TmQueue) : (d.setTmQueues v).crew = d.crew := rfl
@[simp] theorem Device.setTmQueues_belay (d : Device) (v : Tbl TmQueue) : (d.setTmQueues v).belay = d.belay := rfl
@[simp] theorem Device.setTmQueues_tel (d : Device) (v : Tbl TmQueue) : (d.setTmQueues v).tel = d.tel := rfl
@[simp] theorem Device.setTmQueues_pwr (d : Device) (v : Tbl TmQueue) : (d.setTmQueues v).pwr = d.pwr := rfl
@[simp] theorem Device.setTmPorts_cfg (d : Device) (v : Tbl TmPort) : (d.setTmPorts v).cfg = d.cfg := rfl
@[simp] theorem Device.setTmPorts_clk (d : Device) (v : Tbl TmPort) : (d.setTmPorts v).clk = d.clk := rfl
@[simp] theorem Device.setTmPorts_reg (d : Device) (v : Tbl TmPort) : (d.setTmPorts v).reg = d.reg := rfl
@[simp] theorem Device.setTmPorts_rings (d : Device) (v : Tbl TmPort) : (d.setTmPorts v).rings = d.rings := rfl
@[simp] theorem Device.setTmPorts_out (d : Device) (v : Tbl TmPort) : (d.setTmPorts v).out = d.out := rfl
@[simp] theorem Device.setTmPorts_wr (d : Device) (v : Tbl TmPort) : (d.setTmPorts v).wr = d.wr := rfl
@[simp] theorem Device.setTmPorts_poison (d : Device) (v : Tbl TmPort) : (d.setTmPorts v).poison = d.poison := rfl
@[simp] theorem Device.setTmPorts_msix (d : Device) (v : Tbl TmPort) : (d.setTmPorts v).msix = d.msix := rfl
@[simp] theorem Device.setTmPorts_hold (d : Device) (v : Tbl TmPort) : (d.setTmPorts v).hold = d.hold := rfl
@[simp] theorem Device.setTmPorts_wave (d : Device) (v : Tbl TmPort) : (d.setTmPorts v).wave = d.wave := rfl
@[simp] theorem Device.setTmPorts_mbr (d : Device) (v : Tbl TmPort) : (d.setTmPorts v).mbr = d.mbr := rfl
@[simp] theorem Device.setTmPorts_corrs (d : Device) (v : Tbl TmPort) : (d.setTmPorts v).corrs = d.corrs := rfl
@[simp] theorem Device.setTmPorts_d2dReplays (d : Device) (v : Tbl TmPort) : (d.setTmPorts v).d2dReplays = d.d2dReplays := rfl
@[simp] theorem Device.setTmPorts_tiles (d : Device) (v : Tbl TmPort) : (d.setTmPorts v).tiles = d.tiles := rfl
@[simp] theorem Device.setTmPorts_mesh (d : Device) (v : Tbl TmPort) : (d.setTmPorts v).mesh = d.mesh := rfl
@[simp] theorem Device.setTmPorts_tokHold (d : Device) (v : Tbl TmPort) : (d.setTmPorts v).tokHold = d.tokHold := rfl
@[simp] theorem Device.setTmPorts_ropes (d : Device) (v : Tbl TmPort) : (d.setTmPorts v).ropes = d.ropes := rfl
@[simp] theorem Device.setTmPorts_ropeMoved (d : Device) (v : Tbl TmPort) : (d.setTmPorts v).ropeMoved = d.ropeMoved := rfl
@[simp] theorem Device.setTmPorts_flows (d : Device) (v : Tbl TmPort) : (d.setTmPorts v).flows = d.flows := rfl
@[simp] theorem Device.setTmPorts_tapQ (d : Device) (v : Tbl TmPort) : (d.setTmPorts v).tapQ = d.tapQ := rfl
@[simp] theorem Device.setTmPorts_nextFlow (d : Device) (v : Tbl TmPort) : (d.setTmPorts v).nextFlow = d.nextFlow := rfl
@[simp] theorem Device.setTmPorts_parts (d : Device) (v : Tbl TmPort) : (d.setTmPorts v).parts = d.parts := rfl
@[simp] theorem Device.setTmPorts_ceLog (d : Device) (v : Tbl TmPort) : (d.setTmPorts v).ceLog = d.ceLog := rfl
@[simp] theorem Device.setTmPorts_ddrUndef (d : Device) (v : Tbl TmPort) : (d.setTmPorts v).ddrUndef = d.ddrUndef := rfl
@[simp] theorem Device.setTmPorts_conns (d : Device) (v : Tbl TmPort) : (d.setTmPorts v).conns = d.conns := rfl
@[simp] theorem Device.setTmPorts_gft (d : Device) (v : Tbl TmPort) : (d.setTmPorts v).gft = d.gft := rfl
@[simp] theorem Device.setTmPorts_groups (d : Device) (v : Tbl TmPort) : (d.setTmPorts v).groups = d.groups := rfl
@[simp] theorem Device.setTmPorts_tmWait (d : Device) (v : Tbl TmPort) : (d.setTmPorts v).tmWait = d.tmWait := rfl
@[simp] theorem Device.setTmPorts_fecBad (d : Device) (v : Tbl TmPort) : (d.setTmPorts v).fecBad = d.fecBad := rfl
@[simp] theorem Device.setTmPorts_keyTime (d : Device) (v : Tbl TmPort) : (d.setTmPorts v).keyTime = d.keyTime := rfl
@[simp] theorem Device.setTmPorts_pipeIn (d : Device) (v : Tbl TmPort) : (d.setTmPorts v).pipeIn = d.pipeIn := rfl
@[simp] theorem Device.setTmPorts_pipes (d : Device) (v : Tbl TmPort) : (d.setTmPorts v).pipes = d.pipes := rfl
@[simp] theorem Device.setTmPorts_clsSlots (d : Device) (v : Tbl TmPort) : (d.setTmPorts v).clsSlots = d.clsSlots := rfl
@[simp] theorem Device.setTmPorts_flowCnts (d : Device) (v : Tbl TmPort) : (d.setTmPorts v).flowCnts = d.flowCnts := rfl
@[simp] theorem Device.setTmPorts_pmeFlows (d : Device) (v : Tbl TmPort) : (d.setTmPorts v).pmeFlows = d.pmeFlows := rfl
@[simp] theorem Device.setTmPorts_places (d : Device) (v : Tbl TmPort) : (d.setTmPorts v).places = d.places := rfl
@[simp] theorem Device.setTmPorts_loaded (d : Device) (v : Tbl TmPort) : (d.setTmPorts v).loaded = d.loaded := rfl
@[simp] theorem Device.setTmPorts_waveEpoch (d : Device) (v : Tbl TmPort) : (d.setTmPorts v).waveEpoch = d.waveEpoch := rfl
@[simp] theorem Device.setTmPorts_tmQueues (d : Device) (v : Tbl TmPort) : (d.setTmPorts v).tmQueues = d.tmQueues := rfl
@[simp] theorem Device.setTmPorts_tmPorts (d : Device) (v : Tbl TmPort) : (d.setTmPorts v).tmPorts = v := rfl
@[simp] theorem Device.setTmPorts_policers (d : Device) (v : Tbl TmPort) : (d.setTmPorts v).policers = d.policers := rfl
@[simp] theorem Device.setTmPorts_blocks (d : Device) (v : Tbl TmPort) : (d.setTmPorts v).blocks = d.blocks := rfl
@[simp] theorem Device.setTmPorts_nvmes (d : Device) (v : Tbl TmPort) : (d.setTmPorts v).nvmes = d.nvmes := rfl
@[simp] theorem Device.setTmPorts_nextNvme (d : Device) (v : Tbl TmPort) : (d.setTmPorts v).nextNvme = d.nextNvme := rfl
@[simp] theorem Device.setTmPorts_stage (d : Device) (v : Tbl TmPort) : (d.setTmPorts v).stage = d.stage := rfl
@[simp] theorem Device.setTmPorts_vaults (d : Device) (v : Tbl TmPort) : (d.setTmPorts v).vaults = d.vaults := rfl
@[simp] theorem Device.setTmPorts_hostReads (d : Device) (v : Tbl TmPort) : (d.setTmPorts v).hostReads = d.hostReads := rfl
@[simp] theorem Device.setTmPorts_link (d : Device) (v : Tbl TmPort) : (d.setTmPorts v).link = d.link := rfl
@[simp] theorem Device.setTmPorts_nextFetch (d : Device) (v : Tbl TmPort) : (d.setTmPorts v).nextFetch = d.nextFetch := rfl
@[simp] theorem Device.setTmPorts_xfers (d : Device) (v : Tbl TmPort) : (d.setTmPorts v).xfers = d.xfers := rfl
@[simp] theorem Device.setTmPorts_queues (d : Device) (v : Tbl TmPort) : (d.setTmPorts v).queues = d.queues := rfl
@[simp] theorem Device.setTmPorts_fetched (d : Device) (v : Tbl TmPort) : (d.setTmPorts v).fetched = d.fetched := rfl
@[simp] theorem Device.setTmPorts_heldW (d : Device) (v : Tbl TmPort) : (d.setTmPorts v).heldW = d.heldW := rfl
@[simp] theorem Device.setTmPorts_cores (d : Device) (v : Tbl TmPort) : (d.setTmPorts v).cores = d.cores := rfl
@[simp] theorem Device.setTmPorts_fw (d : Device) (v : Tbl TmPort) : (d.setTmPorts v).fw = d.fw := rfl
@[simp] theorem Device.setTmPorts_queueMem (d : Device) (v : Tbl TmPort) : (d.setTmPorts v).queueMem = d.queueMem := rfl
@[simp] theorem Device.setTmPorts_wlogs (d : Device) (v : Tbl TmPort) : (d.setTmPorts v).wlogs = d.wlogs := rfl
@[simp] theorem Device.setTmPorts_stores (d : Device) (v : Tbl TmPort) : (d.setTmPorts v).stores = d.stores := rfl
@[simp] theorem Device.setTmPorts_crew (d : Device) (v : Tbl TmPort) : (d.setTmPorts v).crew = d.crew := rfl
@[simp] theorem Device.setTmPorts_belay (d : Device) (v : Tbl TmPort) : (d.setTmPorts v).belay = d.belay := rfl
@[simp] theorem Device.setTmPorts_tel (d : Device) (v : Tbl TmPort) : (d.setTmPorts v).tel = d.tel := rfl
@[simp] theorem Device.setTmPorts_pwr (d : Device) (v : Tbl TmPort) : (d.setTmPorts v).pwr = d.pwr := rfl
@[simp] theorem Device.setPolicers_cfg (d : Device) (v : Tbl Policer) : (d.setPolicers v).cfg = d.cfg := rfl
@[simp] theorem Device.setPolicers_clk (d : Device) (v : Tbl Policer) : (d.setPolicers v).clk = d.clk := rfl
@[simp] theorem Device.setPolicers_reg (d : Device) (v : Tbl Policer) : (d.setPolicers v).reg = d.reg := rfl
@[simp] theorem Device.setPolicers_rings (d : Device) (v : Tbl Policer) : (d.setPolicers v).rings = d.rings := rfl
@[simp] theorem Device.setPolicers_out (d : Device) (v : Tbl Policer) : (d.setPolicers v).out = d.out := rfl
@[simp] theorem Device.setPolicers_wr (d : Device) (v : Tbl Policer) : (d.setPolicers v).wr = d.wr := rfl
@[simp] theorem Device.setPolicers_poison (d : Device) (v : Tbl Policer) : (d.setPolicers v).poison = d.poison := rfl
@[simp] theorem Device.setPolicers_msix (d : Device) (v : Tbl Policer) : (d.setPolicers v).msix = d.msix := rfl
@[simp] theorem Device.setPolicers_hold (d : Device) (v : Tbl Policer) : (d.setPolicers v).hold = d.hold := rfl
@[simp] theorem Device.setPolicers_wave (d : Device) (v : Tbl Policer) : (d.setPolicers v).wave = d.wave := rfl
@[simp] theorem Device.setPolicers_mbr (d : Device) (v : Tbl Policer) : (d.setPolicers v).mbr = d.mbr := rfl
@[simp] theorem Device.setPolicers_corrs (d : Device) (v : Tbl Policer) : (d.setPolicers v).corrs = d.corrs := rfl
@[simp] theorem Device.setPolicers_d2dReplays (d : Device) (v : Tbl Policer) : (d.setPolicers v).d2dReplays = d.d2dReplays := rfl
@[simp] theorem Device.setPolicers_tiles (d : Device) (v : Tbl Policer) : (d.setPolicers v).tiles = d.tiles := rfl
@[simp] theorem Device.setPolicers_mesh (d : Device) (v : Tbl Policer) : (d.setPolicers v).mesh = d.mesh := rfl
@[simp] theorem Device.setPolicers_tokHold (d : Device) (v : Tbl Policer) : (d.setPolicers v).tokHold = d.tokHold := rfl
@[simp] theorem Device.setPolicers_ropes (d : Device) (v : Tbl Policer) : (d.setPolicers v).ropes = d.ropes := rfl
@[simp] theorem Device.setPolicers_ropeMoved (d : Device) (v : Tbl Policer) : (d.setPolicers v).ropeMoved = d.ropeMoved := rfl
@[simp] theorem Device.setPolicers_flows (d : Device) (v : Tbl Policer) : (d.setPolicers v).flows = d.flows := rfl
@[simp] theorem Device.setPolicers_tapQ (d : Device) (v : Tbl Policer) : (d.setPolicers v).tapQ = d.tapQ := rfl
@[simp] theorem Device.setPolicers_nextFlow (d : Device) (v : Tbl Policer) : (d.setPolicers v).nextFlow = d.nextFlow := rfl
@[simp] theorem Device.setPolicers_parts (d : Device) (v : Tbl Policer) : (d.setPolicers v).parts = d.parts := rfl
@[simp] theorem Device.setPolicers_ceLog (d : Device) (v : Tbl Policer) : (d.setPolicers v).ceLog = d.ceLog := rfl
@[simp] theorem Device.setPolicers_ddrUndef (d : Device) (v : Tbl Policer) : (d.setPolicers v).ddrUndef = d.ddrUndef := rfl
@[simp] theorem Device.setPolicers_conns (d : Device) (v : Tbl Policer) : (d.setPolicers v).conns = d.conns := rfl
@[simp] theorem Device.setPolicers_gft (d : Device) (v : Tbl Policer) : (d.setPolicers v).gft = d.gft := rfl
@[simp] theorem Device.setPolicers_groups (d : Device) (v : Tbl Policer) : (d.setPolicers v).groups = d.groups := rfl
@[simp] theorem Device.setPolicers_tmWait (d : Device) (v : Tbl Policer) : (d.setPolicers v).tmWait = d.tmWait := rfl
@[simp] theorem Device.setPolicers_fecBad (d : Device) (v : Tbl Policer) : (d.setPolicers v).fecBad = d.fecBad := rfl
@[simp] theorem Device.setPolicers_keyTime (d : Device) (v : Tbl Policer) : (d.setPolicers v).keyTime = d.keyTime := rfl
@[simp] theorem Device.setPolicers_pipeIn (d : Device) (v : Tbl Policer) : (d.setPolicers v).pipeIn = d.pipeIn := rfl
@[simp] theorem Device.setPolicers_pipes (d : Device) (v : Tbl Policer) : (d.setPolicers v).pipes = d.pipes := rfl
@[simp] theorem Device.setPolicers_clsSlots (d : Device) (v : Tbl Policer) : (d.setPolicers v).clsSlots = d.clsSlots := rfl
@[simp] theorem Device.setPolicers_flowCnts (d : Device) (v : Tbl Policer) : (d.setPolicers v).flowCnts = d.flowCnts := rfl
@[simp] theorem Device.setPolicers_pmeFlows (d : Device) (v : Tbl Policer) : (d.setPolicers v).pmeFlows = d.pmeFlows := rfl
@[simp] theorem Device.setPolicers_places (d : Device) (v : Tbl Policer) : (d.setPolicers v).places = d.places := rfl
@[simp] theorem Device.setPolicers_loaded (d : Device) (v : Tbl Policer) : (d.setPolicers v).loaded = d.loaded := rfl
@[simp] theorem Device.setPolicers_waveEpoch (d : Device) (v : Tbl Policer) : (d.setPolicers v).waveEpoch = d.waveEpoch := rfl
@[simp] theorem Device.setPolicers_tmQueues (d : Device) (v : Tbl Policer) : (d.setPolicers v).tmQueues = d.tmQueues := rfl
@[simp] theorem Device.setPolicers_tmPorts (d : Device) (v : Tbl Policer) : (d.setPolicers v).tmPorts = d.tmPorts := rfl
@[simp] theorem Device.setPolicers_policers (d : Device) (v : Tbl Policer) : (d.setPolicers v).policers = v := rfl
@[simp] theorem Device.setPolicers_blocks (d : Device) (v : Tbl Policer) : (d.setPolicers v).blocks = d.blocks := rfl
@[simp] theorem Device.setPolicers_nvmes (d : Device) (v : Tbl Policer) : (d.setPolicers v).nvmes = d.nvmes := rfl
@[simp] theorem Device.setPolicers_nextNvme (d : Device) (v : Tbl Policer) : (d.setPolicers v).nextNvme = d.nextNvme := rfl
@[simp] theorem Device.setPolicers_stage (d : Device) (v : Tbl Policer) : (d.setPolicers v).stage = d.stage := rfl
@[simp] theorem Device.setPolicers_vaults (d : Device) (v : Tbl Policer) : (d.setPolicers v).vaults = d.vaults := rfl
@[simp] theorem Device.setPolicers_hostReads (d : Device) (v : Tbl Policer) : (d.setPolicers v).hostReads = d.hostReads := rfl
@[simp] theorem Device.setPolicers_link (d : Device) (v : Tbl Policer) : (d.setPolicers v).link = d.link := rfl
@[simp] theorem Device.setPolicers_nextFetch (d : Device) (v : Tbl Policer) : (d.setPolicers v).nextFetch = d.nextFetch := rfl
@[simp] theorem Device.setPolicers_xfers (d : Device) (v : Tbl Policer) : (d.setPolicers v).xfers = d.xfers := rfl
@[simp] theorem Device.setPolicers_queues (d : Device) (v : Tbl Policer) : (d.setPolicers v).queues = d.queues := rfl
@[simp] theorem Device.setPolicers_fetched (d : Device) (v : Tbl Policer) : (d.setPolicers v).fetched = d.fetched := rfl
@[simp] theorem Device.setPolicers_heldW (d : Device) (v : Tbl Policer) : (d.setPolicers v).heldW = d.heldW := rfl
@[simp] theorem Device.setPolicers_cores (d : Device) (v : Tbl Policer) : (d.setPolicers v).cores = d.cores := rfl
@[simp] theorem Device.setPolicers_fw (d : Device) (v : Tbl Policer) : (d.setPolicers v).fw = d.fw := rfl
@[simp] theorem Device.setPolicers_queueMem (d : Device) (v : Tbl Policer) : (d.setPolicers v).queueMem = d.queueMem := rfl
@[simp] theorem Device.setPolicers_wlogs (d : Device) (v : Tbl Policer) : (d.setPolicers v).wlogs = d.wlogs := rfl
@[simp] theorem Device.setPolicers_stores (d : Device) (v : Tbl Policer) : (d.setPolicers v).stores = d.stores := rfl
@[simp] theorem Device.setPolicers_crew (d : Device) (v : Tbl Policer) : (d.setPolicers v).crew = d.crew := rfl
@[simp] theorem Device.setPolicers_belay (d : Device) (v : Tbl Policer) : (d.setPolicers v).belay = d.belay := rfl
@[simp] theorem Device.setPolicers_tel (d : Device) (v : Tbl Policer) : (d.setPolicers v).tel = d.tel := rfl
@[simp] theorem Device.setPolicers_pwr (d : Device) (v : Tbl Policer) : (d.setPolicers v).pwr = d.pwr := rfl
@[simp] theorem Device.setBlocks_cfg (d : Device) (v : List BlockCmd) : (d.setBlocks v).cfg = d.cfg := rfl
@[simp] theorem Device.setBlocks_clk (d : Device) (v : List BlockCmd) : (d.setBlocks v).clk = d.clk := rfl
@[simp] theorem Device.setBlocks_reg (d : Device) (v : List BlockCmd) : (d.setBlocks v).reg = d.reg := rfl
@[simp] theorem Device.setBlocks_rings (d : Device) (v : List BlockCmd) : (d.setBlocks v).rings = d.rings := rfl
@[simp] theorem Device.setBlocks_out (d : Device) (v : List BlockCmd) : (d.setBlocks v).out = d.out := rfl
@[simp] theorem Device.setBlocks_wr (d : Device) (v : List BlockCmd) : (d.setBlocks v).wr = d.wr := rfl
@[simp] theorem Device.setBlocks_poison (d : Device) (v : List BlockCmd) : (d.setBlocks v).poison = d.poison := rfl
@[simp] theorem Device.setBlocks_msix (d : Device) (v : List BlockCmd) : (d.setBlocks v).msix = d.msix := rfl
@[simp] theorem Device.setBlocks_hold (d : Device) (v : List BlockCmd) : (d.setBlocks v).hold = d.hold := rfl
@[simp] theorem Device.setBlocks_wave (d : Device) (v : List BlockCmd) : (d.setBlocks v).wave = d.wave := rfl
@[simp] theorem Device.setBlocks_mbr (d : Device) (v : List BlockCmd) : (d.setBlocks v).mbr = d.mbr := rfl
@[simp] theorem Device.setBlocks_corrs (d : Device) (v : List BlockCmd) : (d.setBlocks v).corrs = d.corrs := rfl
@[simp] theorem Device.setBlocks_d2dReplays (d : Device) (v : List BlockCmd) : (d.setBlocks v).d2dReplays = d.d2dReplays := rfl
@[simp] theorem Device.setBlocks_tiles (d : Device) (v : List BlockCmd) : (d.setBlocks v).tiles = d.tiles := rfl
@[simp] theorem Device.setBlocks_mesh (d : Device) (v : List BlockCmd) : (d.setBlocks v).mesh = d.mesh := rfl
@[simp] theorem Device.setBlocks_tokHold (d : Device) (v : List BlockCmd) : (d.setBlocks v).tokHold = d.tokHold := rfl
@[simp] theorem Device.setBlocks_ropes (d : Device) (v : List BlockCmd) : (d.setBlocks v).ropes = d.ropes := rfl
@[simp] theorem Device.setBlocks_ropeMoved (d : Device) (v : List BlockCmd) : (d.setBlocks v).ropeMoved = d.ropeMoved := rfl
@[simp] theorem Device.setBlocks_flows (d : Device) (v : List BlockCmd) : (d.setBlocks v).flows = d.flows := rfl
@[simp] theorem Device.setBlocks_tapQ (d : Device) (v : List BlockCmd) : (d.setBlocks v).tapQ = d.tapQ := rfl
@[simp] theorem Device.setBlocks_nextFlow (d : Device) (v : List BlockCmd) : (d.setBlocks v).nextFlow = d.nextFlow := rfl
@[simp] theorem Device.setBlocks_parts (d : Device) (v : List BlockCmd) : (d.setBlocks v).parts = d.parts := rfl
@[simp] theorem Device.setBlocks_ceLog (d : Device) (v : List BlockCmd) : (d.setBlocks v).ceLog = d.ceLog := rfl
@[simp] theorem Device.setBlocks_ddrUndef (d : Device) (v : List BlockCmd) : (d.setBlocks v).ddrUndef = d.ddrUndef := rfl
@[simp] theorem Device.setBlocks_conns (d : Device) (v : List BlockCmd) : (d.setBlocks v).conns = d.conns := rfl
@[simp] theorem Device.setBlocks_gft (d : Device) (v : List BlockCmd) : (d.setBlocks v).gft = d.gft := rfl
@[simp] theorem Device.setBlocks_groups (d : Device) (v : List BlockCmd) : (d.setBlocks v).groups = d.groups := rfl
@[simp] theorem Device.setBlocks_tmWait (d : Device) (v : List BlockCmd) : (d.setBlocks v).tmWait = d.tmWait := rfl
@[simp] theorem Device.setBlocks_fecBad (d : Device) (v : List BlockCmd) : (d.setBlocks v).fecBad = d.fecBad := rfl
@[simp] theorem Device.setBlocks_keyTime (d : Device) (v : List BlockCmd) : (d.setBlocks v).keyTime = d.keyTime := rfl
@[simp] theorem Device.setBlocks_pipeIn (d : Device) (v : List BlockCmd) : (d.setBlocks v).pipeIn = d.pipeIn := rfl
@[simp] theorem Device.setBlocks_pipes (d : Device) (v : List BlockCmd) : (d.setBlocks v).pipes = d.pipes := rfl
@[simp] theorem Device.setBlocks_clsSlots (d : Device) (v : List BlockCmd) : (d.setBlocks v).clsSlots = d.clsSlots := rfl
@[simp] theorem Device.setBlocks_flowCnts (d : Device) (v : List BlockCmd) : (d.setBlocks v).flowCnts = d.flowCnts := rfl
@[simp] theorem Device.setBlocks_pmeFlows (d : Device) (v : List BlockCmd) : (d.setBlocks v).pmeFlows = d.pmeFlows := rfl
@[simp] theorem Device.setBlocks_places (d : Device) (v : List BlockCmd) : (d.setBlocks v).places = d.places := rfl
@[simp] theorem Device.setBlocks_loaded (d : Device) (v : List BlockCmd) : (d.setBlocks v).loaded = d.loaded := rfl
@[simp] theorem Device.setBlocks_waveEpoch (d : Device) (v : List BlockCmd) : (d.setBlocks v).waveEpoch = d.waveEpoch := rfl
@[simp] theorem Device.setBlocks_tmQueues (d : Device) (v : List BlockCmd) : (d.setBlocks v).tmQueues = d.tmQueues := rfl
@[simp] theorem Device.setBlocks_tmPorts (d : Device) (v : List BlockCmd) : (d.setBlocks v).tmPorts = d.tmPorts := rfl
@[simp] theorem Device.setBlocks_policers (d : Device) (v : List BlockCmd) : (d.setBlocks v).policers = d.policers := rfl
@[simp] theorem Device.setBlocks_blocks (d : Device) (v : List BlockCmd) : (d.setBlocks v).blocks = v := rfl
@[simp] theorem Device.setBlocks_nvmes (d : Device) (v : List BlockCmd) : (d.setBlocks v).nvmes = d.nvmes := rfl
@[simp] theorem Device.setBlocks_nextNvme (d : Device) (v : List BlockCmd) : (d.setBlocks v).nextNvme = d.nextNvme := rfl
@[simp] theorem Device.setBlocks_stage (d : Device) (v : List BlockCmd) : (d.setBlocks v).stage = d.stage := rfl
@[simp] theorem Device.setBlocks_vaults (d : Device) (v : List BlockCmd) : (d.setBlocks v).vaults = d.vaults := rfl
@[simp] theorem Device.setBlocks_hostReads (d : Device) (v : List BlockCmd) : (d.setBlocks v).hostReads = d.hostReads := rfl
@[simp] theorem Device.setBlocks_link (d : Device) (v : List BlockCmd) : (d.setBlocks v).link = d.link := rfl
@[simp] theorem Device.setBlocks_nextFetch (d : Device) (v : List BlockCmd) : (d.setBlocks v).nextFetch = d.nextFetch := rfl
@[simp] theorem Device.setBlocks_xfers (d : Device) (v : List BlockCmd) : (d.setBlocks v).xfers = d.xfers := rfl
@[simp] theorem Device.setBlocks_queues (d : Device) (v : List BlockCmd) : (d.setBlocks v).queues = d.queues := rfl
@[simp] theorem Device.setBlocks_fetched (d : Device) (v : List BlockCmd) : (d.setBlocks v).fetched = d.fetched := rfl
@[simp] theorem Device.setBlocks_heldW (d : Device) (v : List BlockCmd) : (d.setBlocks v).heldW = d.heldW := rfl
@[simp] theorem Device.setBlocks_cores (d : Device) (v : List BlockCmd) : (d.setBlocks v).cores = d.cores := rfl
@[simp] theorem Device.setBlocks_fw (d : Device) (v : List BlockCmd) : (d.setBlocks v).fw = d.fw := rfl
@[simp] theorem Device.setBlocks_queueMem (d : Device) (v : List BlockCmd) : (d.setBlocks v).queueMem = d.queueMem := rfl
@[simp] theorem Device.setBlocks_wlogs (d : Device) (v : List BlockCmd) : (d.setBlocks v).wlogs = d.wlogs := rfl
@[simp] theorem Device.setBlocks_stores (d : Device) (v : List BlockCmd) : (d.setBlocks v).stores = d.stores := rfl
@[simp] theorem Device.setBlocks_crew (d : Device) (v : List BlockCmd) : (d.setBlocks v).crew = d.crew := rfl
@[simp] theorem Device.setBlocks_belay (d : Device) (v : List BlockCmd) : (d.setBlocks v).belay = d.belay := rfl
@[simp] theorem Device.setBlocks_tel (d : Device) (v : List BlockCmd) : (d.setBlocks v).tel = d.tel := rfl
@[simp] theorem Device.setBlocks_pwr (d : Device) (v : List BlockCmd) : (d.setBlocks v).pwr = d.pwr := rfl
@[simp] theorem Device.setNvmes_cfg (d : Device) (v : List NvmeCmd) : (d.setNvmes v).cfg = d.cfg := rfl
@[simp] theorem Device.setNvmes_clk (d : Device) (v : List NvmeCmd) : (d.setNvmes v).clk = d.clk := rfl
@[simp] theorem Device.setNvmes_reg (d : Device) (v : List NvmeCmd) : (d.setNvmes v).reg = d.reg := rfl
@[simp] theorem Device.setNvmes_rings (d : Device) (v : List NvmeCmd) : (d.setNvmes v).rings = d.rings := rfl
@[simp] theorem Device.setNvmes_out (d : Device) (v : List NvmeCmd) : (d.setNvmes v).out = d.out := rfl
@[simp] theorem Device.setNvmes_wr (d : Device) (v : List NvmeCmd) : (d.setNvmes v).wr = d.wr := rfl
@[simp] theorem Device.setNvmes_poison (d : Device) (v : List NvmeCmd) : (d.setNvmes v).poison = d.poison := rfl
@[simp] theorem Device.setNvmes_msix (d : Device) (v : List NvmeCmd) : (d.setNvmes v).msix = d.msix := rfl
@[simp] theorem Device.setNvmes_hold (d : Device) (v : List NvmeCmd) : (d.setNvmes v).hold = d.hold := rfl
@[simp] theorem Device.setNvmes_wave (d : Device) (v : List NvmeCmd) : (d.setNvmes v).wave = d.wave := rfl
@[simp] theorem Device.setNvmes_mbr (d : Device) (v : List NvmeCmd) : (d.setNvmes v).mbr = d.mbr := rfl
@[simp] theorem Device.setNvmes_corrs (d : Device) (v : List NvmeCmd) : (d.setNvmes v).corrs = d.corrs := rfl
@[simp] theorem Device.setNvmes_d2dReplays (d : Device) (v : List NvmeCmd) : (d.setNvmes v).d2dReplays = d.d2dReplays := rfl
@[simp] theorem Device.setNvmes_tiles (d : Device) (v : List NvmeCmd) : (d.setNvmes v).tiles = d.tiles := rfl
@[simp] theorem Device.setNvmes_mesh (d : Device) (v : List NvmeCmd) : (d.setNvmes v).mesh = d.mesh := rfl
@[simp] theorem Device.setNvmes_tokHold (d : Device) (v : List NvmeCmd) : (d.setNvmes v).tokHold = d.tokHold := rfl
@[simp] theorem Device.setNvmes_ropes (d : Device) (v : List NvmeCmd) : (d.setNvmes v).ropes = d.ropes := rfl
@[simp] theorem Device.setNvmes_ropeMoved (d : Device) (v : List NvmeCmd) : (d.setNvmes v).ropeMoved = d.ropeMoved := rfl
@[simp] theorem Device.setNvmes_flows (d : Device) (v : List NvmeCmd) : (d.setNvmes v).flows = d.flows := rfl
@[simp] theorem Device.setNvmes_tapQ (d : Device) (v : List NvmeCmd) : (d.setNvmes v).tapQ = d.tapQ := rfl
@[simp] theorem Device.setNvmes_nextFlow (d : Device) (v : List NvmeCmd) : (d.setNvmes v).nextFlow = d.nextFlow := rfl
@[simp] theorem Device.setNvmes_parts (d : Device) (v : List NvmeCmd) : (d.setNvmes v).parts = d.parts := rfl
@[simp] theorem Device.setNvmes_ceLog (d : Device) (v : List NvmeCmd) : (d.setNvmes v).ceLog = d.ceLog := rfl
@[simp] theorem Device.setNvmes_ddrUndef (d : Device) (v : List NvmeCmd) : (d.setNvmes v).ddrUndef = d.ddrUndef := rfl
@[simp] theorem Device.setNvmes_conns (d : Device) (v : List NvmeCmd) : (d.setNvmes v).conns = d.conns := rfl
@[simp] theorem Device.setNvmes_gft (d : Device) (v : List NvmeCmd) : (d.setNvmes v).gft = d.gft := rfl
@[simp] theorem Device.setNvmes_groups (d : Device) (v : List NvmeCmd) : (d.setNvmes v).groups = d.groups := rfl
@[simp] theorem Device.setNvmes_tmWait (d : Device) (v : List NvmeCmd) : (d.setNvmes v).tmWait = d.tmWait := rfl
@[simp] theorem Device.setNvmes_fecBad (d : Device) (v : List NvmeCmd) : (d.setNvmes v).fecBad = d.fecBad := rfl
@[simp] theorem Device.setNvmes_keyTime (d : Device) (v : List NvmeCmd) : (d.setNvmes v).keyTime = d.keyTime := rfl
@[simp] theorem Device.setNvmes_pipeIn (d : Device) (v : List NvmeCmd) : (d.setNvmes v).pipeIn = d.pipeIn := rfl
@[simp] theorem Device.setNvmes_pipes (d : Device) (v : List NvmeCmd) : (d.setNvmes v).pipes = d.pipes := rfl
@[simp] theorem Device.setNvmes_clsSlots (d : Device) (v : List NvmeCmd) : (d.setNvmes v).clsSlots = d.clsSlots := rfl
@[simp] theorem Device.setNvmes_flowCnts (d : Device) (v : List NvmeCmd) : (d.setNvmes v).flowCnts = d.flowCnts := rfl
@[simp] theorem Device.setNvmes_pmeFlows (d : Device) (v : List NvmeCmd) : (d.setNvmes v).pmeFlows = d.pmeFlows := rfl
@[simp] theorem Device.setNvmes_places (d : Device) (v : List NvmeCmd) : (d.setNvmes v).places = d.places := rfl
@[simp] theorem Device.setNvmes_loaded (d : Device) (v : List NvmeCmd) : (d.setNvmes v).loaded = d.loaded := rfl
@[simp] theorem Device.setNvmes_waveEpoch (d : Device) (v : List NvmeCmd) : (d.setNvmes v).waveEpoch = d.waveEpoch := rfl
@[simp] theorem Device.setNvmes_tmQueues (d : Device) (v : List NvmeCmd) : (d.setNvmes v).tmQueues = d.tmQueues := rfl
@[simp] theorem Device.setNvmes_tmPorts (d : Device) (v : List NvmeCmd) : (d.setNvmes v).tmPorts = d.tmPorts := rfl
@[simp] theorem Device.setNvmes_policers (d : Device) (v : List NvmeCmd) : (d.setNvmes v).policers = d.policers := rfl
@[simp] theorem Device.setNvmes_blocks (d : Device) (v : List NvmeCmd) : (d.setNvmes v).blocks = d.blocks := rfl
@[simp] theorem Device.setNvmes_nvmes (d : Device) (v : List NvmeCmd) : (d.setNvmes v).nvmes = v := rfl
@[simp] theorem Device.setNvmes_nextNvme (d : Device) (v : List NvmeCmd) : (d.setNvmes v).nextNvme = d.nextNvme := rfl
@[simp] theorem Device.setNvmes_stage (d : Device) (v : List NvmeCmd) : (d.setNvmes v).stage = d.stage := rfl
@[simp] theorem Device.setNvmes_vaults (d : Device) (v : List NvmeCmd) : (d.setNvmes v).vaults = d.vaults := rfl
@[simp] theorem Device.setNvmes_hostReads (d : Device) (v : List NvmeCmd) : (d.setNvmes v).hostReads = d.hostReads := rfl
@[simp] theorem Device.setNvmes_link (d : Device) (v : List NvmeCmd) : (d.setNvmes v).link = d.link := rfl
@[simp] theorem Device.setNvmes_nextFetch (d : Device) (v : List NvmeCmd) : (d.setNvmes v).nextFetch = d.nextFetch := rfl
@[simp] theorem Device.setNvmes_xfers (d : Device) (v : List NvmeCmd) : (d.setNvmes v).xfers = d.xfers := rfl
@[simp] theorem Device.setNvmes_queues (d : Device) (v : List NvmeCmd) : (d.setNvmes v).queues = d.queues := rfl
@[simp] theorem Device.setNvmes_fetched (d : Device) (v : List NvmeCmd) : (d.setNvmes v).fetched = d.fetched := rfl
@[simp] theorem Device.setNvmes_heldW (d : Device) (v : List NvmeCmd) : (d.setNvmes v).heldW = d.heldW := rfl
@[simp] theorem Device.setNvmes_cores (d : Device) (v : List NvmeCmd) : (d.setNvmes v).cores = d.cores := rfl
@[simp] theorem Device.setNvmes_fw (d : Device) (v : List NvmeCmd) : (d.setNvmes v).fw = d.fw := rfl
@[simp] theorem Device.setNvmes_queueMem (d : Device) (v : List NvmeCmd) : (d.setNvmes v).queueMem = d.queueMem := rfl
@[simp] theorem Device.setNvmes_wlogs (d : Device) (v : List NvmeCmd) : (d.setNvmes v).wlogs = d.wlogs := rfl
@[simp] theorem Device.setNvmes_stores (d : Device) (v : List NvmeCmd) : (d.setNvmes v).stores = d.stores := rfl
@[simp] theorem Device.setNvmes_crew (d : Device) (v : List NvmeCmd) : (d.setNvmes v).crew = d.crew := rfl
@[simp] theorem Device.setNvmes_belay (d : Device) (v : List NvmeCmd) : (d.setNvmes v).belay = d.belay := rfl
@[simp] theorem Device.setNvmes_tel (d : Device) (v : List NvmeCmd) : (d.setNvmes v).tel = d.tel := rfl
@[simp] theorem Device.setNvmes_pwr (d : Device) (v : List NvmeCmd) : (d.setNvmes v).pwr = d.pwr := rfl
@[simp] theorem Device.setNextNvme_cfg (d : Device) (v : Nat) : (d.setNextNvme v).cfg = d.cfg := rfl
@[simp] theorem Device.setNextNvme_clk (d : Device) (v : Nat) : (d.setNextNvme v).clk = d.clk := rfl
@[simp] theorem Device.setNextNvme_reg (d : Device) (v : Nat) : (d.setNextNvme v).reg = d.reg := rfl
@[simp] theorem Device.setNextNvme_rings (d : Device) (v : Nat) : (d.setNextNvme v).rings = d.rings := rfl
@[simp] theorem Device.setNextNvme_out (d : Device) (v : Nat) : (d.setNextNvme v).out = d.out := rfl
@[simp] theorem Device.setNextNvme_wr (d : Device) (v : Nat) : (d.setNextNvme v).wr = d.wr := rfl
@[simp] theorem Device.setNextNvme_poison (d : Device) (v : Nat) : (d.setNextNvme v).poison = d.poison := rfl
@[simp] theorem Device.setNextNvme_msix (d : Device) (v : Nat) : (d.setNextNvme v).msix = d.msix := rfl
@[simp] theorem Device.setNextNvme_hold (d : Device) (v : Nat) : (d.setNextNvme v).hold = d.hold := rfl
@[simp] theorem Device.setNextNvme_wave (d : Device) (v : Nat) : (d.setNextNvme v).wave = d.wave := rfl
@[simp] theorem Device.setNextNvme_mbr (d : Device) (v : Nat) : (d.setNextNvme v).mbr = d.mbr := rfl
@[simp] theorem Device.setNextNvme_corrs (d : Device) (v : Nat) : (d.setNextNvme v).corrs = d.corrs := rfl
@[simp] theorem Device.setNextNvme_d2dReplays (d : Device) (v : Nat) : (d.setNextNvme v).d2dReplays = d.d2dReplays := rfl
@[simp] theorem Device.setNextNvme_tiles (d : Device) (v : Nat) : (d.setNextNvme v).tiles = d.tiles := rfl
@[simp] theorem Device.setNextNvme_mesh (d : Device) (v : Nat) : (d.setNextNvme v).mesh = d.mesh := rfl
@[simp] theorem Device.setNextNvme_tokHold (d : Device) (v : Nat) : (d.setNextNvme v).tokHold = d.tokHold := rfl
@[simp] theorem Device.setNextNvme_ropes (d : Device) (v : Nat) : (d.setNextNvme v).ropes = d.ropes := rfl
@[simp] theorem Device.setNextNvme_ropeMoved (d : Device) (v : Nat) : (d.setNextNvme v).ropeMoved = d.ropeMoved := rfl
@[simp] theorem Device.setNextNvme_flows (d : Device) (v : Nat) : (d.setNextNvme v).flows = d.flows := rfl
@[simp] theorem Device.setNextNvme_tapQ (d : Device) (v : Nat) : (d.setNextNvme v).tapQ = d.tapQ := rfl
@[simp] theorem Device.setNextNvme_nextFlow (d : Device) (v : Nat) : (d.setNextNvme v).nextFlow = d.nextFlow := rfl
@[simp] theorem Device.setNextNvme_parts (d : Device) (v : Nat) : (d.setNextNvme v).parts = d.parts := rfl
@[simp] theorem Device.setNextNvme_ceLog (d : Device) (v : Nat) : (d.setNextNvme v).ceLog = d.ceLog := rfl
@[simp] theorem Device.setNextNvme_ddrUndef (d : Device) (v : Nat) : (d.setNextNvme v).ddrUndef = d.ddrUndef := rfl
@[simp] theorem Device.setNextNvme_conns (d : Device) (v : Nat) : (d.setNextNvme v).conns = d.conns := rfl
@[simp] theorem Device.setNextNvme_gft (d : Device) (v : Nat) : (d.setNextNvme v).gft = d.gft := rfl
@[simp] theorem Device.setNextNvme_groups (d : Device) (v : Nat) : (d.setNextNvme v).groups = d.groups := rfl
@[simp] theorem Device.setNextNvme_tmWait (d : Device) (v : Nat) : (d.setNextNvme v).tmWait = d.tmWait := rfl
@[simp] theorem Device.setNextNvme_fecBad (d : Device) (v : Nat) : (d.setNextNvme v).fecBad = d.fecBad := rfl
@[simp] theorem Device.setNextNvme_keyTime (d : Device) (v : Nat) : (d.setNextNvme v).keyTime = d.keyTime := rfl
@[simp] theorem Device.setNextNvme_pipeIn (d : Device) (v : Nat) : (d.setNextNvme v).pipeIn = d.pipeIn := rfl
@[simp] theorem Device.setNextNvme_pipes (d : Device) (v : Nat) : (d.setNextNvme v).pipes = d.pipes := rfl
@[simp] theorem Device.setNextNvme_clsSlots (d : Device) (v : Nat) : (d.setNextNvme v).clsSlots = d.clsSlots := rfl
@[simp] theorem Device.setNextNvme_flowCnts (d : Device) (v : Nat) : (d.setNextNvme v).flowCnts = d.flowCnts := rfl
@[simp] theorem Device.setNextNvme_pmeFlows (d : Device) (v : Nat) : (d.setNextNvme v).pmeFlows = d.pmeFlows := rfl
@[simp] theorem Device.setNextNvme_places (d : Device) (v : Nat) : (d.setNextNvme v).places = d.places := rfl
@[simp] theorem Device.setNextNvme_loaded (d : Device) (v : Nat) : (d.setNextNvme v).loaded = d.loaded := rfl
@[simp] theorem Device.setNextNvme_waveEpoch (d : Device) (v : Nat) : (d.setNextNvme v).waveEpoch = d.waveEpoch := rfl
@[simp] theorem Device.setNextNvme_tmQueues (d : Device) (v : Nat) : (d.setNextNvme v).tmQueues = d.tmQueues := rfl
@[simp] theorem Device.setNextNvme_tmPorts (d : Device) (v : Nat) : (d.setNextNvme v).tmPorts = d.tmPorts := rfl
@[simp] theorem Device.setNextNvme_policers (d : Device) (v : Nat) : (d.setNextNvme v).policers = d.policers := rfl
@[simp] theorem Device.setNextNvme_blocks (d : Device) (v : Nat) : (d.setNextNvme v).blocks = d.blocks := rfl
@[simp] theorem Device.setNextNvme_nvmes (d : Device) (v : Nat) : (d.setNextNvme v).nvmes = d.nvmes := rfl
@[simp] theorem Device.setNextNvme_nextNvme (d : Device) (v : Nat) : (d.setNextNvme v).nextNvme = v := rfl
@[simp] theorem Device.setNextNvme_stage (d : Device) (v : Nat) : (d.setNextNvme v).stage = d.stage := rfl
@[simp] theorem Device.setNextNvme_vaults (d : Device) (v : Nat) : (d.setNextNvme v).vaults = d.vaults := rfl
@[simp] theorem Device.setNextNvme_hostReads (d : Device) (v : Nat) : (d.setNextNvme v).hostReads = d.hostReads := rfl
@[simp] theorem Device.setNextNvme_link (d : Device) (v : Nat) : (d.setNextNvme v).link = d.link := rfl
@[simp] theorem Device.setNextNvme_nextFetch (d : Device) (v : Nat) : (d.setNextNvme v).nextFetch = d.nextFetch := rfl
@[simp] theorem Device.setNextNvme_xfers (d : Device) (v : Nat) : (d.setNextNvme v).xfers = d.xfers := rfl
@[simp] theorem Device.setNextNvme_queues (d : Device) (v : Nat) : (d.setNextNvme v).queues = d.queues := rfl
@[simp] theorem Device.setNextNvme_fetched (d : Device) (v : Nat) : (d.setNextNvme v).fetched = d.fetched := rfl
@[simp] theorem Device.setNextNvme_heldW (d : Device) (v : Nat) : (d.setNextNvme v).heldW = d.heldW := rfl
@[simp] theorem Device.setNextNvme_cores (d : Device) (v : Nat) : (d.setNextNvme v).cores = d.cores := rfl
@[simp] theorem Device.setNextNvme_fw (d : Device) (v : Nat) : (d.setNextNvme v).fw = d.fw := rfl
@[simp] theorem Device.setNextNvme_queueMem (d : Device) (v : Nat) : (d.setNextNvme v).queueMem = d.queueMem := rfl
@[simp] theorem Device.setNextNvme_wlogs (d : Device) (v : Nat) : (d.setNextNvme v).wlogs = d.wlogs := rfl
@[simp] theorem Device.setNextNvme_stores (d : Device) (v : Nat) : (d.setNextNvme v).stores = d.stores := rfl
@[simp] theorem Device.setNextNvme_crew (d : Device) (v : Nat) : (d.setNextNvme v).crew = d.crew := rfl
@[simp] theorem Device.setNextNvme_belay (d : Device) (v : Nat) : (d.setNextNvme v).belay = d.belay := rfl
@[simp] theorem Device.setNextNvme_tel (d : Device) (v : Nat) : (d.setNextNvme v).tel = d.tel := rfl
@[simp] theorem Device.setNextNvme_pwr (d : Device) (v : Nat) : (d.setNextNvme v).pwr = d.pwr := rfl
@[simp] theorem Device.setStage_cfg (d : Device) (v : Tbl (List Byte)) : (d.setStage v).cfg = d.cfg := rfl
@[simp] theorem Device.setStage_clk (d : Device) (v : Tbl (List Byte)) : (d.setStage v).clk = d.clk := rfl
@[simp] theorem Device.setStage_reg (d : Device) (v : Tbl (List Byte)) : (d.setStage v).reg = d.reg := rfl
@[simp] theorem Device.setStage_rings (d : Device) (v : Tbl (List Byte)) : (d.setStage v).rings = d.rings := rfl
@[simp] theorem Device.setStage_out (d : Device) (v : Tbl (List Byte)) : (d.setStage v).out = d.out := rfl
@[simp] theorem Device.setStage_wr (d : Device) (v : Tbl (List Byte)) : (d.setStage v).wr = d.wr := rfl
@[simp] theorem Device.setStage_poison (d : Device) (v : Tbl (List Byte)) : (d.setStage v).poison = d.poison := rfl
@[simp] theorem Device.setStage_msix (d : Device) (v : Tbl (List Byte)) : (d.setStage v).msix = d.msix := rfl
@[simp] theorem Device.setStage_hold (d : Device) (v : Tbl (List Byte)) : (d.setStage v).hold = d.hold := rfl
@[simp] theorem Device.setStage_wave (d : Device) (v : Tbl (List Byte)) : (d.setStage v).wave = d.wave := rfl
@[simp] theorem Device.setStage_mbr (d : Device) (v : Tbl (List Byte)) : (d.setStage v).mbr = d.mbr := rfl
@[simp] theorem Device.setStage_corrs (d : Device) (v : Tbl (List Byte)) : (d.setStage v).corrs = d.corrs := rfl
@[simp] theorem Device.setStage_d2dReplays (d : Device) (v : Tbl (List Byte)) : (d.setStage v).d2dReplays = d.d2dReplays := rfl
@[simp] theorem Device.setStage_tiles (d : Device) (v : Tbl (List Byte)) : (d.setStage v).tiles = d.tiles := rfl
@[simp] theorem Device.setStage_mesh (d : Device) (v : Tbl (List Byte)) : (d.setStage v).mesh = d.mesh := rfl
@[simp] theorem Device.setStage_tokHold (d : Device) (v : Tbl (List Byte)) : (d.setStage v).tokHold = d.tokHold := rfl
@[simp] theorem Device.setStage_ropes (d : Device) (v : Tbl (List Byte)) : (d.setStage v).ropes = d.ropes := rfl
@[simp] theorem Device.setStage_ropeMoved (d : Device) (v : Tbl (List Byte)) : (d.setStage v).ropeMoved = d.ropeMoved := rfl
@[simp] theorem Device.setStage_flows (d : Device) (v : Tbl (List Byte)) : (d.setStage v).flows = d.flows := rfl
@[simp] theorem Device.setStage_tapQ (d : Device) (v : Tbl (List Byte)) : (d.setStage v).tapQ = d.tapQ := rfl
@[simp] theorem Device.setStage_nextFlow (d : Device) (v : Tbl (List Byte)) : (d.setStage v).nextFlow = d.nextFlow := rfl
@[simp] theorem Device.setStage_parts (d : Device) (v : Tbl (List Byte)) : (d.setStage v).parts = d.parts := rfl
@[simp] theorem Device.setStage_ceLog (d : Device) (v : Tbl (List Byte)) : (d.setStage v).ceLog = d.ceLog := rfl
@[simp] theorem Device.setStage_ddrUndef (d : Device) (v : Tbl (List Byte)) : (d.setStage v).ddrUndef = d.ddrUndef := rfl
@[simp] theorem Device.setStage_conns (d : Device) (v : Tbl (List Byte)) : (d.setStage v).conns = d.conns := rfl
@[simp] theorem Device.setStage_gft (d : Device) (v : Tbl (List Byte)) : (d.setStage v).gft = d.gft := rfl
@[simp] theorem Device.setStage_groups (d : Device) (v : Tbl (List Byte)) : (d.setStage v).groups = d.groups := rfl
@[simp] theorem Device.setStage_tmWait (d : Device) (v : Tbl (List Byte)) : (d.setStage v).tmWait = d.tmWait := rfl
@[simp] theorem Device.setStage_fecBad (d : Device) (v : Tbl (List Byte)) : (d.setStage v).fecBad = d.fecBad := rfl
@[simp] theorem Device.setStage_keyTime (d : Device) (v : Tbl (List Byte)) : (d.setStage v).keyTime = d.keyTime := rfl
@[simp] theorem Device.setStage_pipeIn (d : Device) (v : Tbl (List Byte)) : (d.setStage v).pipeIn = d.pipeIn := rfl
@[simp] theorem Device.setStage_pipes (d : Device) (v : Tbl (List Byte)) : (d.setStage v).pipes = d.pipes := rfl
@[simp] theorem Device.setStage_clsSlots (d : Device) (v : Tbl (List Byte)) : (d.setStage v).clsSlots = d.clsSlots := rfl
@[simp] theorem Device.setStage_flowCnts (d : Device) (v : Tbl (List Byte)) : (d.setStage v).flowCnts = d.flowCnts := rfl
@[simp] theorem Device.setStage_pmeFlows (d : Device) (v : Tbl (List Byte)) : (d.setStage v).pmeFlows = d.pmeFlows := rfl
@[simp] theorem Device.setStage_places (d : Device) (v : Tbl (List Byte)) : (d.setStage v).places = d.places := rfl
@[simp] theorem Device.setStage_loaded (d : Device) (v : Tbl (List Byte)) : (d.setStage v).loaded = d.loaded := rfl
@[simp] theorem Device.setStage_waveEpoch (d : Device) (v : Tbl (List Byte)) : (d.setStage v).waveEpoch = d.waveEpoch := rfl
@[simp] theorem Device.setStage_tmQueues (d : Device) (v : Tbl (List Byte)) : (d.setStage v).tmQueues = d.tmQueues := rfl
@[simp] theorem Device.setStage_tmPorts (d : Device) (v : Tbl (List Byte)) : (d.setStage v).tmPorts = d.tmPorts := rfl
@[simp] theorem Device.setStage_policers (d : Device) (v : Tbl (List Byte)) : (d.setStage v).policers = d.policers := rfl
@[simp] theorem Device.setStage_blocks (d : Device) (v : Tbl (List Byte)) : (d.setStage v).blocks = d.blocks := rfl
@[simp] theorem Device.setStage_nvmes (d : Device) (v : Tbl (List Byte)) : (d.setStage v).nvmes = d.nvmes := rfl
@[simp] theorem Device.setStage_nextNvme (d : Device) (v : Tbl (List Byte)) : (d.setStage v).nextNvme = d.nextNvme := rfl
@[simp] theorem Device.setStage_stage (d : Device) (v : Tbl (List Byte)) : (d.setStage v).stage = v := rfl
@[simp] theorem Device.setStage_vaults (d : Device) (v : Tbl (List Byte)) : (d.setStage v).vaults = d.vaults := rfl
@[simp] theorem Device.setStage_hostReads (d : Device) (v : Tbl (List Byte)) : (d.setStage v).hostReads = d.hostReads := rfl
@[simp] theorem Device.setStage_link (d : Device) (v : Tbl (List Byte)) : (d.setStage v).link = d.link := rfl
@[simp] theorem Device.setStage_nextFetch (d : Device) (v : Tbl (List Byte)) : (d.setStage v).nextFetch = d.nextFetch := rfl
@[simp] theorem Device.setStage_xfers (d : Device) (v : Tbl (List Byte)) : (d.setStage v).xfers = d.xfers := rfl
@[simp] theorem Device.setStage_queues (d : Device) (v : Tbl (List Byte)) : (d.setStage v).queues = d.queues := rfl
@[simp] theorem Device.setStage_fetched (d : Device) (v : Tbl (List Byte)) : (d.setStage v).fetched = d.fetched := rfl
@[simp] theorem Device.setStage_heldW (d : Device) (v : Tbl (List Byte)) : (d.setStage v).heldW = d.heldW := rfl
@[simp] theorem Device.setStage_cores (d : Device) (v : Tbl (List Byte)) : (d.setStage v).cores = d.cores := rfl
@[simp] theorem Device.setStage_fw (d : Device) (v : Tbl (List Byte)) : (d.setStage v).fw = d.fw := rfl
@[simp] theorem Device.setStage_queueMem (d : Device) (v : Tbl (List Byte)) : (d.setStage v).queueMem = d.queueMem := rfl
@[simp] theorem Device.setStage_wlogs (d : Device) (v : Tbl (List Byte)) : (d.setStage v).wlogs = d.wlogs := rfl
@[simp] theorem Device.setStage_stores (d : Device) (v : Tbl (List Byte)) : (d.setStage v).stores = d.stores := rfl
@[simp] theorem Device.setStage_crew (d : Device) (v : Tbl (List Byte)) : (d.setStage v).crew = d.crew := rfl
@[simp] theorem Device.setStage_belay (d : Device) (v : Tbl (List Byte)) : (d.setStage v).belay = d.belay := rfl
@[simp] theorem Device.setStage_tel (d : Device) (v : Tbl (List Byte)) : (d.setStage v).tel = d.tel := rfl
@[simp] theorem Device.setStage_pwr (d : Device) (v : Tbl (List Byte)) : (d.setStage v).pwr = d.pwr := rfl
@[simp] theorem Device.setVaults_cfg (d : Device) (v : Tbl Vault) : (d.setVaults v).cfg = d.cfg := rfl
@[simp] theorem Device.setVaults_clk (d : Device) (v : Tbl Vault) : (d.setVaults v).clk = d.clk := rfl
@[simp] theorem Device.setVaults_reg (d : Device) (v : Tbl Vault) : (d.setVaults v).reg = d.reg := rfl
@[simp] theorem Device.setVaults_rings (d : Device) (v : Tbl Vault) : (d.setVaults v).rings = d.rings := rfl
@[simp] theorem Device.setVaults_out (d : Device) (v : Tbl Vault) : (d.setVaults v).out = d.out := rfl
@[simp] theorem Device.setVaults_wr (d : Device) (v : Tbl Vault) : (d.setVaults v).wr = d.wr := rfl
@[simp] theorem Device.setVaults_poison (d : Device) (v : Tbl Vault) : (d.setVaults v).poison = d.poison := rfl
@[simp] theorem Device.setVaults_msix (d : Device) (v : Tbl Vault) : (d.setVaults v).msix = d.msix := rfl
@[simp] theorem Device.setVaults_hold (d : Device) (v : Tbl Vault) : (d.setVaults v).hold = d.hold := rfl
@[simp] theorem Device.setVaults_wave (d : Device) (v : Tbl Vault) : (d.setVaults v).wave = d.wave := rfl
@[simp] theorem Device.setVaults_mbr (d : Device) (v : Tbl Vault) : (d.setVaults v).mbr = d.mbr := rfl
@[simp] theorem Device.setVaults_corrs (d : Device) (v : Tbl Vault) : (d.setVaults v).corrs = d.corrs := rfl
@[simp] theorem Device.setVaults_d2dReplays (d : Device) (v : Tbl Vault) : (d.setVaults v).d2dReplays = d.d2dReplays := rfl
@[simp] theorem Device.setVaults_tiles (d : Device) (v : Tbl Vault) : (d.setVaults v).tiles = d.tiles := rfl
@[simp] theorem Device.setVaults_mesh (d : Device) (v : Tbl Vault) : (d.setVaults v).mesh = d.mesh := rfl
@[simp] theorem Device.setVaults_tokHold (d : Device) (v : Tbl Vault) : (d.setVaults v).tokHold = d.tokHold := rfl
@[simp] theorem Device.setVaults_ropes (d : Device) (v : Tbl Vault) : (d.setVaults v).ropes = d.ropes := rfl
@[simp] theorem Device.setVaults_ropeMoved (d : Device) (v : Tbl Vault) : (d.setVaults v).ropeMoved = d.ropeMoved := rfl
@[simp] theorem Device.setVaults_flows (d : Device) (v : Tbl Vault) : (d.setVaults v).flows = d.flows := rfl
@[simp] theorem Device.setVaults_tapQ (d : Device) (v : Tbl Vault) : (d.setVaults v).tapQ = d.tapQ := rfl
@[simp] theorem Device.setVaults_nextFlow (d : Device) (v : Tbl Vault) : (d.setVaults v).nextFlow = d.nextFlow := rfl
@[simp] theorem Device.setVaults_parts (d : Device) (v : Tbl Vault) : (d.setVaults v).parts = d.parts := rfl
@[simp] theorem Device.setVaults_ceLog (d : Device) (v : Tbl Vault) : (d.setVaults v).ceLog = d.ceLog := rfl
@[simp] theorem Device.setVaults_ddrUndef (d : Device) (v : Tbl Vault) : (d.setVaults v).ddrUndef = d.ddrUndef := rfl
@[simp] theorem Device.setVaults_conns (d : Device) (v : Tbl Vault) : (d.setVaults v).conns = d.conns := rfl
@[simp] theorem Device.setVaults_gft (d : Device) (v : Tbl Vault) : (d.setVaults v).gft = d.gft := rfl
@[simp] theorem Device.setVaults_groups (d : Device) (v : Tbl Vault) : (d.setVaults v).groups = d.groups := rfl
@[simp] theorem Device.setVaults_tmWait (d : Device) (v : Tbl Vault) : (d.setVaults v).tmWait = d.tmWait := rfl
@[simp] theorem Device.setVaults_fecBad (d : Device) (v : Tbl Vault) : (d.setVaults v).fecBad = d.fecBad := rfl
@[simp] theorem Device.setVaults_keyTime (d : Device) (v : Tbl Vault) : (d.setVaults v).keyTime = d.keyTime := rfl
@[simp] theorem Device.setVaults_pipeIn (d : Device) (v : Tbl Vault) : (d.setVaults v).pipeIn = d.pipeIn := rfl
@[simp] theorem Device.setVaults_pipes (d : Device) (v : Tbl Vault) : (d.setVaults v).pipes = d.pipes := rfl
@[simp] theorem Device.setVaults_clsSlots (d : Device) (v : Tbl Vault) : (d.setVaults v).clsSlots = d.clsSlots := rfl
@[simp] theorem Device.setVaults_flowCnts (d : Device) (v : Tbl Vault) : (d.setVaults v).flowCnts = d.flowCnts := rfl
@[simp] theorem Device.setVaults_pmeFlows (d : Device) (v : Tbl Vault) : (d.setVaults v).pmeFlows = d.pmeFlows := rfl
@[simp] theorem Device.setVaults_places (d : Device) (v : Tbl Vault) : (d.setVaults v).places = d.places := rfl
@[simp] theorem Device.setVaults_loaded (d : Device) (v : Tbl Vault) : (d.setVaults v).loaded = d.loaded := rfl
@[simp] theorem Device.setVaults_waveEpoch (d : Device) (v : Tbl Vault) : (d.setVaults v).waveEpoch = d.waveEpoch := rfl
@[simp] theorem Device.setVaults_tmQueues (d : Device) (v : Tbl Vault) : (d.setVaults v).tmQueues = d.tmQueues := rfl
@[simp] theorem Device.setVaults_tmPorts (d : Device) (v : Tbl Vault) : (d.setVaults v).tmPorts = d.tmPorts := rfl
@[simp] theorem Device.setVaults_policers (d : Device) (v : Tbl Vault) : (d.setVaults v).policers = d.policers := rfl
@[simp] theorem Device.setVaults_blocks (d : Device) (v : Tbl Vault) : (d.setVaults v).blocks = d.blocks := rfl
@[simp] theorem Device.setVaults_nvmes (d : Device) (v : Tbl Vault) : (d.setVaults v).nvmes = d.nvmes := rfl
@[simp] theorem Device.setVaults_nextNvme (d : Device) (v : Tbl Vault) : (d.setVaults v).nextNvme = d.nextNvme := rfl
@[simp] theorem Device.setVaults_stage (d : Device) (v : Tbl Vault) : (d.setVaults v).stage = d.stage := rfl
@[simp] theorem Device.setVaults_vaults (d : Device) (v : Tbl Vault) : (d.setVaults v).vaults = v := rfl
@[simp] theorem Device.setVaults_hostReads (d : Device) (v : Tbl Vault) : (d.setVaults v).hostReads = d.hostReads := rfl
@[simp] theorem Device.setVaults_link (d : Device) (v : Tbl Vault) : (d.setVaults v).link = d.link := rfl
@[simp] theorem Device.setVaults_nextFetch (d : Device) (v : Tbl Vault) : (d.setVaults v).nextFetch = d.nextFetch := rfl
@[simp] theorem Device.setVaults_xfers (d : Device) (v : Tbl Vault) : (d.setVaults v).xfers = d.xfers := rfl
@[simp] theorem Device.setVaults_queues (d : Device) (v : Tbl Vault) : (d.setVaults v).queues = d.queues := rfl
@[simp] theorem Device.setVaults_fetched (d : Device) (v : Tbl Vault) : (d.setVaults v).fetched = d.fetched := rfl
@[simp] theorem Device.setVaults_heldW (d : Device) (v : Tbl Vault) : (d.setVaults v).heldW = d.heldW := rfl
@[simp] theorem Device.setVaults_cores (d : Device) (v : Tbl Vault) : (d.setVaults v).cores = d.cores := rfl
@[simp] theorem Device.setVaults_fw (d : Device) (v : Tbl Vault) : (d.setVaults v).fw = d.fw := rfl
@[simp] theorem Device.setVaults_queueMem (d : Device) (v : Tbl Vault) : (d.setVaults v).queueMem = d.queueMem := rfl
@[simp] theorem Device.setVaults_wlogs (d : Device) (v : Tbl Vault) : (d.setVaults v).wlogs = d.wlogs := rfl
@[simp] theorem Device.setVaults_stores (d : Device) (v : Tbl Vault) : (d.setVaults v).stores = d.stores := rfl
@[simp] theorem Device.setVaults_crew (d : Device) (v : Tbl Vault) : (d.setVaults v).crew = d.crew := rfl
@[simp] theorem Device.setVaults_belay (d : Device) (v : Tbl Vault) : (d.setVaults v).belay = d.belay := rfl
@[simp] theorem Device.setVaults_tel (d : Device) (v : Tbl Vault) : (d.setVaults v).tel = d.tel := rfl
@[simp] theorem Device.setVaults_pwr (d : Device) (v : Tbl Vault) : (d.setVaults v).pwr = d.pwr := rfl
@[simp] theorem Device.setHostReads_cfg (d : Device) (v : Tbl HostRead) : (d.setHostReads v).cfg = d.cfg := rfl
@[simp] theorem Device.setHostReads_clk (d : Device) (v : Tbl HostRead) : (d.setHostReads v).clk = d.clk := rfl
@[simp] theorem Device.setHostReads_reg (d : Device) (v : Tbl HostRead) : (d.setHostReads v).reg = d.reg := rfl
@[simp] theorem Device.setHostReads_rings (d : Device) (v : Tbl HostRead) : (d.setHostReads v).rings = d.rings := rfl
@[simp] theorem Device.setHostReads_out (d : Device) (v : Tbl HostRead) : (d.setHostReads v).out = d.out := rfl
@[simp] theorem Device.setHostReads_wr (d : Device) (v : Tbl HostRead) : (d.setHostReads v).wr = d.wr := rfl
@[simp] theorem Device.setHostReads_poison (d : Device) (v : Tbl HostRead) : (d.setHostReads v).poison = d.poison := rfl
@[simp] theorem Device.setHostReads_msix (d : Device) (v : Tbl HostRead) : (d.setHostReads v).msix = d.msix := rfl
@[simp] theorem Device.setHostReads_hold (d : Device) (v : Tbl HostRead) : (d.setHostReads v).hold = d.hold := rfl
@[simp] theorem Device.setHostReads_wave (d : Device) (v : Tbl HostRead) : (d.setHostReads v).wave = d.wave := rfl
@[simp] theorem Device.setHostReads_mbr (d : Device) (v : Tbl HostRead) : (d.setHostReads v).mbr = d.mbr := rfl
@[simp] theorem Device.setHostReads_corrs (d : Device) (v : Tbl HostRead) : (d.setHostReads v).corrs = d.corrs := rfl
@[simp] theorem Device.setHostReads_d2dReplays (d : Device) (v : Tbl HostRead) : (d.setHostReads v).d2dReplays = d.d2dReplays := rfl
@[simp] theorem Device.setHostReads_tiles (d : Device) (v : Tbl HostRead) : (d.setHostReads v).tiles = d.tiles := rfl
@[simp] theorem Device.setHostReads_mesh (d : Device) (v : Tbl HostRead) : (d.setHostReads v).mesh = d.mesh := rfl
@[simp] theorem Device.setHostReads_tokHold (d : Device) (v : Tbl HostRead) : (d.setHostReads v).tokHold = d.tokHold := rfl
@[simp] theorem Device.setHostReads_ropes (d : Device) (v : Tbl HostRead) : (d.setHostReads v).ropes = d.ropes := rfl
@[simp] theorem Device.setHostReads_ropeMoved (d : Device) (v : Tbl HostRead) : (d.setHostReads v).ropeMoved = d.ropeMoved := rfl
@[simp] theorem Device.setHostReads_flows (d : Device) (v : Tbl HostRead) : (d.setHostReads v).flows = d.flows := rfl
@[simp] theorem Device.setHostReads_tapQ (d : Device) (v : Tbl HostRead) : (d.setHostReads v).tapQ = d.tapQ := rfl
@[simp] theorem Device.setHostReads_nextFlow (d : Device) (v : Tbl HostRead) : (d.setHostReads v).nextFlow = d.nextFlow := rfl
@[simp] theorem Device.setHostReads_parts (d : Device) (v : Tbl HostRead) : (d.setHostReads v).parts = d.parts := rfl
@[simp] theorem Device.setHostReads_ceLog (d : Device) (v : Tbl HostRead) : (d.setHostReads v).ceLog = d.ceLog := rfl
@[simp] theorem Device.setHostReads_ddrUndef (d : Device) (v : Tbl HostRead) : (d.setHostReads v).ddrUndef = d.ddrUndef := rfl
@[simp] theorem Device.setHostReads_conns (d : Device) (v : Tbl HostRead) : (d.setHostReads v).conns = d.conns := rfl
@[simp] theorem Device.setHostReads_gft (d : Device) (v : Tbl HostRead) : (d.setHostReads v).gft = d.gft := rfl
@[simp] theorem Device.setHostReads_groups (d : Device) (v : Tbl HostRead) : (d.setHostReads v).groups = d.groups := rfl
@[simp] theorem Device.setHostReads_tmWait (d : Device) (v : Tbl HostRead) : (d.setHostReads v).tmWait = d.tmWait := rfl
@[simp] theorem Device.setHostReads_fecBad (d : Device) (v : Tbl HostRead) : (d.setHostReads v).fecBad = d.fecBad := rfl
@[simp] theorem Device.setHostReads_keyTime (d : Device) (v : Tbl HostRead) : (d.setHostReads v).keyTime = d.keyTime := rfl
@[simp] theorem Device.setHostReads_pipeIn (d : Device) (v : Tbl HostRead) : (d.setHostReads v).pipeIn = d.pipeIn := rfl
@[simp] theorem Device.setHostReads_pipes (d : Device) (v : Tbl HostRead) : (d.setHostReads v).pipes = d.pipes := rfl
@[simp] theorem Device.setHostReads_clsSlots (d : Device) (v : Tbl HostRead) : (d.setHostReads v).clsSlots = d.clsSlots := rfl
@[simp] theorem Device.setHostReads_flowCnts (d : Device) (v : Tbl HostRead) : (d.setHostReads v).flowCnts = d.flowCnts := rfl
@[simp] theorem Device.setHostReads_pmeFlows (d : Device) (v : Tbl HostRead) : (d.setHostReads v).pmeFlows = d.pmeFlows := rfl
@[simp] theorem Device.setHostReads_places (d : Device) (v : Tbl HostRead) : (d.setHostReads v).places = d.places := rfl
@[simp] theorem Device.setHostReads_loaded (d : Device) (v : Tbl HostRead) : (d.setHostReads v).loaded = d.loaded := rfl
@[simp] theorem Device.setHostReads_waveEpoch (d : Device) (v : Tbl HostRead) : (d.setHostReads v).waveEpoch = d.waveEpoch := rfl
@[simp] theorem Device.setHostReads_tmQueues (d : Device) (v : Tbl HostRead) : (d.setHostReads v).tmQueues = d.tmQueues := rfl
@[simp] theorem Device.setHostReads_tmPorts (d : Device) (v : Tbl HostRead) : (d.setHostReads v).tmPorts = d.tmPorts := rfl
@[simp] theorem Device.setHostReads_policers (d : Device) (v : Tbl HostRead) : (d.setHostReads v).policers = d.policers := rfl
@[simp] theorem Device.setHostReads_blocks (d : Device) (v : Tbl HostRead) : (d.setHostReads v).blocks = d.blocks := rfl
@[simp] theorem Device.setHostReads_nvmes (d : Device) (v : Tbl HostRead) : (d.setHostReads v).nvmes = d.nvmes := rfl
@[simp] theorem Device.setHostReads_nextNvme (d : Device) (v : Tbl HostRead) : (d.setHostReads v).nextNvme = d.nextNvme := rfl
@[simp] theorem Device.setHostReads_stage (d : Device) (v : Tbl HostRead) : (d.setHostReads v).stage = d.stage := rfl
@[simp] theorem Device.setHostReads_vaults (d : Device) (v : Tbl HostRead) : (d.setHostReads v).vaults = d.vaults := rfl
@[simp] theorem Device.setHostReads_hostReads (d : Device) (v : Tbl HostRead) : (d.setHostReads v).hostReads = v := rfl
@[simp] theorem Device.setHostReads_link (d : Device) (v : Tbl HostRead) : (d.setHostReads v).link = d.link := rfl
@[simp] theorem Device.setHostReads_nextFetch (d : Device) (v : Tbl HostRead) : (d.setHostReads v).nextFetch = d.nextFetch := rfl
@[simp] theorem Device.setHostReads_xfers (d : Device) (v : Tbl HostRead) : (d.setHostReads v).xfers = d.xfers := rfl
@[simp] theorem Device.setHostReads_queues (d : Device) (v : Tbl HostRead) : (d.setHostReads v).queues = d.queues := rfl
@[simp] theorem Device.setHostReads_fetched (d : Device) (v : Tbl HostRead) : (d.setHostReads v).fetched = d.fetched := rfl
@[simp] theorem Device.setHostReads_heldW (d : Device) (v : Tbl HostRead) : (d.setHostReads v).heldW = d.heldW := rfl
@[simp] theorem Device.setHostReads_cores (d : Device) (v : Tbl HostRead) : (d.setHostReads v).cores = d.cores := rfl
@[simp] theorem Device.setHostReads_fw (d : Device) (v : Tbl HostRead) : (d.setHostReads v).fw = d.fw := rfl
@[simp] theorem Device.setHostReads_queueMem (d : Device) (v : Tbl HostRead) : (d.setHostReads v).queueMem = d.queueMem := rfl
@[simp] theorem Device.setHostReads_wlogs (d : Device) (v : Tbl HostRead) : (d.setHostReads v).wlogs = d.wlogs := rfl
@[simp] theorem Device.setHostReads_stores (d : Device) (v : Tbl HostRead) : (d.setHostReads v).stores = d.stores := rfl
@[simp] theorem Device.setHostReads_crew (d : Device) (v : Tbl HostRead) : (d.setHostReads v).crew = d.crew := rfl
@[simp] theorem Device.setHostReads_belay (d : Device) (v : Tbl HostRead) : (d.setHostReads v).belay = d.belay := rfl
@[simp] theorem Device.setHostReads_tel (d : Device) (v : Tbl HostRead) : (d.setHostReads v).tel = d.tel := rfl
@[simp] theorem Device.setHostReads_pwr (d : Device) (v : Tbl HostRead) : (d.setHostReads v).pwr = d.pwr := rfl
@[simp] theorem Device.setLink_cfg (d : Device) (v : LinkSt) : (d.setLink v).cfg = d.cfg := rfl
@[simp] theorem Device.setLink_clk (d : Device) (v : LinkSt) : (d.setLink v).clk = d.clk := rfl
@[simp] theorem Device.setLink_reg (d : Device) (v : LinkSt) : (d.setLink v).reg = d.reg := rfl
@[simp] theorem Device.setLink_rings (d : Device) (v : LinkSt) : (d.setLink v).rings = d.rings := rfl
@[simp] theorem Device.setLink_out (d : Device) (v : LinkSt) : (d.setLink v).out = d.out := rfl
@[simp] theorem Device.setLink_wr (d : Device) (v : LinkSt) : (d.setLink v).wr = d.wr := rfl
@[simp] theorem Device.setLink_poison (d : Device) (v : LinkSt) : (d.setLink v).poison = d.poison := rfl
@[simp] theorem Device.setLink_msix (d : Device) (v : LinkSt) : (d.setLink v).msix = d.msix := rfl
@[simp] theorem Device.setLink_hold (d : Device) (v : LinkSt) : (d.setLink v).hold = d.hold := rfl
@[simp] theorem Device.setLink_wave (d : Device) (v : LinkSt) : (d.setLink v).wave = d.wave := rfl
@[simp] theorem Device.setLink_mbr (d : Device) (v : LinkSt) : (d.setLink v).mbr = d.mbr := rfl
@[simp] theorem Device.setLink_corrs (d : Device) (v : LinkSt) : (d.setLink v).corrs = d.corrs := rfl
@[simp] theorem Device.setLink_d2dReplays (d : Device) (v : LinkSt) : (d.setLink v).d2dReplays = d.d2dReplays := rfl
@[simp] theorem Device.setLink_tiles (d : Device) (v : LinkSt) : (d.setLink v).tiles = d.tiles := rfl
@[simp] theorem Device.setLink_mesh (d : Device) (v : LinkSt) : (d.setLink v).mesh = d.mesh := rfl
@[simp] theorem Device.setLink_tokHold (d : Device) (v : LinkSt) : (d.setLink v).tokHold = d.tokHold := rfl
@[simp] theorem Device.setLink_ropes (d : Device) (v : LinkSt) : (d.setLink v).ropes = d.ropes := rfl
@[simp] theorem Device.setLink_ropeMoved (d : Device) (v : LinkSt) : (d.setLink v).ropeMoved = d.ropeMoved := rfl
@[simp] theorem Device.setLink_flows (d : Device) (v : LinkSt) : (d.setLink v).flows = d.flows := rfl
@[simp] theorem Device.setLink_tapQ (d : Device) (v : LinkSt) : (d.setLink v).tapQ = d.tapQ := rfl
@[simp] theorem Device.setLink_nextFlow (d : Device) (v : LinkSt) : (d.setLink v).nextFlow = d.nextFlow := rfl
@[simp] theorem Device.setLink_parts (d : Device) (v : LinkSt) : (d.setLink v).parts = d.parts := rfl
@[simp] theorem Device.setLink_ceLog (d : Device) (v : LinkSt) : (d.setLink v).ceLog = d.ceLog := rfl
@[simp] theorem Device.setLink_ddrUndef (d : Device) (v : LinkSt) : (d.setLink v).ddrUndef = d.ddrUndef := rfl
@[simp] theorem Device.setLink_conns (d : Device) (v : LinkSt) : (d.setLink v).conns = d.conns := rfl
@[simp] theorem Device.setLink_gft (d : Device) (v : LinkSt) : (d.setLink v).gft = d.gft := rfl
@[simp] theorem Device.setLink_groups (d : Device) (v : LinkSt) : (d.setLink v).groups = d.groups := rfl
@[simp] theorem Device.setLink_tmWait (d : Device) (v : LinkSt) : (d.setLink v).tmWait = d.tmWait := rfl
@[simp] theorem Device.setLink_fecBad (d : Device) (v : LinkSt) : (d.setLink v).fecBad = d.fecBad := rfl
@[simp] theorem Device.setLink_keyTime (d : Device) (v : LinkSt) : (d.setLink v).keyTime = d.keyTime := rfl
@[simp] theorem Device.setLink_pipeIn (d : Device) (v : LinkSt) : (d.setLink v).pipeIn = d.pipeIn := rfl
@[simp] theorem Device.setLink_pipes (d : Device) (v : LinkSt) : (d.setLink v).pipes = d.pipes := rfl
@[simp] theorem Device.setLink_clsSlots (d : Device) (v : LinkSt) : (d.setLink v).clsSlots = d.clsSlots := rfl
@[simp] theorem Device.setLink_flowCnts (d : Device) (v : LinkSt) : (d.setLink v).flowCnts = d.flowCnts := rfl
@[simp] theorem Device.setLink_pmeFlows (d : Device) (v : LinkSt) : (d.setLink v).pmeFlows = d.pmeFlows := rfl
@[simp] theorem Device.setLink_places (d : Device) (v : LinkSt) : (d.setLink v).places = d.places := rfl
@[simp] theorem Device.setLink_loaded (d : Device) (v : LinkSt) : (d.setLink v).loaded = d.loaded := rfl
@[simp] theorem Device.setLink_waveEpoch (d : Device) (v : LinkSt) : (d.setLink v).waveEpoch = d.waveEpoch := rfl
@[simp] theorem Device.setLink_tmQueues (d : Device) (v : LinkSt) : (d.setLink v).tmQueues = d.tmQueues := rfl
@[simp] theorem Device.setLink_tmPorts (d : Device) (v : LinkSt) : (d.setLink v).tmPorts = d.tmPorts := rfl
@[simp] theorem Device.setLink_policers (d : Device) (v : LinkSt) : (d.setLink v).policers = d.policers := rfl
@[simp] theorem Device.setLink_blocks (d : Device) (v : LinkSt) : (d.setLink v).blocks = d.blocks := rfl
@[simp] theorem Device.setLink_nvmes (d : Device) (v : LinkSt) : (d.setLink v).nvmes = d.nvmes := rfl
@[simp] theorem Device.setLink_nextNvme (d : Device) (v : LinkSt) : (d.setLink v).nextNvme = d.nextNvme := rfl
@[simp] theorem Device.setLink_stage (d : Device) (v : LinkSt) : (d.setLink v).stage = d.stage := rfl
@[simp] theorem Device.setLink_vaults (d : Device) (v : LinkSt) : (d.setLink v).vaults = d.vaults := rfl
@[simp] theorem Device.setLink_hostReads (d : Device) (v : LinkSt) : (d.setLink v).hostReads = d.hostReads := rfl
@[simp] theorem Device.setLink_link (d : Device) (v : LinkSt) : (d.setLink v).link = v := rfl
@[simp] theorem Device.setLink_nextFetch (d : Device) (v : LinkSt) : (d.setLink v).nextFetch = d.nextFetch := rfl
@[simp] theorem Device.setLink_xfers (d : Device) (v : LinkSt) : (d.setLink v).xfers = d.xfers := rfl
@[simp] theorem Device.setLink_queues (d : Device) (v : LinkSt) : (d.setLink v).queues = d.queues := rfl
@[simp] theorem Device.setLink_fetched (d : Device) (v : LinkSt) : (d.setLink v).fetched = d.fetched := rfl
@[simp] theorem Device.setLink_heldW (d : Device) (v : LinkSt) : (d.setLink v).heldW = d.heldW := rfl
@[simp] theorem Device.setLink_cores (d : Device) (v : LinkSt) : (d.setLink v).cores = d.cores := rfl
@[simp] theorem Device.setLink_fw (d : Device) (v : LinkSt) : (d.setLink v).fw = d.fw := rfl
@[simp] theorem Device.setLink_queueMem (d : Device) (v : LinkSt) : (d.setLink v).queueMem = d.queueMem := rfl
@[simp] theorem Device.setLink_wlogs (d : Device) (v : LinkSt) : (d.setLink v).wlogs = d.wlogs := rfl
@[simp] theorem Device.setLink_stores (d : Device) (v : LinkSt) : (d.setLink v).stores = d.stores := rfl
@[simp] theorem Device.setLink_crew (d : Device) (v : LinkSt) : (d.setLink v).crew = d.crew := rfl
@[simp] theorem Device.setLink_belay (d : Device) (v : LinkSt) : (d.setLink v).belay = d.belay := rfl
@[simp] theorem Device.setLink_tel (d : Device) (v : LinkSt) : (d.setLink v).tel = d.tel := rfl
@[simp] theorem Device.setLink_pwr (d : Device) (v : LinkSt) : (d.setLink v).pwr = d.pwr := rfl
@[simp] theorem Device.setNextFetch_cfg (d : Device) (v : Nat) : (d.setNextFetch v).cfg = d.cfg := rfl
@[simp] theorem Device.setNextFetch_clk (d : Device) (v : Nat) : (d.setNextFetch v).clk = d.clk := rfl
@[simp] theorem Device.setNextFetch_reg (d : Device) (v : Nat) : (d.setNextFetch v).reg = d.reg := rfl
@[simp] theorem Device.setNextFetch_rings (d : Device) (v : Nat) : (d.setNextFetch v).rings = d.rings := rfl
@[simp] theorem Device.setNextFetch_out (d : Device) (v : Nat) : (d.setNextFetch v).out = d.out := rfl
@[simp] theorem Device.setNextFetch_wr (d : Device) (v : Nat) : (d.setNextFetch v).wr = d.wr := rfl
@[simp] theorem Device.setNextFetch_poison (d : Device) (v : Nat) : (d.setNextFetch v).poison = d.poison := rfl
@[simp] theorem Device.setNextFetch_msix (d : Device) (v : Nat) : (d.setNextFetch v).msix = d.msix := rfl
@[simp] theorem Device.setNextFetch_hold (d : Device) (v : Nat) : (d.setNextFetch v).hold = d.hold := rfl
@[simp] theorem Device.setNextFetch_wave (d : Device) (v : Nat) : (d.setNextFetch v).wave = d.wave := rfl
@[simp] theorem Device.setNextFetch_mbr (d : Device) (v : Nat) : (d.setNextFetch v).mbr = d.mbr := rfl
@[simp] theorem Device.setNextFetch_corrs (d : Device) (v : Nat) : (d.setNextFetch v).corrs = d.corrs := rfl
@[simp] theorem Device.setNextFetch_d2dReplays (d : Device) (v : Nat) : (d.setNextFetch v).d2dReplays = d.d2dReplays := rfl
@[simp] theorem Device.setNextFetch_tiles (d : Device) (v : Nat) : (d.setNextFetch v).tiles = d.tiles := rfl
@[simp] theorem Device.setNextFetch_mesh (d : Device) (v : Nat) : (d.setNextFetch v).mesh = d.mesh := rfl
@[simp] theorem Device.setNextFetch_tokHold (d : Device) (v : Nat) : (d.setNextFetch v).tokHold = d.tokHold := rfl
@[simp] theorem Device.setNextFetch_ropes (d : Device) (v : Nat) : (d.setNextFetch v).ropes = d.ropes := rfl
@[simp] theorem Device.setNextFetch_ropeMoved (d : Device) (v : Nat) : (d.setNextFetch v).ropeMoved = d.ropeMoved := rfl
@[simp] theorem Device.setNextFetch_flows (d : Device) (v : Nat) : (d.setNextFetch v).flows = d.flows := rfl
@[simp] theorem Device.setNextFetch_tapQ (d : Device) (v : Nat) : (d.setNextFetch v).tapQ = d.tapQ := rfl
@[simp] theorem Device.setNextFetch_nextFlow (d : Device) (v : Nat) : (d.setNextFetch v).nextFlow = d.nextFlow := rfl
@[simp] theorem Device.setNextFetch_parts (d : Device) (v : Nat) : (d.setNextFetch v).parts = d.parts := rfl
@[simp] theorem Device.setNextFetch_ceLog (d : Device) (v : Nat) : (d.setNextFetch v).ceLog = d.ceLog := rfl
@[simp] theorem Device.setNextFetch_ddrUndef (d : Device) (v : Nat) : (d.setNextFetch v).ddrUndef = d.ddrUndef := rfl
@[simp] theorem Device.setNextFetch_conns (d : Device) (v : Nat) : (d.setNextFetch v).conns = d.conns := rfl
@[simp] theorem Device.setNextFetch_gft (d : Device) (v : Nat) : (d.setNextFetch v).gft = d.gft := rfl
@[simp] theorem Device.setNextFetch_groups (d : Device) (v : Nat) : (d.setNextFetch v).groups = d.groups := rfl
@[simp] theorem Device.setNextFetch_tmWait (d : Device) (v : Nat) : (d.setNextFetch v).tmWait = d.tmWait := rfl
@[simp] theorem Device.setNextFetch_fecBad (d : Device) (v : Nat) : (d.setNextFetch v).fecBad = d.fecBad := rfl
@[simp] theorem Device.setNextFetch_keyTime (d : Device) (v : Nat) : (d.setNextFetch v).keyTime = d.keyTime := rfl
@[simp] theorem Device.setNextFetch_pipeIn (d : Device) (v : Nat) : (d.setNextFetch v).pipeIn = d.pipeIn := rfl
@[simp] theorem Device.setNextFetch_pipes (d : Device) (v : Nat) : (d.setNextFetch v).pipes = d.pipes := rfl
@[simp] theorem Device.setNextFetch_clsSlots (d : Device) (v : Nat) : (d.setNextFetch v).clsSlots = d.clsSlots := rfl
@[simp] theorem Device.setNextFetch_flowCnts (d : Device) (v : Nat) : (d.setNextFetch v).flowCnts = d.flowCnts := rfl
@[simp] theorem Device.setNextFetch_pmeFlows (d : Device) (v : Nat) : (d.setNextFetch v).pmeFlows = d.pmeFlows := rfl
@[simp] theorem Device.setNextFetch_places (d : Device) (v : Nat) : (d.setNextFetch v).places = d.places := rfl
@[simp] theorem Device.setNextFetch_loaded (d : Device) (v : Nat) : (d.setNextFetch v).loaded = d.loaded := rfl
@[simp] theorem Device.setNextFetch_waveEpoch (d : Device) (v : Nat) : (d.setNextFetch v).waveEpoch = d.waveEpoch := rfl
@[simp] theorem Device.setNextFetch_tmQueues (d : Device) (v : Nat) : (d.setNextFetch v).tmQueues = d.tmQueues := rfl
@[simp] theorem Device.setNextFetch_tmPorts (d : Device) (v : Nat) : (d.setNextFetch v).tmPorts = d.tmPorts := rfl
@[simp] theorem Device.setNextFetch_policers (d : Device) (v : Nat) : (d.setNextFetch v).policers = d.policers := rfl
@[simp] theorem Device.setNextFetch_blocks (d : Device) (v : Nat) : (d.setNextFetch v).blocks = d.blocks := rfl
@[simp] theorem Device.setNextFetch_nvmes (d : Device) (v : Nat) : (d.setNextFetch v).nvmes = d.nvmes := rfl
@[simp] theorem Device.setNextFetch_nextNvme (d : Device) (v : Nat) : (d.setNextFetch v).nextNvme = d.nextNvme := rfl
@[simp] theorem Device.setNextFetch_stage (d : Device) (v : Nat) : (d.setNextFetch v).stage = d.stage := rfl
@[simp] theorem Device.setNextFetch_vaults (d : Device) (v : Nat) : (d.setNextFetch v).vaults = d.vaults := rfl
@[simp] theorem Device.setNextFetch_hostReads (d : Device) (v : Nat) : (d.setNextFetch v).hostReads = d.hostReads := rfl
@[simp] theorem Device.setNextFetch_link (d : Device) (v : Nat) : (d.setNextFetch v).link = d.link := rfl
@[simp] theorem Device.setNextFetch_nextFetch (d : Device) (v : Nat) : (d.setNextFetch v).nextFetch = v := rfl
@[simp] theorem Device.setNextFetch_xfers (d : Device) (v : Nat) : (d.setNextFetch v).xfers = d.xfers := rfl
@[simp] theorem Device.setNextFetch_queues (d : Device) (v : Nat) : (d.setNextFetch v).queues = d.queues := rfl
@[simp] theorem Device.setNextFetch_fetched (d : Device) (v : Nat) : (d.setNextFetch v).fetched = d.fetched := rfl
@[simp] theorem Device.setNextFetch_heldW (d : Device) (v : Nat) : (d.setNextFetch v).heldW = d.heldW := rfl
@[simp] theorem Device.setNextFetch_cores (d : Device) (v : Nat) : (d.setNextFetch v).cores = d.cores := rfl
@[simp] theorem Device.setNextFetch_fw (d : Device) (v : Nat) : (d.setNextFetch v).fw = d.fw := rfl
@[simp] theorem Device.setNextFetch_queueMem (d : Device) (v : Nat) : (d.setNextFetch v).queueMem = d.queueMem := rfl
@[simp] theorem Device.setNextFetch_wlogs (d : Device) (v : Nat) : (d.setNextFetch v).wlogs = d.wlogs := rfl
@[simp] theorem Device.setNextFetch_stores (d : Device) (v : Nat) : (d.setNextFetch v).stores = d.stores := rfl
@[simp] theorem Device.setNextFetch_crew (d : Device) (v : Nat) : (d.setNextFetch v).crew = d.crew := rfl
@[simp] theorem Device.setNextFetch_belay (d : Device) (v : Nat) : (d.setNextFetch v).belay = d.belay := rfl
@[simp] theorem Device.setNextFetch_tel (d : Device) (v : Nat) : (d.setNextFetch v).tel = d.tel := rfl
@[simp] theorem Device.setNextFetch_pwr (d : Device) (v : Nat) : (d.setNextFetch v).pwr = d.pwr := rfl
@[simp] theorem Device.setXfers_cfg (d : Device) (v : List Xfer) : (d.setXfers v).cfg = d.cfg := rfl
@[simp] theorem Device.setXfers_clk (d : Device) (v : List Xfer) : (d.setXfers v).clk = d.clk := rfl
@[simp] theorem Device.setXfers_reg (d : Device) (v : List Xfer) : (d.setXfers v).reg = d.reg := rfl
@[simp] theorem Device.setXfers_rings (d : Device) (v : List Xfer) : (d.setXfers v).rings = d.rings := rfl
@[simp] theorem Device.setXfers_out (d : Device) (v : List Xfer) : (d.setXfers v).out = d.out := rfl
@[simp] theorem Device.setXfers_wr (d : Device) (v : List Xfer) : (d.setXfers v).wr = d.wr := rfl
@[simp] theorem Device.setXfers_poison (d : Device) (v : List Xfer) : (d.setXfers v).poison = d.poison := rfl
@[simp] theorem Device.setXfers_msix (d : Device) (v : List Xfer) : (d.setXfers v).msix = d.msix := rfl
@[simp] theorem Device.setXfers_hold (d : Device) (v : List Xfer) : (d.setXfers v).hold = d.hold := rfl
@[simp] theorem Device.setXfers_wave (d : Device) (v : List Xfer) : (d.setXfers v).wave = d.wave := rfl
@[simp] theorem Device.setXfers_mbr (d : Device) (v : List Xfer) : (d.setXfers v).mbr = d.mbr := rfl
@[simp] theorem Device.setXfers_corrs (d : Device) (v : List Xfer) : (d.setXfers v).corrs = d.corrs := rfl
@[simp] theorem Device.setXfers_d2dReplays (d : Device) (v : List Xfer) : (d.setXfers v).d2dReplays = d.d2dReplays := rfl
@[simp] theorem Device.setXfers_tiles (d : Device) (v : List Xfer) : (d.setXfers v).tiles = d.tiles := rfl
@[simp] theorem Device.setXfers_mesh (d : Device) (v : List Xfer) : (d.setXfers v).mesh = d.mesh := rfl
@[simp] theorem Device.setXfers_tokHold (d : Device) (v : List Xfer) : (d.setXfers v).tokHold = d.tokHold := rfl
@[simp] theorem Device.setXfers_ropes (d : Device) (v : List Xfer) : (d.setXfers v).ropes = d.ropes := rfl
@[simp] theorem Device.setXfers_ropeMoved (d : Device) (v : List Xfer) : (d.setXfers v).ropeMoved = d.ropeMoved := rfl
@[simp] theorem Device.setXfers_flows (d : Device) (v : List Xfer) : (d.setXfers v).flows = d.flows := rfl
@[simp] theorem Device.setXfers_tapQ (d : Device) (v : List Xfer) : (d.setXfers v).tapQ = d.tapQ := rfl
@[simp] theorem Device.setXfers_nextFlow (d : Device) (v : List Xfer) : (d.setXfers v).nextFlow = d.nextFlow := rfl
@[simp] theorem Device.setXfers_parts (d : Device) (v : List Xfer) : (d.setXfers v).parts = d.parts := rfl
@[simp] theorem Device.setXfers_ceLog (d : Device) (v : List Xfer) : (d.setXfers v).ceLog = d.ceLog := rfl
@[simp] theorem Device.setXfers_ddrUndef (d : Device) (v : List Xfer) : (d.setXfers v).ddrUndef = d.ddrUndef := rfl
@[simp] theorem Device.setXfers_conns (d : Device) (v : List Xfer) : (d.setXfers v).conns = d.conns := rfl
@[simp] theorem Device.setXfers_gft (d : Device) (v : List Xfer) : (d.setXfers v).gft = d.gft := rfl
@[simp] theorem Device.setXfers_groups (d : Device) (v : List Xfer) : (d.setXfers v).groups = d.groups := rfl
@[simp] theorem Device.setXfers_tmWait (d : Device) (v : List Xfer) : (d.setXfers v).tmWait = d.tmWait := rfl
@[simp] theorem Device.setXfers_fecBad (d : Device) (v : List Xfer) : (d.setXfers v).fecBad = d.fecBad := rfl
@[simp] theorem Device.setXfers_keyTime (d : Device) (v : List Xfer) : (d.setXfers v).keyTime = d.keyTime := rfl
@[simp] theorem Device.setXfers_pipeIn (d : Device) (v : List Xfer) : (d.setXfers v).pipeIn = d.pipeIn := rfl
@[simp] theorem Device.setXfers_pipes (d : Device) (v : List Xfer) : (d.setXfers v).pipes = d.pipes := rfl
@[simp] theorem Device.setXfers_clsSlots (d : Device) (v : List Xfer) : (d.setXfers v).clsSlots = d.clsSlots := rfl
@[simp] theorem Device.setXfers_flowCnts (d : Device) (v : List Xfer) : (d.setXfers v).flowCnts = d.flowCnts := rfl
@[simp] theorem Device.setXfers_pmeFlows (d : Device) (v : List Xfer) : (d.setXfers v).pmeFlows = d.pmeFlows := rfl
@[simp] theorem Device.setXfers_places (d : Device) (v : List Xfer) : (d.setXfers v).places = d.places := rfl
@[simp] theorem Device.setXfers_loaded (d : Device) (v : List Xfer) : (d.setXfers v).loaded = d.loaded := rfl
@[simp] theorem Device.setXfers_waveEpoch (d : Device) (v : List Xfer) : (d.setXfers v).waveEpoch = d.waveEpoch := rfl
@[simp] theorem Device.setXfers_tmQueues (d : Device) (v : List Xfer) : (d.setXfers v).tmQueues = d.tmQueues := rfl
@[simp] theorem Device.setXfers_tmPorts (d : Device) (v : List Xfer) : (d.setXfers v).tmPorts = d.tmPorts := rfl
@[simp] theorem Device.setXfers_policers (d : Device) (v : List Xfer) : (d.setXfers v).policers = d.policers := rfl
@[simp] theorem Device.setXfers_blocks (d : Device) (v : List Xfer) : (d.setXfers v).blocks = d.blocks := rfl
@[simp] theorem Device.setXfers_nvmes (d : Device) (v : List Xfer) : (d.setXfers v).nvmes = d.nvmes := rfl
@[simp] theorem Device.setXfers_nextNvme (d : Device) (v : List Xfer) : (d.setXfers v).nextNvme = d.nextNvme := rfl
@[simp] theorem Device.setXfers_stage (d : Device) (v : List Xfer) : (d.setXfers v).stage = d.stage := rfl
@[simp] theorem Device.setXfers_vaults (d : Device) (v : List Xfer) : (d.setXfers v).vaults = d.vaults := rfl
@[simp] theorem Device.setXfers_hostReads (d : Device) (v : List Xfer) : (d.setXfers v).hostReads = d.hostReads := rfl
@[simp] theorem Device.setXfers_link (d : Device) (v : List Xfer) : (d.setXfers v).link = d.link := rfl
@[simp] theorem Device.setXfers_nextFetch (d : Device) (v : List Xfer) : (d.setXfers v).nextFetch = d.nextFetch := rfl
@[simp] theorem Device.setXfers_xfers (d : Device) (v : List Xfer) : (d.setXfers v).xfers = v := rfl
@[simp] theorem Device.setXfers_queues (d : Device) (v : List Xfer) : (d.setXfers v).queues = d.queues := rfl
@[simp] theorem Device.setXfers_fetched (d : Device) (v : List Xfer) : (d.setXfers v).fetched = d.fetched := rfl
@[simp] theorem Device.setXfers_heldW (d : Device) (v : List Xfer) : (d.setXfers v).heldW = d.heldW := rfl
@[simp] theorem Device.setXfers_cores (d : Device) (v : List Xfer) : (d.setXfers v).cores = d.cores := rfl
@[simp] theorem Device.setXfers_fw (d : Device) (v : List Xfer) : (d.setXfers v).fw = d.fw := rfl
@[simp] theorem Device.setXfers_queueMem (d : Device) (v : List Xfer) : (d.setXfers v).queueMem = d.queueMem := rfl
@[simp] theorem Device.setXfers_wlogs (d : Device) (v : List Xfer) : (d.setXfers v).wlogs = d.wlogs := rfl
@[simp] theorem Device.setXfers_stores (d : Device) (v : List Xfer) : (d.setXfers v).stores = d.stores := rfl
@[simp] theorem Device.setXfers_crew (d : Device) (v : List Xfer) : (d.setXfers v).crew = d.crew := rfl
@[simp] theorem Device.setXfers_belay (d : Device) (v : List Xfer) : (d.setXfers v).belay = d.belay := rfl
@[simp] theorem Device.setXfers_tel (d : Device) (v : List Xfer) : (d.setXfers v).tel = d.tel := rfl
@[simp] theorem Device.setXfers_pwr (d : Device) (v : List Xfer) : (d.setXfers v).pwr = d.pwr := rfl
@[simp] theorem Device.setQueues_cfg (d : Device) (v : Tbl Queue) : (d.setQueues v).cfg = d.cfg := rfl
@[simp] theorem Device.setQueues_clk (d : Device) (v : Tbl Queue) : (d.setQueues v).clk = d.clk := rfl
@[simp] theorem Device.setQueues_reg (d : Device) (v : Tbl Queue) : (d.setQueues v).reg = d.reg := rfl
@[simp] theorem Device.setQueues_rings (d : Device) (v : Tbl Queue) : (d.setQueues v).rings = d.rings := rfl
@[simp] theorem Device.setQueues_out (d : Device) (v : Tbl Queue) : (d.setQueues v).out = d.out := rfl
@[simp] theorem Device.setQueues_wr (d : Device) (v : Tbl Queue) : (d.setQueues v).wr = d.wr := rfl
@[simp] theorem Device.setQueues_poison (d : Device) (v : Tbl Queue) : (d.setQueues v).poison = d.poison := rfl
@[simp] theorem Device.setQueues_msix (d : Device) (v : Tbl Queue) : (d.setQueues v).msix = d.msix := rfl
@[simp] theorem Device.setQueues_hold (d : Device) (v : Tbl Queue) : (d.setQueues v).hold = d.hold := rfl
@[simp] theorem Device.setQueues_wave (d : Device) (v : Tbl Queue) : (d.setQueues v).wave = d.wave := rfl
@[simp] theorem Device.setQueues_mbr (d : Device) (v : Tbl Queue) : (d.setQueues v).mbr = d.mbr := rfl
@[simp] theorem Device.setQueues_corrs (d : Device) (v : Tbl Queue) : (d.setQueues v).corrs = d.corrs := rfl
@[simp] theorem Device.setQueues_d2dReplays (d : Device) (v : Tbl Queue) : (d.setQueues v).d2dReplays = d.d2dReplays := rfl
@[simp] theorem Device.setQueues_tiles (d : Device) (v : Tbl Queue) : (d.setQueues v).tiles = d.tiles := rfl
@[simp] theorem Device.setQueues_mesh (d : Device) (v : Tbl Queue) : (d.setQueues v).mesh = d.mesh := rfl
@[simp] theorem Device.setQueues_tokHold (d : Device) (v : Tbl Queue) : (d.setQueues v).tokHold = d.tokHold := rfl
@[simp] theorem Device.setQueues_ropes (d : Device) (v : Tbl Queue) : (d.setQueues v).ropes = d.ropes := rfl
@[simp] theorem Device.setQueues_ropeMoved (d : Device) (v : Tbl Queue) : (d.setQueues v).ropeMoved = d.ropeMoved := rfl
@[simp] theorem Device.setQueues_flows (d : Device) (v : Tbl Queue) : (d.setQueues v).flows = d.flows := rfl
@[simp] theorem Device.setQueues_tapQ (d : Device) (v : Tbl Queue) : (d.setQueues v).tapQ = d.tapQ := rfl
@[simp] theorem Device.setQueues_nextFlow (d : Device) (v : Tbl Queue) : (d.setQueues v).nextFlow = d.nextFlow := rfl
@[simp] theorem Device.setQueues_parts (d : Device) (v : Tbl Queue) : (d.setQueues v).parts = d.parts := rfl
@[simp] theorem Device.setQueues_ceLog (d : Device) (v : Tbl Queue) : (d.setQueues v).ceLog = d.ceLog := rfl
@[simp] theorem Device.setQueues_ddrUndef (d : Device) (v : Tbl Queue) : (d.setQueues v).ddrUndef = d.ddrUndef := rfl
@[simp] theorem Device.setQueues_conns (d : Device) (v : Tbl Queue) : (d.setQueues v).conns = d.conns := rfl
@[simp] theorem Device.setQueues_gft (d : Device) (v : Tbl Queue) : (d.setQueues v).gft = d.gft := rfl
@[simp] theorem Device.setQueues_groups (d : Device) (v : Tbl Queue) : (d.setQueues v).groups = d.groups := rfl
@[simp] theorem Device.setQueues_tmWait (d : Device) (v : Tbl Queue) : (d.setQueues v).tmWait = d.tmWait := rfl
@[simp] theorem Device.setQueues_fecBad (d : Device) (v : Tbl Queue) : (d.setQueues v).fecBad = d.fecBad := rfl
@[simp] theorem Device.setQueues_keyTime (d : Device) (v : Tbl Queue) : (d.setQueues v).keyTime = d.keyTime := rfl
@[simp] theorem Device.setQueues_pipeIn (d : Device) (v : Tbl Queue) : (d.setQueues v).pipeIn = d.pipeIn := rfl
@[simp] theorem Device.setQueues_pipes (d : Device) (v : Tbl Queue) : (d.setQueues v).pipes = d.pipes := rfl
@[simp] theorem Device.setQueues_clsSlots (d : Device) (v : Tbl Queue) : (d.setQueues v).clsSlots = d.clsSlots := rfl
@[simp] theorem Device.setQueues_flowCnts (d : Device) (v : Tbl Queue) : (d.setQueues v).flowCnts = d.flowCnts := rfl
@[simp] theorem Device.setQueues_pmeFlows (d : Device) (v : Tbl Queue) : (d.setQueues v).pmeFlows = d.pmeFlows := rfl
@[simp] theorem Device.setQueues_places (d : Device) (v : Tbl Queue) : (d.setQueues v).places = d.places := rfl
@[simp] theorem Device.setQueues_loaded (d : Device) (v : Tbl Queue) : (d.setQueues v).loaded = d.loaded := rfl
@[simp] theorem Device.setQueues_waveEpoch (d : Device) (v : Tbl Queue) : (d.setQueues v).waveEpoch = d.waveEpoch := rfl
@[simp] theorem Device.setQueues_tmQueues (d : Device) (v : Tbl Queue) : (d.setQueues v).tmQueues = d.tmQueues := rfl
@[simp] theorem Device.setQueues_tmPorts (d : Device) (v : Tbl Queue) : (d.setQueues v).tmPorts = d.tmPorts := rfl
@[simp] theorem Device.setQueues_policers (d : Device) (v : Tbl Queue) : (d.setQueues v).policers = d.policers := rfl
@[simp] theorem Device.setQueues_blocks (d : Device) (v : Tbl Queue) : (d.setQueues v).blocks = d.blocks := rfl
@[simp] theorem Device.setQueues_nvmes (d : Device) (v : Tbl Queue) : (d.setQueues v).nvmes = d.nvmes := rfl
@[simp] theorem Device.setQueues_nextNvme (d : Device) (v : Tbl Queue) : (d.setQueues v).nextNvme = d.nextNvme := rfl
@[simp] theorem Device.setQueues_stage (d : Device) (v : Tbl Queue) : (d.setQueues v).stage = d.stage := rfl
@[simp] theorem Device.setQueues_vaults (d : Device) (v : Tbl Queue) : (d.setQueues v).vaults = d.vaults := rfl
@[simp] theorem Device.setQueues_hostReads (d : Device) (v : Tbl Queue) : (d.setQueues v).hostReads = d.hostReads := rfl
@[simp] theorem Device.setQueues_link (d : Device) (v : Tbl Queue) : (d.setQueues v).link = d.link := rfl
@[simp] theorem Device.setQueues_nextFetch (d : Device) (v : Tbl Queue) : (d.setQueues v).nextFetch = d.nextFetch := rfl
@[simp] theorem Device.setQueues_xfers (d : Device) (v : Tbl Queue) : (d.setQueues v).xfers = d.xfers := rfl
@[simp] theorem Device.setQueues_queues (d : Device) (v : Tbl Queue) : (d.setQueues v).queues = v := rfl
@[simp] theorem Device.setQueues_fetched (d : Device) (v : Tbl Queue) : (d.setQueues v).fetched = d.fetched := rfl
@[simp] theorem Device.setQueues_heldW (d : Device) (v : Tbl Queue) : (d.setQueues v).heldW = d.heldW := rfl
@[simp] theorem Device.setQueues_cores (d : Device) (v : Tbl Queue) : (d.setQueues v).cores = d.cores := rfl
@[simp] theorem Device.setQueues_fw (d : Device) (v : Tbl Queue) : (d.setQueues v).fw = d.fw := rfl
@[simp] theorem Device.setQueues_queueMem (d : Device) (v : Tbl Queue) : (d.setQueues v).queueMem = d.queueMem := rfl
@[simp] theorem Device.setQueues_wlogs (d : Device) (v : Tbl Queue) : (d.setQueues v).wlogs = d.wlogs := rfl
@[simp] theorem Device.setQueues_stores (d : Device) (v : Tbl Queue) : (d.setQueues v).stores = d.stores := rfl
@[simp] theorem Device.setQueues_crew (d : Device) (v : Tbl Queue) : (d.setQueues v).crew = d.crew := rfl
@[simp] theorem Device.setQueues_belay (d : Device) (v : Tbl Queue) : (d.setQueues v).belay = d.belay := rfl
@[simp] theorem Device.setQueues_tel (d : Device) (v : Tbl Queue) : (d.setQueues v).tel = d.tel := rfl
@[simp] theorem Device.setQueues_pwr (d : Device) (v : Tbl Queue) : (d.setQueues v).pwr = d.pwr := rfl
@[simp] theorem Device.setFetched_cfg (d : Device) (v : List Fetched) : (d.setFetched v).cfg = d.cfg := rfl
@[simp] theorem Device.setFetched_clk (d : Device) (v : List Fetched) : (d.setFetched v).clk = d.clk := rfl
@[simp] theorem Device.setFetched_reg (d : Device) (v : List Fetched) : (d.setFetched v).reg = d.reg := rfl
@[simp] theorem Device.setFetched_rings (d : Device) (v : List Fetched) : (d.setFetched v).rings = d.rings := rfl
@[simp] theorem Device.setFetched_out (d : Device) (v : List Fetched) : (d.setFetched v).out = d.out := rfl
@[simp] theorem Device.setFetched_wr (d : Device) (v : List Fetched) : (d.setFetched v).wr = d.wr := rfl
@[simp] theorem Device.setFetched_poison (d : Device) (v : List Fetched) : (d.setFetched v).poison = d.poison := rfl
@[simp] theorem Device.setFetched_msix (d : Device) (v : List Fetched) : (d.setFetched v).msix = d.msix := rfl
@[simp] theorem Device.setFetched_hold (d : Device) (v : List Fetched) : (d.setFetched v).hold = d.hold := rfl
@[simp] theorem Device.setFetched_wave (d : Device) (v : List Fetched) : (d.setFetched v).wave = d.wave := rfl
@[simp] theorem Device.setFetched_mbr (d : Device) (v : List Fetched) : (d.setFetched v).mbr = d.mbr := rfl
@[simp] theorem Device.setFetched_corrs (d : Device) (v : List Fetched) : (d.setFetched v).corrs = d.corrs := rfl
@[simp] theorem Device.setFetched_d2dReplays (d : Device) (v : List Fetched) : (d.setFetched v).d2dReplays = d.d2dReplays := rfl
@[simp] theorem Device.setFetched_tiles (d : Device) (v : List Fetched) : (d.setFetched v).tiles = d.tiles := rfl
@[simp] theorem Device.setFetched_mesh (d : Device) (v : List Fetched) : (d.setFetched v).mesh = d.mesh := rfl
@[simp] theorem Device.setFetched_tokHold (d : Device) (v : List Fetched) : (d.setFetched v).tokHold = d.tokHold := rfl
@[simp] theorem Device.setFetched_ropes (d : Device) (v : List Fetched) : (d.setFetched v).ropes = d.ropes := rfl
@[simp] theorem Device.setFetched_ropeMoved (d : Device) (v : List Fetched) : (d.setFetched v).ropeMoved = d.ropeMoved := rfl
@[simp] theorem Device.setFetched_flows (d : Device) (v : List Fetched) : (d.setFetched v).flows = d.flows := rfl
@[simp] theorem Device.setFetched_tapQ (d : Device) (v : List Fetched) : (d.setFetched v).tapQ = d.tapQ := rfl
@[simp] theorem Device.setFetched_nextFlow (d : Device) (v : List Fetched) : (d.setFetched v).nextFlow = d.nextFlow := rfl
@[simp] theorem Device.setFetched_parts (d : Device) (v : List Fetched) : (d.setFetched v).parts = d.parts := rfl
@[simp] theorem Device.setFetched_ceLog (d : Device) (v : List Fetched) : (d.setFetched v).ceLog = d.ceLog := rfl
@[simp] theorem Device.setFetched_ddrUndef (d : Device) (v : List Fetched) : (d.setFetched v).ddrUndef = d.ddrUndef := rfl
@[simp] theorem Device.setFetched_conns (d : Device) (v : List Fetched) : (d.setFetched v).conns = d.conns := rfl
@[simp] theorem Device.setFetched_gft (d : Device) (v : List Fetched) : (d.setFetched v).gft = d.gft := rfl
@[simp] theorem Device.setFetched_groups (d : Device) (v : List Fetched) : (d.setFetched v).groups = d.groups := rfl
@[simp] theorem Device.setFetched_tmWait (d : Device) (v : List Fetched) : (d.setFetched v).tmWait = d.tmWait := rfl
@[simp] theorem Device.setFetched_fecBad (d : Device) (v : List Fetched) : (d.setFetched v).fecBad = d.fecBad := rfl
@[simp] theorem Device.setFetched_keyTime (d : Device) (v : List Fetched) : (d.setFetched v).keyTime = d.keyTime := rfl
@[simp] theorem Device.setFetched_pipeIn (d : Device) (v : List Fetched) : (d.setFetched v).pipeIn = d.pipeIn := rfl
@[simp] theorem Device.setFetched_pipes (d : Device) (v : List Fetched) : (d.setFetched v).pipes = d.pipes := rfl
@[simp] theorem Device.setFetched_clsSlots (d : Device) (v : List Fetched) : (d.setFetched v).clsSlots = d.clsSlots := rfl
@[simp] theorem Device.setFetched_flowCnts (d : Device) (v : List Fetched) : (d.setFetched v).flowCnts = d.flowCnts := rfl
@[simp] theorem Device.setFetched_pmeFlows (d : Device) (v : List Fetched) : (d.setFetched v).pmeFlows = d.pmeFlows := rfl
@[simp] theorem Device.setFetched_places (d : Device) (v : List Fetched) : (d.setFetched v).places = d.places := rfl
@[simp] theorem Device.setFetched_loaded (d : Device) (v : List Fetched) : (d.setFetched v).loaded = d.loaded := rfl
@[simp] theorem Device.setFetched_waveEpoch (d : Device) (v : List Fetched) : (d.setFetched v).waveEpoch = d.waveEpoch := rfl
@[simp] theorem Device.setFetched_tmQueues (d : Device) (v : List Fetched) : (d.setFetched v).tmQueues = d.tmQueues := rfl
@[simp] theorem Device.setFetched_tmPorts (d : Device) (v : List Fetched) : (d.setFetched v).tmPorts = d.tmPorts := rfl
@[simp] theorem Device.setFetched_policers (d : Device) (v : List Fetched) : (d.setFetched v).policers = d.policers := rfl
@[simp] theorem Device.setFetched_blocks (d : Device) (v : List Fetched) : (d.setFetched v).blocks = d.blocks := rfl
@[simp] theorem Device.setFetched_nvmes (d : Device) (v : List Fetched) : (d.setFetched v).nvmes = d.nvmes := rfl
@[simp] theorem Device.setFetched_nextNvme (d : Device) (v : List Fetched) : (d.setFetched v).nextNvme = d.nextNvme := rfl
@[simp] theorem Device.setFetched_stage (d : Device) (v : List Fetched) : (d.setFetched v).stage = d.stage := rfl
@[simp] theorem Device.setFetched_vaults (d : Device) (v : List Fetched) : (d.setFetched v).vaults = d.vaults := rfl
@[simp] theorem Device.setFetched_hostReads (d : Device) (v : List Fetched) : (d.setFetched v).hostReads = d.hostReads := rfl
@[simp] theorem Device.setFetched_link (d : Device) (v : List Fetched) : (d.setFetched v).link = d.link := rfl
@[simp] theorem Device.setFetched_nextFetch (d : Device) (v : List Fetched) : (d.setFetched v).nextFetch = d.nextFetch := rfl
@[simp] theorem Device.setFetched_xfers (d : Device) (v : List Fetched) : (d.setFetched v).xfers = d.xfers := rfl
@[simp] theorem Device.setFetched_queues (d : Device) (v : List Fetched) : (d.setFetched v).queues = d.queues := rfl
@[simp] theorem Device.setFetched_fetched (d : Device) (v : List Fetched) : (d.setFetched v).fetched = v := rfl
@[simp] theorem Device.setFetched_heldW (d : Device) (v : List Fetched) : (d.setFetched v).heldW = d.heldW := rfl
@[simp] theorem Device.setFetched_cores (d : Device) (v : List Fetched) : (d.setFetched v).cores = d.cores := rfl
@[simp] theorem Device.setFetched_fw (d : Device) (v : List Fetched) : (d.setFetched v).fw = d.fw := rfl
@[simp] theorem Device.setFetched_queueMem (d : Device) (v : List Fetched) : (d.setFetched v).queueMem = d.queueMem := rfl
@[simp] theorem Device.setFetched_wlogs (d : Device) (v : List Fetched) : (d.setFetched v).wlogs = d.wlogs := rfl
@[simp] theorem Device.setFetched_stores (d : Device) (v : List Fetched) : (d.setFetched v).stores = d.stores := rfl
@[simp] theorem Device.setFetched_crew (d : Device) (v : List Fetched) : (d.setFetched v).crew = d.crew := rfl
@[simp] theorem Device.setFetched_belay (d : Device) (v : List Fetched) : (d.setFetched v).belay = d.belay := rfl
@[simp] theorem Device.setFetched_tel (d : Device) (v : List Fetched) : (d.setFetched v).tel = d.tel := rfl
@[simp] theorem Device.setFetched_pwr (d : Device) (v : List Fetched) : (d.setFetched v).pwr = d.pwr := rfl
@[simp] theorem Device.setHeldW_cfg (d : Device) (v : List HeldWrite) : (d.setHeldW v).cfg = d.cfg := rfl
@[simp] theorem Device.setHeldW_clk (d : Device) (v : List HeldWrite) : (d.setHeldW v).clk = d.clk := rfl
@[simp] theorem Device.setHeldW_reg (d : Device) (v : List HeldWrite) : (d.setHeldW v).reg = d.reg := rfl
@[simp] theorem Device.setHeldW_rings (d : Device) (v : List HeldWrite) : (d.setHeldW v).rings = d.rings := rfl
@[simp] theorem Device.setHeldW_out (d : Device) (v : List HeldWrite) : (d.setHeldW v).out = d.out := rfl
@[simp] theorem Device.setHeldW_wr (d : Device) (v : List HeldWrite) : (d.setHeldW v).wr = d.wr := rfl
@[simp] theorem Device.setHeldW_poison (d : Device) (v : List HeldWrite) : (d.setHeldW v).poison = d.poison := rfl
@[simp] theorem Device.setHeldW_msix (d : Device) (v : List HeldWrite) : (d.setHeldW v).msix = d.msix := rfl
@[simp] theorem Device.setHeldW_hold (d : Device) (v : List HeldWrite) : (d.setHeldW v).hold = d.hold := rfl
@[simp] theorem Device.setHeldW_wave (d : Device) (v : List HeldWrite) : (d.setHeldW v).wave = d.wave := rfl
@[simp] theorem Device.setHeldW_mbr (d : Device) (v : List HeldWrite) : (d.setHeldW v).mbr = d.mbr := rfl
@[simp] theorem Device.setHeldW_corrs (d : Device) (v : List HeldWrite) : (d.setHeldW v).corrs = d.corrs := rfl
@[simp] theorem Device.setHeldW_d2dReplays (d : Device) (v : List HeldWrite) : (d.setHeldW v).d2dReplays = d.d2dReplays := rfl
@[simp] theorem Device.setHeldW_tiles (d : Device) (v : List HeldWrite) : (d.setHeldW v).tiles = d.tiles := rfl
@[simp] theorem Device.setHeldW_mesh (d : Device) (v : List HeldWrite) : (d.setHeldW v).mesh = d.mesh := rfl
@[simp] theorem Device.setHeldW_tokHold (d : Device) (v : List HeldWrite) : (d.setHeldW v).tokHold = d.tokHold := rfl
@[simp] theorem Device.setHeldW_ropes (d : Device) (v : List HeldWrite) : (d.setHeldW v).ropes = d.ropes := rfl
@[simp] theorem Device.setHeldW_ropeMoved (d : Device) (v : List HeldWrite) : (d.setHeldW v).ropeMoved = d.ropeMoved := rfl
@[simp] theorem Device.setHeldW_flows (d : Device) (v : List HeldWrite) : (d.setHeldW v).flows = d.flows := rfl
@[simp] theorem Device.setHeldW_tapQ (d : Device) (v : List HeldWrite) : (d.setHeldW v).tapQ = d.tapQ := rfl
@[simp] theorem Device.setHeldW_nextFlow (d : Device) (v : List HeldWrite) : (d.setHeldW v).nextFlow = d.nextFlow := rfl
@[simp] theorem Device.setHeldW_parts (d : Device) (v : List HeldWrite) : (d.setHeldW v).parts = d.parts := rfl
@[simp] theorem Device.setHeldW_ceLog (d : Device) (v : List HeldWrite) : (d.setHeldW v).ceLog = d.ceLog := rfl
@[simp] theorem Device.setHeldW_ddrUndef (d : Device) (v : List HeldWrite) : (d.setHeldW v).ddrUndef = d.ddrUndef := rfl
@[simp] theorem Device.setHeldW_conns (d : Device) (v : List HeldWrite) : (d.setHeldW v).conns = d.conns := rfl
@[simp] theorem Device.setHeldW_gft (d : Device) (v : List HeldWrite) : (d.setHeldW v).gft = d.gft := rfl
@[simp] theorem Device.setHeldW_groups (d : Device) (v : List HeldWrite) : (d.setHeldW v).groups = d.groups := rfl
@[simp] theorem Device.setHeldW_tmWait (d : Device) (v : List HeldWrite) : (d.setHeldW v).tmWait = d.tmWait := rfl
@[simp] theorem Device.setHeldW_fecBad (d : Device) (v : List HeldWrite) : (d.setHeldW v).fecBad = d.fecBad := rfl
@[simp] theorem Device.setHeldW_keyTime (d : Device) (v : List HeldWrite) : (d.setHeldW v).keyTime = d.keyTime := rfl
@[simp] theorem Device.setHeldW_pipeIn (d : Device) (v : List HeldWrite) : (d.setHeldW v).pipeIn = d.pipeIn := rfl
@[simp] theorem Device.setHeldW_pipes (d : Device) (v : List HeldWrite) : (d.setHeldW v).pipes = d.pipes := rfl
@[simp] theorem Device.setHeldW_clsSlots (d : Device) (v : List HeldWrite) : (d.setHeldW v).clsSlots = d.clsSlots := rfl
@[simp] theorem Device.setHeldW_flowCnts (d : Device) (v : List HeldWrite) : (d.setHeldW v).flowCnts = d.flowCnts := rfl
@[simp] theorem Device.setHeldW_pmeFlows (d : Device) (v : List HeldWrite) : (d.setHeldW v).pmeFlows = d.pmeFlows := rfl
@[simp] theorem Device.setHeldW_places (d : Device) (v : List HeldWrite) : (d.setHeldW v).places = d.places := rfl
@[simp] theorem Device.setHeldW_loaded (d : Device) (v : List HeldWrite) : (d.setHeldW v).loaded = d.loaded := rfl
@[simp] theorem Device.setHeldW_waveEpoch (d : Device) (v : List HeldWrite) : (d.setHeldW v).waveEpoch = d.waveEpoch := rfl
@[simp] theorem Device.setHeldW_tmQueues (d : Device) (v : List HeldWrite) : (d.setHeldW v).tmQueues = d.tmQueues := rfl
@[simp] theorem Device.setHeldW_tmPorts (d : Device) (v : List HeldWrite) : (d.setHeldW v).tmPorts = d.tmPorts := rfl
@[simp] theorem Device.setHeldW_policers (d : Device) (v : List HeldWrite) : (d.setHeldW v).policers = d.policers := rfl
@[simp] theorem Device.setHeldW_blocks (d : Device) (v : List HeldWrite) : (d.setHeldW v).blocks = d.blocks := rfl
@[simp] theorem Device.setHeldW_nvmes (d : Device) (v : List HeldWrite) : (d.setHeldW v).nvmes = d.nvmes := rfl
@[simp] theorem Device.setHeldW_nextNvme (d : Device) (v : List HeldWrite) : (d.setHeldW v).nextNvme = d.nextNvme := rfl
@[simp] theorem Device.setHeldW_stage (d : Device) (v : List HeldWrite) : (d.setHeldW v).stage = d.stage := rfl
@[simp] theorem Device.setHeldW_vaults (d : Device) (v : List HeldWrite) : (d.setHeldW v).vaults = d.vaults := rfl
@[simp] theorem Device.setHeldW_hostReads (d : Device) (v : List HeldWrite) : (d.setHeldW v).hostReads = d.hostReads := rfl
@[simp] theorem Device.setHeldW_link (d : Device) (v : List HeldWrite) : (d.setHeldW v).link = d.link := rfl
@[simp] theorem Device.setHeldW_nextFetch (d : Device) (v : List HeldWrite) : (d.setHeldW v).nextFetch = d.nextFetch := rfl
@[simp] theorem Device.setHeldW_xfers (d : Device) (v : List HeldWrite) : (d.setHeldW v).xfers = d.xfers := rfl
@[simp] theorem Device.setHeldW_queues (d : Device) (v : List HeldWrite) : (d.setHeldW v).queues = d.queues := rfl
@[simp] theorem Device.setHeldW_fetched (d : Device) (v : List HeldWrite) : (d.setHeldW v).fetched = d.fetched := rfl
@[simp] theorem Device.setHeldW_heldW (d : Device) (v : List HeldWrite) : (d.setHeldW v).heldW = v := rfl
@[simp] theorem Device.setHeldW_cores (d : Device) (v : List HeldWrite) : (d.setHeldW v).cores = d.cores := rfl
@[simp] theorem Device.setHeldW_fw (d : Device) (v : List HeldWrite) : (d.setHeldW v).fw = d.fw := rfl
@[simp] theorem Device.setHeldW_queueMem (d : Device) (v : List HeldWrite) : (d.setHeldW v).queueMem = d.queueMem := rfl
@[simp] theorem Device.setHeldW_wlogs (d : Device) (v : List HeldWrite) : (d.setHeldW v).wlogs = d.wlogs := rfl
@[simp] theorem Device.setHeldW_stores (d : Device) (v : List HeldWrite) : (d.setHeldW v).stores = d.stores := rfl
@[simp] theorem Device.setHeldW_crew (d : Device) (v : List HeldWrite) : (d.setHeldW v).crew = d.crew := rfl
@[simp] theorem Device.setHeldW_belay (d : Device) (v : List HeldWrite) : (d.setHeldW v).belay = d.belay := rfl
@[simp] theorem Device.setHeldW_tel (d : Device) (v : List HeldWrite) : (d.setHeldW v).tel = d.tel := rfl
@[simp] theorem Device.setHeldW_pwr (d : Device) (v : List HeldWrite) : (d.setHeldW v).pwr = d.pwr := rfl
@[simp] theorem Device.setCores_cfg (d : Device) (v : Tbl CoreSt) : (d.setCores v).cfg = d.cfg := rfl
@[simp] theorem Device.setCores_clk (d : Device) (v : Tbl CoreSt) : (d.setCores v).clk = d.clk := rfl
@[simp] theorem Device.setCores_reg (d : Device) (v : Tbl CoreSt) : (d.setCores v).reg = d.reg := rfl
@[simp] theorem Device.setCores_rings (d : Device) (v : Tbl CoreSt) : (d.setCores v).rings = d.rings := rfl
@[simp] theorem Device.setCores_out (d : Device) (v : Tbl CoreSt) : (d.setCores v).out = d.out := rfl
@[simp] theorem Device.setCores_wr (d : Device) (v : Tbl CoreSt) : (d.setCores v).wr = d.wr := rfl
@[simp] theorem Device.setCores_poison (d : Device) (v : Tbl CoreSt) : (d.setCores v).poison = d.poison := rfl
@[simp] theorem Device.setCores_msix (d : Device) (v : Tbl CoreSt) : (d.setCores v).msix = d.msix := rfl
@[simp] theorem Device.setCores_hold (d : Device) (v : Tbl CoreSt) : (d.setCores v).hold = d.hold := rfl
@[simp] theorem Device.setCores_wave (d : Device) (v : Tbl CoreSt) : (d.setCores v).wave = d.wave := rfl
@[simp] theorem Device.setCores_mbr (d : Device) (v : Tbl CoreSt) : (d.setCores v).mbr = d.mbr := rfl
@[simp] theorem Device.setCores_corrs (d : Device) (v : Tbl CoreSt) : (d.setCores v).corrs = d.corrs := rfl
@[simp] theorem Device.setCores_d2dReplays (d : Device) (v : Tbl CoreSt) : (d.setCores v).d2dReplays = d.d2dReplays := rfl
@[simp] theorem Device.setCores_tiles (d : Device) (v : Tbl CoreSt) : (d.setCores v).tiles = d.tiles := rfl
@[simp] theorem Device.setCores_mesh (d : Device) (v : Tbl CoreSt) : (d.setCores v).mesh = d.mesh := rfl
@[simp] theorem Device.setCores_tokHold (d : Device) (v : Tbl CoreSt) : (d.setCores v).tokHold = d.tokHold := rfl
@[simp] theorem Device.setCores_ropes (d : Device) (v : Tbl CoreSt) : (d.setCores v).ropes = d.ropes := rfl
@[simp] theorem Device.setCores_ropeMoved (d : Device) (v : Tbl CoreSt) : (d.setCores v).ropeMoved = d.ropeMoved := rfl
@[simp] theorem Device.setCores_flows (d : Device) (v : Tbl CoreSt) : (d.setCores v).flows = d.flows := rfl
@[simp] theorem Device.setCores_tapQ (d : Device) (v : Tbl CoreSt) : (d.setCores v).tapQ = d.tapQ := rfl
@[simp] theorem Device.setCores_nextFlow (d : Device) (v : Tbl CoreSt) : (d.setCores v).nextFlow = d.nextFlow := rfl
@[simp] theorem Device.setCores_parts (d : Device) (v : Tbl CoreSt) : (d.setCores v).parts = d.parts := rfl
@[simp] theorem Device.setCores_ceLog (d : Device) (v : Tbl CoreSt) : (d.setCores v).ceLog = d.ceLog := rfl
@[simp] theorem Device.setCores_ddrUndef (d : Device) (v : Tbl CoreSt) : (d.setCores v).ddrUndef = d.ddrUndef := rfl
@[simp] theorem Device.setCores_conns (d : Device) (v : Tbl CoreSt) : (d.setCores v).conns = d.conns := rfl
@[simp] theorem Device.setCores_gft (d : Device) (v : Tbl CoreSt) : (d.setCores v).gft = d.gft := rfl
@[simp] theorem Device.setCores_groups (d : Device) (v : Tbl CoreSt) : (d.setCores v).groups = d.groups := rfl
@[simp] theorem Device.setCores_tmWait (d : Device) (v : Tbl CoreSt) : (d.setCores v).tmWait = d.tmWait := rfl
@[simp] theorem Device.setCores_fecBad (d : Device) (v : Tbl CoreSt) : (d.setCores v).fecBad = d.fecBad := rfl
@[simp] theorem Device.setCores_keyTime (d : Device) (v : Tbl CoreSt) : (d.setCores v).keyTime = d.keyTime := rfl
@[simp] theorem Device.setCores_pipeIn (d : Device) (v : Tbl CoreSt) : (d.setCores v).pipeIn = d.pipeIn := rfl
@[simp] theorem Device.setCores_pipes (d : Device) (v : Tbl CoreSt) : (d.setCores v).pipes = d.pipes := rfl
@[simp] theorem Device.setCores_clsSlots (d : Device) (v : Tbl CoreSt) : (d.setCores v).clsSlots = d.clsSlots := rfl
@[simp] theorem Device.setCores_flowCnts (d : Device) (v : Tbl CoreSt) : (d.setCores v).flowCnts = d.flowCnts := rfl
@[simp] theorem Device.setCores_pmeFlows (d : Device) (v : Tbl CoreSt) : (d.setCores v).pmeFlows = d.pmeFlows := rfl
@[simp] theorem Device.setCores_places (d : Device) (v : Tbl CoreSt) : (d.setCores v).places = d.places := rfl
@[simp] theorem Device.setCores_loaded (d : Device) (v : Tbl CoreSt) : (d.setCores v).loaded = d.loaded := rfl
@[simp] theorem Device.setCores_waveEpoch (d : Device) (v : Tbl CoreSt) : (d.setCores v).waveEpoch = d.waveEpoch := rfl
@[simp] theorem Device.setCores_tmQueues (d : Device) (v : Tbl CoreSt) : (d.setCores v).tmQueues = d.tmQueues := rfl
@[simp] theorem Device.setCores_tmPorts (d : Device) (v : Tbl CoreSt) : (d.setCores v).tmPorts = d.tmPorts := rfl
@[simp] theorem Device.setCores_policers (d : Device) (v : Tbl CoreSt) : (d.setCores v).policers = d.policers := rfl
@[simp] theorem Device.setCores_blocks (d : Device) (v : Tbl CoreSt) : (d.setCores v).blocks = d.blocks := rfl
@[simp] theorem Device.setCores_nvmes (d : Device) (v : Tbl CoreSt) : (d.setCores v).nvmes = d.nvmes := rfl
@[simp] theorem Device.setCores_nextNvme (d : Device) (v : Tbl CoreSt) : (d.setCores v).nextNvme = d.nextNvme := rfl
@[simp] theorem Device.setCores_stage (d : Device) (v : Tbl CoreSt) : (d.setCores v).stage = d.stage := rfl
@[simp] theorem Device.setCores_vaults (d : Device) (v : Tbl CoreSt) : (d.setCores v).vaults = d.vaults := rfl
@[simp] theorem Device.setCores_hostReads (d : Device) (v : Tbl CoreSt) : (d.setCores v).hostReads = d.hostReads := rfl
@[simp] theorem Device.setCores_link (d : Device) (v : Tbl CoreSt) : (d.setCores v).link = d.link := rfl
@[simp] theorem Device.setCores_nextFetch (d : Device) (v : Tbl CoreSt) : (d.setCores v).nextFetch = d.nextFetch := rfl
@[simp] theorem Device.setCores_xfers (d : Device) (v : Tbl CoreSt) : (d.setCores v).xfers = d.xfers := rfl
@[simp] theorem Device.setCores_queues (d : Device) (v : Tbl CoreSt) : (d.setCores v).queues = d.queues := rfl
@[simp] theorem Device.setCores_fetched (d : Device) (v : Tbl CoreSt) : (d.setCores v).fetched = d.fetched := rfl
@[simp] theorem Device.setCores_heldW (d : Device) (v : Tbl CoreSt) : (d.setCores v).heldW = d.heldW := rfl
@[simp] theorem Device.setCores_cores (d : Device) (v : Tbl CoreSt) : (d.setCores v).cores = v := rfl
@[simp] theorem Device.setCores_fw (d : Device) (v : Tbl CoreSt) : (d.setCores v).fw = d.fw := rfl
@[simp] theorem Device.setCores_queueMem (d : Device) (v : Tbl CoreSt) : (d.setCores v).queueMem = d.queueMem := rfl
@[simp] theorem Device.setCores_wlogs (d : Device) (v : Tbl CoreSt) : (d.setCores v).wlogs = d.wlogs := rfl
@[simp] theorem Device.setCores_stores (d : Device) (v : Tbl CoreSt) : (d.setCores v).stores = d.stores := rfl
@[simp] theorem Device.setCores_crew (d : Device) (v : Tbl CoreSt) : (d.setCores v).crew = d.crew := rfl
@[simp] theorem Device.setCores_belay (d : Device) (v : Tbl CoreSt) : (d.setCores v).belay = d.belay := rfl
@[simp] theorem Device.setCores_tel (d : Device) (v : Tbl CoreSt) : (d.setCores v).tel = d.tel := rfl
@[simp] theorem Device.setCores_pwr (d : Device) (v : Tbl CoreSt) : (d.setCores v).pwr = d.pwr := rfl
@[simp] theorem Device.setFw_cfg (d : Device) (v : FwSt) : (d.setFw v).cfg = d.cfg := rfl
@[simp] theorem Device.setFw_clk (d : Device) (v : FwSt) : (d.setFw v).clk = d.clk := rfl
@[simp] theorem Device.setFw_reg (d : Device) (v : FwSt) : (d.setFw v).reg = d.reg := rfl
@[simp] theorem Device.setFw_rings (d : Device) (v : FwSt) : (d.setFw v).rings = d.rings := rfl
@[simp] theorem Device.setFw_out (d : Device) (v : FwSt) : (d.setFw v).out = d.out := rfl
@[simp] theorem Device.setFw_wr (d : Device) (v : FwSt) : (d.setFw v).wr = d.wr := rfl
@[simp] theorem Device.setFw_poison (d : Device) (v : FwSt) : (d.setFw v).poison = d.poison := rfl
@[simp] theorem Device.setFw_msix (d : Device) (v : FwSt) : (d.setFw v).msix = d.msix := rfl
@[simp] theorem Device.setFw_hold (d : Device) (v : FwSt) : (d.setFw v).hold = d.hold := rfl
@[simp] theorem Device.setFw_wave (d : Device) (v : FwSt) : (d.setFw v).wave = d.wave := rfl
@[simp] theorem Device.setFw_mbr (d : Device) (v : FwSt) : (d.setFw v).mbr = d.mbr := rfl
@[simp] theorem Device.setFw_corrs (d : Device) (v : FwSt) : (d.setFw v).corrs = d.corrs := rfl
@[simp] theorem Device.setFw_d2dReplays (d : Device) (v : FwSt) : (d.setFw v).d2dReplays = d.d2dReplays := rfl
@[simp] theorem Device.setFw_tiles (d : Device) (v : FwSt) : (d.setFw v).tiles = d.tiles := rfl
@[simp] theorem Device.setFw_mesh (d : Device) (v : FwSt) : (d.setFw v).mesh = d.mesh := rfl
@[simp] theorem Device.setFw_tokHold (d : Device) (v : FwSt) : (d.setFw v).tokHold = d.tokHold := rfl
@[simp] theorem Device.setFw_ropes (d : Device) (v : FwSt) : (d.setFw v).ropes = d.ropes := rfl
@[simp] theorem Device.setFw_ropeMoved (d : Device) (v : FwSt) : (d.setFw v).ropeMoved = d.ropeMoved := rfl
@[simp] theorem Device.setFw_flows (d : Device) (v : FwSt) : (d.setFw v).flows = d.flows := rfl
@[simp] theorem Device.setFw_tapQ (d : Device) (v : FwSt) : (d.setFw v).tapQ = d.tapQ := rfl
@[simp] theorem Device.setFw_nextFlow (d : Device) (v : FwSt) : (d.setFw v).nextFlow = d.nextFlow := rfl
@[simp] theorem Device.setFw_parts (d : Device) (v : FwSt) : (d.setFw v).parts = d.parts := rfl
@[simp] theorem Device.setFw_ceLog (d : Device) (v : FwSt) : (d.setFw v).ceLog = d.ceLog := rfl
@[simp] theorem Device.setFw_ddrUndef (d : Device) (v : FwSt) : (d.setFw v).ddrUndef = d.ddrUndef := rfl
@[simp] theorem Device.setFw_conns (d : Device) (v : FwSt) : (d.setFw v).conns = d.conns := rfl
@[simp] theorem Device.setFw_gft (d : Device) (v : FwSt) : (d.setFw v).gft = d.gft := rfl
@[simp] theorem Device.setFw_groups (d : Device) (v : FwSt) : (d.setFw v).groups = d.groups := rfl
@[simp] theorem Device.setFw_tmWait (d : Device) (v : FwSt) : (d.setFw v).tmWait = d.tmWait := rfl
@[simp] theorem Device.setFw_fecBad (d : Device) (v : FwSt) : (d.setFw v).fecBad = d.fecBad := rfl
@[simp] theorem Device.setFw_keyTime (d : Device) (v : FwSt) : (d.setFw v).keyTime = d.keyTime := rfl
@[simp] theorem Device.setFw_pipeIn (d : Device) (v : FwSt) : (d.setFw v).pipeIn = d.pipeIn := rfl
@[simp] theorem Device.setFw_pipes (d : Device) (v : FwSt) : (d.setFw v).pipes = d.pipes := rfl
@[simp] theorem Device.setFw_clsSlots (d : Device) (v : FwSt) : (d.setFw v).clsSlots = d.clsSlots := rfl
@[simp] theorem Device.setFw_flowCnts (d : Device) (v : FwSt) : (d.setFw v).flowCnts = d.flowCnts := rfl
@[simp] theorem Device.setFw_pmeFlows (d : Device) (v : FwSt) : (d.setFw v).pmeFlows = d.pmeFlows := rfl
@[simp] theorem Device.setFw_places (d : Device) (v : FwSt) : (d.setFw v).places = d.places := rfl
@[simp] theorem Device.setFw_loaded (d : Device) (v : FwSt) : (d.setFw v).loaded = d.loaded := rfl
@[simp] theorem Device.setFw_waveEpoch (d : Device) (v : FwSt) : (d.setFw v).waveEpoch = d.waveEpoch := rfl
@[simp] theorem Device.setFw_tmQueues (d : Device) (v : FwSt) : (d.setFw v).tmQueues = d.tmQueues := rfl
@[simp] theorem Device.setFw_tmPorts (d : Device) (v : FwSt) : (d.setFw v).tmPorts = d.tmPorts := rfl
@[simp] theorem Device.setFw_policers (d : Device) (v : FwSt) : (d.setFw v).policers = d.policers := rfl
@[simp] theorem Device.setFw_blocks (d : Device) (v : FwSt) : (d.setFw v).blocks = d.blocks := rfl
@[simp] theorem Device.setFw_nvmes (d : Device) (v : FwSt) : (d.setFw v).nvmes = d.nvmes := rfl
@[simp] theorem Device.setFw_nextNvme (d : Device) (v : FwSt) : (d.setFw v).nextNvme = d.nextNvme := rfl
@[simp] theorem Device.setFw_stage (d : Device) (v : FwSt) : (d.setFw v).stage = d.stage := rfl
@[simp] theorem Device.setFw_vaults (d : Device) (v : FwSt) : (d.setFw v).vaults = d.vaults := rfl
@[simp] theorem Device.setFw_hostReads (d : Device) (v : FwSt) : (d.setFw v).hostReads = d.hostReads := rfl
@[simp] theorem Device.setFw_link (d : Device) (v : FwSt) : (d.setFw v).link = d.link := rfl
@[simp] theorem Device.setFw_nextFetch (d : Device) (v : FwSt) : (d.setFw v).nextFetch = d.nextFetch := rfl
@[simp] theorem Device.setFw_xfers (d : Device) (v : FwSt) : (d.setFw v).xfers = d.xfers := rfl
@[simp] theorem Device.setFw_queues (d : Device) (v : FwSt) : (d.setFw v).queues = d.queues := rfl
@[simp] theorem Device.setFw_fetched (d : Device) (v : FwSt) : (d.setFw v).fetched = d.fetched := rfl
@[simp] theorem Device.setFw_heldW (d : Device) (v : FwSt) : (d.setFw v).heldW = d.heldW := rfl
@[simp] theorem Device.setFw_cores (d : Device) (v : FwSt) : (d.setFw v).cores = d.cores := rfl
@[simp] theorem Device.setFw_fw (d : Device) (v : FwSt) : (d.setFw v).fw = v := rfl
@[simp] theorem Device.setFw_queueMem (d : Device) (v : FwSt) : (d.setFw v).queueMem = d.queueMem := rfl
@[simp] theorem Device.setFw_wlogs (d : Device) (v : FwSt) : (d.setFw v).wlogs = d.wlogs := rfl
@[simp] theorem Device.setFw_stores (d : Device) (v : FwSt) : (d.setFw v).stores = d.stores := rfl
@[simp] theorem Device.setFw_crew (d : Device) (v : FwSt) : (d.setFw v).crew = d.crew := rfl
@[simp] theorem Device.setFw_belay (d : Device) (v : FwSt) : (d.setFw v).belay = d.belay := rfl
@[simp] theorem Device.setFw_tel (d : Device) (v : FwSt) : (d.setFw v).tel = d.tel := rfl
@[simp] theorem Device.setFw_pwr (d : Device) (v : FwSt) : (d.setFw v).pwr = d.pwr := rfl
@[simp] theorem Device.setQueueMem_cfg (d : Device) (v : Tbl Grant) : (d.setQueueMem v).cfg = d.cfg := rfl
@[simp] theorem Device.setQueueMem_clk (d : Device) (v : Tbl Grant) : (d.setQueueMem v).clk = d.clk := rfl
@[simp] theorem Device.setQueueMem_reg (d : Device) (v : Tbl Grant) : (d.setQueueMem v).reg = d.reg := rfl
@[simp] theorem Device.setQueueMem_rings (d : Device) (v : Tbl Grant) : (d.setQueueMem v).rings = d.rings := rfl
@[simp] theorem Device.setQueueMem_out (d : Device) (v : Tbl Grant) : (d.setQueueMem v).out = d.out := rfl
@[simp] theorem Device.setQueueMem_wr (d : Device) (v : Tbl Grant) : (d.setQueueMem v).wr = d.wr := rfl
@[simp] theorem Device.setQueueMem_poison (d : Device) (v : Tbl Grant) : (d.setQueueMem v).poison = d.poison := rfl
@[simp] theorem Device.setQueueMem_msix (d : Device) (v : Tbl Grant) : (d.setQueueMem v).msix = d.msix := rfl
@[simp] theorem Device.setQueueMem_hold (d : Device) (v : Tbl Grant) : (d.setQueueMem v).hold = d.hold := rfl
@[simp] theorem Device.setQueueMem_wave (d : Device) (v : Tbl Grant) : (d.setQueueMem v).wave = d.wave := rfl
@[simp] theorem Device.setQueueMem_mbr (d : Device) (v : Tbl Grant) : (d.setQueueMem v).mbr = d.mbr := rfl
@[simp] theorem Device.setQueueMem_corrs (d : Device) (v : Tbl Grant) : (d.setQueueMem v).corrs = d.corrs := rfl
@[simp] theorem Device.setQueueMem_d2dReplays (d : Device) (v : Tbl Grant) : (d.setQueueMem v).d2dReplays = d.d2dReplays := rfl
@[simp] theorem Device.setQueueMem_tiles (d : Device) (v : Tbl Grant) : (d.setQueueMem v).tiles = d.tiles := rfl
@[simp] theorem Device.setQueueMem_mesh (d : Device) (v : Tbl Grant) : (d.setQueueMem v).mesh = d.mesh := rfl
@[simp] theorem Device.setQueueMem_tokHold (d : Device) (v : Tbl Grant) : (d.setQueueMem v).tokHold = d.tokHold := rfl
@[simp] theorem Device.setQueueMem_ropes (d : Device) (v : Tbl Grant) : (d.setQueueMem v).ropes = d.ropes := rfl
@[simp] theorem Device.setQueueMem_ropeMoved (d : Device) (v : Tbl Grant) : (d.setQueueMem v).ropeMoved = d.ropeMoved := rfl
@[simp] theorem Device.setQueueMem_flows (d : Device) (v : Tbl Grant) : (d.setQueueMem v).flows = d.flows := rfl
@[simp] theorem Device.setQueueMem_tapQ (d : Device) (v : Tbl Grant) : (d.setQueueMem v).tapQ = d.tapQ := rfl
@[simp] theorem Device.setQueueMem_nextFlow (d : Device) (v : Tbl Grant) : (d.setQueueMem v).nextFlow = d.nextFlow := rfl
@[simp] theorem Device.setQueueMem_parts (d : Device) (v : Tbl Grant) : (d.setQueueMem v).parts = d.parts := rfl
@[simp] theorem Device.setQueueMem_ceLog (d : Device) (v : Tbl Grant) : (d.setQueueMem v).ceLog = d.ceLog := rfl
@[simp] theorem Device.setQueueMem_ddrUndef (d : Device) (v : Tbl Grant) : (d.setQueueMem v).ddrUndef = d.ddrUndef := rfl
@[simp] theorem Device.setQueueMem_conns (d : Device) (v : Tbl Grant) : (d.setQueueMem v).conns = d.conns := rfl
@[simp] theorem Device.setQueueMem_gft (d : Device) (v : Tbl Grant) : (d.setQueueMem v).gft = d.gft := rfl
@[simp] theorem Device.setQueueMem_groups (d : Device) (v : Tbl Grant) : (d.setQueueMem v).groups = d.groups := rfl
@[simp] theorem Device.setQueueMem_tmWait (d : Device) (v : Tbl Grant) : (d.setQueueMem v).tmWait = d.tmWait := rfl
@[simp] theorem Device.setQueueMem_fecBad (d : Device) (v : Tbl Grant) : (d.setQueueMem v).fecBad = d.fecBad := rfl
@[simp] theorem Device.setQueueMem_keyTime (d : Device) (v : Tbl Grant) : (d.setQueueMem v).keyTime = d.keyTime := rfl
@[simp] theorem Device.setQueueMem_pipeIn (d : Device) (v : Tbl Grant) : (d.setQueueMem v).pipeIn = d.pipeIn := rfl
@[simp] theorem Device.setQueueMem_pipes (d : Device) (v : Tbl Grant) : (d.setQueueMem v).pipes = d.pipes := rfl
@[simp] theorem Device.setQueueMem_clsSlots (d : Device) (v : Tbl Grant) : (d.setQueueMem v).clsSlots = d.clsSlots := rfl
@[simp] theorem Device.setQueueMem_flowCnts (d : Device) (v : Tbl Grant) : (d.setQueueMem v).flowCnts = d.flowCnts := rfl
@[simp] theorem Device.setQueueMem_pmeFlows (d : Device) (v : Tbl Grant) : (d.setQueueMem v).pmeFlows = d.pmeFlows := rfl
@[simp] theorem Device.setQueueMem_places (d : Device) (v : Tbl Grant) : (d.setQueueMem v).places = d.places := rfl
@[simp] theorem Device.setQueueMem_loaded (d : Device) (v : Tbl Grant) : (d.setQueueMem v).loaded = d.loaded := rfl
@[simp] theorem Device.setQueueMem_waveEpoch (d : Device) (v : Tbl Grant) : (d.setQueueMem v).waveEpoch = d.waveEpoch := rfl
@[simp] theorem Device.setQueueMem_tmQueues (d : Device) (v : Tbl Grant) : (d.setQueueMem v).tmQueues = d.tmQueues := rfl
@[simp] theorem Device.setQueueMem_tmPorts (d : Device) (v : Tbl Grant) : (d.setQueueMem v).tmPorts = d.tmPorts := rfl
@[simp] theorem Device.setQueueMem_policers (d : Device) (v : Tbl Grant) : (d.setQueueMem v).policers = d.policers := rfl
@[simp] theorem Device.setQueueMem_blocks (d : Device) (v : Tbl Grant) : (d.setQueueMem v).blocks = d.blocks := rfl
@[simp] theorem Device.setQueueMem_nvmes (d : Device) (v : Tbl Grant) : (d.setQueueMem v).nvmes = d.nvmes := rfl
@[simp] theorem Device.setQueueMem_nextNvme (d : Device) (v : Tbl Grant) : (d.setQueueMem v).nextNvme = d.nextNvme := rfl
@[simp] theorem Device.setQueueMem_stage (d : Device) (v : Tbl Grant) : (d.setQueueMem v).stage = d.stage := rfl
@[simp] theorem Device.setQueueMem_vaults (d : Device) (v : Tbl Grant) : (d.setQueueMem v).vaults = d.vaults := rfl
@[simp] theorem Device.setQueueMem_hostReads (d : Device) (v : Tbl Grant) : (d.setQueueMem v).hostReads = d.hostReads := rfl
@[simp] theorem Device.setQueueMem_link (d : Device) (v : Tbl Grant) : (d.setQueueMem v).link = d.link := rfl
@[simp] theorem Device.setQueueMem_nextFetch (d : Device) (v : Tbl Grant) : (d.setQueueMem v).nextFetch = d.nextFetch := rfl
@[simp] theorem Device.setQueueMem_xfers (d : Device) (v : Tbl Grant) : (d.setQueueMem v).xfers = d.xfers := rfl
@[simp] theorem Device.setQueueMem_queues (d : Device) (v : Tbl Grant) : (d.setQueueMem v).queues = d.queues := rfl
@[simp] theorem Device.setQueueMem_fetched (d : Device) (v : Tbl Grant) : (d.setQueueMem v).fetched = d.fetched := rfl
@[simp] theorem Device.setQueueMem_heldW (d : Device) (v : Tbl Grant) : (d.setQueueMem v).heldW = d.heldW := rfl
@[simp] theorem Device.setQueueMem_cores (d : Device) (v : Tbl Grant) : (d.setQueueMem v).cores = d.cores := rfl
@[simp] theorem Device.setQueueMem_fw (d : Device) (v : Tbl Grant) : (d.setQueueMem v).fw = d.fw := rfl
@[simp] theorem Device.setQueueMem_queueMem (d : Device) (v : Tbl Grant) : (d.setQueueMem v).queueMem = v := rfl
@[simp] theorem Device.setQueueMem_wlogs (d : Device) (v : Tbl Grant) : (d.setQueueMem v).wlogs = d.wlogs := rfl
@[simp] theorem Device.setQueueMem_stores (d : Device) (v : Tbl Grant) : (d.setQueueMem v).stores = d.stores := rfl
@[simp] theorem Device.setQueueMem_crew (d : Device) (v : Tbl Grant) : (d.setQueueMem v).crew = d.crew := rfl
@[simp] theorem Device.setQueueMem_belay (d : Device) (v : Tbl Grant) : (d.setQueueMem v).belay = d.belay := rfl
@[simp] theorem Device.setQueueMem_tel (d : Device) (v : Tbl Grant) : (d.setQueueMem v).tel = d.tel := rfl
@[simp] theorem Device.setQueueMem_pwr (d : Device) (v : Tbl Grant) : (d.setQueueMem v).pwr = d.pwr := rfl
@[simp] theorem Device.setWlogs_cfg (d : Device) (v : Tbl WLog) : (d.setWlogs v).cfg = d.cfg := rfl
@[simp] theorem Device.setWlogs_clk (d : Device) (v : Tbl WLog) : (d.setWlogs v).clk = d.clk := rfl
@[simp] theorem Device.setWlogs_reg (d : Device) (v : Tbl WLog) : (d.setWlogs v).reg = d.reg := rfl
@[simp] theorem Device.setWlogs_rings (d : Device) (v : Tbl WLog) : (d.setWlogs v).rings = d.rings := rfl
@[simp] theorem Device.setWlogs_out (d : Device) (v : Tbl WLog) : (d.setWlogs v).out = d.out := rfl
@[simp] theorem Device.setWlogs_wr (d : Device) (v : Tbl WLog) : (d.setWlogs v).wr = d.wr := rfl
@[simp] theorem Device.setWlogs_poison (d : Device) (v : Tbl WLog) : (d.setWlogs v).poison = d.poison := rfl
@[simp] theorem Device.setWlogs_msix (d : Device) (v : Tbl WLog) : (d.setWlogs v).msix = d.msix := rfl
@[simp] theorem Device.setWlogs_hold (d : Device) (v : Tbl WLog) : (d.setWlogs v).hold = d.hold := rfl
@[simp] theorem Device.setWlogs_wave (d : Device) (v : Tbl WLog) : (d.setWlogs v).wave = d.wave := rfl
@[simp] theorem Device.setWlogs_mbr (d : Device) (v : Tbl WLog) : (d.setWlogs v).mbr = d.mbr := rfl
@[simp] theorem Device.setWlogs_corrs (d : Device) (v : Tbl WLog) : (d.setWlogs v).corrs = d.corrs := rfl
@[simp] theorem Device.setWlogs_d2dReplays (d : Device) (v : Tbl WLog) : (d.setWlogs v).d2dReplays = d.d2dReplays := rfl
@[simp] theorem Device.setWlogs_tiles (d : Device) (v : Tbl WLog) : (d.setWlogs v).tiles = d.tiles := rfl
@[simp] theorem Device.setWlogs_mesh (d : Device) (v : Tbl WLog) : (d.setWlogs v).mesh = d.mesh := rfl
@[simp] theorem Device.setWlogs_tokHold (d : Device) (v : Tbl WLog) : (d.setWlogs v).tokHold = d.tokHold := rfl
@[simp] theorem Device.setWlogs_ropes (d : Device) (v : Tbl WLog) : (d.setWlogs v).ropes = d.ropes := rfl
@[simp] theorem Device.setWlogs_ropeMoved (d : Device) (v : Tbl WLog) : (d.setWlogs v).ropeMoved = d.ropeMoved := rfl
@[simp] theorem Device.setWlogs_flows (d : Device) (v : Tbl WLog) : (d.setWlogs v).flows = d.flows := rfl
@[simp] theorem Device.setWlogs_tapQ (d : Device) (v : Tbl WLog) : (d.setWlogs v).tapQ = d.tapQ := rfl
@[simp] theorem Device.setWlogs_nextFlow (d : Device) (v : Tbl WLog) : (d.setWlogs v).nextFlow = d.nextFlow := rfl
@[simp] theorem Device.setWlogs_parts (d : Device) (v : Tbl WLog) : (d.setWlogs v).parts = d.parts := rfl
@[simp] theorem Device.setWlogs_ceLog (d : Device) (v : Tbl WLog) : (d.setWlogs v).ceLog = d.ceLog := rfl
@[simp] theorem Device.setWlogs_ddrUndef (d : Device) (v : Tbl WLog) : (d.setWlogs v).ddrUndef = d.ddrUndef := rfl
@[simp] theorem Device.setWlogs_conns (d : Device) (v : Tbl WLog) : (d.setWlogs v).conns = d.conns := rfl
@[simp] theorem Device.setWlogs_gft (d : Device) (v : Tbl WLog) : (d.setWlogs v).gft = d.gft := rfl
@[simp] theorem Device.setWlogs_groups (d : Device) (v : Tbl WLog) : (d.setWlogs v).groups = d.groups := rfl
@[simp] theorem Device.setWlogs_tmWait (d : Device) (v : Tbl WLog) : (d.setWlogs v).tmWait = d.tmWait := rfl
@[simp] theorem Device.setWlogs_fecBad (d : Device) (v : Tbl WLog) : (d.setWlogs v).fecBad = d.fecBad := rfl
@[simp] theorem Device.setWlogs_keyTime (d : Device) (v : Tbl WLog) : (d.setWlogs v).keyTime = d.keyTime := rfl
@[simp] theorem Device.setWlogs_pipeIn (d : Device) (v : Tbl WLog) : (d.setWlogs v).pipeIn = d.pipeIn := rfl
@[simp] theorem Device.setWlogs_pipes (d : Device) (v : Tbl WLog) : (d.setWlogs v).pipes = d.pipes := rfl
@[simp] theorem Device.setWlogs_clsSlots (d : Device) (v : Tbl WLog) : (d.setWlogs v).clsSlots = d.clsSlots := rfl
@[simp] theorem Device.setWlogs_flowCnts (d : Device) (v : Tbl WLog) : (d.setWlogs v).flowCnts = d.flowCnts := rfl
@[simp] theorem Device.setWlogs_pmeFlows (d : Device) (v : Tbl WLog) : (d.setWlogs v).pmeFlows = d.pmeFlows := rfl
@[simp] theorem Device.setWlogs_places (d : Device) (v : Tbl WLog) : (d.setWlogs v).places = d.places := rfl
@[simp] theorem Device.setWlogs_loaded (d : Device) (v : Tbl WLog) : (d.setWlogs v).loaded = d.loaded := rfl
@[simp] theorem Device.setWlogs_waveEpoch (d : Device) (v : Tbl WLog) : (d.setWlogs v).waveEpoch = d.waveEpoch := rfl
@[simp] theorem Device.setWlogs_tmQueues (d : Device) (v : Tbl WLog) : (d.setWlogs v).tmQueues = d.tmQueues := rfl
@[simp] theorem Device.setWlogs_tmPorts (d : Device) (v : Tbl WLog) : (d.setWlogs v).tmPorts = d.tmPorts := rfl
@[simp] theorem Device.setWlogs_policers (d : Device) (v : Tbl WLog) : (d.setWlogs v).policers = d.policers := rfl
@[simp] theorem Device.setWlogs_blocks (d : Device) (v : Tbl WLog) : (d.setWlogs v).blocks = d.blocks := rfl
@[simp] theorem Device.setWlogs_nvmes (d : Device) (v : Tbl WLog) : (d.setWlogs v).nvmes = d.nvmes := rfl
@[simp] theorem Device.setWlogs_nextNvme (d : Device) (v : Tbl WLog) : (d.setWlogs v).nextNvme = d.nextNvme := rfl
@[simp] theorem Device.setWlogs_stage (d : Device) (v : Tbl WLog) : (d.setWlogs v).stage = d.stage := rfl
@[simp] theorem Device.setWlogs_vaults (d : Device) (v : Tbl WLog) : (d.setWlogs v).vaults = d.vaults := rfl
@[simp] theorem Device.setWlogs_hostReads (d : Device) (v : Tbl WLog) : (d.setWlogs v).hostReads = d.hostReads := rfl
@[simp] theorem Device.setWlogs_link (d : Device) (v : Tbl WLog) : (d.setWlogs v).link = d.link := rfl
@[simp] theorem Device.setWlogs_nextFetch (d : Device) (v : Tbl WLog) : (d.setWlogs v).nextFetch = d.nextFetch := rfl
@[simp] theorem Device.setWlogs_xfers (d : Device) (v : Tbl WLog) : (d.setWlogs v).xfers = d.xfers := rfl
@[simp] theorem Device.setWlogs_queues (d : Device) (v : Tbl WLog) : (d.setWlogs v).queues = d.queues := rfl
@[simp] theorem Device.setWlogs_fetched (d : Device) (v : Tbl WLog) : (d.setWlogs v).fetched = d.fetched := rfl
@[simp] theorem Device.setWlogs_heldW (d : Device) (v : Tbl WLog) : (d.setWlogs v).heldW = d.heldW := rfl
@[simp] theorem Device.setWlogs_cores (d : Device) (v : Tbl WLog) : (d.setWlogs v).cores = d.cores := rfl
@[simp] theorem Device.setWlogs_fw (d : Device) (v : Tbl WLog) : (d.setWlogs v).fw = d.fw := rfl
@[simp] theorem Device.setWlogs_queueMem (d : Device) (v : Tbl WLog) : (d.setWlogs v).queueMem = d.queueMem := rfl
@[simp] theorem Device.setWlogs_wlogs (d : Device) (v : Tbl WLog) : (d.setWlogs v).wlogs = v := rfl
@[simp] theorem Device.setWlogs_stores (d : Device) (v : Tbl WLog) : (d.setWlogs v).stores = d.stores := rfl
@[simp] theorem Device.setWlogs_crew (d : Device) (v : Tbl WLog) : (d.setWlogs v).crew = d.crew := rfl
@[simp] theorem Device.setWlogs_belay (d : Device) (v : Tbl WLog) : (d.setWlogs v).belay = d.belay := rfl
@[simp] theorem Device.setWlogs_tel (d : Device) (v : Tbl WLog) : (d.setWlogs v).tel = d.tel := rfl
@[simp] theorem Device.setWlogs_pwr (d : Device) (v : Tbl WLog) : (d.setWlogs v).pwr = d.pwr := rfl
@[simp] theorem Device.setStores_cfg (d : Device) (v : Tbl StoreSt) : (d.setStores v).cfg = d.cfg := rfl
@[simp] theorem Device.setStores_clk (d : Device) (v : Tbl StoreSt) : (d.setStores v).clk = d.clk := rfl
@[simp] theorem Device.setStores_reg (d : Device) (v : Tbl StoreSt) : (d.setStores v).reg = d.reg := rfl
@[simp] theorem Device.setStores_rings (d : Device) (v : Tbl StoreSt) : (d.setStores v).rings = d.rings := rfl
@[simp] theorem Device.setStores_out (d : Device) (v : Tbl StoreSt) : (d.setStores v).out = d.out := rfl
@[simp] theorem Device.setStores_wr (d : Device) (v : Tbl StoreSt) : (d.setStores v).wr = d.wr := rfl
@[simp] theorem Device.setStores_poison (d : Device) (v : Tbl StoreSt) : (d.setStores v).poison = d.poison := rfl
@[simp] theorem Device.setStores_msix (d : Device) (v : Tbl StoreSt) : (d.setStores v).msix = d.msix := rfl
@[simp] theorem Device.setStores_hold (d : Device) (v : Tbl StoreSt) : (d.setStores v).hold = d.hold := rfl
@[simp] theorem Device.setStores_wave (d : Device) (v : Tbl StoreSt) : (d.setStores v).wave = d.wave := rfl
@[simp] theorem Device.setStores_mbr (d : Device) (v : Tbl StoreSt) : (d.setStores v).mbr = d.mbr := rfl
@[simp] theorem Device.setStores_corrs (d : Device) (v : Tbl StoreSt) : (d.setStores v).corrs = d.corrs := rfl
@[simp] theorem Device.setStores_d2dReplays (d : Device) (v : Tbl StoreSt) : (d.setStores v).d2dReplays = d.d2dReplays := rfl
@[simp] theorem Device.setStores_tiles (d : Device) (v : Tbl StoreSt) : (d.setStores v).tiles = d.tiles := rfl
@[simp] theorem Device.setStores_mesh (d : Device) (v : Tbl StoreSt) : (d.setStores v).mesh = d.mesh := rfl
@[simp] theorem Device.setStores_tokHold (d : Device) (v : Tbl StoreSt) : (d.setStores v).tokHold = d.tokHold := rfl
@[simp] theorem Device.setStores_ropes (d : Device) (v : Tbl StoreSt) : (d.setStores v).ropes = d.ropes := rfl
@[simp] theorem Device.setStores_ropeMoved (d : Device) (v : Tbl StoreSt) : (d.setStores v).ropeMoved = d.ropeMoved := rfl
@[simp] theorem Device.setStores_flows (d : Device) (v : Tbl StoreSt) : (d.setStores v).flows = d.flows := rfl
@[simp] theorem Device.setStores_tapQ (d : Device) (v : Tbl StoreSt) : (d.setStores v).tapQ = d.tapQ := rfl
@[simp] theorem Device.setStores_nextFlow (d : Device) (v : Tbl StoreSt) : (d.setStores v).nextFlow = d.nextFlow := rfl
@[simp] theorem Device.setStores_parts (d : Device) (v : Tbl StoreSt) : (d.setStores v).parts = d.parts := rfl
@[simp] theorem Device.setStores_ceLog (d : Device) (v : Tbl StoreSt) : (d.setStores v).ceLog = d.ceLog := rfl
@[simp] theorem Device.setStores_ddrUndef (d : Device) (v : Tbl StoreSt) : (d.setStores v).ddrUndef = d.ddrUndef := rfl
@[simp] theorem Device.setStores_conns (d : Device) (v : Tbl StoreSt) : (d.setStores v).conns = d.conns := rfl
@[simp] theorem Device.setStores_gft (d : Device) (v : Tbl StoreSt) : (d.setStores v).gft = d.gft := rfl
@[simp] theorem Device.setStores_groups (d : Device) (v : Tbl StoreSt) : (d.setStores v).groups = d.groups := rfl
@[simp] theorem Device.setStores_tmWait (d : Device) (v : Tbl StoreSt) : (d.setStores v).tmWait = d.tmWait := rfl
@[simp] theorem Device.setStores_fecBad (d : Device) (v : Tbl StoreSt) : (d.setStores v).fecBad = d.fecBad := rfl
@[simp] theorem Device.setStores_keyTime (d : Device) (v : Tbl StoreSt) : (d.setStores v).keyTime = d.keyTime := rfl
@[simp] theorem Device.setStores_pipeIn (d : Device) (v : Tbl StoreSt) : (d.setStores v).pipeIn = d.pipeIn := rfl
@[simp] theorem Device.setStores_pipes (d : Device) (v : Tbl StoreSt) : (d.setStores v).pipes = d.pipes := rfl
@[simp] theorem Device.setStores_clsSlots (d : Device) (v : Tbl StoreSt) : (d.setStores v).clsSlots = d.clsSlots := rfl
@[simp] theorem Device.setStores_flowCnts (d : Device) (v : Tbl StoreSt) : (d.setStores v).flowCnts = d.flowCnts := rfl
@[simp] theorem Device.setStores_pmeFlows (d : Device) (v : Tbl StoreSt) : (d.setStores v).pmeFlows = d.pmeFlows := rfl
@[simp] theorem Device.setStores_places (d : Device) (v : Tbl StoreSt) : (d.setStores v).places = d.places := rfl
@[simp] theorem Device.setStores_loaded (d : Device) (v : Tbl StoreSt) : (d.setStores v).loaded = d.loaded := rfl
@[simp] theorem Device.setStores_waveEpoch (d : Device) (v : Tbl StoreSt) : (d.setStores v).waveEpoch = d.waveEpoch := rfl
@[simp] theorem Device.setStores_tmQueues (d : Device) (v : Tbl StoreSt) : (d.setStores v).tmQueues = d.tmQueues := rfl
@[simp] theorem Device.setStores_tmPorts (d : Device) (v : Tbl StoreSt) : (d.setStores v).tmPorts = d.tmPorts := rfl
@[simp] theorem Device.setStores_policers (d : Device) (v : Tbl StoreSt) : (d.setStores v).policers = d.policers := rfl
@[simp] theorem Device.setStores_blocks (d : Device) (v : Tbl StoreSt) : (d.setStores v).blocks = d.blocks := rfl
@[simp] theorem Device.setStores_nvmes (d : Device) (v : Tbl StoreSt) : (d.setStores v).nvmes = d.nvmes := rfl
@[simp] theorem Device.setStores_nextNvme (d : Device) (v : Tbl StoreSt) : (d.setStores v).nextNvme = d.nextNvme := rfl
@[simp] theorem Device.setStores_stage (d : Device) (v : Tbl StoreSt) : (d.setStores v).stage = d.stage := rfl
@[simp] theorem Device.setStores_vaults (d : Device) (v : Tbl StoreSt) : (d.setStores v).vaults = d.vaults := rfl
@[simp] theorem Device.setStores_hostReads (d : Device) (v : Tbl StoreSt) : (d.setStores v).hostReads = d.hostReads := rfl
@[simp] theorem Device.setStores_link (d : Device) (v : Tbl StoreSt) : (d.setStores v).link = d.link := rfl
@[simp] theorem Device.setStores_nextFetch (d : Device) (v : Tbl StoreSt) : (d.setStores v).nextFetch = d.nextFetch := rfl
@[simp] theorem Device.setStores_xfers (d : Device) (v : Tbl StoreSt) : (d.setStores v).xfers = d.xfers := rfl
@[simp] theorem Device.setStores_queues (d : Device) (v : Tbl StoreSt) : (d.setStores v).queues = d.queues := rfl
@[simp] theorem Device.setStores_fetched (d : Device) (v : Tbl StoreSt) : (d.setStores v).fetched = d.fetched := rfl
@[simp] theorem Device.setStores_heldW (d : Device) (v : Tbl StoreSt) : (d.setStores v).heldW = d.heldW := rfl
@[simp] theorem Device.setStores_cores (d : Device) (v : Tbl StoreSt) : (d.setStores v).cores = d.cores := rfl
@[simp] theorem Device.setStores_fw (d : Device) (v : Tbl StoreSt) : (d.setStores v).fw = d.fw := rfl
@[simp] theorem Device.setStores_queueMem (d : Device) (v : Tbl StoreSt) : (d.setStores v).queueMem = d.queueMem := rfl
@[simp] theorem Device.setStores_wlogs (d : Device) (v : Tbl StoreSt) : (d.setStores v).wlogs = d.wlogs := rfl
@[simp] theorem Device.setStores_stores (d : Device) (v : Tbl StoreSt) : (d.setStores v).stores = v := rfl
@[simp] theorem Device.setStores_crew (d : Device) (v : Tbl StoreSt) : (d.setStores v).crew = d.crew := rfl
@[simp] theorem Device.setStores_belay (d : Device) (v : Tbl StoreSt) : (d.setStores v).belay = d.belay := rfl
@[simp] theorem Device.setStores_tel (d : Device) (v : Tbl StoreSt) : (d.setStores v).tel = d.tel := rfl
@[simp] theorem Device.setStores_pwr (d : Device) (v : Tbl StoreSt) : (d.setStores v).pwr = d.pwr := rfl
@[simp] theorem Device.setCrew_cfg (d : Device) (v : CrewSt) : (d.setCrew v).cfg = d.cfg := rfl
@[simp] theorem Device.setCrew_clk (d : Device) (v : CrewSt) : (d.setCrew v).clk = d.clk := rfl
@[simp] theorem Device.setCrew_reg (d : Device) (v : CrewSt) : (d.setCrew v).reg = d.reg := rfl
@[simp] theorem Device.setCrew_rings (d : Device) (v : CrewSt) : (d.setCrew v).rings = d.rings := rfl
@[simp] theorem Device.setCrew_out (d : Device) (v : CrewSt) : (d.setCrew v).out = d.out := rfl
@[simp] theorem Device.setCrew_wr (d : Device) (v : CrewSt) : (d.setCrew v).wr = d.wr := rfl
@[simp] theorem Device.setCrew_poison (d : Device) (v : CrewSt) : (d.setCrew v).poison = d.poison := rfl
@[simp] theorem Device.setCrew_msix (d : Device) (v : CrewSt) : (d.setCrew v).msix = d.msix := rfl
@[simp] theorem Device.setCrew_hold (d : Device) (v : CrewSt) : (d.setCrew v).hold = d.hold := rfl
@[simp] theorem Device.setCrew_wave (d : Device) (v : CrewSt) : (d.setCrew v).wave = d.wave := rfl
@[simp] theorem Device.setCrew_mbr (d : Device) (v : CrewSt) : (d.setCrew v).mbr = d.mbr := rfl
@[simp] theorem Device.setCrew_corrs (d : Device) (v : CrewSt) : (d.setCrew v).corrs = d.corrs := rfl
@[simp] theorem Device.setCrew_d2dReplays (d : Device) (v : CrewSt) : (d.setCrew v).d2dReplays = d.d2dReplays := rfl
@[simp] theorem Device.setCrew_tiles (d : Device) (v : CrewSt) : (d.setCrew v).tiles = d.tiles := rfl
@[simp] theorem Device.setCrew_mesh (d : Device) (v : CrewSt) : (d.setCrew v).mesh = d.mesh := rfl
@[simp] theorem Device.setCrew_tokHold (d : Device) (v : CrewSt) : (d.setCrew v).tokHold = d.tokHold := rfl
@[simp] theorem Device.setCrew_ropes (d : Device) (v : CrewSt) : (d.setCrew v).ropes = d.ropes := rfl
@[simp] theorem Device.setCrew_ropeMoved (d : Device) (v : CrewSt) : (d.setCrew v).ropeMoved = d.ropeMoved := rfl
@[simp] theorem Device.setCrew_flows (d : Device) (v : CrewSt) : (d.setCrew v).flows = d.flows := rfl
@[simp] theorem Device.setCrew_tapQ (d : Device) (v : CrewSt) : (d.setCrew v).tapQ = d.tapQ := rfl
@[simp] theorem Device.setCrew_nextFlow (d : Device) (v : CrewSt) : (d.setCrew v).nextFlow = d.nextFlow := rfl
@[simp] theorem Device.setCrew_parts (d : Device) (v : CrewSt) : (d.setCrew v).parts = d.parts := rfl
@[simp] theorem Device.setCrew_ceLog (d : Device) (v : CrewSt) : (d.setCrew v).ceLog = d.ceLog := rfl
@[simp] theorem Device.setCrew_ddrUndef (d : Device) (v : CrewSt) : (d.setCrew v).ddrUndef = d.ddrUndef := rfl
@[simp] theorem Device.setCrew_conns (d : Device) (v : CrewSt) : (d.setCrew v).conns = d.conns := rfl
@[simp] theorem Device.setCrew_gft (d : Device) (v : CrewSt) : (d.setCrew v).gft = d.gft := rfl
@[simp] theorem Device.setCrew_groups (d : Device) (v : CrewSt) : (d.setCrew v).groups = d.groups := rfl
@[simp] theorem Device.setCrew_tmWait (d : Device) (v : CrewSt) : (d.setCrew v).tmWait = d.tmWait := rfl
@[simp] theorem Device.setCrew_fecBad (d : Device) (v : CrewSt) : (d.setCrew v).fecBad = d.fecBad := rfl
@[simp] theorem Device.setCrew_keyTime (d : Device) (v : CrewSt) : (d.setCrew v).keyTime = d.keyTime := rfl
@[simp] theorem Device.setCrew_pipeIn (d : Device) (v : CrewSt) : (d.setCrew v).pipeIn = d.pipeIn := rfl
@[simp] theorem Device.setCrew_pipes (d : Device) (v : CrewSt) : (d.setCrew v).pipes = d.pipes := rfl
@[simp] theorem Device.setCrew_clsSlots (d : Device) (v : CrewSt) : (d.setCrew v).clsSlots = d.clsSlots := rfl
@[simp] theorem Device.setCrew_flowCnts (d : Device) (v : CrewSt) : (d.setCrew v).flowCnts = d.flowCnts := rfl
@[simp] theorem Device.setCrew_pmeFlows (d : Device) (v : CrewSt) : (d.setCrew v).pmeFlows = d.pmeFlows := rfl
@[simp] theorem Device.setCrew_places (d : Device) (v : CrewSt) : (d.setCrew v).places = d.places := rfl
@[simp] theorem Device.setCrew_loaded (d : Device) (v : CrewSt) : (d.setCrew v).loaded = d.loaded := rfl
@[simp] theorem Device.setCrew_waveEpoch (d : Device) (v : CrewSt) : (d.setCrew v).waveEpoch = d.waveEpoch := rfl
@[simp] theorem Device.setCrew_tmQueues (d : Device) (v : CrewSt) : (d.setCrew v).tmQueues = d.tmQueues := rfl
@[simp] theorem Device.setCrew_tmPorts (d : Device) (v : CrewSt) : (d.setCrew v).tmPorts = d.tmPorts := rfl
@[simp] theorem Device.setCrew_policers (d : Device) (v : CrewSt) : (d.setCrew v).policers = d.policers := rfl
@[simp] theorem Device.setCrew_blocks (d : Device) (v : CrewSt) : (d.setCrew v).blocks = d.blocks := rfl
@[simp] theorem Device.setCrew_nvmes (d : Device) (v : CrewSt) : (d.setCrew v).nvmes = d.nvmes := rfl
@[simp] theorem Device.setCrew_nextNvme (d : Device) (v : CrewSt) : (d.setCrew v).nextNvme = d.nextNvme := rfl
@[simp] theorem Device.setCrew_stage (d : Device) (v : CrewSt) : (d.setCrew v).stage = d.stage := rfl
@[simp] theorem Device.setCrew_vaults (d : Device) (v : CrewSt) : (d.setCrew v).vaults = d.vaults := rfl
@[simp] theorem Device.setCrew_hostReads (d : Device) (v : CrewSt) : (d.setCrew v).hostReads = d.hostReads := rfl
@[simp] theorem Device.setCrew_link (d : Device) (v : CrewSt) : (d.setCrew v).link = d.link := rfl
@[simp] theorem Device.setCrew_nextFetch (d : Device) (v : CrewSt) : (d.setCrew v).nextFetch = d.nextFetch := rfl
@[simp] theorem Device.setCrew_xfers (d : Device) (v : CrewSt) : (d.setCrew v).xfers = d.xfers := rfl
@[simp] theorem Device.setCrew_queues (d : Device) (v : CrewSt) : (d.setCrew v).queues = d.queues := rfl
@[simp] theorem Device.setCrew_fetched (d : Device) (v : CrewSt) : (d.setCrew v).fetched = d.fetched := rfl
@[simp] theorem Device.setCrew_heldW (d : Device) (v : CrewSt) : (d.setCrew v).heldW = d.heldW := rfl
@[simp] theorem Device.setCrew_cores (d : Device) (v : CrewSt) : (d.setCrew v).cores = d.cores := rfl
@[simp] theorem Device.setCrew_fw (d : Device) (v : CrewSt) : (d.setCrew v).fw = d.fw := rfl
@[simp] theorem Device.setCrew_queueMem (d : Device) (v : CrewSt) : (d.setCrew v).queueMem = d.queueMem := rfl
@[simp] theorem Device.setCrew_wlogs (d : Device) (v : CrewSt) : (d.setCrew v).wlogs = d.wlogs := rfl
@[simp] theorem Device.setCrew_stores (d : Device) (v : CrewSt) : (d.setCrew v).stores = d.stores := rfl
@[simp] theorem Device.setCrew_crew (d : Device) (v : CrewSt) : (d.setCrew v).crew = v := rfl
@[simp] theorem Device.setCrew_belay (d : Device) (v : CrewSt) : (d.setCrew v).belay = d.belay := rfl
@[simp] theorem Device.setCrew_tel (d : Device) (v : CrewSt) : (d.setCrew v).tel = d.tel := rfl
@[simp] theorem Device.setCrew_pwr (d : Device) (v : CrewSt) : (d.setCrew v).pwr = d.pwr := rfl
@[simp] theorem Device.setBelay_cfg (d : Device) (v : BelaySt) : (d.setBelay v).cfg = d.cfg := rfl
@[simp] theorem Device.setBelay_clk (d : Device) (v : BelaySt) : (d.setBelay v).clk = d.clk := rfl
@[simp] theorem Device.setBelay_reg (d : Device) (v : BelaySt) : (d.setBelay v).reg = d.reg := rfl
@[simp] theorem Device.setBelay_rings (d : Device) (v : BelaySt) : (d.setBelay v).rings = d.rings := rfl
@[simp] theorem Device.setBelay_out (d : Device) (v : BelaySt) : (d.setBelay v).out = d.out := rfl
@[simp] theorem Device.setBelay_wr (d : Device) (v : BelaySt) : (d.setBelay v).wr = d.wr := rfl
@[simp] theorem Device.setBelay_poison (d : Device) (v : BelaySt) : (d.setBelay v).poison = d.poison := rfl
@[simp] theorem Device.setBelay_msix (d : Device) (v : BelaySt) : (d.setBelay v).msix = d.msix := rfl
@[simp] theorem Device.setBelay_hold (d : Device) (v : BelaySt) : (d.setBelay v).hold = d.hold := rfl
@[simp] theorem Device.setBelay_wave (d : Device) (v : BelaySt) : (d.setBelay v).wave = d.wave := rfl
@[simp] theorem Device.setBelay_mbr (d : Device) (v : BelaySt) : (d.setBelay v).mbr = d.mbr := rfl
@[simp] theorem Device.setBelay_corrs (d : Device) (v : BelaySt) : (d.setBelay v).corrs = d.corrs := rfl
@[simp] theorem Device.setBelay_d2dReplays (d : Device) (v : BelaySt) : (d.setBelay v).d2dReplays = d.d2dReplays := rfl
@[simp] theorem Device.setBelay_tiles (d : Device) (v : BelaySt) : (d.setBelay v).tiles = d.tiles := rfl
@[simp] theorem Device.setBelay_mesh (d : Device) (v : BelaySt) : (d.setBelay v).mesh = d.mesh := rfl
@[simp] theorem Device.setBelay_tokHold (d : Device) (v : BelaySt) : (d.setBelay v).tokHold = d.tokHold := rfl
@[simp] theorem Device.setBelay_ropes (d : Device) (v : BelaySt) : (d.setBelay v).ropes = d.ropes := rfl
@[simp] theorem Device.setBelay_ropeMoved (d : Device) (v : BelaySt) : (d.setBelay v).ropeMoved = d.ropeMoved := rfl
@[simp] theorem Device.setBelay_flows (d : Device) (v : BelaySt) : (d.setBelay v).flows = d.flows := rfl
@[simp] theorem Device.setBelay_tapQ (d : Device) (v : BelaySt) : (d.setBelay v).tapQ = d.tapQ := rfl
@[simp] theorem Device.setBelay_nextFlow (d : Device) (v : BelaySt) : (d.setBelay v).nextFlow = d.nextFlow := rfl
@[simp] theorem Device.setBelay_parts (d : Device) (v : BelaySt) : (d.setBelay v).parts = d.parts := rfl
@[simp] theorem Device.setBelay_ceLog (d : Device) (v : BelaySt) : (d.setBelay v).ceLog = d.ceLog := rfl
@[simp] theorem Device.setBelay_ddrUndef (d : Device) (v : BelaySt) : (d.setBelay v).ddrUndef = d.ddrUndef := rfl
@[simp] theorem Device.setBelay_conns (d : Device) (v : BelaySt) : (d.setBelay v).conns = d.conns := rfl
@[simp] theorem Device.setBelay_gft (d : Device) (v : BelaySt) : (d.setBelay v).gft = d.gft := rfl
@[simp] theorem Device.setBelay_groups (d : Device) (v : BelaySt) : (d.setBelay v).groups = d.groups := rfl
@[simp] theorem Device.setBelay_tmWait (d : Device) (v : BelaySt) : (d.setBelay v).tmWait = d.tmWait := rfl
@[simp] theorem Device.setBelay_fecBad (d : Device) (v : BelaySt) : (d.setBelay v).fecBad = d.fecBad := rfl
@[simp] theorem Device.setBelay_keyTime (d : Device) (v : BelaySt) : (d.setBelay v).keyTime = d.keyTime := rfl
@[simp] theorem Device.setBelay_pipeIn (d : Device) (v : BelaySt) : (d.setBelay v).pipeIn = d.pipeIn := rfl
@[simp] theorem Device.setBelay_pipes (d : Device) (v : BelaySt) : (d.setBelay v).pipes = d.pipes := rfl
@[simp] theorem Device.setBelay_clsSlots (d : Device) (v : BelaySt) : (d.setBelay v).clsSlots = d.clsSlots := rfl
@[simp] theorem Device.setBelay_flowCnts (d : Device) (v : BelaySt) : (d.setBelay v).flowCnts = d.flowCnts := rfl
@[simp] theorem Device.setBelay_pmeFlows (d : Device) (v : BelaySt) : (d.setBelay v).pmeFlows = d.pmeFlows := rfl
@[simp] theorem Device.setBelay_places (d : Device) (v : BelaySt) : (d.setBelay v).places = d.places := rfl
@[simp] theorem Device.setBelay_loaded (d : Device) (v : BelaySt) : (d.setBelay v).loaded = d.loaded := rfl
@[simp] theorem Device.setBelay_waveEpoch (d : Device) (v : BelaySt) : (d.setBelay v).waveEpoch = d.waveEpoch := rfl
@[simp] theorem Device.setBelay_tmQueues (d : Device) (v : BelaySt) : (d.setBelay v).tmQueues = d.tmQueues := rfl
@[simp] theorem Device.setBelay_tmPorts (d : Device) (v : BelaySt) : (d.setBelay v).tmPorts = d.tmPorts := rfl
@[simp] theorem Device.setBelay_policers (d : Device) (v : BelaySt) : (d.setBelay v).policers = d.policers := rfl
@[simp] theorem Device.setBelay_blocks (d : Device) (v : BelaySt) : (d.setBelay v).blocks = d.blocks := rfl
@[simp] theorem Device.setBelay_nvmes (d : Device) (v : BelaySt) : (d.setBelay v).nvmes = d.nvmes := rfl
@[simp] theorem Device.setBelay_nextNvme (d : Device) (v : BelaySt) : (d.setBelay v).nextNvme = d.nextNvme := rfl
@[simp] theorem Device.setBelay_stage (d : Device) (v : BelaySt) : (d.setBelay v).stage = d.stage := rfl
@[simp] theorem Device.setBelay_vaults (d : Device) (v : BelaySt) : (d.setBelay v).vaults = d.vaults := rfl
@[simp] theorem Device.setBelay_hostReads (d : Device) (v : BelaySt) : (d.setBelay v).hostReads = d.hostReads := rfl
@[simp] theorem Device.setBelay_link (d : Device) (v : BelaySt) : (d.setBelay v).link = d.link := rfl
@[simp] theorem Device.setBelay_nextFetch (d : Device) (v : BelaySt) : (d.setBelay v).nextFetch = d.nextFetch := rfl
@[simp] theorem Device.setBelay_xfers (d : Device) (v : BelaySt) : (d.setBelay v).xfers = d.xfers := rfl
@[simp] theorem Device.setBelay_queues (d : Device) (v : BelaySt) : (d.setBelay v).queues = d.queues := rfl
@[simp] theorem Device.setBelay_fetched (d : Device) (v : BelaySt) : (d.setBelay v).fetched = d.fetched := rfl
@[simp] theorem Device.setBelay_heldW (d : Device) (v : BelaySt) : (d.setBelay v).heldW = d.heldW := rfl
@[simp] theorem Device.setBelay_cores (d : Device) (v : BelaySt) : (d.setBelay v).cores = d.cores := rfl
@[simp] theorem Device.setBelay_fw (d : Device) (v : BelaySt) : (d.setBelay v).fw = d.fw := rfl
@[simp] theorem Device.setBelay_queueMem (d : Device) (v : BelaySt) : (d.setBelay v).queueMem = d.queueMem := rfl
@[simp] theorem Device.setBelay_wlogs (d : Device) (v : BelaySt) : (d.setBelay v).wlogs = d.wlogs := rfl
@[simp] theorem Device.setBelay_stores (d : Device) (v : BelaySt) : (d.setBelay v).stores = d.stores := rfl
@[simp] theorem Device.setBelay_crew (d : Device) (v : BelaySt) : (d.setBelay v).crew = d.crew := rfl
@[simp] theorem Device.setBelay_belay (d : Device) (v : BelaySt) : (d.setBelay v).belay = v := rfl
@[simp] theorem Device.setBelay_tel (d : Device) (v : BelaySt) : (d.setBelay v).tel = d.tel := rfl
@[simp] theorem Device.setBelay_pwr (d : Device) (v : BelaySt) : (d.setBelay v).pwr = d.pwr := rfl
@[simp] theorem Device.setTel_cfg (d : Device) (v : TelSt) : (d.setTel v).cfg = d.cfg := rfl
@[simp] theorem Device.setTel_clk (d : Device) (v : TelSt) : (d.setTel v).clk = d.clk := rfl
@[simp] theorem Device.setTel_reg (d : Device) (v : TelSt) : (d.setTel v).reg = d.reg := rfl
@[simp] theorem Device.setTel_rings (d : Device) (v : TelSt) : (d.setTel v).rings = d.rings := rfl
@[simp] theorem Device.setTel_out (d : Device) (v : TelSt) : (d.setTel v).out = d.out := rfl
@[simp] theorem Device.setTel_wr (d : Device) (v : TelSt) : (d.setTel v).wr = d.wr := rfl
@[simp] theorem Device.setTel_poison (d : Device) (v : TelSt) : (d.setTel v).poison = d.poison := rfl
@[simp] theorem Device.setTel_msix (d : Device) (v : TelSt) : (d.setTel v).msix = d.msix := rfl
@[simp] theorem Device.setTel_hold (d : Device) (v : TelSt) : (d.setTel v).hold = d.hold := rfl
@[simp] theorem Device.setTel_wave (d : Device) (v : TelSt) : (d.setTel v).wave = d.wave := rfl
@[simp] theorem Device.setTel_mbr (d : Device) (v : TelSt) : (d.setTel v).mbr = d.mbr := rfl
@[simp] theorem Device.setTel_corrs (d : Device) (v : TelSt) : (d.setTel v).corrs = d.corrs := rfl
@[simp] theorem Device.setTel_d2dReplays (d : Device) (v : TelSt) : (d.setTel v).d2dReplays = d.d2dReplays := rfl
@[simp] theorem Device.setTel_tiles (d : Device) (v : TelSt) : (d.setTel v).tiles = d.tiles := rfl
@[simp] theorem Device.setTel_mesh (d : Device) (v : TelSt) : (d.setTel v).mesh = d.mesh := rfl
@[simp] theorem Device.setTel_tokHold (d : Device) (v : TelSt) : (d.setTel v).tokHold = d.tokHold := rfl
@[simp] theorem Device.setTel_ropes (d : Device) (v : TelSt) : (d.setTel v).ropes = d.ropes := rfl
@[simp] theorem Device.setTel_ropeMoved (d : Device) (v : TelSt) : (d.setTel v).ropeMoved = d.ropeMoved := rfl
@[simp] theorem Device.setTel_flows (d : Device) (v : TelSt) : (d.setTel v).flows = d.flows := rfl
@[simp] theorem Device.setTel_tapQ (d : Device) (v : TelSt) : (d.setTel v).tapQ = d.tapQ := rfl
@[simp] theorem Device.setTel_nextFlow (d : Device) (v : TelSt) : (d.setTel v).nextFlow = d.nextFlow := rfl
@[simp] theorem Device.setTel_parts (d : Device) (v : TelSt) : (d.setTel v).parts = d.parts := rfl
@[simp] theorem Device.setTel_ceLog (d : Device) (v : TelSt) : (d.setTel v).ceLog = d.ceLog := rfl
@[simp] theorem Device.setTel_ddrUndef (d : Device) (v : TelSt) : (d.setTel v).ddrUndef = d.ddrUndef := rfl
@[simp] theorem Device.setTel_conns (d : Device) (v : TelSt) : (d.setTel v).conns = d.conns := rfl
@[simp] theorem Device.setTel_gft (d : Device) (v : TelSt) : (d.setTel v).gft = d.gft := rfl
@[simp] theorem Device.setTel_groups (d : Device) (v : TelSt) : (d.setTel v).groups = d.groups := rfl
@[simp] theorem Device.setTel_tmWait (d : Device) (v : TelSt) : (d.setTel v).tmWait = d.tmWait := rfl
@[simp] theorem Device.setTel_fecBad (d : Device) (v : TelSt) : (d.setTel v).fecBad = d.fecBad := rfl
@[simp] theorem Device.setTel_keyTime (d : Device) (v : TelSt) : (d.setTel v).keyTime = d.keyTime := rfl
@[simp] theorem Device.setTel_pipeIn (d : Device) (v : TelSt) : (d.setTel v).pipeIn = d.pipeIn := rfl
@[simp] theorem Device.setTel_pipes (d : Device) (v : TelSt) : (d.setTel v).pipes = d.pipes := rfl
@[simp] theorem Device.setTel_clsSlots (d : Device) (v : TelSt) : (d.setTel v).clsSlots = d.clsSlots := rfl
@[simp] theorem Device.setTel_flowCnts (d : Device) (v : TelSt) : (d.setTel v).flowCnts = d.flowCnts := rfl
@[simp] theorem Device.setTel_pmeFlows (d : Device) (v : TelSt) : (d.setTel v).pmeFlows = d.pmeFlows := rfl
@[simp] theorem Device.setTel_places (d : Device) (v : TelSt) : (d.setTel v).places = d.places := rfl
@[simp] theorem Device.setTel_loaded (d : Device) (v : TelSt) : (d.setTel v).loaded = d.loaded := rfl
@[simp] theorem Device.setTel_waveEpoch (d : Device) (v : TelSt) : (d.setTel v).waveEpoch = d.waveEpoch := rfl
@[simp] theorem Device.setTel_tmQueues (d : Device) (v : TelSt) : (d.setTel v).tmQueues = d.tmQueues := rfl
@[simp] theorem Device.setTel_tmPorts (d : Device) (v : TelSt) : (d.setTel v).tmPorts = d.tmPorts := rfl
@[simp] theorem Device.setTel_policers (d : Device) (v : TelSt) : (d.setTel v).policers = d.policers := rfl
@[simp] theorem Device.setTel_blocks (d : Device) (v : TelSt) : (d.setTel v).blocks = d.blocks := rfl
@[simp] theorem Device.setTel_nvmes (d : Device) (v : TelSt) : (d.setTel v).nvmes = d.nvmes := rfl
@[simp] theorem Device.setTel_nextNvme (d : Device) (v : TelSt) : (d.setTel v).nextNvme = d.nextNvme := rfl
@[simp] theorem Device.setTel_stage (d : Device) (v : TelSt) : (d.setTel v).stage = d.stage := rfl
@[simp] theorem Device.setTel_vaults (d : Device) (v : TelSt) : (d.setTel v).vaults = d.vaults := rfl
@[simp] theorem Device.setTel_hostReads (d : Device) (v : TelSt) : (d.setTel v).hostReads = d.hostReads := rfl
@[simp] theorem Device.setTel_link (d : Device) (v : TelSt) : (d.setTel v).link = d.link := rfl
@[simp] theorem Device.setTel_nextFetch (d : Device) (v : TelSt) : (d.setTel v).nextFetch = d.nextFetch := rfl
@[simp] theorem Device.setTel_xfers (d : Device) (v : TelSt) : (d.setTel v).xfers = d.xfers := rfl
@[simp] theorem Device.setTel_queues (d : Device) (v : TelSt) : (d.setTel v).queues = d.queues := rfl
@[simp] theorem Device.setTel_fetched (d : Device) (v : TelSt) : (d.setTel v).fetched = d.fetched := rfl
@[simp] theorem Device.setTel_heldW (d : Device) (v : TelSt) : (d.setTel v).heldW = d.heldW := rfl
@[simp] theorem Device.setTel_cores (d : Device) (v : TelSt) : (d.setTel v).cores = d.cores := rfl
@[simp] theorem Device.setTel_fw (d : Device) (v : TelSt) : (d.setTel v).fw = d.fw := rfl
@[simp] theorem Device.setTel_queueMem (d : Device) (v : TelSt) : (d.setTel v).queueMem = d.queueMem := rfl
@[simp] theorem Device.setTel_wlogs (d : Device) (v : TelSt) : (d.setTel v).wlogs = d.wlogs := rfl
@[simp] theorem Device.setTel_stores (d : Device) (v : TelSt) : (d.setTel v).stores = d.stores := rfl
@[simp] theorem Device.setTel_crew (d : Device) (v : TelSt) : (d.setTel v).crew = d.crew := rfl
@[simp] theorem Device.setTel_belay (d : Device) (v : TelSt) : (d.setTel v).belay = d.belay := rfl
@[simp] theorem Device.setTel_tel (d : Device) (v : TelSt) : (d.setTel v).tel = v := rfl
@[simp] theorem Device.setTel_pwr (d : Device) (v : TelSt) : (d.setTel v).pwr = d.pwr := rfl
@[simp] theorem Device.setPwr_cfg (d : Device) (v : PwrSt) : (d.setPwr v).cfg = d.cfg := rfl
@[simp] theorem Device.setPwr_clk (d : Device) (v : PwrSt) : (d.setPwr v).clk = d.clk := rfl
@[simp] theorem Device.setPwr_reg (d : Device) (v : PwrSt) : (d.setPwr v).reg = d.reg := rfl
@[simp] theorem Device.setPwr_rings (d : Device) (v : PwrSt) : (d.setPwr v).rings = d.rings := rfl
@[simp] theorem Device.setPwr_out (d : Device) (v : PwrSt) : (d.setPwr v).out = d.out := rfl
@[simp] theorem Device.setPwr_wr (d : Device) (v : PwrSt) : (d.setPwr v).wr = d.wr := rfl
@[simp] theorem Device.setPwr_poison (d : Device) (v : PwrSt) : (d.setPwr v).poison = d.poison := rfl
@[simp] theorem Device.setPwr_msix (d : Device) (v : PwrSt) : (d.setPwr v).msix = d.msix := rfl
@[simp] theorem Device.setPwr_hold (d : Device) (v : PwrSt) : (d.setPwr v).hold = d.hold := rfl
@[simp] theorem Device.setPwr_wave (d : Device) (v : PwrSt) : (d.setPwr v).wave = d.wave := rfl
@[simp] theorem Device.setPwr_mbr (d : Device) (v : PwrSt) : (d.setPwr v).mbr = d.mbr := rfl
@[simp] theorem Device.setPwr_corrs (d : Device) (v : PwrSt) : (d.setPwr v).corrs = d.corrs := rfl
@[simp] theorem Device.setPwr_d2dReplays (d : Device) (v : PwrSt) : (d.setPwr v).d2dReplays = d.d2dReplays := rfl
@[simp] theorem Device.setPwr_tiles (d : Device) (v : PwrSt) : (d.setPwr v).tiles = d.tiles := rfl
@[simp] theorem Device.setPwr_mesh (d : Device) (v : PwrSt) : (d.setPwr v).mesh = d.mesh := rfl
@[simp] theorem Device.setPwr_tokHold (d : Device) (v : PwrSt) : (d.setPwr v).tokHold = d.tokHold := rfl
@[simp] theorem Device.setPwr_ropes (d : Device) (v : PwrSt) : (d.setPwr v).ropes = d.ropes := rfl
@[simp] theorem Device.setPwr_ropeMoved (d : Device) (v : PwrSt) : (d.setPwr v).ropeMoved = d.ropeMoved := rfl
@[simp] theorem Device.setPwr_flows (d : Device) (v : PwrSt) : (d.setPwr v).flows = d.flows := rfl
@[simp] theorem Device.setPwr_tapQ (d : Device) (v : PwrSt) : (d.setPwr v).tapQ = d.tapQ := rfl
@[simp] theorem Device.setPwr_nextFlow (d : Device) (v : PwrSt) : (d.setPwr v).nextFlow = d.nextFlow := rfl
@[simp] theorem Device.setPwr_parts (d : Device) (v : PwrSt) : (d.setPwr v).parts = d.parts := rfl
@[simp] theorem Device.setPwr_ceLog (d : Device) (v : PwrSt) : (d.setPwr v).ceLog = d.ceLog := rfl
@[simp] theorem Device.setPwr_ddrUndef (d : Device) (v : PwrSt) : (d.setPwr v).ddrUndef = d.ddrUndef := rfl
@[simp] theorem Device.setPwr_conns (d : Device) (v : PwrSt) : (d.setPwr v).conns = d.conns := rfl
@[simp] theorem Device.setPwr_gft (d : Device) (v : PwrSt) : (d.setPwr v).gft = d.gft := rfl
@[simp] theorem Device.setPwr_groups (d : Device) (v : PwrSt) : (d.setPwr v).groups = d.groups := rfl
@[simp] theorem Device.setPwr_tmWait (d : Device) (v : PwrSt) : (d.setPwr v).tmWait = d.tmWait := rfl
@[simp] theorem Device.setPwr_fecBad (d : Device) (v : PwrSt) : (d.setPwr v).fecBad = d.fecBad := rfl
@[simp] theorem Device.setPwr_keyTime (d : Device) (v : PwrSt) : (d.setPwr v).keyTime = d.keyTime := rfl
@[simp] theorem Device.setPwr_pipeIn (d : Device) (v : PwrSt) : (d.setPwr v).pipeIn = d.pipeIn := rfl
@[simp] theorem Device.setPwr_pipes (d : Device) (v : PwrSt) : (d.setPwr v).pipes = d.pipes := rfl
@[simp] theorem Device.setPwr_clsSlots (d : Device) (v : PwrSt) : (d.setPwr v).clsSlots = d.clsSlots := rfl
@[simp] theorem Device.setPwr_flowCnts (d : Device) (v : PwrSt) : (d.setPwr v).flowCnts = d.flowCnts := rfl
@[simp] theorem Device.setPwr_pmeFlows (d : Device) (v : PwrSt) : (d.setPwr v).pmeFlows = d.pmeFlows := rfl
@[simp] theorem Device.setPwr_places (d : Device) (v : PwrSt) : (d.setPwr v).places = d.places := rfl
@[simp] theorem Device.setPwr_loaded (d : Device) (v : PwrSt) : (d.setPwr v).loaded = d.loaded := rfl
@[simp] theorem Device.setPwr_waveEpoch (d : Device) (v : PwrSt) : (d.setPwr v).waveEpoch = d.waveEpoch := rfl
@[simp] theorem Device.setPwr_tmQueues (d : Device) (v : PwrSt) : (d.setPwr v).tmQueues = d.tmQueues := rfl
@[simp] theorem Device.setPwr_tmPorts (d : Device) (v : PwrSt) : (d.setPwr v).tmPorts = d.tmPorts := rfl
@[simp] theorem Device.setPwr_policers (d : Device) (v : PwrSt) : (d.setPwr v).policers = d.policers := rfl
@[simp] theorem Device.setPwr_blocks (d : Device) (v : PwrSt) : (d.setPwr v).blocks = d.blocks := rfl
@[simp] theorem Device.setPwr_nvmes (d : Device) (v : PwrSt) : (d.setPwr v).nvmes = d.nvmes := rfl
@[simp] theorem Device.setPwr_nextNvme (d : Device) (v : PwrSt) : (d.setPwr v).nextNvme = d.nextNvme := rfl
@[simp] theorem Device.setPwr_stage (d : Device) (v : PwrSt) : (d.setPwr v).stage = d.stage := rfl
@[simp] theorem Device.setPwr_vaults (d : Device) (v : PwrSt) : (d.setPwr v).vaults = d.vaults := rfl
@[simp] theorem Device.setPwr_hostReads (d : Device) (v : PwrSt) : (d.setPwr v).hostReads = d.hostReads := rfl
@[simp] theorem Device.setPwr_link (d : Device) (v : PwrSt) : (d.setPwr v).link = d.link := rfl
@[simp] theorem Device.setPwr_nextFetch (d : Device) (v : PwrSt) : (d.setPwr v).nextFetch = d.nextFetch := rfl
@[simp] theorem Device.setPwr_xfers (d : Device) (v : PwrSt) : (d.setPwr v).xfers = d.xfers := rfl
@[simp] theorem Device.setPwr_queues (d : Device) (v : PwrSt) : (d.setPwr v).queues = d.queues := rfl
@[simp] theorem Device.setPwr_fetched (d : Device) (v : PwrSt) : (d.setPwr v).fetched = d.fetched := rfl
@[simp] theorem Device.setPwr_heldW (d : Device) (v : PwrSt) : (d.setPwr v).heldW = d.heldW := rfl
@[simp] theorem Device.setPwr_cores (d : Device) (v : PwrSt) : (d.setPwr v).cores = d.cores := rfl
@[simp] theorem Device.setPwr_fw (d : Device) (v : PwrSt) : (d.setPwr v).fw = d.fw := rfl
@[simp] theorem Device.setPwr_queueMem (d : Device) (v : PwrSt) : (d.setPwr v).queueMem = d.queueMem := rfl
@[simp] theorem Device.setPwr_wlogs (d : Device) (v : PwrSt) : (d.setPwr v).wlogs = d.wlogs := rfl
@[simp] theorem Device.setPwr_stores (d : Device) (v : PwrSt) : (d.setPwr v).stores = d.stores := rfl
@[simp] theorem Device.setPwr_crew (d : Device) (v : PwrSt) : (d.setPwr v).crew = d.crew := rfl
@[simp] theorem Device.setPwr_belay (d : Device) (v : PwrSt) : (d.setPwr v).belay = d.belay := rfl
@[simp] theorem Device.setPwr_tel (d : Device) (v : PwrSt) : (d.setPwr v).tel = d.tel := rfl
@[simp] theorem Device.setPwr_pwr (d : Device) (v : PwrSt) : (d.setPwr v).pwr = v := rfl

end Sys2Proof.Machine
end

