-- ==== Sys2Proof/Laws/Tables.lean ====
section
/-!
SUPPORT. What the operations on sparse tables do, once each.
-/
namespace Sys2Proof.Machine

/-- A look after a put finds the value put at its key and every other key as before. -/
theorem Tbl.look_put {α : Type} (t : Tbl α) (q : Nat) (v : α) (k : Nat) :
    Tbl.look (Tbl.put t q v) k = if k = q then some v else Tbl.look t k := by
  induction t with
  | nil => by_cases h : k = q <;> simp [Tbl.put, Tbl.look, h]
  | cons kv t ih =>
    obtain ⟨a, w⟩ := kv
    by_cases h1 : q < a
    · by_cases h : k = q <;> simp [Tbl.put, Tbl.look, h1, h]
    · by_cases h2 : q = a
      · subst h2
        by_cases h : k = q <;> simp [Tbl.put, Tbl.look, h]
      · by_cases h3 : k = a
        · subst h3
          simp [Tbl.put, Tbl.look, h1, h2, Ne.symm h2]
        · simp [Tbl.put, Tbl.look, h1, h2, h3, ih]

@[simp] theorem Tbl.look_put_self {α : Type} (t : Tbl α) (q : Nat) (v : α) : Tbl.look (Tbl.put t q v) q = some v := by
  simp [Tbl.look_put]

theorem Tbl.look_put_ne {α : Type} (t : Tbl α) {q k : Nat} (v : α) (h : k ≠ q) : Tbl.look (Tbl.put t q v) k = Tbl.look t k := by
  simp [Tbl.look_put, h]

/-- The value at a key after a put. -/
theorem Tbl.lookD_put {α : Type} (t : Tbl α) (q : Nat) (v : α) (k : Nat) (d : α) :
    Tbl.lookD (Tbl.put t q v) k d = if k = q then v else Tbl.lookD t k d := by
  unfold Tbl.lookD
  rw [Tbl.look_put]
  split <;> simp

@[simp] theorem Tbl.lookD_put_self {α : Type} (t : Tbl α) (q : Nat) (v d : α) : Tbl.lookD (Tbl.put t q v) q d = v := by
  simp [Tbl.lookD_put]

/-- A look after a deletion finds nothing at the key and every other key as before. -/
theorem Tbl.look_del {α : Type} (t : Tbl α) (q k : Nat) : Tbl.look (Tbl.del t q) k = if k = q then none else Tbl.look t k := by
  induction t with
  | nil => simp [Tbl.del, Tbl.look]
  | cons kv t ih =>
    obtain ⟨a, w⟩ := kv
    by_cases h : q = a
    · subst h
      by_cases h2 : k = q
      · subst h2
        simp [Tbl.del, ih]
      · simp [Tbl.del, Tbl.look, ih, h2]
    · by_cases h2 : k = a
      · subst h2
        simp [Tbl.del, Tbl.look, h, Ne.symm h]
      · simp [Tbl.del, Tbl.look, h, h2, ih]

/-- A look after dropping the selected keys. -/
theorem Tbl.look_drop {α : Type} (t : Tbl α) (p : Nat → Bool) (k : Nat) :
    Tbl.look (Tbl.drop t p) k = if p k then none else Tbl.look t k := by
  induction t with
  | nil => simp [Tbl.drop, Tbl.look]
  | cons kv t ih =>
    obtain ⟨a, w⟩ := kv
    by_cases h : p a
    · by_cases h2 : k = a
      · subst h2
        simp [Tbl.drop, h, ih]
      · simp [Tbl.drop, Tbl.look, h, h2, ih]
    · by_cases h2 : k = a
      · subst h2
        simp [Tbl.drop, Tbl.look, h]
      · simp [Tbl.drop, Tbl.look, h, h2, ih]

/-- A look after mapping every value. -/
theorem Tbl.look_mapV {α : Type} (t : Tbl α) (f : Nat → α → α) (k : Nat) : Tbl.look (Tbl.mapV t f) k = (Tbl.look t k).map (f k) := by
  induction t with
  | nil => simp [Tbl.mapV, Tbl.look]
  | cons kv t ih =>
    obtain ⟨a, w⟩ := kv
    by_cases h : k = a
    · subst h
      simp [Tbl.mapV, Tbl.look]
    · simp [Tbl.mapV, Tbl.look, h, ih]

end Sys2Proof.Machine
end

