-- ==== Sys2Proof/Laws/Ops.lean ====
section
/-!
SUPPORT. What the shared operations do: how a command ends, and what a field reads as after a field is set.
-/
namespace Sys2Proof.Machine

/-- How a command that ends leaves the state: the units it computed with no store waiting, its stores performed, the queue as it was. -/
theorem State.done_eq (s : State) (d : Device) : s.done d = .next ⟨d.setWr [], s.mem.storeAll d.wr.reverse, s.pending⟩ := rfl

/-- A command that ends leaves the queue alone, no store waiting, and the memory canonical. -/
theorem State.done_spec {s t : State} {d : Device} (h : s.done d = .next t) :
    t.pending = s.pending ∧ t.dev.wr = [] ∧ (s.mem.wf = true → t.mem.wf = true) := by
  simp only [State.done_eq, Host.Outcome.next.injEq] at h
  subst h
  exact ⟨rfl, rfl, fun w => Memory.storeAll_wf w _⟩

/-- A command without effect answers the state it was given. -/
theorem State.same_spec {s t : State} (h : s.same = .next t) : t = s := by
  simp only [State.same, Host.Outcome.next.injEq] at h
  exact h.symm

/-- Replacing the empty list of waiting stores by itself. -/
theorem Device.setWr_self {d : Device} (h : d.wr = []) : d.setWr [] = d := by
  cases d
  simp only at h
  subst h
  rfl

@[simp] theorem Device.setCur_wr (d : Device) (t : Tbl Nat) : (d.setCur t).wr = d.wr := rfl
@[simp] theorem Device.setCur_cur (d : Device) (t : Tbl Nat) : (d.setCur t).reg.cur = t := rfl
@[simp] theorem Device.putI_wr (d : Device) (p : Page) (f : Field) (i v : Nat) : (d.putI p f i v).wr = d.wr := rfl
@[simp] theorem Device.put_wr (d : Device) (p : Page) (f : Field) (v : Nat) : (d.put p f v).wr = d.wr := rfl
@[simp] theorem Device.putI_cfg (d : Device) (p : Page) (f : Field) (i v : Nat) : (d.putI p f i v).cfg = d.cfg := rfl
@[simp] theorem Device.put_cfg (d : Device) (p : Page) (f : Field) (v : Nat) : (d.put p f v).cfg = d.cfg := rfl
@[simp] theorem Device.put_clk (d : Device) (p : Page) (f : Field) (v : Nat) : (d.put p f v).clk = d.clk := rfl

/-- A field after an element of a field is set: the value truncated to its width where the register and position are the same, else as before. -/
theorem Device.fldI_putI (d : Device) (p q : Page) (f g : Field) (i j v : Nat) :
    (d.putI p f i v).fldI q g j = if fkey q g j = fkey p f i then v % 2 ^ f.width else d.fldI q g j := by
  show Tbl.lookD (Tbl.put d.reg.cur (fkey p f i) (v % 2 ^ f.width)) (fkey q g j) (d.rst g) = _
  rw [Tbl.lookD_put]
  rfl

@[simp] theorem Device.fldI_putI_self (d : Device) (p : Page) (f : Field) (i v : Nat) :
    (d.putI p f i v).fldI p f i = v % 2 ^ f.width := by
  simp [Device.fldI_putI]

@[simp] theorem Device.fld_put_self (d : Device) (p : Page) (f : Field) (v : Nat) : (d.put p f v).fld p f = v % 2 ^ f.width :=
  Device.fldI_putI_self d p f 0 v

/-- A field that is not the one set reads as before. -/
theorem Device.fld_put_ne (d : Device) (p q : Page) (f g : Field) (v : Nat) (h : fkey q g 0 ≠ fkey p f 0) :
    (d.put p f v).fld q g = d.fld q g := by
  show (d.putI p f 0 v).fldI q g 0 = _
  rw [Device.fldI_putI, if_neg h]
  rfl

/-- The fields of one page at different places are different. -/
theorem fkey_inj {p : Page} {f g : Field} {i j : Nat} (hf : f.lo < 32) (hg : g.lo < 32) (h : fkey p f i = fkey p g j) :
    f.at i = g.at j ∧ f.lo = g.lo := by
  unfold fkey at h
  omega

/-- A counter after counts: that counter has advanced modulo 2^64, every other is as before. -/
theorem Device.cntOf_count (d : Device) (p q : Page) (i j n : Nat) :
    (d.count p i n).cntOf q j = if q.base + j = p.base + i then (d.cntOf p i + n) % 2 ^ 64 else d.cntOf q j := by
  show Tbl.lookD (Tbl.put d.reg.cnt (p.base + i) _) (q.base + j) 0 = _
  rw [Tbl.lookD_put]
  rfl

/-- Counting leaves every field alone. -/
@[simp] theorem Device.fldI_count (d : Device) (p q : Page) (f : Field) (i j n : Nat) : (d.count p i n).fldI q f j = d.fldI q f j := rfl

@[simp] theorem Device.count_wr (d : Device) (p : Page) (i n : Nat) : (d.count p i n).wr = d.wr := rfl
@[simp] theorem Device.tick_wr (d : Device) (p : Page) (i : Nat) : (d.tick p i).wr = d.wr := rfl
@[simp] theorem Device.emit_wr (d : Device) (e : Emit) : (d.emit e).wr = d.wr := rfl
@[simp] theorem Device.emit_out (d : Device) (e : Emit) : (d.emit e).out = d.out ++ [e] := rfl
@[simp] theorem Device.msg_out (d : Device) (k : String) (n : Nat) (l : List Nat) : (d.msg k n l).out = d.out ++ [.msg k n l] := rfl
@[simp] theorem Device.answer_out (d : Device) (r : Req) (v : Nat) : (d.answer r v).out = d.out ++ [.readValue r v] := rfl
@[simp] theorem Device.pin_out (d : Device) (n : String) (b : Bool) : (d.pin n b).out = d.out ++ [.pin n b] := rfl

/-- What a read sees of a store that waits: the stored byte inside it, else what stood before. -/
theorem rdB_cons (m : Memory) (w : Store) (ws : List Store) (a : Nat) :
    rdB m (w :: ws) a = if w.covers a then w.byteAt a else rdB m ws a := rfl

end Sys2Proof.Machine
end

