-- ==== Sys2Proof/Tests/Slice0.lean ====
section
/-!
SUPPORT. Tests: ill-formed commands that WellFormed refuses, commands on small states, and for every statement with hypotheses a state and operands that
meet them together. What a test expects comes from the rule of spec/ that its statement cites.
-/
namespace Sys2Proof.Tests

open Sys2Proof Sys2Proof.Machine

set_option maxRecDepth 100000
set_option Elab.async false

/-! ### Helpers -/

/-- A state with a device, empty memories and no command waiting. -/
def st (d : Device) : State := ⟨d, [], []⟩

/-- The state that a command leaves; the same state where it does not complete. -/
def run (c : Instr) (s : State) : State :=
  match exec c s with
  | .next t => t
  | _ => s

/-- Did the command complete? -/
def completes (c : Instr) (s : State) : Bool :=
  match exec c s with
  | .next _ => true
  | _ => false

/-- Does the command complete and change nothing? -/
def idles (c : Instr) (s : State) : Bool :=
  match exec c s with
  | .next t => decide (t = s)
  | _ => false

/-- A device with fields of registers set: (page, field, element, value). -/
def withF (d : Device) (l : List (Page × Field × Nat × Nat)) : Device := l.foldl (fun (d : Device) x => d.putI x.1 x.2.1 x.2.2.1 x.2.2.2) d

/-- A device whose applied values of staged fields are set as well. -/
def withA (d : Device) (l : List (Page × Field × Nat × Nat)) : Device := l.foldl (fun (d : Device) x => d.putAppI x.1 x.2.1 x.2.2.1 x.2.2.2) d

/-- A stroke package, a member, and a package on its own. -/
def crewDev (role : Nat) : Device := Device.reset.setCfg ⟨⟨.grc8864, false, false⟩, ⟨role, 0, 0, 0⟩, ⟨role, 0, 0, 0⟩, false⟩

theorem cleanRange_of {d : Device} {a n : Nat} (h : ((linesOf (d.lineOf a) a n).all fun line => !d.poison.contains line && (match d.memPage line with
    | some p => decide (d.fld p Fld.HBMC_INJECT_MODE = 0) && !d.keyLost p
    | none => true)) = true) : d.cleanRange a n := by
  intro line hl
  have hx := List.all_eq_true.mp h line hl
  simp only [Bool.and_eq_true, Bool.not_eq_true', List.contains_eq_mem, decide_eq_false_iff_not] at hx
  refine ⟨hx.1, fun p hp => ?_⟩
  have h2 := hx.2
  rw [hp] at h2
  simpa using h2

/-! ### The machine as a whole -/

theorem witness_steps : State.reset.Canonical ∧ completes (.ctrlHalt .pf .pkg 1) State.reset = true ∧ State.reset.steps (st Device.reset.idle) :=
  ⟨⟨rfl, rfl⟩, by decide +kernel, rfl⟩

theorem test_queue_order : ((step { State.reset with pending := [.ctrlHalt .pf .pkg 1, .ctrlHalt .pf .pkg 0] })) =
    exec (.ctrlHalt .pf .pkg 1) { State.reset with pending := [.ctrlHalt .pf .pkg 0] } := rfl

theorem test_unmapped_faults : exec (.hbmWrite 0x20000000000 [1]) State.reset = .fault .unmappedAddress ∧
    exec (.ddrRead 0 1 false []) State.reset = .fault .unmappedAddress := ⟨rfl, rfl⟩

/-! ### The page header -/

theorem witness_halt : State.reset.Canonical ∧ Page.pkg.typ ≠ 0 ∧ State.reset.dev.mayAccess .pf .pkg = true ∧ State.reset.dev.present .pkg = true ∧
    State.reset.dev.fld .pkg Fld.CTRL_HALT ≠ 1 ∧ (run (.ctrlHalt .pf .pkg 1) State.reset).dev.fld .pkg Fld.CTRL_HALT = 1 ∧
    (run (.haltAtBoundary .pkg) (run (.ctrlHalt .pf .pkg 1) State.reset)).dev.fld .pkg Fld.STATUS_HALTED = 1 := by
  unfold State.Canonical; decide +kernel

theorem test_resume : (run (.ctrlHalt .pf .pkg 0) (st (withF Device.reset [(.pkg, Fld.STATUS_HALTED, 0, 1)]))).dev.fld .pkg Fld.STATUS_HALTED = 0 := by decide +kernel

theorem test_cntReset : ((run (.cntReset .pf .bly) (st (Device.reset.tick .bly 2))).dev.cntOf .bly 2, (Device.reset.tick .bly 2).cntOf .bly 2) = (0, 1) := by decide +kernel

/-- A T-die page with a staged value and no commit, the same with a pending copy, and with a checked copy. -/
def goDev : Device := withF Device.reset [(.gft 0, Fld.GFT_RETRY_RETRY_MAX, 0, 5), (.gft 0, Fld.GEN_APPLIED, 0, 0xFFFF), (.gft 0, Fld.GEN_OLDEST, 0, 0xFFFF)]
def goneDev : Device := (run (.commitGo .pf (.gft 0)) (st goDev)).dev
def checkedDev : Device := (run (.commitCheck (.gft 0)) (st goneDev)).dev

theorem witness_commitGo : (st goDev).Canonical ∧ (st goneDev).Canonical ∧ (Page.gft 0).typ ≠ 0 ∧ goDev.mayAccess .pf (.gft 0) = true ∧
    goDev.fld (.gft 0) Fld.COMMIT_BUSY ≠ 1 ∧ goneDev.mayAccess .pf (.gft 0) = true ∧ goneDev.fld (.gft 0) Fld.COMMIT_BUSY = 1 ∧
    goneDev.fld (.gft 0) Fld.COMMIT_TARGET = 0 ∧ (run (.commitGo .pf (.gft 0)) (st goneDev)).dev.fld (.gft 0) Fld.ERR_STAT_COMMIT_OVERLAP = 1 := by
  unfold State.Canonical; decide +kernel

/-- A copy that passes every rule of its page is marked checked, one that breaks a rule (UDP port 0 of R350) is not. -/
theorem witness_commitCheck : goneDev.present (.gft 0) = true ∧ goneDev.commitOf (.gft 0) = some ⟨stagedOf (.gft 0) goDev.reg.cur, false⟩ ∧
    (goneDev.checkCopy [] (.gft 0) (stagedOf (.gft 0) goDev.reg.cur)).1 = 0 ∧
    checkedDev.commitOf (.gft 0) = some ⟨stagedOf (.gft 0) goDev.reg.cur, true⟩ ∧
    checkedDev.fld (.gft 0) Fld.COMMIT_ARMED ≠ 1 ∧ checkedDev.fld (.gft 0) Fld.GEN_OLDEST = checkedDev.fld (.gft 0) Fld.GEN_APPLIED ∧
    checkedDev.awaitsBoundary (.gft 0) = false := by decide +kernel

theorem test_commitApply : (run (.commitApply (.gft 0)) (st checkedDev)).dev.app (.gft 0) Fld.GFT_RETRY_RETRY_MAX = 5 ∧
    (run (.commitApply (.gft 0)) (st checkedDev)).dev.fld (.gft 0) Fld.GEN_APPLIED = 0 ∧
    (run (.commitApply (.gft 0)) (st checkedDev)).dev.fld (.gft 0) Fld.COMMIT_RESULT = 1 := by decide +kernel

theorem witness_twoGenerations : (withF checkedDev [(.gft 0, Fld.GEN_OLDEST, 0, 3)]).commitOf (.gft 0) = some ⟨stagedOf (.gft 0) goDev.reg.cur, true⟩ ∧
    (withF checkedDev [(.gft 0, Fld.GEN_OLDEST, 0, 3)]).fld (.gft 0) Fld.GEN_OLDEST ≠ (withF checkedDev [(.gft 0, Fld.GEN_OLDEST, 0, 3)]).fld (.gft 0) Fld.GEN_APPLIED ∧
    idles (.commitApply (.gft 0)) (st (withF checkedDev [(.gft 0, Fld.GEN_OLDEST, 0, 3)])) = true := by decide +kernel

theorem witness_commitRule : (st (withF goneDev [(.tile 0 5, Fld.TILE_STALL_LIMIT_LIMIT, 0, 0)])).Canonical ∧
    (run (.commitGo .pf (.tile 0 5)) (st (withF Device.reset [(.tile 0 5, Fld.TILE_STALL_LIMIT_LIMIT, 0, 0)]))).dev.commitOf (.tile 0 5) =
      some ⟨[(fkey (.tile 0 5) Fld.TILE_STALL_LIMIT_LIMIT 0, 0)], false⟩ ∧
    (Device.reset.checkCopy [] (.tile 0 5) [(fkey (.tile 0 5) Fld.TILE_STALL_LIMIT_LIMIT 0, 0)]).1 = 1 ∧
    (run (.commitCheck (.tile 0 5)) (run (.commitGo .pf (.tile 0 5)) (st (withF Device.reset [(.tile 0 5, Fld.TILE_STALL_LIMIT_LIMIT, 0, 0)])))).dev.fld
      (.tile 0 5) Fld.COMMIT_RESULT = 2 := by
  unfold State.Canonical; decide +kernel

theorem test_errStatClear : (run (.errStatClear .pf .pkg 2) (st (withF Device.reset [(.pkg, Fld.ERR_STAT_ACCESS, 0, 1), (.pkg, Fld.ERR_STAT_BLOCK, 0, 0x8001),
    (.pkg, Fld.ERR_FIRST_VALID, 0, 1)]))).dev.errStat .pkg = 0x80010000 := by decide +kernel

theorem test_errFirst_clears : (run (.errStatClear .pf .pkg 0x80010002) (st (withF Device.reset [(.pkg, Fld.ERR_STAT_ACCESS, 0, 1),
    (.pkg, Fld.ERR_STAT_BLOCK, 0, 0x8001), (.pkg, Fld.ERR_FIRST_VALID, 0, 1)]))).dev.fld .pkg Fld.ERR_FIRST_VALID = 0 := by decide +kernel

theorem test_irqStatClear : (run (.irqStatClear .pf .pkg 0x10000) (st (withF Device.reset [(.pkg, Fld.IRQ_STAT_BLOCK, 0, 3)]))).dev.fld .pkg
    Fld.IRQ_STAT_BLOCK = 2 := by decide +kernel

/-- Every page below may be read, counted and written by its requester, at the edges of the ranges of the statement's clauses. -/
theorem witness_reads : State.reset.Canonical ∧ Page.pkg.typ ≠ 0 ∧ State.reset.dev.mayAccess .pf (.gft 1) = true ∧
    State.reset.dev.mayAccess (.cox 1 7) (.eth 1 3) = true ∧ 23 < Page.pkg.counters ∧ 31 < (Page.tile 0 0).ringPage.ringSize ∧
    Tbl.look ((Device.reset.cairn (.tile 0 0) 0x0305 7).ring (.tile 0 0)).entries 0 = some ⟨0, 0x0305, 7⟩ ∧
    Device.reset.fld (.eth 1 3) Fld.STATUS_HALTED = 0 ∧ (withF Device.reset [(.eth 1 3, Fld.STATUS_HALTED, 0, 1)]).fld (.eth 1 3) Fld.STATUS_HALTED = 1 := by
  unfold State.Canonical; decide +kernel

theorem test_counter_latch : (run (.counterLowRead .pf .bly 2 false) (st (Device.reset.count .bly 2 0x500000007))).dev.out = [.readValue .pf 7] ∧
    (run (.counterLowRead .pf .bly 2 false) (st (Device.reset.count .bly 2 0x500000007))).dev.counterHigh .pf .bly 2 = 5 := by decide +kernel

theorem test_rcRead : (run (.rcRead .pf .pkg 0x2C) (st (withF Device.reset [(.pkg, Fld.ERR_CNT, 0, 9)]))).dev.fld .pkg Fld.ERR_CNT = 0 ∧
    .readValue .pf 9 ∈ (run (.rcRead .pf .pkg 0x2C) (st (withF Device.reset [(.pkg, Fld.ERR_CNT, 0, 9)]))).dev.out := by decide +kernel

theorem test_cairnRead : (run (.cairnEntryRead .pf (.tile 0 0) 0) (st (Device.reset.cairn (.tile 0 0) 0x0305 7))).dev.reg.latch ≠ [] := by decide +kernel

theorem test_registerWrite : (run (.registerWrite .pf (.page (.gft 1) 0x804 32) 0x3A21) State.reset).dev.fld (.gft 1) Fld.GFT_RETRY_RNR_DELAY_US = 0x3A ∧
    (run (.registerWrite .pf (.page (.gft 1) 0x804 16) 0x3A21) State.reset).dev.fld (.gft 1) Fld.ERR_STAT_ACCESS = 1 ∧
    (run (.registerWrite .pf (.page (.eth 1 3) 0x100 32) 2) State.reset).dev.fld (.eth 1 3) Fld.ERR_STAT_H_WRITE = 1 := by decide +kernel

/-! ### Leases -/

/-- A rope engine's page with lease `i` in a state, with an owner and an epoch. -/
def leaseDev (p : Page) (i stt owner epoch : Nat) : Device :=
  withF (Device.reset.setCfg ⟨⟨.grc8864, false, false⟩, ⟨0, 0, 1, 0⟩, ⟨0, 0, 1, 0⟩, false⟩)
    [(p, Fld.LEASE_STATE_STATE, i, stt), (p, Fld.LEASE_OWNER_OWNER, i, owner), (p, Fld.LEASE_OWNER_EPOCH, i, epoch)]

theorem witness_lease_take : ∀ i ∈ [0, 15], (st (leaseDev (.rope 7 2) i 0 0 0xFFFF)).dev.mayAccess .pf (.rope 7 2) = true ∧ i < (Page.rope 7 2).leases ∧
    0xFFFF2000 / 2 ^ 16 % 2 ^ 16 = (leaseDev (.rope 7 2) i 0 0 0xFFFF).fldI (.rope 7 2) Fld.LEASE_OWNER_EPOCH i ∧
    (leaseDev (.rope 7 2) i 0 0 0xFFFF).fldI (.rope 7 2) Fld.LEASE_STATE_STATE i = 0 ∧ mayTake (.rope 7 2) 0x2000 = true ∧
    (run (.leaseOwnerWrite .pf (.rope 7 2) i 0xFFFF2000) (st (leaseDev (.rope 7 2) i 0 0 0xFFFF))).dev.fldI (.rope 7 2) Fld.LEASE_STATE_STATE i = 1 ∧
    (run (.leaseOwnerWrite .pf (.rope 7 2) i 0xFFFF2000) (st (leaseDev (.rope 7 2) i 0 0 0xFFFF))).dev.fldI (.rope 7 2) Fld.LEASE_OWNER_EPOCH i = 0 := by decide +kernel

theorem witness_lease_release : (leaseDev (.cph 1) 3 1 0x2000 4).fldI (.cph 1) Fld.LEASE_STATE_STATE 3 = 1 ∧
    0x40000 / 2 ^ 16 % 2 ^ 16 = (leaseDev (.cph 1) 3 1 0x2000 4).fldI (.cph 1) Fld.LEASE_OWNER_EPOCH 3 ∧ 3 < (Page.cph 1).leases ∧
    (run (.leaseOwnerWrite .pf (.cph 1) 3 0x40000) (st (leaseDev (.cph 1) 3 1 0x2000 4))).dev.fldI (.cph 1) Fld.LEASE_STATE_STATE 3 = 0 ∧
    idles (.leaseOwnerWrite .pf (.cph 1) 3 0x42000) (st (leaseDev (.cph 1) 3 1 0x2000 4)) = true := by decide +kernel

theorem witness_lease_stale : ∀ x ∈ [0, 1, 2, 3], (st (leaseDev (.cvu 1 1) 15 x 0x1000 7)).dev.mayAccess .pf (.cvu 1 1) = true ∧
    0x80000 / 2 ^ 16 % 2 ^ 16 ≠ (leaseDev (.cvu 1 1) 15 x 0x1000 7).fldI (.cvu 1 1) Fld.LEASE_OWNER_EPOCH 15 ∧
    (run (.leaseOwnerWrite .pf (.cvu 1 1) 15 0x80000) (st (leaseDev (.cvu 1 1) 15 x 0x1000 7))).dev.fld (.cvu 1 1) Fld.ERR_STAT_LEASE_STALE = 1 ∧
    (run (.leaseOwnerWrite .pf (.cvu 1 1) 15 0x80000) (st (leaseDev (.cvu 1 1) 15 x 0x1000 7))).dev.fldI (.cvu 1 1) Fld.LEASE_STATE_STATE 15 = x := by decide +kernel

theorem witness_lease_break : ∀ i ∈ [0, 7], (leaseDev (.nvr 1) i 2 0x1000 7).present (.nvr 1) = true ∧ (leaseDev (.nvr 1) i 2 0x1000 7).mayAccess .pf (.nvr 1) = true ∧
    i < (Page.nvr 1).leases ∧ (leaseDev (.nvr 1) i 2 0x1000 7).fldI (.nvr 1) Fld.LEASE_STATE_STATE i = 2 ∧
    (run (.leaseBreak .pf (.nvr 1) i 0x72000) (st (leaseDev (.nvr 1) i 2 0x1000 7))).dev.fldI (.nvr 1) Fld.LEASE_STATE_STATE i = 3 ∧
    (run (.leaseBreakDone (.nvr 1) i) (run (.leaseBreak .pf (.nvr 1) i 0x72000) (st (leaseDev (.nvr 1) i 2 0x1000 7)))).dev.fldI (.nvr 1) Fld.LEASE_OWNER_EPOCH i = 8 ∧
    (run (.leaseBreak .pf (.nvr 1) i 0x82000) (st (leaseDev (.nvr 1) i 2 0x1000 7))).dev.fld (.nvr 1) Fld.ERR_STAT_LEASE_STALE = 1 := by decide +kernel

/-! ### Windows, waves and memory -/

theorem witness_memberWindow : (st (crewDev 1)).Canonical ∧ (crewDev 1).cfg.straps.crewRole = 1 ∧
    (∀ m ∈ [1, 63], (run (.memberWindowAccess false m 0x10 0) (st (withF (crewDev 1) [(.pkg, Fld.PKG_MBR_SEL_SLICE, m, 3)]))).dev.mbr.outstanding =
      [⟨0, false, m, 0x600010⟩]) ∧ (crewDev 0).cfg.straps.crewRole ≠ 1 ∧
    (run (.memberWindowTimeout 0) (run (.memberWindowAccess false 63 0x10 0) (st (crewDev 1)))).dev.mbr.outstanding = [] ∧
    .readValue .pf 0xFFFFFFFF ∈ (run (.memberWindowTimeout 0) (run (.memberWindowAccess false 63 0x10 0) (st (crewDev 1)))).dev.out := by
  unfold State.Canonical; decide +kernel

/-- Two pages armed, and the same with their copies pending and the wave under way. -/
def armDev : Device := withF Device.reset [(.prs 0, Fld.COMMIT_ARMED, 0, 1), (.prs 1, Fld.COMMIT_ARMED, 0, 1)]
def waveSt : State := run (.waveGo .pf) (run (.commitCheck (.prs 1)) (run (.commitGo .pf (.prs 1)) (run (.commitCheck (.prs 0)) (run (.commitGo .pf (.prs 0)) (st armDev)))))
def flipSt : State := run (.waveAccept (.prs 1)) (run (.waveAccept (.prs 0)) waveSt)

theorem witness_wave : waveSt.Canonical ∧ armDev.armedPages = [.prs 0, .prs 1] ∧ (∀ q ∈ armDev.armedPages, armDev.inFenced q = false) ∧
    armDev.fld .pkg Fld.PKG_WAVE_BUSY ≠ 1 ∧ waveSt.dev.mayAccess .pf .pkg = true ∧ waveSt.dev.wave = ⟨[.prs 0, .prs 1], []⟩ ∧ waveSt.dev.anyStop = false ∧
    (waveSt.dev.commitOf (.prs 0)).map Commit.checked = some true ∧ waveSt.dev.oneGeneration (.prs 0) = true ∧
    (run (.waveAccept (.prs 0)) waveSt).dev.wave = ⟨[.prs 1], [.prs 0]⟩ ∧ flipSt.dev.fld .pkg Fld.PKG_WAVE_RESULT = 1 ∧
    flipSt.dev.fld .pkg Fld.PKG_WAVE_EPOCH = 1 ∧ (Tbl.look flipSt.dev.waveEpoch (Page.prs 1).base).isSome = true ∧
    (run .waveTimeout waveSt).dev.fld .pkg Fld.PKG_WAVE_RESULT = 3 := by
  unfold State.Canonical; decide +kernel

/-- A device with a stop of a slot in force. -/
def stopDev (d : Device) (slot scope part : Nat) : Device :=
  (withF d [(.bly, Fld.BLY_HOLD_CTL_ACTIVE, slot, 1), (.bly, Fld.BLY_HOLD_CTL_KIND, slot, 1), (.bly, Fld.BLY_HOLD_CTL_SCOPE, slot, scope),
    (.bly, Fld.BLY_HOLD_CTL_PART, slot, part)]).setBelay { d.belay with inForce := [slot] }

theorem witness_wave_fails : (withF (waveSt.dev.delCommit (.prs 0)) [(.prs 0, Fld.COMMIT_RESULT, 0, 2)]).commitOf (.prs 0) = none ∧
    (withF (waveSt.dev.delCommit (.prs 0)) [(.prs 0, Fld.COMMIT_RESULT, 0, 2)]).wave.waiting.contains (.prs 0) = true ∧
    (run (.waveAccept (.prs 0)) (st (withF (waveSt.dev.delCommit (.prs 0)) [(.prs 0, Fld.COMMIT_RESULT, 0, 2)]))).dev.fld .pkg Fld.PKG_WAVE_RESULT = 2 ∧
    (stopDev waveSt.dev 0 0 0).anyStop = true ∧ idles (.waveAccept (.prs 0)) (st (stopDev waveSt.dev 0 0 0)) = true := by decide +kernel

/-- A tier of one 64 GiB channel, and a mapped window. -/
def tierDev : Device := withF Device.reset [(.ddr 0 0, Fld.DDR_STATE_USED, 0, 1), (.pkg, Fld.PKG_DDR_TIER_SIZE_GIB, 0, 64), (.ddr 0 0, Fld.HBMC_SCRUB_ENABLE, 0, 1),
  (.hbmc 7 2, Fld.HBMC_SCRUB_ENABLE, 0, 1), (.hbmc 7 2, Fld.HBMC_STATE_TRAINED, 0, 1), (.pkg, Fld.PKG_BAR4_WIN_ENABLE, 15, 1), (.pkg, Fld.PKG_BAR4_WIN_BASE, 15, 0)]

theorem witness_memory : (st tierDev).Canonical ∧ tierDev.ddrUndef = [] ∧ tierDev.inMemory 0x1FF 2 = true ∧ tierDev.cleanRange 0x1FF 2 ∧ tierDev.memKind 0x1FF = .hbm ∧
    tierDev.inMemory 0x80FFFFFFFFF 1 = true ∧ tierDev.cleanRange 0x80FFFFFFFFF 1 ∧ tierDev.memKind 0x80FFFFFFFFF = .ddr ∧
    tierDev.fldI .pkg Fld.PKG_BAR4_WIN_ENABLE 15 = 1 ∧ tierDev.fldI .pkg Fld.PKG_BAR4_WIN_ENABLE 0 = 0 ∧ tierDev.inMemory 0x81000000000 1 = false :=
  ⟨⟨rfl, rfl⟩, by decide +kernel, by decide +kernel, cleanRange_of (by decide +kernel), by decide +kernel, by decide +kernel, cleanRange_of (by decide +kernel), by decide +kernel, by decide +kernel, by decide +kernel, by decide +kernel⟩

theorem test_memory : (run (.hbmWrite 0x1FF [7, 8]) (st tierDev)).mem = [(0x1FF, 7), (0x200, 8)] ∧
    (run (.bar4Access true (15 * 0x200000000 + 0x1FF) [7] 0 []) (st tierDev)).mem = [(0x1FF, 7)] ∧
    (run (.ddrRead 0x80FFFFFFFFF 1 false []) (run (.ddrWrite 0x80FFFFFFFFF [9]) (st tierDev))).dev.out = [.bytes "memory-read" 0x80FFFFFFFFF [9]] ∧
    .readValue .pf 0 ∈ (run (.bar4Access false 5 [] 4 []) (st tierDev)).dev.out := by decide +kernel

/-- A poisoned line at 0x300. -/
def poisonSt : State := run (.hbmRead 0x300 256 true [(0x300, 4)]) (st tierDev)

theorem witness_line : tierDev.memKind 0x300 = .hbm ∧ 0x300 % 256 = 0 ∧ 0x300 ∉ tierDev.poison ∧ tierDev.memPage 0x300 = some (.hbmc 0 1) ∧
    tierDev.fld (.hbmc 0 1) Fld.HBMC_INJECT_MODE = 0 ∧ poisonSt.Canonical ∧ poisonSt.dev.poison = [0x300] ∧
    (run (.hbmRead 0x300 1 false [(0x300, 3)]) (st tierDev)).dev.cntOf (.hbmc 0 1) 3 = 3 ∧
    (run (.hbmWrite 0x3FF [1]) poisonSt).mem = [] ∧ (run (.hbmWrite 0x300 (List.replicate 256 1)) poisonSt).dev.poison = [] := by
  unfold State.Canonical; decide +kernel

theorem witness_scrub : tierDev.present (.hbmc 7 2) = true ∧ tierDev.fld (.hbmc 7 2) Fld.HBMC_STATE_SELF_REFRESH = 0 ∧ tierDev.fld (.hbmc 7 2) Fld.HBMC_INJECT_MODE = 0 ∧
    (run (.hbmScrub 7 2 0) (st tierDev)).dev.fld (.hbmc 7 2) Fld.HBMC_SCRUB_POS_LINE = 1 ∧ tierDev.present (.ddr 0 0) = true ∧ 0 < tierDev.tierBytes ∧
    tierDev.fld (.ddr 0 0) Fld.DDR_STATE_SELF_REFRESH = 0 ∧ tierDev.fld (.ddr 0 0) Fld.DDR_STATE_KEY_LOST = 0 ∧
    (run (.ddrScrub 0 0 0) (st tierDev)).dev.fld (.ddr 0 0) Fld.HBMC_SCRUB_POS_LINE = 1 := by decide +kernel

/-! ### Queues -/

/-- READY firmware on both I-dies' cores, Bus Master Enable of the PF. -/
def readyDev : Device := (((Device.reset.startCores 0).startCores 1).setFwState 7).setMsix ⟨[0], [], []⟩

/-- A queue of a type with its ring at an address, its completion queue, head and tail. -/
def aQueue (typ base size cq head tail : Nat) : Queue := ⟨typ, base, size, cq, 0, 0, 0, 1, 0, head, tail, 1, false, false, [], 0, 0, 0⟩

/-- The PF's submission queue 4 of a type with its ring at an address, whose completion queue 3 lies in HBM, and its event queue 5. -/
def qDev (typ base : Nat) : Device :=
  ((readyDev.setQueue 0 3 (aQueue 8 0x10000 16 0 0 0)).setQueue 0 4 (aQueue typ base 16 3 15 2)).setQueue 0 5 (aQueue 6 0x20000 16 0 3 4)

theorem witness_doorbell : (st (qDev 1 0x8000)).Canonical ∧ (qDev 1 0x8000).queue 0 4 = some (aQueue 1 0x8000 16 3 15 2) ∧ (qDev 1 0x8000).funcLive 0 = true ∧
    (qDev 1 0x8000).cfg.straps.crewRole ≠ 1 ∧ isSq 1 = true ∧ isSq 8 = false ∧ (15 : Nat) % 2 ^ 24 < 16 ∧ (16 : Nat) ≤ 16 % 2 ^ 24 ∧
    ((run (.doorbellWrite 0 4 15) (st (qDev 1 0x8000))).dev.queue 0 4).map Queue.tail = some 15 ∧
    ((run (.doorbellWrite 0 3 15) (st (qDev 1 0x8000))).dev.queue 0 3).map Queue.head = some 15 ∧
    ((run (.doorbellWrite 0 4 16) (st (qDev 1 0x8000))).dev.queue 0 4).map Queue.error = some true ∧
    idles (.doorbellWrite 0 4 1) (run (.doorbellWrite 0 4 16) (st (qDev 1 0x8000))) = true := by
  unfold State.Canonical; decide +kernel

theorem witness_doorbell_crew : ((crewDev 1).setQueue 0 9 { aQueue 1 0 16 3 0 0 with member := 5 }).queue 0 9 = some { aQueue 1 0 16 3 0 0 with member := 5 } ∧
    (run (.doorbellWrite 0 9 7) (st ((crewDev 1).setQueue 0 9 { aQueue 1 0 16 3 0 0 with member := 5 }))).dev.out = [.msg "doorbell" 5 [0, 9, 7]] ∧
    ((run (.doorbellForward 0 9 7) (st ((crewDev 2).setQueue 0 9 (aQueue 1 0 16 3 0 0)))).dev.queue 0 9).map Queue.tail = some 7 := by decide +kernel

theorem witness_fetch : (qDev 1 0x8000).mayFetch 0 4 = true ∧ (qDev 1 0x8000).ddrUndef = [] ∧ isHost (0x8000 + entrySize 1 * 15) = false ∧
    (qDev 1 0x8000).cleanRange (0x8000 + entrySize 1 * 15) (entrySize 1) ∧ (qDev 1 hostMem).mayFetch 0 4 = true ∧ isHost (hostMem + entrySize 1 * 15) = true ∧
    (qDev 1 hostMem).busMaster 0 = true ∧ (qDev 1 hostMem).hostReads.length < 4096 ∧
    (run (.queueEntryFetch 0 4) (st (qDev 1 0x8000))).dev.fetched = [⟨1, 0, 4, 0, List.replicate 64 0⟩] ∧
    (run (.queueEntryFetch 0 4) (st (qDev 1 hostMem))).dev.xfers.map Xfer.len = [64] :=
  ⟨by decide +kernel, by decide +kernel, by decide +kernel, cleanRange_of (by decide +kernel), by decide +kernel, by decide +kernel, by decide +kernel, by decide +kernel, by decide +kernel, by decide +kernel⟩

theorem witness_completionQueue : (qDev 1 0).queue 0 5 = some (aQueue 6 0x20000 16 0 3 4) ∧ (qDev 1 0).eventQueue 0 = some 5 ∧ (aQueue 6 0x20000 16 0 3 4).slotFree = true ∧
    (run (.cqModerationTimer 0 3) (st ((qDev 1 0).setQueue 0 3 { aQueue 8 0x10000 16 0 0 0 with unsig := 2 }))).dev.msix.pba = [0] ∧
    (qDev 1 0).vectorOpen 0 0 = false ∧ (withF (qDev 1 0) [(.msix 0, Fld.MSIX_MASK, 0, 0)]).vectorOpen 0 0 = true ∧
    ((run (.cqSpaceReturn 0 3) (st ((qDev 1 0).setQueue 0 3 { aQueue 8 0x10000 16 0 0 15 with head := 1, held := [List.replicate 16 7] }))).dev.queue 0 3).map
      Queue.tail = some 0 ∧
    ((run (.eventOverflow 0 5) (st ((qDev 1 0).setQueue 0 5 { aQueue 6 0x20000 16 0 3 4 with dropped := 1 }))).dev.queue 0 5).map Queue.dropped = some 0 := by decide +kernel

/-! ### The stroke sequencer -/

/-- Cells of memory from an address; bytes of 0 are left out. -/
def cells (a : Nat) (bs : List Nat) : Memory := Memory.wrBytes [] a (bs.map (BitVec.ofNat 8))

/-- Tile 0 of T-die 0 runs, and strand 0 stands at program counter 0 of a program given by its parcels. -/
def seqSt (parcels : List Nat) (x : Strand) : State :=
  ⟨(withF Device.reset [(.tile 0 0, Fld.TILE_RUN_RUNNING, 0, 1)]).setTile 0 0 { Tile.blank with rotation := [(0, 0)], strands := [(0, { x with st := .ready })] },
    cells (tileMem 0 0) (parcels.flatMap fun p => [p % 256, p / 256]), []⟩

/-- A strand with a stack. -/
def onStack (stk : List Cell) : Strand := { Strand.fresh 0 .ready with stack := stk }

/-- The stack after a command of a one-instruction program. -/
def stackAfter (c : Instr) (parcels : List Nat) (stk : List Cell) : List Cell := ((run c (seqSt parcels (onStack stk))).dev.strand 0 0 0).stack

/-- The strand after a command of a one-instruction program. -/
def strandAfter (c : Instr) (parcels : List Nat) (x : Strand) : Strand := (run c (seqSt parcels x)).dev.strand 0 0 0

/-- Every one-parcel instruction is due on a stack that its statement's clause admits, at the deepest stack of the clause. -/
theorem witness_due_one : (seqSt [] (onStack [])).Canonical ∧ ∀ p ∈ [(0x01, 0, 16), (0x02, 0, 15), (0x03, 0, 16), (0x51, 0, 16), (0x04, 0, 16), (0x05, 0, 15), (0x06, 0, 16),
    (0x07, 14, 15), (0x08, 255, 15), (0x09, 255, 15), (0x60, 0, 15), (0x61, 0, 15), (0x52, 0, 15), (0x24, 3, 15), (0x10, 0, 16), (0x11, 0, 16),
    (0x12, 0, 16), (0x13, 0, 16), (0x14, 0, 16), (0x15, 0, 16), (0x16, 0, 16), (0x17, 0, 16), (0x18, 0, 16), (0x19, 0, 16), (0x1A, 0, 16), (0x1B, 0, 16),
    (0x1C, 0, 16), (0x1D, 63, 16), (0x1E, 63, 16), (0x1F, 255, 16), (0x20, 255, 16), (0x21, 1, 16), (0x22, 0, 16), (0x23, 0, 16), (0x2F, 0, 16), (0x30, 15, 16),
    (0x31, 15, 15), (0x32, 15, 15), (0x33, 3, 15), (0x34, 3, 15), (0x35, 3, 15), (0x40, 0, 16), (0x41, 15, 16), (0x42, 14, 16), (0x44, 2, 16), (0x45, 2, 16),
    (0x48, 1, 16), (0x49, 1, 16)], (seqSt [256 * p.1 + p.2.1] (onStack (List.replicate p.2.2 7))).Due 0 0 0 p.1 p.2.1 0 := by
  unfold State.Canonical State.Due; decide +kernel

theorem witness_due_two : ∀ p ∈ [(0xC0, 0, 0xFFFF, 15), (0xC1, 0, 0x8000, 15), (0xC2, 0, 1, 16), (0xC3, 0, 0xFFFF, 16), (0xC8, 0, 32766, 16), (0xC9, 255, 0, 16),
    (0xC9, 1, 0xFFFF, 16), (0xCA, 0x2B, 0x0B, 15), (0xCB, 0x23, 0x1C, 16), (0xCC, 0x2B, 0x1B, 15), (0xD0, 255, 0xFFFF, 16), (0xD1, 255, 0, 16), (0xD2, 255, 9, 16), (0xD8, 0, 511, 16),
    (0xD8, 0, 512, 16)], (seqSt [256 * p.1 + p.2.1, p.2.2.1] (onStack (List.replicate p.2.2.2 7))).Due 0 0 0 p.1 p.2.1 p.2.2.1 := by
  unfold State.Due; decide +kernel

theorem test_stack : stackAfter (.nop 0 0 0) [0x0100] [1, 2] = [1, 2] ∧ stackAfter (.dup 0 0 0) [0x0200] [1, 2] = [1, 1, 2] ∧
    stackAfter (.drop 0 0 0) [0x0300] [1, 2] = [2] ∧ stackAfter (.swap 0 0 0) [0x0400] [1, 2, 3] = [2, 1, 3] ∧
    stackAfter (.overW 0 0 0) [0x0500] [1, 2] = [2, 1, 2] ∧ stackAfter (.rot 0 0 0) [0x0600] [3, 2, 1] = [1, 3, 2] ∧
    stackAfter (.pick 0 0 0) [0x0702] [5, 6, 7] = [7, 5, 6, 7] := by decide +kernel

theorem test_literals : stackAfter (.lit 0 0 0) [0x08FF] [] = [0xFF] ∧ stackAfter (.lits 0 0 0) [0x09FE] [] = [0xFFFFFFFFFFFFFFFE] ∧
    stackAfter (.lit16 0 0 0) [0xC000, 0x8001] [] = [0x8001] ∧ stackAfter (.lits16 0 0 0) [0xC100, 0x8001] [] = [0xFFFFFFFFFFFF8001] ∧
    stackAfter (.lith 0 0 0) [0xC200, 0x1234] [0xABCD] = [0xABCD1234] ∧ stackAfter (.sid 0 0 0) [0x6000] [] = [0] ∧
    stackAfter (.pitchNum 0 0 0) [0x6100] [] = [0] ∧ stackAfter (.lcnt 0 0 0) [0x2400] [] = [0] := by decide +kernel

theorem test_brc : (strandAfter (.brcld 0 0 0) [0x5100] (onStack [0x1FFFFFFFF])).brc = 0xFFFFFFFF ∧
    (strandAfter (.brcst 0 0 0) [0x5200] { onStack [] with brc := 9 }).stack = [9] := by decide +kernel

theorem test_arithmetic : stackAfter (.addW 0 0 0) [0x1000] [1, 0xFFFFFFFFFFFFFFFF] = [0] ∧ stackAfter (.subW 0 0 0) [0x1100] [1, 0] = [0xFFFFFFFFFFFFFFFF] ∧
    stackAfter (.mulW 0 0 0) [0x1200] [0x100000001, 0x100000001] = [0x200000001] ∧ stackAfter (.andW 0 0 0) [0x1300] [12, 10] = [8] ∧
    stackAfter (.orW 0 0 0) [0x1400] [12, 10] = [14] ∧ stackAfter (.xorW 0 0 0) [0x1500] [12, 10] = [6] ∧
    stackAfter (.notW 0 0 0) [0x1600] [0] = [0xFFFFFFFFFFFFFFFF] ∧ stackAfter (.shl 0 0 0) [0x1700] [65, 3] = [6] ∧
    stackAfter (.shr 0 0 0) [0x1800] [1, 0x8000000000000000] = [0x4000000000000000] ∧ stackAfter (.sar 0 0 0) [0x1900] [1, 0x8000000000000000] = [0xC000000000000000] := by
  decide +kernel

theorem test_compares : stackAfter (.eqW 0 0 0) [0x1A00] [4, 4] = [1] ∧ stackAfter (.ltu 0 0 0) [0x1B00] [1, 0xFFFFFFFFFFFFFFFF] = [0] ∧
    stackAfter (.lts 0 0 0) [0x1C00] [1, 0xFFFFFFFFFFFFFFFF] = [1] ∧ stackAfter (.shli 0 0 0) [0x1D3F] [1] = [0x8000000000000000] ∧
    stackAfter (.shri 0 0 0) [0x1E01] [0x8000000000000000] = [0x4000000000000000] ∧ stackAfter (.adds 0 0 0) [0x1FFF] [1] = [0] ∧
    stackAfter (.addi 0 0 0) [0xC300, 0x8000] [0x8000] = [0] := by decide +kernel

/-- A strand inside a loop of a body of `e` parcels. -/
def inLoops (stk : List Cell) (ls : List LoopLevel) : Strand := { onStack stk with loops := ls }

theorem witness_exits : (seqSt [0x2200] (inLoops [] [⟨0, 5, 3⟩])).Due 0 0 0 0x22 0 0 ∧ (seqSt [0x2300] (inLoops [1] [⟨0, 5, 3⟩])).Due 0 0 0 0x23 0 0 ∧
    (seqSt [0x2300] (inLoops [0] [⟨0, 5, 3⟩])).Due 0 0 0 0x23 0 0 ∧ (strandAfter (.lexit 0 0 0) [0x2200] (inLoops [] [⟨0, 5, 3⟩])).pc = 6 ∧
    (strandAfter (.lexit 0 0 0) [0x2200] (inLoops [] [⟨0, 5, 3⟩, ⟨0, 5, 2⟩])).pc = 0 ∧
    (strandAfter (.lexitnz 0 0 0) [0x2300] (inLoops [1] [⟨0, 5, 3⟩])).loops = [] ∧ (strandAfter (.lexitnz 0 0 0) [0x2300] (inLoops [0] [⟨0, 5, 3⟩])).pc = 1 ∧
    (run (.lexit 0 0 0) (seqSt [0x2200] (onStack []))).dev.fld (.tile 0 0) Fld.TILE_FAULT_CODE = 0x0101 := by
  unfold State.Due; decide +kernel

theorem witness_loops : (strandAfter (.loopN 0 0 0) [0xC800, 3] (onStack [0x100000002])).loops = [⟨2, 4, 2⟩] ∧
    (strandAfter (.loopN 0 0 0) [0xC800, 3] (onStack [0x100000000])).pc = 5 ∧ (strandAfter (.loopi 0 0 0) [0xC903, 2] (onStack [])).loops = [⟨2, 4, 2⟩] ∧
    (strandAfter (.loopi 0 0 0) [0xC903, 0] (onStack [])).pc = 5 ∧ (seqSt [0xC800, 3] (inLoops [1] (List.replicate 4 ⟨0, 9, 1⟩))).Due 0 0 0 0xC8 0 3 ∧
    (run (.loopN 0 0 0) (seqSt [0xC800, 3] (inLoops [1] (List.replicate 4 ⟨0, 9, 1⟩)))).dev.fld (.tile 0 0) Fld.TILE_FAULT_CODE = 0x0101 := by
  unfold State.Due; decide +kernel

theorem witness_skips : skipWalk ((seqSt [0x2002, 0xC000, 5, 0x0100] (onStack [0])).dev.parcel (seqSt [0x2002, 0xC000, 5, 0x0100] (onStack [0])).mem 0 0) none 32769 1 [] 2 = .at 4 ∧
    (seqSt [0x2002, 0xC000, 5, 0x0100] (onStack [0])).Due 0 0 0 0x20 2 0 ∧ (strandAfter (.skipz 0 0 0) [0x2002, 0xC000, 5, 0x0100] (onStack [0])).pc = 4 ∧
    (strandAfter (.skipz 0 0 0) [0x2002, 0xC000, 5, 0x0100] (onStack [1])).pc = 1 ∧ (strandAfter (.skipnz 0 0 0) [0x2102, 0xC000, 5, 0x0100] (onStack [1])).pc = 4 ∧
    (strandAfter (.endStrand 0 0 0) [0x2F00] (onStack [])).st = .done := by
  unfold State.Due; decide +kernel

/-- A strand whose generator 3 is given. -/
def withAg (stk : List Cell) (r : AddrGen) : Strand := { onStack stk with ag := [⟨0, 0, 0, 0, false, false⟩, ⟨0, 0, 0, 0, false, false⟩, ⟨0, 0, 0, 0, false, false⟩, r] }

theorem witness_generators : (seqSt [0x34 * 256 + 3] (withAg [] ⟨16, 6, 0xFFFFFFFF, 7, true, false⟩)).Due 0 0 0 0x34 3 0 ∧
    (strandAfter (.agap 0 0 0) [0x3403] (withAg [] ⟨16, 6, 3, 7, true, false⟩)).stack = [22] ∧
    ((strandAfter (.agap 0 0 0) [0x3403] (withAg [] ⟨16, 6, 3, 7, true, false⟩)).ag[3]?).map AddrGen.idx = some 2 ∧
    ((9 : Nat) : Int) % 7 = 2 ∧ ((strandAfter (.agadv 0 0 0) [0x3503] (withAg [] ⟨16, 0, 0xFFFFFFFF, 0, false, false⟩)).ag[3]?).map AddrGen.idx = some 0xFFFFFFFF ∧
    ((strandAfter (.agld 0 0 0) [0x300F] (withAg [0x100000005] ⟨0, 0, 0, 0, false, false⟩)).ag[3]?).map AddrGen.md = some 5 ∧
    (strandAfter (.agst 0 0 0) [0x310B] (withAg [] ⟨0, 0, 0x80000000, 0, false, false⟩)).stack = [0xFFFFFFFF80000000] ∧
    ((strandAfter (.agmode 0 0 0) [0x320F] (withAg [] ⟨0, 0, 0, 0, false, false⟩)).ag[3]?).map AddrGen.brev = some true ∧
    (strandAfter (.aga 0 0 0) [0x3303] (withAg [] ⟨0xFFFFFFFF, 1, 0, 0, false, false⟩)).stack = [0] := by
  unfold State.Due; decide +kernel

theorem witness_reversed : (seqSt [0x3303] (withAg [] ⟨16, 3, 0, 3, false, true⟩)).Due 0 0 0 0x33 3 0 ∧
    (strandAfter (.aga 0 0 0) [0x3303] (withAg [] ⟨16, 3, 0, 3, false, true⟩)).stack = [16] ∧
    ((run (.aga 0 0 0) (seqSt [0x3303] (withAg [] ⟨16, 3, 0, 3, false, true⟩))).dev.tile 0 0).cycle = 2 ∧
    (strandAfter (.agap 0 0 0) [0x3403] (withAg [] ⟨16, 1, 0, 3, false, true⟩)).stack = [18] ∧
    ((strandAfter (.agap 0 0 0) [0x3403] (withAg [] ⟨16, 2, 0, 3, false, true⟩)).ag[3]?).map AddrGen.idx = some 0 ∧
    ((strandAfter (.agadv 0 0 0) [0x3503] (withAg [] ⟨16, 1, 0, 3, false, true⟩)).ag[3]?).map AddrGen.idx = some 2 := by
  unfold State.Due; decide +kernel

theorem witness_skip_ends : (seqSt [0x2002, 0x0100] (inLoops [0] [⟨0, 0, 2⟩])).Due 0 0 0 0x20 2 0 ∧
    (strandAfter (.skipz 0 0 0) [0x2002, 0x0100] (inLoops [0] [⟨0, 0, 2⟩])).loops = [⟨0, 0, 1⟩] ∧
    (strandAfter (.skipnz 0 0 0) [0x2102, 0x0100] (inLoops [1] [⟨0, 1, 2⟩])).loops = [⟨0, 1, 1⟩] ∧
    skipWalk ((seqSt [0x2102, 0x0100] (inLoops [1] [⟨0, 1, 2⟩])).dev.parcel (seqSt [0x2102, 0x0100] (inLoops [1] [⟨0, 1, 2⟩])).mem 0 0) (some 1) 32769 1 [] 2 = .bodyEnd 1 ∧
    skipWalk ((seqSt [0x2001, 0x0A00] (onStack [0])).dev.parcel (seqSt [0x2001, 0x0A00] (onStack [0])).mem 0 0) none 32769 1 [] 1 = .bad 1 ∧
    (run (.skipz 0 0 0) (seqSt [0x2001, 0x0A00] (onStack [0]))).dev.fld (.tile 0 0) Fld.TILE_FAULT_CODE = 0x0102 ∧
    (run (.skipz 0 0 0) (seqSt [0x2001, 0x0A00] (onStack [0]))).dev.fld (.tile 0 0) Fld.TILE_FAULT_PC_PC = 1 := by
  unfold State.Due; decide +kernel

theorem witness_checks : opInfo 0x02 = some ⟨1, 0, 1, 2⟩ ∧ (seqSt [0x0201] (onStack [1])).dev.parcel (seqSt [0x0201] (onStack [1])).mem 0 0 0 / 256 = 0x02 ∧
    parcelsLegal 0x02 1 0 0 none = false ∧ parcelsLegal 0x02 0 0 0 none = true ∧
    (run (.dup 0 0 0) (seqSt [0x0201] (onStack [1]))).dev.fld (.tile 0 0) Fld.TILE_FAULT_CODE = 0x0102 ∧
    (run (.dup 0 0 0) (seqSt [0x0200] (onStack []))).dev.fld (.tile 0 0) Fld.TILE_FAULT_CODE = 0x0101 ∧
    (run (.dup 0 0 0) (seqSt [0x0200] (onStack (List.replicate 16 1)))).dev.fld (.tile 0 0) Fld.TILE_FAULT_CODE = 0x0101 ∧
    idles (.drop 0 0 0) (seqSt [0x0200] (onStack [1])) = true := by decide +kernel

theorem witness_patches : (seqSt [0x410F] (onStack [511, 7])).Due 0 0 0 0x41 15 0 ∧ (seqSt [0x420E] (onStack [512, 7])).Due 0 0 0 0x42 14 0 ∧
    (run (.dpatch 0 0 0) (seqSt [0x410F] (onStack [511, 0x9900000007]))).dev.rdN (run (.dpatch 0 0 0) (seqSt [0x410F] (onStack [511, 0x9900000007]))).mem
      (tileMem 0 0 + 0x10000 + 64 * 511 + 60) 4 = 7 ∧
    (run (.dpatchd 0 0 0) (seqSt [0x420E] (onStack [511, 0x9900000007]))).dev.rdN (run (.dpatchd 0 0 0) (seqSt [0x420E] (onStack [511, 0x9900000007]))).mem
      (tileMem 0 0 + 0x10000 + 64 * 511 + 56) 8 = 0x9900000007 ∧
    (run (.dpatch 0 0 0) (seqSt [0x410F] (onStack [512, 7]))).dev.fld (.tile 0 0) Fld.TILE_FAULT_CODE = 0x0104 ∧ encLegal 0x42 1 0 = false := by
  unfold State.Due; decide +kernel

/-- Descriptors by their words: a matrix product, a vector function and a copy. -/
def mmW : List Nat := [1 + 0x110000, 0x10001, 16, 0, 0x1000, 0, 0, 0x00200020, 0x100, 0, 0x200000, 0, 0x20, 0, 0, 0]
def vecW (vfn : Nat) : List Nat := [2, 0x00080001, vfn * 2 ^ 24, 0, 0x1000, 0, 0, 0x00200020, 0x100, 0, 0x200000, 0, 0x20, 0, 0, 0]
def moveW : List Nat := [3, 0x00100001, 0, 0, 0x1000, 0, 0, 0, 0, 0, 0x200000, 0, 0, 0, 0, 0]

/-- A state with more memory and a change of tile 0. -/
def more (s : State) (f : Tile → Tile) (a : Nat) (bs : List Byte) : State :=
  ⟨s.dev.setTile 0 0 (f (s.dev.tile 0 0)), Memory.wrBytes s.mem a bs, []⟩

/-- The state with descriptor `k` in place. -/
def issueSt (parcels : List Nat) (stk : List Cell) (k : Nat) (words : List Nat) (f : Tile → Tile) : State :=
  more (seqSt parcels (onStack stk)) f (tileMem 0 0 + 0x10000 + 64 * k) (words.flatMap (leBytes 4))

theorem witness_issue : (issueSt [0x4000] [511] 511 mmW id).Due 0 0 0 0x40 0 0 ∧
    (issueSt [0x4000] [511] 511 mmW id).dev.descriptor (issueSt [0x4000] [511] 511 mmW id).mem 0 0 511 = mmW ∧ dOp mmW = 1 ∧
    (issueSt [0x4000] [511] 511 mmW id).dev.descOk (issueSt [0x4000] [511] 511 mmW id).mem 0 0 mmW = true ∧
    ((run (.issue 0 0 0) (issueSt [0x4000] [511] 511 mmW id)).dev.tile 0 0).arrQ = [⟨0, 0, 0, 511, mmW⟩] := by
  unfold State.Due; decide +kernel

theorem witness_issue_full : 8 ≤ ((issueSt [0x4000] [511] 511 mmW (fun t => { t with arrQ := List.replicate 8 ⟨0, 1, 0, 0, mmW⟩ })).dev.tile 0 0).arrQ.length ∧
    (issueSt [0x4000] [511] 511 mmW (fun t => { t with arrQ := List.replicate 8 ⟨0, 1, 0, 0, mmW⟩ })).Due 0 0 0 0x40 0 0 ∧
    ((run (.issue 0 0 0) (issueSt [0x4000] [511] 511 mmW (fun t => { t with arrQ := List.replicate 8 ⟨0, 1, 0, 0, mmW⟩ }))).dev.strand 0 0 0).stall = 1 := by
  unfold State.Due; decide +kernel

theorem witness_issuei : ((run (.issuei 0 0 0) (issueSt [0xD800, 3] [] 3 moveW id)).dev.tile 0 0).movQ = [⟨0, 0, 0, 3, moveW⟩] ∧
    ((run (.issuei 0 0 0) (issueSt [0xD800, 3] [] 3 (vecW 0) id)).dev.tile 0 0).vecQ = [⟨0, 0, 0, 3, vecW 0⟩] ∧ dOp (vecW 0) = 2 ∧ dOp moveW = 3 ∧
    (issueSt [0xD800, 3] [] 3 [] id).dev.descOk (issueSt [0xD800, 3] [] 3 [] id).mem 0 0 (List.replicate 16 0) = false ∧
    (run (.issuei 0 0 0) (issueSt [0xD800, 3] [] 3 [] id)).dev.fld (.tile 0 0) Fld.TILE_FAULT_CODE = 0x0104 ∧
    (run (.issuei 0 0 0) (issueSt [0xD800, 512] [] 3 [] id)).dev.fld (.tile 0 0) Fld.TILE_FAULT_CODE = 0x0104 := by decide +kernel

/-- A one-instruction program with a landing buffer in a state. -/
def lbSt (parcel b v : Nat) : State := ⟨(seqSt [parcel] (onStack [])).dev.setLb 0 0 b v 0, (seqSt [parcel] (onStack [])).mem, []⟩

theorem witness_buffers : (lbSt 0x4801 1 2).Due 0 0 0 0x48 1 0 ∧ (lbSt 0x4801 1 2).dev.lbState 0 0 1 = 2 ∧ ((run (.lbwait 0 0 0) (lbSt 0x4801 1 2)).dev.strand 0 0 0).pc = 1 ∧
    ((run (.lbwait 0 0 0) (lbSt 0x4801 1 1)).dev.strand 0 0 0).st = .waitLb ∧ (run (.lbrel 0 0 0) (lbSt 0x4900 0 2)).dev.lbState 0 0 0 = 0 ∧
    (lbSt 0x4900 0 1).dev.lbState 0 0 0 = 1 ∧ (run (.lbrel 0 0 0) (lbSt 0x4900 0 1)).dev.fld (.tile 0 0) Fld.TILE_FAULT_CODE = 0x0108 := by
  unfold State.Due; decide +kernel

/-- A strand with generators 2 and 3. -/
def strAg (stk : List Cell) (brc : Nat) (a b : AddrGen) : Strand :=
  { onStack stk with brc := brc, ag := [⟨0, 0, 0, 0, false, false⟩, ⟨0, 0, 0, 0, false, false⟩, a, b] }

theorem witness_anchor : (seqSt [0x4402] (onStack [8])).dev.anchorOk 0 0 2 8 8 = true ∧ ((seqSt [0x4402] (onStack [8])).dev.tile 0 0).undef = [] ∧
    ((run (.ldw 0 0 0 []) (more (seqSt [0x4402] (onStack [8])) id (anchorKey 0 0 (2 * 12 * 8192 + 8)) [5])).dev.strand 0 0 0).stack = [5] ∧
    (seqSt [0x4501] (onStack [0x17FF8, 9])).dev.anchorOk 0 0 1 8 0x17FF8 = true ∧
    (run (.stw 0 0 0 []) (seqSt [0x4501] (onStack [0x17FF8, 0x0900]))).dev.anchorRead (run (.stw 0 0 0 []) (seqSt [0x4501] (onStack [0x17FF8, 0x0900]))).mem
      0 0 1 0x17FF8 8 = [0, 9, 0, 0, 0, 0, 0, 0] ∧
    (run (.stw 0 0 0 []) (seqSt [0x4501] (onStack [0x17FF8, 0x0900]))).dev.anchorRead (run (.stw 0 0 0 []) (seqSt [0x4501] (onStack [0x17FF8, 0x0900]))).mem
      0 0 0 0x17FF8 8 = [0, 0, 0, 0, 0, 0, 0, 0] := by decide +kernel

theorem witness_strings : (seqSt [0xCB23, 0x0C] (strAg [0x1122334455667788] 0 ⟨0, 0, 0, 0, false, false⟩ ⟨16, 0, 8, 0, false, false⟩)).Due 0 0 0 0xCB 0x23 0x0C ∧
    (seqSt [0xCB23, 0x0C] (strAg [0x1122334455667788] 0 ⟨0, 0, 0, 0, false, false⟩ ⟨16, 0, 8, 0, false, false⟩)).dev.anchorOk 0 0 (bits 0x23 4 2) (2 ^ (0x23 % 4)) 16 = true ∧
    (run (.ssplat 0 0 0 []) (seqSt [0xCB23, 0x0C] (strAg [0x1122334455667788] 0 ⟨0, 0, 0, 0, false, false⟩ ⟨16, 0, 8, 0, false, false⟩))).dev.anchorRead
      (run (.ssplat 0 0 0 []) (seqSt [0xCB23, 0x0C] (strAg [0x1122334455667788] 0 ⟨0, 0, 0, 0, false, false⟩ ⟨16, 0, 8, 0, false, false⟩))).mem 0 0 2 16 8 =
        leBytes 8 0x1122334455667788 ∧
    (seqSt [0xCA29, 0x0E] (strAg [] 0 ⟨0, 0, 2, 0, false, false⟩ ⟨16, 0, 2, 0, false, false⟩)).Due 0 0 0 0xCA 0x29 0x0E ∧
    completes (.scopy 0 0 0 []) (seqSt [0xCA29, 0x0E] (strAg [] 0 ⟨0, 0, 2, 0, false, false⟩ ⟨16, 0, 2, 0, false, false⟩)) = true ∧
    ((run (.smatch 0 0 0 []) (seqSt [0xCC29, 0x0E] (strAg [] 0 ⟨0, 0, 2, 0, false, false⟩ ⟨16, 0, 2, 0, false, false⟩))).dev.strand 0 0 0).stack = [0] := by
  unfold State.Due; decide +kernel

theorem witness_string_runs : (seqSt [0xCB23, 0x1C] (strAg [7] 2 ⟨0, 0, 0, 0, false, false⟩ ⟨16, 0, 8, 0, false, false⟩)).Due 0 0 0 0xCB 0x23 0x1C ∧ bit 0x1C 4 = true ∧
    ((run (.ssplat 0 0 0 []) (seqSt [0xCB23, 0x1C] (strAg [7] 2 ⟨0, 0, 0, 0, false, false⟩ ⟨16, 0, 8, 0, false, false⟩))).dev.strand 0 0 0).brc = 1 ∧
    ((run (.stringRunElement 0 0 0 []) (seqSt [0xCB23, 0x1C] (strAg [7] 2 ⟨0, 0, 0, 0, false, false⟩ ⟨16, 0, 8, 0, false, false⟩))).dev.strand 0 0 0).pc = 0 ∧
    (seqSt [0xCC2B, 0x1E] (strAg [7] 0 ⟨0, 0, 0, 0, false, false⟩ ⟨16, 0, 8, 0, false, false⟩)).Due 0 0 0 0xCC 0x2B 0x1E ∧
    ((run (.smatch 0 0 0 []) (seqSt [0xCC2B, 0x1E] (strAg [7] 0 ⟨0, 0, 0, 0, false, false⟩ ⟨16, 0, 8, 0, false, false⟩))).dev.strand 0 0 0).stack = [0, 7] := by
  unfold State.Due; decide +kernel

theorem witness_tokens : (more (seqSt [0xD0FF, 5] (onStack [])) (fun t => { t with chans := [(255, 5)] }) 0 []).Due 0 0 0 0xD0 255 5 ∧
    Tbl.lookD ((run (.wait 0 0 0) (more (seqSt [0xD0FF, 5] (onStack [])) (fun t => { t with chans := [(255, 5)] }) 0 [])).dev.tile 0 0).chans 255 0 = 0 ∧
    ((run (.wait 0 0 0) (more (seqSt [0xD0FF, 5] (onStack [])) (fun t => { t with chans := [(255, 4)] }) 0 [])).dev.strand 0 0 0).st = .waitToken ∧
    ((run (.signal 0 0 0) (seqSt [0xD1FF, 3] (onStack []))).dev.tile 0 0).sigs = [⟨0, 0, 0, 0, 255, 3⟩] ∧
    ((run (.signal 0 0 0) (seqSt [0xD1FF, 0] (onStack []))).dev.tile 0 0).sigs = [] ∧
    ((run (.signalr 0 0 0) (seqSt [0xD2FF, 3] (onStack [0x707FF]))).dev.tile 0 0).sigs = [⟨0, 0, 7, 2047, 255, 3⟩] ∧ Device.reset.hasTdie (0x707FF / 65536) = true ∧
    (run (.signalr 0 0 0) (seqSt [0xD2FF, 3] (onStack [0x80000]))).dev.fld (.tile 0 0) Fld.TILE_FAULT_CODE = 0x0104 ∧
    (run (.signalr 0 0 0) (seqSt [0xD2FF, 3] (onStack [0x800]))).dev.fld (.tile 0 0) Fld.TILE_FAULT_CODE = 0x0104 := by
  unfold State.Due; decide +kernel

/-! ### The tensor tile -/

/-- Operation `k` of strand 0 with its words. -/
def anOp (words : List Nat) : TensorOp := ⟨0, 0, 0, 0, words⟩

/-- Tile 0 of T-die 0 with an operation at the head of the queue that takes it, and bytes in its anchor store. -/
def opSt (words : List Nat) (bytes : List (Nat × List Byte)) : State :=
  ⟨Device.reset.setTile 0 0 (match dOp words with
    | 1 => { Tile.blank with arrQ := [anOp words] }
    | 3 => { Tile.blank with movQ := [anOp words] }
    | _ => { Tile.blank with vecQ := [anOp words] }), bytes.foldl (fun (m : Memory) x => Memory.wrBytes m x.1 x.2) [], []⟩

/-- BF16 1.0 times 2.0 into the cluster buffer in FP32. -/
def mmC : List Nat := [1 + 0x110000, 0x10001, 16, 0, 0x1000, 0, 0, 0x00200020, 0x100, 0, 0x1800000, 0, 0x20, 0, 0, 0]
/-- One row of two FP32 elements: a sum, a tree mask, a vector function and a copy, to the cluster buffer. -/
def row2 (op vfn : Nat) : List Nat := [op, 0x00020001, vfn * 2 ^ 24, 0, 0x1000, 0, 0, 0x00200020, 0x100, 0, 0x1800000, 0, 0x20, 0, 0, 0]
def onesA : List (Nat × List Byte) := [(anchorKey 0 0 0, leBytes 4 0x3F800000 ++ leBytes 4 0x40000000), (anchorKey 0 0 0x100, leBytes 4 0x3F800000 ++ leBytes 4 0x3F800000)]

theorem witness_mm : (opSt mmC []).Canonical ∧ (opSt mmC []).dev.tileLive 0 0 = true ∧ ((opSt mmC []).dev.tile 0 0).strandClear (anOp mmC) = true ∧ dRelB mmC = false ∧
    (opSt mmC []).dev.operandBReady 0 0 mmC = true ∧ dM mmC = 1 ∧ dN mmC = 1 ∧ dFmtOut mmC = 0 ∧ dAcc mmC = false ∧ locSpace (dOut mmC) = 3 ∧
    (fmtElem (dFmtA mmC)).isSome = true ∧ (kSlice (dFmtA mmC) (dFmtB mmC)).isSome = true ∧
    (let t := run (.mmExecute 0 0 [] false) (opSt mmC [(anchorKey 0 0 0, [0x80, 0x3F]), (anchorKey 0 0 0x100, [0, 0x40])])
     (t.dev.tile 0 0).arrQ = [] ∧ t.dev.locRead t.mem 0 0 (dOut mmC) 0 4 = leBytes 4 0x40000000) := by
  unfold State.Canonical; decide +kernel

theorem witness_vec : (opSt (row2 2 0x20) []).dev.operandBReady 0 0 (row2 2 0) = true ∧ dOp (row2 2 0) = 2 ∧ dVfn (row2 2 0) < 0x20 ∧ dM (row2 2 0) = 1 ∧
    (let t := run (.vecExecute 0 0 []) (opSt (row2 2 0) onesA)
     (t.dev.tile 0 0).vecQ = [] ∧ t.dev.locRead t.mem 0 0 (dOut (row2 2 0)) 0 8 = packCodes 0 ((opSt (row2 2 0) onesA).dev.vecRow (opSt (row2 2 0) onesA).mem 0 0 (row2 2 0) 0)) := by
  decide +kernel

theorem witness_tsum : dOp (row2 4 0) = 4 ∧ (let t := run (.tsumExecute 0 0 []) (opSt (row2 4 0) onesA)
    (t.dev.tile 0 0).vecQ = [] ∧ t.dev.locRead t.mem 0 0 (dOut (row2 4 0)) 0 8 = leBytes 4 0x40000000 ++ leBytes 4 0x40400000) := by decide +kernel

theorem witness_tmask : dOp (row2 5 0) = 5 ∧ (let t := run (.tmaskExecute 0 0 []) (opSt (row2 5 0) [(anchorKey 0 0 0, leBytes 4 5 ++ leBytes 4 6), (anchorKey 0 0 0x104, [1]),
      (anchorKey 0 0 0x110, [0xFF])])
    (t.dev.tile 0 0).vecQ = [] ∧ t.dev.locRead t.mem 0 0 (dOut (row2 5 0)) 0 8 = leBytes 4 5 ++ leBytes 4 0xFF800000) := by decide +kernel

/-- A copy of 16 bytes in a direction, to or from HBM at 0x1000, or to tile 17 of T-die 7. -/
def moveC (dir : Nat) : List Nat := [3 + dir * 2 ^ 12, 0x00100001, 0, 0, 0x1000, 0, 0, 0, 0, 0, if dir = 1 then 0x400000 else 0x1800000, 0, 0, if dir = 1 then 0x07000011 else 0,
  if dir = 0 ∨ dir = 1 then 0 else 0x1000, 0]

theorem witness_move : dOp (moveC 0) = 3 ∧ dDir (moveC 0) = 0 ∧ (let t := run (.moveExecute 0 0 [] []) (opSt (moveC 0) onesA)
    (t.dev.tile 0 0).movQ = [] ∧ t.dev.locRead t.mem 0 0 (dOut (moveC 0)) 0 8 = leBytes 4 0x3F800000 ++ leBytes 4 0x40000000) := by decide +kernel

theorem witness_move_beyond : dDir (moveC 1) = 1 ∧ dDir (moveC 2) = 2 ∧ dDir (moveC 3) = 3 ∧ dM (moveC 3) = 1 ∧ (opSt (moveC 2) []).dev.memKind (dDevAddr (moveC 2)) = .hbm ∧
    (opSt (moveC 2) []).dev.inMemory (dDevAddr (moveC 2)) 16 = true ∧ (opSt (moveC 2) []).dev.cleanRange (dDevAddr (moveC 2)) 16 ∧
    (run (.moveExecute 0 0 [] []) (opSt (moveC 1) onesA)).dev.mesh.writes.map (fun w => (w.die, w.inst)) = [(7, 17)] ∧
    (let t := run (.moveExecute 0 0 [] []) (opSt (moveC 2) [(0x1000, [9])])
     t.dev.locRead t.mem 0 0 (dOut (moveC 2)) 0 1 = [9]) ∧ (run (.moveExecute 0 0 [] []) (opSt (moveC 3) onesA)).mem.rdByte 0x1003 = 0x3F :=
  ⟨by decide +kernel, by decide +kernel, by decide +kernel, by decide +kernel, by decide +kernel, by decide +kernel, cleanRange_of (by decide +kernel), by decide +kernel,
    by decide +kernel, by decide +kernel⟩

theorem witness_tileFault : State.reset.dev.present (.tile 7 2047) = true ∧ State.reset.dev.fld (.tile 7 2047) Fld.TILE_RUN_FAULTED ≠ 1 ∧
    (∀ c ∈ [0x0101, 0x010A], (run (.tileFault 7 2047 c (some 63)) State.reset).dev.fld (.tile 7 2047) Fld.TILE_FAULT_CODE = c) ∧
    (run (.tileFault 7 2047 0x0101 none) State.reset).dev.fld (.rgn 7 15) Fld.STATUS_FENCED = 1 ∧
    idles (.tileFault 7 2047 0x010A none) (run (.tileFault 7 2047 0x0101 none) State.reset) = true ∧ State.reset.dev.present (.clu 7 127) = true ∧
    (run (.cbufUe 7 127 0) State.reset).dev.fld (.rgn 7 15) Fld.STATUS_FENCED = 1 := by decide +kernel

theorem witness_scrub_stall : (withF Device.reset [(.tile 0 0, Fld.TILE_SCRUB_ENABLE, 0, 1)]).committedWord 0 0 0x40000 = true ∧
    (withF Device.reset [(.tile 0 0, Fld.TILE_SCRUB_ENABLE, 0, 1)]).tileLive 0 0 = true ∧
    (run (.anchorScrub 0 0 (some true)) (st (withF Device.reset [(.tile 0 0, Fld.TILE_SCRUB_ENABLE, 0, 1)]))).dev.fld (.tile 0 0) Fld.TILE_FAULT_CODE = 0x0106 ∧
    ((run (.anchorScrub 0 0 none) (st (withF Device.reset [(.tile 0 0, Fld.TILE_SCRUB_ENABLE, 0, 1)]))).dev.tile 0 0).scrub = 1 ∧
    (Tbl.look ((seqSt [] (onStack [])).dev.tile 0 0).strands 0).map Strand.st = some .ready ∧
    (run (.stallTimeout 0 0 0) (seqSt [] (onStack []))).dev.fld (.tile 0 0) Fld.TILE_FAULT_CODE = 0x0103 := by decide +kernel

theorem witness_tileMem : ∀ w ∈ [0, 0x2FFF], (withF Device.reset [(.tile 0 0, Fld.TILE_MEM_ADDR_WORD, 0, w), (.tile 0 0, Fld.STATUS_HALTED, 0, 1)]).mayAccess .pf (.tile 0 0) = true ∧
    8 * (withF Device.reset [(.tile 0 0, Fld.TILE_MEM_ADDR_WORD, 0, w)]).fld (.tile 0 0) Fld.TILE_MEM_ADDR_WORD + 8 ≤ 0x18000 ∧
    (run (.tileMemAccess .pf 0 0 true 64 false 7 none) (st (withF Device.reset [(.tile 0 0, Fld.TILE_MEM_ADDR_WORD, 0, w), (.tile 0 0, Fld.STATUS_HALTED, 0, 1)]))).mem =
      [(tileMem 0 0 + 8 * w, 7)] ∧
    (run (.tileMemAccess .pf 0 0 true 64 false 7 none) (st (withF Device.reset [(.tile 0 0, Fld.TILE_MEM_ADDR_WORD, 0, w)]))).dev.fld (.tile 0 0) Fld.ERR_STAT_H_WRITE = 1 := by
  decide +kernel

/-- A running region of partition 3 with one tile whose strand is done. -/
def doneSt : State :=
  ⟨(withF ((seqSt [] (onStack [])).dev.setTile 0 0 { Tile.blank with strands := [(0, { onStack [] with st := .done })] })
    [(.rgn 0 0, Fld.RGN_STATE_PVALID, 0, 1), (.rgn 0 0, Fld.RGN_STATE_PTAG, 0, 3), (.rgn 0 0, Fld.RGN_STATE_STATE, 0, 1)]), [], []⟩

theorem witness_tileDone : doneSt.dev.tileLive 0 0 = true ∧ doneSt.dev.fld (.tile 0 0) Fld.TILE_RUN_RUNNING = 1 ∧ doneSt.dev.fld (.tile 0 0) Fld.TILE_RUN_DONE ≠ 1 ∧
    (doneSt.dev.tile 0 0).finished = true ∧ doneSt.dev.regionPart 0 0 = some 3 ∧ doneSt.dev.fld (rgnOf 0 0) Fld.RGN_STATE_STATE = 1 ∧
    (doneSt.dev.put (.tile 0 0) Fld.TILE_RUN_DONE 1).regionTilesDone 0 0 = true ∧ (run (.tileDone 0 0) doneSt).dev.fld (.tile 0 0) Fld.TILE_RUN_DONE = 1 := by decide +kernel

/-- A mesh write of partition 3 from tile 1 to the cluster buffer of tile 0, and one from outside its partition. -/
def meshDev : Device :=
  (withF Device.reset [(.tile 0 0, Fld.TILE_PART_VALID, 0, 1), (.tile 0 0, Fld.TILE_PART_TAG, 0, 3), (.tile 0 1, Fld.TILE_PART_VALID, 0, 1), (.tile 0 1, Fld.TILE_PART_TAG, 0, 3)]).setMesh
    ⟨[⟨0, 0, 1, 0, 0, 0, true, 0x10, [5, 6]⟩, ⟨1, 0, 2, 0, 0, 0, false, 0, [7]⟩], [⟨4, some 3, 0, 0, 255, 65535, 0, 0, 1⟩, ⟨5, some 3, 0, 0, 255, 2, 1, 0, 1⟩, ⟨6, some 3, 0, 0, 255, 2, 9, 0, 1⟩], 7⟩

theorem witness_mesh : (st meshDev).Canonical ∧ (meshDev.mesh.writes.find? (fun w => w.id = 0)).map MeshWrite.cbuf = some true ∧ meshDev.stopped (tileIsland 0 0) = false ∧
    meshDev.tilePart 0 0 = meshDev.tilePart 0 1 ∧ meshDev.tilePart 0 0 = some 3 ∧ meshDev.tilePart 0 2 = none ∧
    (run (.meshWriteArrive 0 []) (st meshDev)).mem = [(cbufMem 0 0 + 0x10, 5), (cbufMem 0 0 + 0x11, 6)] ∧
    (run (.meshWriteArrive 1 []) (st meshDev)).dev.cntOf (.tile 0 0) 7 = 1 ∧ (run (.meshWriteArrive 1 []) (st meshDev)).mem = [] := by
  unfold State.Canonical; decide +kernel

theorem witness_tokenArrive : meshDev.tagFit 0 0 0 0 = .equal ∧ meshDev.tagFit 0 0 1 0 = .early ∧ (meshDev.heldTokens 0 0).length < 64 ∧
    Tbl.lookD ((run (.tokenWriteArrive 4) (st meshDev)).dev.tile 0 0).chans 255 0 = 65535 ∧ ((run (.tokenWriteArrive 5) (st meshDev)).dev.heldTokens 0 0).length = 1 := by decide +kernel

theorem witness_tokenStale : (withF meshDev [(.tile 0 0, Fld.TILE_PITCH_NUM_PITCH, 0, 20)]).tagFit 0 0 1 0 = .stale ∧
    (run (.tokenWriteArrive 5) (st (withF meshDev [(.tile 0 0, Fld.TILE_PITCH_NUM_PITCH, 0, 20)]))).dev.mesh.tokens.map TokenWrite.id = [4, 6] := by decide +kernel

theorem witness_tokenDeliver : ((meshDev.setTile 0 1 { Tile.blank with sigs := [⟨2, 0, 0, 1, 7, 3⟩, ⟨4, 0, 7, 1, 7, 3⟩] }).tile 0 1).opsDone 2 0 = true ∧
    Tbl.lookD ((run (.tokenDeliver 0 1 2) (st (meshDev.setTile 0 1 { Tile.blank with sigs := [⟨2, 0, 0, 1, 7, 3⟩, ⟨4, 0, 7, 1, 7, 3⟩] }))).dev.tile 0 1).chans 7 0 = 3 ∧
    (run (.tokenDeliver 0 1 4) (st (meshDev.setTile 0 1 { Tile.blank with sigs := [⟨2, 0, 0, 1, 7, 3⟩, ⟨4, 0, 7, 1, 7, 3⟩] }))).dev.mesh.tokens.length = 4 := by decide +kernel

/-! ### The belay network -/

theorem witness_holdRaise : State.reset.Canonical ∧ State.reset.dev.mayAccess .pf .bly = true ∧ (∀ k ∈ [6, 15], State.reset.dev.fldI .bly Fld.BLY_HOLD_CTL_ACTIVE k = 0 ∧
    (run (.holdRaise .pf k 1 0 0 false) State.reset).dev.fldI .bly Fld.BLY_HOLD_CTL_KIND k = 1 ∧ (run (.holdRaise .pf k 1 0 0 false) State.reset).dev.belay.inForce = [k]) ∧
    (withF Device.reset [(.kvt 0, Fld.KVT_STATE_DEBUG_OPEN, 0, 1)]).mayAccess .debug .bly = true ∧
    (run (.holdRaise .debug 5 0 1 31 true) (st (withF Device.reset [(.kvt 0, Fld.KVT_STATE_DEBUG_OPEN, 0, 1)]))).dev.fldI .bly Fld.BLY_HOLD_CTL_SCOPE 5 = 1 := by
  unfold State.Canonical; decide +kernel

theorem witness_holdRaise_crew : (withF (crewDev 2) [(.pkg, Fld.PKG_CREW_MASK_MEMBERS, 0, 7)]).crewMembers = [0, 1, 2] ∧ (crewDev 2).cfg.straps.crewRole ≠ 1 ∧
    Tbl.look (run (.holdRaise .pf 6 1 2 0 false) (st (withF (crewDev 2) [(.pkg, Fld.PKG_CREW_MASK_MEMBERS, 0, 7)]))).dev.belay.crewWait 6 = some [0, 1, 2] ∧
    (run (.holdRaise .pf 6 1 0 0 false) State.reset).dev.fldI .bly Fld.BLY_HOLD_CTL_KIND 6 ≠ 0 % 2 ∧
    bit ((run (.holdRaise .pf 6 0 0 0 false) (run (.holdRaise .pf 6 1 0 0 false) State.reset)).dev.fld .bly Fld.ERR_STAT_BLOCK) 0 = true := by decide +kernel

theorem witness_crewHold_pin : State.reset.dev.fldI .bly Fld.BLY_HOLD_CTL_ACTIVE 4 = 0 ∧ State.reset.dev.fldI .bly Fld.BLY_HOLD_CTL_ACTIVE 1 = 0 ∧
    (run (.crewHold true 1 false) State.reset).dev.belay.inForce = [4] ∧
    (run (.crewHold false 0 false) (run (.crewHold true 1 false) State.reset)).dev.fldI .bly Fld.BLY_HOLD_CTL_ACTIVE 4 = 0 ∧
    (run (.belayInEdge 20) (st (withF Device.reset [(.bly, Fld.BLY_PIN_IN_EN, 0, 1)]))).dev.fldI .bly Fld.BLY_HOLD_CTL_ACTIVE 1 = 1 ∧
    (run (.belayInEdge 19) (st (withF Device.reset [(.bly, Fld.BLY_PIN_IN_EN, 0, 1)]))).dev.fldI .bly Fld.BLY_HOLD_CTL_ACTIVE 1 = 0 := by decide +kernel

/-- A partition of a function that holds nothing. -/
def plainPart (f : Nat) : Partition :=
  ⟨f, [], ⟨0, 0⟩, none, [], [], [], [], 0, [], [], 0, none, 0, 0, 0, 0, [], [], [], [], 0, none, false, 0, 0, false⟩

/-- VF 127 owns partition 31, and asked for a freeze at a time. -/
def freezeDev (last : Tbl Nat) (now : Nat) : Device :=
  ((Device.reset.setParts [(31, plainPart 127)]).setBelay { Device.reset.belay with vfLast := last }).setClk { Device.reset.clk with now := now }

theorem witness_freeze : (Tbl.look (freezeDev [] 5).parts 31).map Partition.func = some 127 ∧ Tbl.look (freezeDev [(31, 5)] 1000005).belay.vfLast 31 = some 5 ∧
    (run (.vfTelFreeze 127 31 true) (st (freezeDev [(31, 5)] 1000005))).dev.fld .bly Fld.BLY_VF_FREEZE = 0x80000000 ∧
    (run (.vfTelFreeze 127 31 true) (st (freezeDev [(31, 5)] 1000004))).dev.cntOf (.vf 127) 1 = 1 ∧
    (run (.vfTelFreeze 127 31 false) (run (.vfTelFreeze 127 31 true) (st (freezeDev [] 5)))).dev.fld .bly Fld.BLY_VF_FREEZE = 0 ∧
    (run (.blyPfFreeze 0x100000002) (st (freezeDev [] 5))).dev.fld .bly Fld.BLY_PF_FREEZE = 2 := by decide +kernel

/-- A package stop whose wave has two participants left, and one with its last. -/
def waveDev (w : HoldWave) (force : List Nat) (h : Tbl Nat) : Device :=
  ((withF Device.reset [(.bly, Fld.BLY_HOLD_CTL_ACTIVE, 6, 1), (.bly, Fld.BLY_HOLD_CTL_KIND, 6, 1)]).setBelay
    { Device.reset.belay with waves := [w], inForce := force }).setHold h

theorem witness_holdMessage : (waveDev ⟨6, false, false, true, [0, 0xF00], [0, 0xF00]⟩ [6] []).holdLevel 6 = 2 ∧
    (run (.holdMessage 0xF00 [3]) (st (waveDev ⟨6, false, false, true, [0, 0xF00], [0, 0xF00]⟩ [6] []))).dev.holdOf 0xF00 = 2 ∧
    Tbl.look (run (.holdMessage 0 [3]) (st (waveDev ⟨6, false, false, true, [0, 0xF00], [0, 0xF00]⟩ [6] []))).dev.belay.cuts 0 = some ⟨[3], 0, 0, 0⟩ ∧
    ((Tbl.look (run (.markerArrive 0 3 5 false) (run (.holdMessage 0 [3]) (st (waveDev ⟨6, false, false, true, [0, 0xF00], [0, 0xF00]⟩ [6] [])))).dev.belay.cuts 0).map
      IslandCut.waiting) = some [] ∧
    (run (.cutDone none) (st (waveDev ⟨6, false, false, true, [], []⟩ [6] []))).dev.fldI .bly Fld.BLY_HOLD_STAT_DONE 6 = 1 := by decide +kernel

theorem witness_release : (run (.releaseMessage 0) (st (waveDev ⟨6, true, false, true, [0, 1], []⟩ [] [(0, 2), (1, 2)]))).dev.hold = [(1, 2)] ∧
    (run (.releaseMessage 1) (st (waveDev ⟨6, true, false, true, [1], []⟩ [] [(1, 2)]))).dev.belay.waves = [] ∧ delSet 1 [1] = [] ∧ delSet 0 [0, 1] ≠ [] ∧
    (withF Device.reset [(.bly, Fld.BLY_HOLD_CTL_ACTIVE, 15, 1)]).fldI .bly Fld.BLY_HOLD_CTL_SCOPE 15 ≠ 2 ∧
    (run (.holdRelease .pf 15) (st (withF Device.reset [(.bly, Fld.BLY_HOLD_CTL_ACTIVE, 15, 1)]))).dev.fldI .bly Fld.BLY_HOLD_CTL_ACTIVE 15 = 0 := by decide +kernel

/-! ### The rope -/

/-- The context of a list with its entries' words, for partition 3, pitch 9, and multicast set 0 of one cluster and one tile. -/
def ropeX (ws : List (List Nat)) : RopeCtx :=
  ⟨ws.map fun w => w.flatMap (leBytes 4), 0, [], 3, 9, 0, [(fkey (.rope 0 0) Fld.ROPE_MCAST_VALID 0, 1), (fkey (.rope 0 0) Fld.ROPE_MCAST_REGION 0, 1),
    (fkey (.rope 0 0) Fld.ROPE_MCAST_CLUSTER 0, 1), (fkey (.rope 0 0) Fld.ROPE_MCAST_TILE 0, 1)], none, none, none, false, false⟩

/-- Engine 0 of T-die 0's stack 0 with a list in context 0. -/
def ropeDev (x : RopeCtx) : Device := (withF (Device.reset.setParts [(3, plainPart 0)]) [(.rgn 0 0, Fld.RGN_STATE_PVALID, 0, 1), (.rgn 0 0, Fld.RGN_STATE_PTAG, 0, 3),
  (.tile 0 0, Fld.TILE_PITCH_NUM_PITCH, 0, 9)]).setRopes [(0, x)]

def deliverW : List Nat := [0x111, 4096, 0, 0, 0x1000, 0, 0x8000, 0, 0, 0, 0, 0, 0, 0, 0, 0]
def stageW (check : Nat) : List Nat := [0x112 + 2 ^ 12 * check + 2 ^ 14 * 3, 4096, 0, 0, 0x1000, 0, 0x8000, 0, 0x20000, 0, 0x8004, 0, 0, 0, 0, 0]
def selectW : List Nat := [3, 100, 2, 0, 0x4000, 0, 1, 0, 0, 0, 0, 0, 0, 0, 0, 0]
def endW : List Nat := 15 :: List.replicate 15 0

theorem witness_ropeFetch : (st (ropeDev (ropeX [deliverW]))).Canonical ∧ ropeKey 0 0 0 0 = 0 ∧ (ropeDev (ropeX [deliverW])).ropeFetch 0 = .entry (ropeX [deliverW]) deliverW ∧
    rType deliverW = 1 ∧ (ropeDev (ropeX [stageW 1])).ropeFetch 0 = .entry (ropeX [stageW 1]) (stageW 1) ∧ rType (stageW 1) = 2 ∧
    (ropeDev (ropeX [selectW, endW])).ropeFetch 0 = .entry (ropeX [selectW, endW]) selectW ∧ rType selectW = 3 ∧
    (ropeDev (ropeX [endW])).ropeFetch 0 = .entry (ropeX [endW]) endW ∧ rType endW = 15 ∧ (ropeDev (ropeX [])).ropeFetch 0 = .fault 0x0503 := by
  unfold State.Canonical; decide +kernel

theorem test_rope : (run (.ropeDeliver 0 0 0 0) (st (ropeDev (ropeX [deliverW])))).dev.tapQ = [⟨1, 0, 0, .coming⟩] ∧
    ((Tbl.look (run (.ropeDeliver 0 0 0 0) (st (ropeDev (ropeX [deliverW])))).dev.flows 1).map fun f => (f.elemLen, f.scaleLen, f.pitch)) = some (4096, 0, 9) ∧
    (run (.ropeSelect 0 0 0 0) (st (ropeDev (ropeX [selectW, endW])))).dev.engState 0 = 2 ∧
    ((Tbl.look (run (.ropeEnd 0 0 0 0) (st (ropeDev (ropeX [endW])))).dev.parts 3).map Partition.listsDone) = some [0] ∧
    (run (.ropeStage 0 0 0 0) (st (ropeDev (ropeX [])))).dev.fld (.rope 0 0) Fld.ROPE_FAULT_CODE = 0x0503 := by decide +kernel

/-- A selection opened, with and without a matching record of MASK 3 in HBM. -/
def selX : RopeCtx := { ropeX [selectW, endW] with opened := some ⟨selectW, 0, 0, 0, 0, [], false⟩ }
def selSt (tag : Nat) : State := ⟨ropeDev selX, cells 0x4000 [tag, 0, 0, 0, 0, 0, 0, 0, 3], []⟩

theorem witness_select : (selSt 109).dev.ropeLive 0 = true ∧ Tbl.look (selSt 109).dev.ropes 0 = some selX ∧ selX.subs = [] ∧ (selSt 109).dev.cleanRange (rRec selectW) 64 ∧
    (selSt 109).dev.rdN (selSt 109).mem (rRec selectW) 4 = (rTagBase selectW + selX.pitch) % 2 ^ 32 ∧ (selSt 109).dev.rdN (selSt 109).mem (rRec selectW + 4) 4 = 0 ∧
    (selSt 109).dev.ropeHbm (rRec selectW) 64 = true ∧ ((Tbl.look (run (.ropeSelectPoll 0 0 0 0 []) (selSt 109)).dev.ropes 0).map RopeCtx.subs) = some [(0, 1), (1, 1)] ∧
    (run (.ropeSelectPoll 0 0 0 0 []) (selSt 109)).mem.rdByte 0x4004 = 1 ∧
    ((Tbl.look (run (.ropeSelectPoll 0 0 0 0 []) (selSt 108)).dev.ropes 0).bind RopeCtx.poll) = some 0 :=
  ⟨by decide +kernel, by decide +kernel, by decide +kernel, cleanRange_of (by decide +kernel), by decide +kernel, by decide +kernel, by decide +kernel, by decide +kernel,
    by decide +kernel, by decide +kernel⟩

theorem witness_ropeFaults : (run (.ropeSelTimeout 0 0 0 0) (st (ropeDev { selX with poll := some 0 }))).dev.fld (.rope 0 0) Fld.ROPE_FAULT_CODE = 0x0504 ∧
    (ropeDev selX).present (ropePage 0) = true ∧ (ropeDev selX).engState 0 ≠ 3 ∧ (∀ c ∈ [0x0505, 0x0506], (run (.ropeFault 0 0 0 0 c) (st (ropeDev selX))).dev.engState 0 = 3) ∧
    (run (.ropeEngineReadmit 0 0 0) (run (.ropeFault 0 0 0 0 0x0505) (st (ropeDev selX)))).dev.engState 0 = 0 := by decide +kernel

/-- An opened STAGE or DELIVER of one block of zeros, and of two; the side entry at 0x8000. -/
def blkX (w : List Nat) (total : Nat) : RopeCtx := { ropeX [w] with opened := some ⟨w, 0, 0, total, 1, [], false⟩ }
def blkFlow : Flow := ⟨0, 0, 3, 9, 0, 0, 0, 8192, 0, 0, 0, 0, none, 1, []⟩
def blkSt (w : List Nat) (total side : Nat) : State := ⟨(ropeDev (blkX w total)).setFlows [(1, blkFlow)], Memory.wrBytes [] 0x8000 (leBytes 4 side), []⟩
def delW2 : List Nat := [0x1111, 8192, 0, 0, 0x1000, 0, 0x8000, 0, 0, 0, 0, 0, 0, 0, 0, 0]
/-- The check value of a block of zeros at 0x1000 (R220). -/
theorem zero_crc : blockCrc (List.replicate 4096 0) 0x1000 0 = 3603732754 := by decide +kernel

theorem memByte_low (d : Device) (m : Memory) (a : Nat) (ha : a < 0x20000000000) (hd : d.wr = []) : d.memByte m a = m.rdByte a := by
  have h : d.memKind a = .hbm ∨ d.memKind a = .unmapped := by
    unfold Device.memKind
    rw [if_pos ha]
    split <;> simp
  rcases h with h | h <;> simp [Device.memByte, Device.memPage, h, hd, rdB]

theorem zeros_of (d : Device) (m : Memory) (a n : Nat) (ha : a + n ≤ 0x20000000000) (hd : d.wr = []) (hm : ∀ k, k < n → m.rdByte (a + k) = 0) :
    d.memBytes m a n = List.replicate n 0 := by
  unfold Device.memBytes
  rw [List.eq_replicate_iff]
  refine ⟨by simp, fun b hb => ?_⟩
  simp only [List.mem_map, List.mem_range] at hb
  obtain ⟨k, hk, rfl⟩ := hb
  rw [memByte_low d m _ (by omega) hd, hm k hk]

theorem witness_blocks : (blkSt (stageW 1) 1 3603732754).dev.ropeLive 0 = true ∧ rCheck (stageW 1) = 1 ∧ rSrcRemote (stageW 1) = false ∧ rSide (stageW 1) = 0x8000 ∧
    (blkSt (stageW 1) 1 3603732754).dev.cleanRange 0x1000 4096 ∧ (blkSt (stageW 1) 1 3603732754).dev.cleanRange 0x8000 64 ∧ rAlt (stageW 1) = 0x20000 ∧ rAltSide (stageW 1) = 0x8004 ∧
    (blkSt (stageW 1) 1 3603732754).dev.ropeMem 0x20000 4096 = true ∧ (blkSt (stageW 1) 1 3603732754).dev.ropeMem 0x8004 4 = true ∧
    (blkSt (stageW 1) 1 3603732754).dev.cleanRange 0x20000 4096 ∧ (blkSt (stageW 1) 1 3603732754).dev.cleanRange 0x8004 4 ∧ (segmentOf (rFmtSt delW2)).2 = 0 :=
  ⟨by decide +kernel, by decide +kernel, by decide +kernel, by decide +kernel, cleanRange_of (by decide +kernel), cleanRange_of (by decide +kernel), by decide +kernel,
    by decide +kernel, by decide +kernel, by decide +kernel, cleanRange_of (by decide +kernel), cleanRange_of (by decide +kernel), by decide +kernel⟩

theorem witness_block_good : (blkSt delW2 2 3603732754).dev.rdN (blkSt delW2 2 3603732754).mem 0x8000 4 =
    blockCrc ((blkSt delW2 2 3603732754).dev.memBytes (blkSt delW2 2 3603732754).mem 0x1000 4096) 0x1000 (rModel delW2) := by
  rw [zeros_of _ _ _ _ (by decide) rfl]
  · show _ = blockCrc _ 0x1000 0
    rw [zero_crc]
    decide +kernel
  · intro k hk
    have h : (blkSt delW2 2 3603732754).mem = [(0x8000, 0x12), (0x8001, 0x99), (0x8002, 0xCC), (0x8003, 0xD6)] := by decide +kernel
    rw [h]
    simp only [Memory.rdByte]
    rw [if_neg (by omega), if_neg (by omega), if_neg (by omega), if_neg (by omega)]
    rfl

theorem witness_block_bad : (blkSt delW2 2 0).dev.rdN (blkSt delW2 2 0).mem 0x8000 4 ≠
    blockCrc ((blkSt delW2 2 0).dev.memBytes (blkSt delW2 2 0).mem 0x1000 4096) 0x1000 (rModel delW2) := by
  rw [zeros_of _ _ _ _ (by decide) rfl (fun _ _ => rfl)]
  show _ ≠ blockCrc _ 0x1000 0
  rw [zero_crc]
  decide +kernel

/-- A delivery of 4,096 bytes to landing buffer 0 of tile 0 at its tap, in a state, for a pitch. -/
def tapFlow (pitch : Nat) : Flow := ⟨0, 0, 3, pitch, 0, 0, 0, 4096, 0, 0, 4096, 0, none, 1, [(0, List.replicate 4096 7)]⟩
def tapSt (t : TapState) (pitch : Nat) : State := st (((ropeDev (ropeX [deliverW])).setFlows [(1, tapFlow pitch)]).setTapQ [⟨1, 0, 0, t⟩])

theorem witness_taps : (tapSt .coming 9).dev.present (.clu 0 0) = true ∧ (tapSt .coming 9).dev.stopped 0 = false ∧ (tapSt .coming 9).dev.regionPart 0 0 = some 3 ∧
    (tapSt .coming 9).dev.flowFit 0 0 (tapFlow 9) = .equal ∧ (tapSt .coming 10).dev.flowFit 0 0 (tapFlow 10) = .early ∧ (tapSt .coming 8).dev.flowFit 0 0 (tapFlow 8) = .stale ∧
    (run (.tapDeliveryArrive 0 0 1) (tapSt .coming 9)).dev.tapQ = [⟨1, 0, 0, .waiting⟩] ∧ (run (.tapDeliveryArrive 0 0 1) (tapSt .coming 10)).dev.tapQ = [⟨1, 0, 0, .held⟩] ∧
    (run (.tapDeliveryArrive 0 0 1) (tapSt .coming 8)).dev.tapQ = [] := by decide +kernel

theorem witness_granule : (tapFlow 9).tilesOf 0 = [0] ∧ (tapSt .waiting 9).dev.lbState 0 0 0 = 0 ∧ (run (.tapDeliveryBegin 0 0 1) (tapSt .waiting 9)).dev.lbState 0 0 0 = 1 ∧
    (tapFlow 9).touches 0 4096 = true ∧ (tapFlow 9).touches 4096 8192 = false ∧ (tapFlow 9).settled 0 4096 = true := by decide +kernel

theorem test_granuleValid : (run (.granuleValid 0 0 1 0) (tapSt .delivering 9)).dev.lbState 0 0 0 = 2 ∧ (run (.granuleValid 0 0 1 0) (tapSt .delivering 9)).dev.tapQ = [] := by
  decide +kernel

/-! ### Schedules and pitches -/

/-- Little-endian fields in a string of zeros: offset, width and value of each. -/
def bytesAt (n : Nat) (l : List (Nat × Nat × Nat)) : List Byte :=
  l.foldl (fun (bs : List Byte) x => bs.take x.1 ++ leBytes x.2.1 x.2.2 ++ bs.drop (x.1 + x.2.1)) (List.replicate n 0)

/-- The smallest image for a partition of some quarters: one template of a duration and one sequence entry (R247 to R250). -/
def imageHead (qm : Nat) : List Byte :=
  bytesAt 252 [(0, 4, 0x49535247), (5, 1, 1), (8, 8, 576), (20, 4, qm), (24, 2, 1), (26, 2, 5), (28, 4, 1)]
def anImage (qm dur : Nat) : List Byte :=
  imageHead qm ++ leBytes 4 (crc32c (imageHead qm)) ++
    bytesAt 320 [(0, 2, 1), (8, 8, 448), (32, 2, 2), (36, 4, 1), (40, 8, 448), (48, 8, 16), (56, 4, crc32c (leBytes 2 dur ++ List.replicate 14 0)),
      (64, 2, 3), (68, 4, 1), (72, 8, 512), (80, 8, 2), (88, 4, crc32c [0, 0]), (96, 2, 6), (104, 8, 512), (128, 2, 8), (136, 8, 512), (192, 2, dur)]

def isOk {ε α : Type} : Except ε α → Bool
  | .ok _ => true
  | .error _ => false
theorem ok_of {ε α : Type} {x : Except ε α} (h : isOk x = true) : ∃ a, x = .ok a := by
  cases x with
  | ok a => exact ⟨a, rfl⟩
  | error e => cases h
def statusOf : Except LoadErr Image → Nat
  | .ok _ => 0
  | .error e => e.status

/-- Partition 3 of the PF, of quarter 0 of T-die 0, with an image of two sequence entries and RUNs. -/
def seqImage (n : Nat) : Image := ⟨0, 0, 0, 1, 0, [(1, 0)], List.replicate n 0, [], [], [], [], [], [], [], [], []⟩
def part3 (im : Option Image) (runs : List RunCmd) : Partition := { plainPart 0 with grants := [⟨0x40000, 0x1000⟩], image := im, runs := runs, lastPitch := some 5 }
def aRun (count done : Nat) : RunCmd := ⟨0, 4, 8, 7, 0, count, false, none, done, 0, false⟩

/-- A compute entry, and the state that holds it as its queue's oldest, the partition in a state with handle 0x3000001. -/
def cEntry (l : List (Nat × Nat × Nat)) : Fetched := ⟨1, 0, 4, 0, bytesAt 64 l⟩
def cSt (x : Fetched) (p : Partition) (pst : Nat) (m : Memory) : State :=
  ⟨withF (((qDev 1 0x8000).setParts [(3, p)]).setFetched [x]) [(.pkg, Fld.PKG_PART_QMASK, 3, 1), (.pkg, Fld.PKG_PART_STATE_STATE, 3, pst), (.pkg, Fld.PKG_PART_HANDLE, 3, 0x3000001)], m, []⟩
def loadE : Fetched := cEntry [(0, 1, 1), (2, 2, 0x55), (4, 1, 3), (8, 8, 0x40000), (16, 8, 576)]
def runE (start count flags : Nat) : Fetched := cEntry [(0, 1, 2), (1, 1, flags), (2, 2, 0x55), (4, 1, 3), (8, 4, start), (12, 4, count), (24, 4, 0x3000001)]
def ctlE (op : Nat) : Fetched := cEntry [(0, 1, op), (2, 2, 0x55), (4, 1, 3), (24, 4, 0x3000001)]
def posted (c : Instr) (s : State) : List Byte := (run c s).dev.memBytes (run c s).mem 0x10000 12

theorem witness_load : (cSt loadE (part3 none []) 0 []).Canonical ∧ (cSt loadE (part3 none []) 0 []).dev.ddrUndef = [] ∧ (cSt loadE (part3 none []) 0 []).entryOf 0 4 1 loadE ∧
    loadE.num 4 1 = 3 ∧ (cSt loadE (part3 none []) 0 []).dev.badEntry loadE = false ∧ (cSt loadE (part3 none []) 0 []).dev.part 3 = some (part3 none []) ∧
    loadE.num 8 8 = 0x40000 ∧ loadE.num 16 8 = 576 ∧ cSrcHost loadE = false ∧ (cSt loadE (part3 none []) 0 []).dev.inMemory 0x40000 576 = true ∧
    (cSt loadE (part3 none []) 0 []).dev.granted 3 0x40000 576 = true ∧ (cSt loadE (part3 none []) 0 []).dev.cleanRange 0x40000 576 ∧
    (∃ im, (cSt loadE (part3 none []) 0 []).dev.checkImage 3 (anImage 1 1) 576 = .ok im) ∧
    statusOf ((cSt loadE (part3 none []) 0 []).dev.checkImage 3 (anImage 1 1001) 576) = 8 ∧ statusOf ((cSt loadE (part3 none []) 0 []).dev.checkImage 3 (anImage 2 1) 576) = 3 := by
  unfold State.Canonical State.entryOf
  exact ⟨by decide +kernel, by decide +kernel, by decide +kernel, by decide +kernel, by decide +kernel, by decide +kernel, by decide +kernel, by decide +kernel, by decide +kernel,
    by decide +kernel, by decide +kernel, cleanRange_of (by decide +kernel), ok_of (by decide +kernel), by decide +kernel, by decide +kernel⟩

theorem test_load : (cSt (ctlE 0) (part3 none []) 0 []).dev.badEntry (ctlE 0) = true ∧ posted (.load 0 4) (cSt (ctlE 0) (part3 none []) 0 []) = computeBody 0x55 0x000D 0 0 ∧
    (run (.load 0 4) (cSt loadE (part3 none []) 0 [])).dev.pState 3 = 0 := by decide +kernel

theorem witness_run : (cSt (runE 1 1 0) (part3 (some (seqImage 2)) []) 2 []).dev.badEntry (runE 1 1 0) = false ∧
    (cSt (runE 1 1 0) (part3 (some (seqImage 2)) []) 2 []).dev.handleOk (runE 1 1 0) (part3 (some (seqImage 2)) []) = true ∧
    ((run (.run 0 4) (cSt (runE 1 1 0) (part3 (some (seqImage 2)) []) 2 [])).dev.part 3).map (fun p => p.runs.map RunCmd.start) = some [1] ∧
    posted (.run 0 4) (cSt (runE 1 2 0) (part3 (some (seqImage 2)) []) 2 []) = computeBody 0x55 0x000C 5 0 ∧
    posted (.run 0 4) (cSt (runE 1 0 0) (part3 (some (seqImage 2)) []) 2 []) = computeBody 0x55 0x000D 5 0 ∧
    posted (.run 0 4) (cSt (runE 1 1 0) (part3 (some (seqImage 2)) []) 7 []) = computeBody 0x55 0x0013 5 0 ∧
    (run (.run 0 4) (cSt (runE 1 1 8) (part3 (some (seqImage 2)) []) 7 [])).dev.pState 3 = 2 ∧ cResume (runE 1 1 8) = true := by decide +kernel

theorem witness_stop : (cSt (ctlE 3) (part3 (some (seqImage 2)) [aRun 2 0]) 3 []).dev.badEntry (ctlE 3) = false ∧
    (cSt (ctlE 3) (part3 (some (seqImage 2)) []) 3 []).dev.handleOk (ctlE 3) (part3 (some (seqImage 2)) []) = true ∧
    ((run (.stop 0 4) (cSt (ctlE 3) (part3 (some (seqImage 2)) [aRun 2 0]) 3 [])).dev.part 3).map (fun p => p.runs.map RunCmd.stop) = some [true] ∧
    posted (.stop 0 4) (cSt (ctlE 3) (part3 (some (seqImage 2)) []) 2 []) = computeBody 0x55 0 5 0 := by decide +kernel

theorem witness_unload : (cSt (ctlE 4) (part3 (some (seqImage 2)) []) 2 []).dev.badEntry (ctlE 4) = false ∧
    posted (.unload 0 4) (cSt (ctlE 4) (part3 (some (seqImage 2)) []) 2 []) = computeBody 0x55 0 5 0 ∧
    (run (.unload 0 4) (cSt (ctlE 4) (part3 (some (seqImage 2)) []) 2 [])).dev.pState 3 = 0 := by decide +kernel

/-- Partition 3 in a state with region 0 of T-die 0, a bank bit and a dirty line in tile 0, a program there, and facts of the pitch. -/
def pitchSt (pst : Nat) (p : Partition) : State :=
  let s := cSt (ctlE 1) p pst []
  ⟨withF (s.dev.setTile 0 0 { Tile.blank with bank := [5, 6], dirty := [6, 7] })
    ([0, 1, 4, 5].flatMap fun (r : Nat) => [(.rgn 0 r, Fld.RGN_STATE_PVALID, 0, 1), (.rgn 0 r, Fld.RGN_STATE_PTAG, 0, 3)]), s.mem, []⟩

theorem witness_boundary : (pitchSt 3 { part3 (some (seqImage 2)) [aRun 1 0] with doneRegions := [0, 1, 4, 5] }).Canonical ∧
    (pitchSt 3 (part3 (some (seqImage 2)) [aRun 1 0])).dev.partStopped 3 = false ∧ (pitchSt 3 (part3 (some (seqImage 2)) [aRun 1 0])).dev.packageStopped = false ∧
    (pitchSt 3 { part3 (some (seqImage 2)) [aRun 1 0] with doneRegions := [0, 1, 4, 5] }).dev.boundaryMet 3 { part3 (some (seqImage 2)) [aRun 1 0] with doneRegions := [0, 1, 4, 5] } = true ∧
    (pitchSt 3 { part3 (some (seqImage 2)) [aRun 1 0] with doneRegions := [0, 1, 4] }).dev.boundaryMet 3 { part3 (some (seqImage 2)) [aRun 1 0] with doneRegions := [0, 1, 4] } = false ∧
    (run (.pitchCommit 3) (pitchSt 3 { part3 (some (seqImage 2)) [aRun 1 0] with doneRegions := [0, 1, 4, 5] })).dev.pState 3 = 4 := by
  unfold State.Canonical; decide +kernel

/-- The same with the main clocks running. -/
def upSt (p : Partition) : State := ⟨(pitchSt 4 p).dev.setClk { Device.reset.clk with up := true }, [], []⟩

theorem witness_regionCommit : (pitchSt 4 (part3 (some (seqImage 2)) [aRun 1 0])).dev.regionPart 0 0 = some 3 ∧ (pitchSt 4 (part3 (some (seqImage 2)) [aRun 1 0])).dev.present (.rgn 0 0) = true ∧
    ((pitchSt 4 (part3 (some (seqImage 2)) [aRun 1 0])).dev.isl (Page.rgn 0 0).island).on = false ∧ ((upSt (part3 (some (seqImage 2)) [aRun 1 0])).dev.isl (Page.rgn 0 0).island).on = true ∧
    (∀ i ∈ regionTiles 0, (upSt (part3 (some (seqImage 2)) [aRun 1 0])).dev.commitOf (.tile 0 i) = none ∧ ((upSt (part3 (some (seqImage 2)) [aRun 1 0])).dev.tile 0 i).dirty.Nodup) ∧
    (((upSt (part3 (some (seqImage 2)) [aRun 1 0])).dev.commitTile 0 0 0 1).tile 0 0).bank = [5, 7] ∧
    bit ((run (.regionCommit 0 0) (pitchSt 4 (part3 (some (seqImage 2)) [aRun 1 0]))).dev.fld (.rgn 0 0) Fld.ERR_STAT_BLOCK) 2 = true := by
  decide +kernel

theorem witness_noCommits : (upSt (part3 (some (seqImage 2)) [aRun 1 0])).dev.commitOf (.rgn 0 0) = none ∧ ∀ c, (upSt (part3 (some (seqImage 2)) [aRun 1 0])).dev.commitOf (.clu 0 c) = none :=
  ⟨rfl, fun _ => rfl⟩

/-- The same partition in a state, with no quarter of its own, so that the kernel has no tiles to walk. -/
def emptySt (pst : Nat) (p : Partition) : State := ⟨withF (cSt (ctlE 1) p pst []).dev [(.pkg, Fld.PKG_PART_QMASK, 3, 0)], [], []⟩

/-- Region 0 of T-die 0 is fenced, and the image places a tile on it. -/
def tiledImage : Image := { seqImage 2 with tiles := [⟨0, 5, [], [], 0, 0, []⟩] }
def fencedPartSt (p : Partition) (pst : Nat) (fences : List Nat) : State :=
  ⟨withF (cSt (runE 1 1 8) p pst []).dev (fences.map fun r => (.rgn 0 r, Fld.STATUS_FENCED, 0, 1)), [], []⟩

theorem witness_unplaced : (fencedPartSt (part3 (some tiledImage) [aRun 1 0]) 2 [0]).dev.placePlan 3 tiledImage = .error 0x0010 ∧
    (fencedPartSt (part3 (some tiledImage) [aRun 1 0]) 2 [1]).dev.placePlan 3 tiledImage =
      .ok ((fencedPartSt (part3 (some tiledImage) [aRun 1 0]) 2 [1]).dev.fallbackOf 3) ∧
    (fencedPartSt (part3 (some tiledImage) [aRun 1 0]) 2 [0]).dev.partner = none ∧
    (run (.run 0 4) (fencedPartSt (part3 (some tiledImage) []) 7 [0])).dev.pState 3 = 7 ∧
    (run (.run 0 4) (fencedPartSt (part3 (some tiledImage) []) 7 [1])).dev.pState 3 = 2 ∧
    (run (.pitchStart 3) (fencedPartSt (part3 (some tiledImage) [aRun 1 0]) 2 [0])).dev.pState 3 = 7 :=
  ⟨rfl, rfl, by decide +kernel, by decide +kernel, by decide +kernel, by decide +kernel⟩

theorem witness_pitchStart : (upSt (part3 (some (seqImage 2)) [aRun 1 0])).dev.dutyUp 1 = true ∧
    (run (.pitchStart 3) (emptySt 2 (part3 (some (seqImage 2)) [aRun 1 0]))).dev.pState 3 = 3 ∧
    (let p := { part3 (some (seqImage 2)) [aRun 1 0] with committed := [0, 1, 4, 5] }
     (upSt p).dev.gateOpen 3 0 p = true ∧ (upSt p).dev.dutyHeld 1 = false ∧ (upSt p).dev.link.flr = [] ∧ (upSt p).dev.fld (.pcie 0) Fld.PCIE_LINK_STATE_DSTATE ≠ 3 ∧
     (run (.pitchStart 3) (emptySt 4 p)).dev.pState 3 = 2 ∧ (run (.pitchStart 3) (emptySt 4 p)).dev.pPitch 3 = 1) := by decide +kernel

theorem witness_placed : (emptySt 2 (part3 (some (seqImage 2)) [aRun 1 0])).dev.placePlan 3 (seqImage 2) =
    .ok ((emptySt 2 (part3 (some (seqImage 2)) [aRun 1 0])).dev.fallbackOf 3) := rfl

/-- A running partition with a replay cause, and with an engine of a stack that it leases fenced. -/
def replaySt (p : Partition) (l : List (Page × Field × Nat × Nat)) : State := ⟨withF (pitchSt 3 p).dev l, [], []⟩

theorem witness_replay : (replaySt (part3 (some (seqImage 2)) [aRun 1 0]) []).Canonical ∧ (pitchSt 3 (part3 (some (seqImage 2)) [aRun 1 0])).dev.dutyUp 2 = true ∧
    (pitchSt 3 (part3 (some (seqImage 2)) [aRun 1 0])).dev.replayable 3 = true ∧ (pitchSt 3 (part3 (some (seqImage 2)) [aRun 1 0])).dev.partner = none ∧
    (run (.pitchReplay 3 []) (emptySt 3 (part3 (some (seqImage 2)) [aRun 1 0]))).dev.pState 3 = 5 ∧
    (run (.pitchReplay 3 []) (emptySt 3 { part3 (some (seqImage 2)) [aRun 1 0] with ropeCodes := [0x0502] })).dev.pState 3 = 7 := by
  unfold State.Canonical; decide +kernel

theorem witness_replayPlan : (pitchSt 3 (part3 (some (seqImage 2)) [aRun 1 0])).dev.replayPlan 3 (part3 (some (seqImage 2)) [aRun 1 0]) (seqImage 2) =
      .ok ((pitchSt 3 (part3 (some (seqImage 2)) [aRun 1 0])).dev.fallbackOf 3) ∧
    (replaySt (part3 (some (seqImage 2)) [aRun 1 0]) [(.pkg, Fld.PKG_PART_STATE_ATTEMPT, 3, 3)]).dev.replayPlan 3 (part3 (some (seqImage 2)) [aRun 1 0]) (seqImage 2) = .error 0x0012 :=
  ⟨rfl, rfl⟩

/-- Engines of stack 2 of T-die 7: engine 15 is fenced and leased, and engine 0 leased or not. -/
def fencedSt (own : Nat) : State :=
  ⟨withF (emptySt 3 (part3 (some (seqImage 2)) [aRun 1 0])).dev [(ropePage 383, engStateField 15, 0, 3), (ropePage 383, Fld.LEASE_OWNER_OWNER, 15, partOwner 3),
    (ropePage 383, Fld.LEASE_OWNER_OWNER, 0, own)], [], []⟩

theorem witness_listMove : (383 : Nat) = 16 * (3 * 7 + 2) + 15 ∧ (fencedSt 0).dev.present (ropePage 383) = true ∧ (fencedSt 0).dev.engState 383 = 3 ∧
    (fencedSt 0).dev.fldI (ropePage 383) Fld.LEASE_OWNER_OWNER 15 = partOwner 3 ∧ Tbl.has (fencedSt 0).dev.ropeMoved 383 = false ∧
    (∀ k, k < 16 → k = 15 ∨ (fencedSt 0).dev.fldI (ropePage 383) Fld.LEASE_OWNER_OWNER k ≠ partOwner 3) ∧
    (fencedSt (partOwner 3)).dev.fldI (ropePage 383) Fld.LEASE_OWNER_OWNER 0 = partOwner 3 ∧ (fencedSt (partOwner 3)).dev.engState (16 * (3 * 7 + 2) + 0) ≠ 3 ∧
    bit ((fencedSt (partOwner 3)).dev.fld (ropePage 383) Fld.ROPE_CTX1_MASK) 0 = false ∧
    Tbl.look (run (.ropeListMove 7 2 15) (fencedSt (partOwner 3))).dev.ropeMoved 383 = some 368 ∧
    (run (.ropeListMove 7 2 15) (fencedSt 0)).dev.pState 3 = 7 ∧ (run (.ropeListMove 7 2 15) (fencedSt (partOwner 3))).dev.pState 3 = 5 := by decide +kernel

/-! ### Power, reset and temperature -/

/-- A package with its supplies, out of reset. -/
def pwr (groups : Nat) (ok perst : Bool) : PwrSt := { Device.reset.pwr with aux := true, groups := groups, pwrok := ok, perst := perst }
def liveDev (d : Device) : Device := d.setPwr (pwr 6 true false)

theorem witness_supplies : (st (Device.reset.setPwr (pwr 5 false true))).Canonical ∧ (st (Device.reset.setPwr (pwr 0 false true))).dev.pwr.groups < 6 ∧
    (run (.railGroupUp 6) (st (Device.reset.setPwr (pwr 5 false true)))).dev.pwr.groups = 6 ∧ idles (.railGroupUp 5) (st (Device.reset.setPwr (pwr 5 false true))) = true ∧
    (run .pwrokAssert (st (Device.reset.setPwr (pwr 6 false true)))).dev.pwr.pwrok = true ∧ (liveDev (qDev 1 0)).pwr.perst = false ∧
    (run .pwrokLoss (st (liveDev (qDev 1 0)))).dev.queues = [] ∧ (run (.mainRailsRemoved false) (st (Device.reset.setPwr (pwr 6 false true)))).dev.pwr.groups = 1 ∧
    (run (.mainRailsRemoved true) (st (withF (liveDev (qDev 1 0)) [(.pkg, Fld.PKG_THERM_READ_TRIPPED, 0, 1)]))).dev.fld .pkg Fld.PKG_THERM_READ_TRIPPED = 0 ∧
    (run .perstAssert (st (liveDev (qDev 1 0)))).dev.pwr.perst = true := by
  unfold State.Canonical; decide +kernel

theorem witness_resets : (liveDev Device.reset).live = true ∧ (Device.reset.setPwr (pwr 6 true true)).pwr.groups = 6 ∧
    (run (.fundamentalReset 2 1 0 0x3FFF 5 16 true []) (st (Device.reset.setPwr (pwr 6 true true)))).dev.fld .pkg Fld.PKG_ID_ID = 0x3FFF ∧
    (run (.fundamentalReset 2 1 0 0x3FFF 5 16 true []) (st (Device.reset.setPwr (pwr 6 true true)))).dev.fld .pkg Fld.PKG_FW_STATE_STATE = 2 ∧
    (run (.hotReset 5 16 true []) ⟨liveDev (qDev 1 0), [(0x40, 7), (2 ^ 56, 9)], []⟩).dev.fld .pkg Fld.PKG_RESET_CAUSE_LAST = 2 ∧
    (run (.hotReset 5 16 true []) ⟨liveDev (qDev 1 0), [(0x40, 7), (2 ^ 56, 9)], []⟩).mem = [(0x40, 7)] ∧ (liveDev (crewDev 2)).cfg.straps.crewRole = 2 ∧
    (run (.crewReset []) (st (liveDev (crewDev 2)))).dev.fld .pkg Fld.PKG_RESET_CAUSE_LAST = 6 ∧ bit 1 0 = true ∧
    (run (.pkgWarm .pf 1 []) (st (liveDev Device.reset))).dev.fld .pkg Fld.PKG_RESET_CAUSE_LAST = 5 ∧
    (run (.mgmtWarmReset []) (st (liveDev Device.reset))).dev.fld .pkg Fld.PKG_RESET_CAUSE_LAST = 7 := by decide +kernel

/-- The main clocks running; the power cap at a value, and the time it last was below both limits. -/
def clkDev : Device := (liveDev Device.reset).setClk { Device.reset.clk with up := true, now := 2000000 }
def capDev (cap : Nat) (below : Option Nat) : Device := withF (clkDev.setPwr { pwr 6 true false with below := below }) [(.pkg, Fld.PKG_CLK_CAP_POWER_MHZ, 0, cap)]

theorem witness_clocks : (clkDev.isl 0x70F).on = true ∧ (clkDev.isl 0x70F).mhz ≠ (capDev 900 none).regionClock 0x70F ∧ (capDev 900 none).regionClock 0x70F = 900 ∧
    ((run (.regionClockChange 7 15) (st (capDev 900 none))).dev.isl 0x70F).mhz = 900 ∧ (run (.regionClockChange 7 15) (st (capDev 900 none))).dev.fld (.rgn 7 15) Fld.RGN_CLK_MV = 710 ∧
    (clkDev.setClk { clkDev.clk with islands := [(5, ⟨77, 0, 0, false⟩)] }).present (islandPage 5) = true ∧
    ((run (.pllRestart 5) (st (clkDev.setClk { clkDev.clk with islands := [(5, ⟨77, 0, 0, false⟩)] }))).dev.isl 5).on = true := by decide +kernel

theorem witness_limiter : (∀ cap ∈ [800, 1600], (capDev cap none).powerCap = cap) ∧ 97 * clkDev.model.excursionW < 100 * 100000 ∧
    (run (.powerLimiterTick 100000 0) (st (capDev 1600 none))).dev.fld .pkg Fld.PKG_CLK_CAP_POWER_MHZ = 1575 ∧
    (run (.powerLimiterTick 100000 0) (st (capDev 810 none))).dev.fld .pkg Fld.PKG_CLK_CAP_POWER_MHZ = 800 ∧
    decide (100 * 0 < 93 * clkDev.model.excursionW ∧ 100 * 0 < 93 * clkDev.limitW) = true ∧
    (run (.powerLimiterTick 0 0) (st (capDev 1590 (some 1000000)))).dev.fld .pkg Fld.PKG_CLK_CAP_POWER_MHZ = 1600 ∧
    (run (.powerLimiterTick 0 0) (st (capDev 1500 (some 1000001)))).dev.fld .pkg Fld.PKG_CLK_CAP_POWER_MHZ = 1500 := by decide +kernel

theorem witness_thermal : clkDev.live = true ∧ clkDev.present (.rgn 7 15) = true ∧ clkDev.thermalCap 0x70F = 1600 ∧
    (run (.thermalCapTick 0x70F 105) (st clkDev)).dev.thermalCap 0x70F = 800 ∧ (run (.thermalCapTick 0x70F (clkDev.throttleC + 1)) (st clkDev)).dev.thermalCap 0x70F = 1550 ∧
    (run (.thermalCapTick 0x70F clkDev.throttleC) (st clkDev)).dev.thermalCap 0x70F = 1600 ∧ clkDev.present (islandPage 0xF00) = true ∧
    (run (.thermalTrip 0x70F 115) (st clkDev)).dev.fld .pkg Fld.PKG_THERM_READ_TRIPPED = 1 := by decide +kernel

theorem witness_gate : clkDev.hasTdie 7 = true ∧ (∀ kv ∈ clkDev.parts, bit (clkDev.qmask kv.1) (4 * 7 + 3) = false) ∧
    (withF clkDev [(.pkg, Fld.PKG_THERM_GATE_IDLE_MS, 0, 1)]).fld .pkg Fld.PKG_THERM_GATE_IDLE_MS ≠ 0 ∧ quarterOf 15 = 3 ∧
    ((run (.regionGate 7 3) (st (withF clkDev [(.pkg, Fld.PKG_THERM_GATE_IDLE_MS, 0, 1)]))).dev.isl 0x70F).on = false ∧
    Tbl.look (run (.avsCurrentRead 7 120) (st clkDev)).dev.pwr.amps 7 = some 120 := by decide +kernel

/-- A package whose ID comes from management, without and with one. -/
def mgmtDev : Device := liveDev (Device.reset.setCfg ⟨⟨.grc8864, false, false⟩, ⟨0, 2, 0, 0⟩, ⟨0, 2, 0, 0⟩, false⟩)

theorem witness_mgmt : mgmtDev.pwr.aux = true ∧ mgmtDev.cfg.straps.idSrc = 2 ∧ mgmtDev.fld .pkg Fld.PKG_ID_VALID ≠ 1 ∧
    (run (.mgmtSetPkgId 0x4005) (st mgmtDev)).dev.fld .pkg Fld.PKG_ID_ID = 5 ∧ (run (.mgmtSetPkgId 5) (st mgmtDev)).dev.fld .pkg Fld.PKG_ID_VALID = 1 ∧
    (run (.mgmtSetPkgId 6) (run (.mgmtSetPkgId 5) (st mgmtDev))).dev.fld .pkg Fld.PKG_ID_ID = 5 ∧
    (run .clearTrip (st (withF mgmtDev [(.pkg, Fld.PKG_THERM_READ_TRIPPED, 0, 1)]))).dev.fld .pkg Fld.PKG_THERM_READ_TRIPPED = 0 ∧
    (run .getState (st mgmtDev)).dev.out.length = 1 := by decide +kernel

/-! ### Links, losses, copies and recovery -/

/-- Edge 3 of T-die 7 with modules up, some of them half, and module 3's failed lanes. -/
def d2dDev (mods half lanes : Nat) : Device :=
  withF clkDev [(.d2d 7 3, Fld.D2D_STATE_UP, 0, 1), (.d2d 7 3, Fld.D2D_STATE_MODULES, 0, mods), (.d2d 7 3, Fld.D2D_STATE_HALF, 0, half), (.d2d 7 3, Fld.D2D_LANE_FAIL_LANES, 3, lanes)]

theorem witness_d2d : (st (d2dDev 15 0 0)).Canonical ∧ (d2dDev 15 0 0).present (.d2d 7 3) = true ∧ (d2dDev 15 0 0).fld (.d2d 7 3) Fld.D2D_STATE_UP = 1 ∧
    (run (.d2dFlitReplay 7 3) (st (d2dDev 15 0 0))).dev.cntOf (.d2d 7 3) 2 = 1 ∧ bit 15 3 = true ∧
    (run (.d2dLaneFail 7 3 3 63) (st (d2dDev 15 0 0))).dev.fld (.d2d 7 3) Fld.D2D_STATE_HALF = 8 ∧ (63 : Nat) / 32 = (if bits 1 0 32 = 0 then 0 else 1) ∧
    (31 : Nat) / 32 = (if bits (2 ^ 40) 0 32 = 0 then 0 else 1) ∧ (run (.d2dLaneFail 7 3 3 63) (st (d2dDev 15 8 1))).dev.fld (.d2d 7 3) Fld.D2D_STATE_MODULES = 7 ∧
    (d2dDev 8 8 (2 ^ 40)).fld (.d2d 7 3) Fld.D2D_STATE_MODULES = 2 ^ 3 := by
  unfold State.Canonical; decide +kernel

/-- Region 15 of T-die 7 fenced in a partition whose image places work there. -/
def fencedRgn : Device :=
  withF (clkDev.setParts [(3, part3 (some { seqImage 1 with tiles := [⟨7, 2047, [], [], 1, 0, []⟩] }) [])]) [(.pkg, Fld.PKG_PART_QMASK, 3, 2 ^ 31), (.rgn 7 15, Fld.STATUS_FENCED, 0, 1)]

theorem witness_regions : clkDev.regionFree 7 15 = true ∧ (clkDev.isl (256 * 7 + 15)).on = true ∧ fencedRgn.fld (.rgn 7 15) Fld.STATUS_FENCED = 1 ∧ fencedRgn.regionFree 7 15 = true ∧
    fencedRgn.regionIn 3 7 15 = true ∧ ((part3 (some { seqImage 1 with tiles := [⟨7, 2047, [], [], 1, 0, []⟩] }) []).image.map fun im => (im.placement none).tiles.map fun x => (x.die, x.inst / 128)) = some [(7, 15)] ∧
    bit ((run (.regionReadmit 7 15 false 0) (st fencedRgn)).dev.fld (.rgn 7 15) Fld.ERR_STAT_BLOCK) 1 = true ∧
    (run (.regionFault 7 [(15, .supply)]) (st clkDev)).dev.fld (.rgn 7 15) Fld.STATUS_FENCED = 1 ∧ clkDev.present (.rgn 7 0) = true := by decide +kernel

theorem witness_losses : (∀ k < 3, (run (.hbmStackLoss 7 (some k)) (st clkDev)).dev.fwState = 15) ∧ (run (.hbmStackLoss 7 none) (st clkDev)).dev.fwState = 15 ∧ clkDev.hasIdie 1 = true ∧
    clkDev.hasIdie 0 = true ∧ (run (.idieFault 1) (st clkDev)).dev.out.length = 1 ∧ (clkDev.setCfg ⟨⟨.grc2248, false, false⟩, ⟨0, 0, 0, 0⟩, ⟨0, 0, 0, 0⟩, false⟩).hasIdie 1 = false ∧
    clkDev.fwState ≠ 15 ∧ (∀ c ∈ [1, 8], (run (.deviceFatal c 0) (st clkDev)).dev.fwState = 15) ∧
    (run .debugLeaseIdle (st (withF clkDev [(.cvu 1 1, Fld.LEASE_STATE_STATE, 31, 1), (.cvu 1 1, Fld.LEASE_OWNER_OWNER, 31, 0x5000)]))).dev.fldI (.cvu 1 1) Fld.LEASE_STATE_STATE 31 = 2 := by
  decide +kernel

/-- A partition whose image sets BELAY_COPY, with a local store and a committed pitch 9; its copy in a state. -/
def copyPart (last : Option Nat) (sends : Tbl (Nat × Nat)) : Partition :=
  { part3 (some { seqImage 1 with flags := 4, modelId := 77 }) [] with store := ⟨0x80000, 0x10000⟩, lastPitch := last, copySends := sends }
def copySt (p : Partition) (cs pst fw : Nat) : State :=
  st (withF ((liveDev readyDev).setParts [(3, p)]) [(.pkg, Fld.PKG_PART_QMASK, 3, 1), (.pkg, Fld.PKG_PART_STATE_STATE, 3, pst), (.bly, Fld.BLY_COPY_STATE_STATE, 3, cs), (.pkg, Fld.PKG_FW_STATE_STATE, 0, fw)])

theorem witness_increment : (copySt (copyPart (some 9) []) 2 2 7).Canonical ∧ (copySt (copyPart (some 9) []) 2 2 7).dev.copyDue 0 3 = some 9 ∧
    (∀ k < 3, (copySt (copyPart (some 9) []) 2 2 7).dev.copyDue 0 k = none) ∧ (copySt (copyPart (some 9) []) 2 2 7).dev.hasTdie 0 = true ∧
    (run (.belayIncrementSend 0 3) (copySt (copyPart (some 9) []) 2 2 7)).dev.fld (.tdie 0) Fld.TDIE_COPY_STAT_PART = 3 := by
  unfold State.Canonical; decide +kernel

theorem witness_acked : (copyPart (some 9) [(0, (9, 2))]).sent 0 = some (9, 2) ∧ (copyPart (some 9) []).ackDies.contains 0 = false ∧
    (copySt (copyPart (some 9) [(0, (9, 2))]) 4 2 7).dev.copyDies 3 (copyPart (some 9) [(0, (9, 2))]) = [0] ∧ (copySt (copyPart (some 9) []) 4 2 7).dev.copyState 3 = 4 ∧
    (run (.copyAcked 0 3 (.pitch 9)) (copySt (copyPart (some 9) [(0, (9, 1))]) 2 2 7)).dev.fldI .bly Fld.BLY_COPY_ACKED_PITCH 3 = 9 ∧
    ((run (.copyAcked 0 3 .resend) (copySt (copyPart (some 9) [(0, (9, 2))]) 1 2 7)).dev.part 3).map Partition.copySends = some [(0, (9, 3))] ∧
    (run (.copyAcked 0 3 .resend) (copySt (copyPart (some 9) [(0, (9, 3))]) 2 2 7)).dev.copyState 3 = 3 ∧
    (run (.copyAcked 0 3 .refused) (copySt (copyPart (some 9) [(0, (9, 1))]) 2 2 7)).dev.copyState 3 = 3 ∧
    (run (.belayAckTimeout 0 3) (copySt (copyPart (some 9) [(0, (9, 1))]) 4 2 7)).dev.copyState 3 = 3 := by decide +kernel

/-- One chunk of an increment whose body is zeros, which reads as records of no lines; a store that holds pitch 8's increment of T-die 0. -/
def aChunk (crc : Nat) : List Byte := List.replicate 4088 0 ++ leBytes 4 crc ++ leBytes 4 1
def aStore : StoreSt := ⟨0x80000, 0x10000, [], 7, [(0, (8, []))]⟩
def storeSt : State := st ((copySt (copyPart (some 9) []) 2 2 7).dev.setStores [(64 * 64 + 3, aStore)])

theorem zero_chunk : chunkCrc 0 9 0 (List.replicate 4088 0) = 2327376277 := by decide +kernel

theorem witness_check : storeSt.dev.storeArea 64 3 = some (0x80000, 0x10000) ∧ storeSt.dev.present (.cvu 0 1) = true ∧ Tbl.look storeSt.dev.stores (64 * 64 + 3) = some aStore ∧
    Tbl.look aStore.held 0 = some (8, []) ∧ (aChunk 2327376277).length = 4096 ∧ u (aChunk 2327376277) 4092 4 = 1 ∧ u (aChunk 2327376277) 4088 4 = 2327376277 ∧
    (aChunk 2327376277).take 4088 = List.replicate 4088 0 ∧ u (aChunk 0) 4088 4 ≠ 2327376277 := by decide +kernel

theorem witness_copy : (copySt (copyPart none []) 0 2 7).dev.copyState 3 = 0 ∧ (copyPart none []).copies = true ∧ (copySt (copyPart none []) 0 2 7).dev.dutyUp 2 = true ∧
    (copySt (copyPart none []) 0 2 7).dev.copyDest (copyPart none []) = some (64, 0x80000, 0x10000) ∧ (copySt (copyPart none []) 0 2 7).dev.fwState = 7 ∧
    (run (.stateRestore 3 9 []) (copySt (copyPart (some 9) []) 0 2 7)).dev.pState 3 = 7 := by decide +kernel

/-- The stroke package with members 0 to 2, where member 1's partner is 2 and this one is an index. -/
def threeDev (role own : Nat) : Device :=
  withF ((liveDev (readyDev.setCfg ⟨⟨.grc8864, false, false⟩, ⟨role, 0, 0, 0⟩, ⟨role, 0, 0, 0⟩, false⟩)).setCrew ⟨[⟨0, 100, some 1, 0x80000, 0x10000⟩, ⟨1, 101, some 2, 0x90000, 0x10000⟩, ⟨2, 102, some 0, 0xA0000, 0x10000⟩], [], none⟩)
    [(.pkg, Fld.PKG_CREW_MASK_MEMBERS, 0, 7), (.pkg, Fld.PKG_CREW_INDEX, 0, own)]

theorem witness_crew : (threeDev 1 0).canDeclare 2 = true ∧ (threeDev 1 0).fwState ≠ 15 ∧ (threeDev 2 1).live = true ∧ (threeDev 2 1).ownIndex = 1 ∧ ((threeDev 2 1).crewRec 2).isSome = true ∧
    (run .crewPulse (st (threeDev 2 1))).dev.out = [.msg "crew-pulse" 0 [1], .msg "crew-pulse" 2 [1]] ∧
    (run (.fatalMessage 2) (st (threeDev 1 0))).dev.fld .pkg Fld.PKG_CREW_MASK_MEMBERS = 3 ∧
    Tbl.look (run (.memberLost 2 0) (st (threeDev 2 1))).dev.crew.lost 2 = some 0 ∧
    (run (.recoveryPitch 2 9) (run (.memberLost 2 0) (st (threeDev 2 1)))).dev.crew.recovering = some (2, 9) := by decide +kernel

/-- Partition 3 is in a coupled set with members 0 and 2. -/
def coupledSt : State :=
  st (((threeDev 2 1).setParts [(3, { copyPart (some 9) [] with coupled := [(0, 9), (2, 8)] })]).setCrew { (threeDev 2 1).crew with lost := [(2, 5)] })

theorem witness_recovery : (∀ kv ∈ coupledSt.dev.parts, kv.1 < 32) ∧ Tbl.has coupledSt.dev.crew.lost 2 = true ∧ (coupledSt.dev.part 3).map (fun x => Tbl.has x.coupled 2) = some true ∧
    (run (.recoveryPitch 2 9) coupledSt).dev.pPitch 3 = 10 ∧ ((run (.copyAckedReport 2 77 8 true) (st ((threeDev 2 1).setParts [(3, copyPart (some 9) [])]))).dev.part 3).map Partition.coupled = some [(2, 8)] ∧
    Tbl.has (threeDev 2 1).crew.lost 2 = false ∧ (copyPart (some 9) []).modelId = 77 ∧ (threeDev 2 1).copyDest (copyPart (some 9) []) = some (2, 0x90000, 0x10000) ∧
    (run (.stateRestore 3 9 []) (st (withF ((threeDev 2 1).setParts [(3, { copyPart (some 9) [] with lost := true })]) [(.pkg, Fld.PKG_PART_STATE_STATE, 3, 2), (.bly, Fld.BLY_COPY_STATE_STATE, 3, 2)]))).dev.parts =
      [(3, copyPart (some 9) [])] := by decide +kernel

/-! ### Telemetry and correlation -/

/-- Export on, with records waiting and facts of the exporter. -/
def telDev (freeze : Nat) (records : List (List Byte)) (walking : Bool) : Device :=
  (withF clkDev [(.tel, Fld.TEL_CTRL_ENABLE, 0, 1), (.tel, Fld.TEL_CTRL_FREEZE, 0, freeze)]).setTel { clkDev.tel with records := records, walking := walking, snap := 4294967295 }

theorem witness_telWalk : (st (telDev 0 [List.replicate 16 7] false)).Canonical ∧ clkDev.fld .tel Fld.TEL_CTRL_ENABLE = 0 ∧ (telDev 0 [List.replicate 16 7] false).live = true ∧
    (run (.telWalk false) (st (telDev 0 [List.replicate 16 7] true))).dev.cntOf .tel 2 = 1 ∧ (telDev 1 [] false).fldI .bly Fld.BLY_HOLD_CTL_ACTIVE 3 = 0 ∧
    (telDev 0 [List.replicate 16 7] false).app .tel Fld.TEL_LIST_BASE_VALID ≠ 1 ∧
    (run (.telWalk false) (st (telDev 0 [List.replicate 16 7] false))).dev.tel.snap = 0 ∧ (run (.telWalk false) (st (telDev 0 [List.replicate 16 7] false))).dev.tmWait.length = 1 := by
  unfold State.Canonical; decide +kernel

theorem witness_telFreeze : (run (.telWalk false) (st (telDev 1 [] false))).dev.tel.walking = true ∧
    (run (.telWalk true) (st (withF (telDev 1 [] true) [(.bly, Fld.BLY_HOLD_STAT_DONE, 3, 1)]))).dev.tel.walking = false := by decide +kernel

/-- Beacons on, and beacon 5 awaiting echoes of islands. -/
def corrDev (waiting : List Nat) : Device := (withF clkDev [(.pkg, Fld.PKG_CORR_CTRL_ENABLE, 0, 1), (.pkg, Fld.PKG_CORR_SEQ, 0, 4294967295)]).setCorrs (if waiting = [] then [] else [⟨5, 9, waiting, []⟩])

theorem witness_beacons : (corrDev []).live = true ∧ (corrDev []).fld .pkg Fld.PKG_CORR_CTRL_ENABLE = 1 ∧ (withF clkDev [(.pkg, Fld.PKG_CORR_CTRL_ENABLE, 0, 0)]).fld .pkg Fld.PKG_CORR_CTRL_ENABLE ≠ 1 ∧
    (run .corrBeacon (st (corrDev []))).dev.fld .pkg Fld.PKG_CORR_SEQ = 0 ∧ ((run (.corrEcho 3 5 77) (st (corrDev [3, 4]))).dev.corrs.map Corr.waiting) = [[4]] ∧
    (run (.corrEcho 3 5 77) (st (corrDev [3]))).dev.corrs = [] ∧ (run (.corrEchoTimeout 5) (st (corrDev [3]))).dev.corrs = [] := by decide +kernel

/-! ### The host link -/

/-- An outstanding read at tag 5 and its transfer. -/
def readDev (want : HostWant) (got : List Byte) (len : Nat) : Device :=
  ((clkDev.setQueue 0 4 (aQueue 1 hostMem 16 3 8 15)).setHostReads [(5, ⟨0, want, 0, len, got, false, false, false⟩)]).setXfers [⟨want, 0, len, [], 1, 0, []⟩]

theorem witness_hostReads : (st (readDev (.data 9) [7] 4)).Canonical ∧ Tbl.look clkDev.hostReads 5 = none ∧ (run (.hostCompletion 5 [1] .success false) (st clkDev)).dev.cntOf (.pcie 0) 6 = 1 ∧
    (Tbl.look (run (.hostCompletion 5 [1, 2] .success false) (st (readDev (.data 9) [7] 4))).dev.hostReads 5).map HostRead.got = some [7, 1, 2] ∧
    (run (.hostCompletion 5 [1, 2, 3] .success false) (st (readDev (.data 9) [7] 4))).dev.xfers = [⟨.data 9, 0, 4, [(0, [7, 1, 2, 3])], 0, 0, []⟩] ∧
    (run (.hostCompletion 5 [] .unsupported false) (st (readDev (.data 9) [7] 4))).dev.xfers = [⟨.data 9, 0, 4, [], 0, 0x0902, []⟩] ∧
    (run (.hostCompletion 5 [] .abort false) (st (readDev (.data 9) [7] 4))).dev.xfers = [⟨.data 9, 0, 4, [], 0, 0x0903, []⟩] ∧
    (run (.completionTimeout 5) (st (readDev (.data 9) [7] 4))).dev.xfers = [⟨.data 9, 0, 4, [], 0, 0x0904, []⟩] ∧
    ((run (.hostCompletion 5 [1, 2] .success false) (st (readDev (.entry 0 4) [] 2))).dev.queue 0 4).map Queue.head = some 9 := by
  unfold State.Canonical; decide +kernel

/-- Vector 2047 of the PF pending; a held write of the PF. -/
def vecDev : Device := (clkDev.setMsix ⟨[0], [0], [2047]⟩)
def heldDev : Device := (clkDev.setMsix ⟨[], [], []⟩).setHeldW [⟨0, 4, 0x1000, [1, 2]⟩]

theorem witness_busMaster : clkDev.funcLive 0 = true ∧ (0 ∈ vecDev.msix.bme) ∧ (withF vecDev [(.msix 0, Fld.MSIX_MASK, 2047, 0)]).fldI (.msix 0) Fld.MSIX_MASK 2047 = 0 ∧
    (run (.msixFunctionMaskClear 0) (st (withF vecDev [(.msix 0, Fld.MSIX_MASK, 2047, 0)]))).dev.msix.pba = [] ∧ vecDev.busMaster 0 = true ∧ heldDev.busMaster 0 = false ∧
    (run (.busMasterDisable 0) (st vecDev)).dev.link.holding = [0] ∧ heldDev.hostGone 0 = false ∧ heldDev.link.mps = 128 ∧
    (run (.busMasterEnable 0) (st heldDev)).dev.out = [.hostWrite 0 0x1000 [1, 2]] ∧ (run (.bmeRestore 0) (st (liveDev (crewDev 2)))).dev.busMaster 0 = true ∧
    (run (.bmeClear 0) (run (.bmeRestore 0) (st (liveDev (crewDev 2))))).dev.busMaster 0 = false ∧
    (run (.bmeHoldExpiry 0) (st ((clkDev.setFwState 7).setLink { clkDev.link with holding := [0] }))).dev.fwState = 8 := by decide +kernel

/-- VF 127 is enabled with partition 31 in a state. -/
def vfDev (pst : Nat) (flr : List Nat) : Device :=
  withF (((clkDev.setFwState 7).setParts [(31, plainPart 127)]).setLink { clkDev.link with vfEnable := true, flr := flr })
    [(.vf 127, Fld.VF_STATE_ENABLED, 0, 1), (.pkg, Fld.PKG_PART_STATE_STATE, 31, pst)]

theorem witness_flr : (∀ kv ∈ (vfDev 3 []).parts, kv.1 < 32) ∧ (vfDev 2 []).funcLive 127 = true ∧ (vfDev 2 []).flrDrained 127 = true ∧ (vfDev 3 []).flrDrained 127 = false ∧
    ((run (.vfFlr 127) (st (vfDev 2 []))).dev.part 31).map Partition.func = some 0 ∧ (run (.vfFlr 127) (st (vfDev 3 []))).dev.link.flr = [127] ∧
    (∀ kv ∈ (vfDev 5 [127]).partsOf 127, (vfDev 5 [127]).pState kv.1 ≠ 4) ∧ (run (.flrDrainLimit 127) (st (vfDev 5 [127]))).dev.link.flr = [] ∧
    (∀ kv ∈ (vfDev 2 []).parts, (vfDev 2 []).pState kv.1 ≠ 3 ∧ (vfDev 2 []).pState kv.1 ≠ 4 ∧ (vfDev 2 []).pState kv.1 ≠ 5) ∧
    completes .pfFlr (st (vfDev 2 [])) = true := by decide +kernel

theorem witness_vfEnable : clkDev.link.vfEnable = false ∧ (run (.vfEnableWrite true 1) (st clkDev)).dev.funcLive 1 = true ∧
    (run (.vfEnableWrite true 1) (st clkDev)).dev.funcLive 2 = false := by decide +kernel

/-- The link with its states, in D0 or D3hot, with PME enabled. -/
def pmDev (d : Nat) (active : Nat) : Device :=
  withF ((clkDev.setFwState 7).setLink { clkDev.link with pmeEn := true, l0pOk := true, l1Ok := true }) [(.pcie 0, Fld.PCIE_LINK_STATE_DSTATE, 0, d), (.pcie 0, Fld.PCIE_WAKE_MGMT, 0, 1),
    (.pcie 0, Fld.PCIE_WAKE_LINK, 0, 0), (.pcie 0, Fld.PCIE_LINK_STATE_FLIT, 0, 1), (.pcie 0, Fld.PCIE_LINK_CTRL_L0P_EN, 0, 1), (.pcie 0, Fld.PCIE_LINK_STATE_ACTIVE, 0, active),
    (.pcie 0, Fld.PCIE_LINK_STATE_WIDTH, 0, 16)]

theorem witness_dstates : (pmDev 0 16).fld (.pcie 0) Fld.PCIE_LINK_STATE_DSTATE ≠ 3 ∧ (pmDev 3 16).fld (.pcie 0) Fld.PCIE_LINK_STATE_DSTATE ≠ 0 ∧
    (run .d3hotEntry (st (pmDev 0 16))).dev.fwState = 8 ∧
    (run .d0Entry (st (pmDev 3 16))).dev.fld (.pcie 0) Fld.PCIE_LINK_STATE_DSTATE = 0 ∧ (liveDev (crewDev 2)).fld (.pcie 0) Fld.PCIE_LINK_STATE_DSTATE ≠ 3 := by decide +kernel

theorem witness_wake : (pmDev 0 16).wakeOn .mgmt = true ∧ (pmDev 0 16).wakeOn .link = false ∧ 6 ≤ (pmDev 0 16).pwr.groups ∧ (pmDev 0 16).pwr.aux = true ∧
    (run (.wakeEvent .mgmt) (st (pmDev 0 16))).dev.link.pmeStatus = true ∧ (run .wake (st (pmDev 0 16))).dev.link.pmeStatus = true ∧
    idles (.wakeEvent .link) (st (pmDev 0 16)) = true := by decide +kernel

theorem witness_l0p : (pmDev 0 16).fld (.pcie 0) Fld.PCIE_LINK_STATE_L1 ≠ 1 ∧ (pmDev 0 16).link.l0pOk = true ∧ (pmDev 0 16).link.l1Ok = true ∧
    (∀ a ∈ [4, 16], (run .l0pNarrow (st (pmDev 0 a))).dev.fld (.pcie 0) Fld.PCIE_LINK_STATE_ACTIVE = a / 2) ∧
    (run .l0pWiden (st (pmDev 0 4))).dev.fld (.pcie 0) Fld.PCIE_LINK_STATE_ACTIVE = 16 ∧ (run .l1Entry (st (pmDev 0 16))).dev.fld (.pcie 0) Fld.PCIE_LINK_STATE_L1 = 1 ∧
    (run .pmeTurnOff (st (pmDev 0 16))).dev.link.l2 = true := by decide +kernel

/-! ### Vaults and ciphers -/

/-- READY vaults on both I-dies, with the entropy good, in SECURE; slot 4095 of vault 0 wraps keys and slot 7 holds a GCM key. -/
def vaultDev : Device :=
  ((withF clkDev ([0, 1].flatMap fun (i : Nat) => [(.kvt i, Fld.KVT_STATE_VAULT, 0, 1), (.kvt i, Fld.KVT_STATE_LIFECYCLE, 0, 1), (.kvt i, Fld.KVT_STATE_DRBG_OK, 0, 1), (.kvt i, Fld.KVT_SESS_REQ_ADDR_ADDR, 15, 16)])).setSlot
    0 4095 ⟨1, 2, 0, false, 0, 0, [1]⟩).setSlot 0 7 ⟨3, 2, 0, false, 9, 0, [2]⟩

/-- A request block at 0x40000: operation, type, slot, second slot, scope and length. -/
def reqSt (op typ slot wrap scope len : Nat) : State :=
  ⟨vaultDev, Memory.wrBytes [] 0x40000 ([BitVec.ofNat 8 op, BitVec.ofNat 8 typ] ++ leBytes 2 slot ++ leBytes 2 wrap ++ [0, BitVec.ofNat 8 scope] ++ leBytes 4 0 ++ leBytes 4 len), []⟩
def reqOf (op typ slot wrap scope len : Nat) (cox : Bool) : VReq := parseVReq ((reqSt op typ slot wrap scope len).dev.memBytes (reqSt op typ slot wrap scope len).mem 0x40000 4096) cox

theorem request_at {s : State} {r : Req} {i sn : Nat} {cox : Bool} {q : VReq} (a : Nat) (ha : s.dev.fldI (.kvt i) Fld.KVT_SESS_REQ_ADDR_ADDR sn * 2 ^ 14 = a)
    (h : s.dev.present (.kvt i) = true ∧ s.dev.mayAccess r (.kvt i) = true ∧ sn < 16 ∧ Tbl.look (s.dev.vault i).sess sn = none ∧
      s.dev.memKind a = .hbm ∧ s.dev.inMemory a 4096 = true ∧ s.dev.cleanRange a 4096 ∧
      cox = (match r with
        | .cox _ _ => true
        | _ => false) ∧ q = parseVReq (s.dev.memBytes s.mem a 4096) cox ∧ s.dev.waitsForImport i q = false) : s.Request r i sn cox q := by
  subst ha
  exact h

/-- An ERASE of slot 7. -/
theorem witness_erase : (reqSt 3 0 7 0 0 0).Request .pf 0 15 false (reqOf 3 0 7 0 0 0 false) :=
  request_at 0x40000 (by decide +kernel) ⟨by decide +kernel, by decide +kernel, by decide, by decide +kernel, by decide +kernel, by decide +kernel, cleanRange_of (by decide +kernel), rfl, rfl, by decide +kernel⟩

/-- What the other operations' requests read as, and that nothing refuses them. -/
theorem witness_requests : (reqSt 3 0 7 0 0 0).Canonical ∧ vaultDev.mayAccess (.cox 0 0) (.kvt 0) = true ∧ (∀ x ∈ [(1, 3, 0, 4095, 40), (2, 3, 0, 0, 1568), (3, 0, 7, 0, 0), (4, 0, 0, 0, 0), (5, 0, 0, 0, 0),
      (6, 0, 7, 4094, 0), (7, 0, 0, 0, 0), (8, 0, 0, 0, 8192), (9, 0, 1, 0, 64), (10, 0, 0, 0, 4032)],
    (reqOf x.1 x.2.1 x.2.2.1 x.2.2.2.1 0 x.2.2.2.2 true).op = x.1 ∧ vaultDev.waitsForImport 0 (reqOf x.1 x.2.1 x.2.2.1 x.2.2.2.1 0 x.2.2.2.2 true) = false ∧
    vaultDev.vaultRefuse 0 (reqOf x.1 x.2.1 x.2.2.1 x.2.2.2.1 0 x.2.2.2.2 true) = 0) := by
  unfold State.Canonical; decide +kernel

theorem witness_refused : ∀ x ∈ [(1, 0, 0, 4095, 40), (2, 3, 7, 0, 1568), (3, 0, 4096, 0, 0), (9, 0, 8, 0, 64)],
    vaultDev.vaultRefuse 0 (reqOf x.1 x.2.1 x.2.2.1 x.2.2.2.1 0 x.2.2.2.2 true) ≠ 0 := by decide +kernel

theorem test_sessions : ((run (.erase .pf 0 15) (reqSt 3 0 7 0 0 0)).dev.slot 0 7).st = 0 ∧ ((run (.importKw .pf 0 15) (reqSt 1 3 5 4095 0 40)).dev.slot 0 5).st = 1 ∧
    (run (.migrate .pf 0 15 true) (reqSt 6 0 7 4094 0 0)).dev.slot 1 4094 = ⟨3, 2, 0, false, 9, 0, [2]⟩ ∧ ((vaultDev.slot 1 4094).st = 0 ∧ vaultDev.hasIdie 1 = true) ∧
    ((run (.zeroize .pf 0 15) (reqSt 7 0 0 0 0 0)).dev.vault 0).slots = [] := by decide +kernel

/-- An import in progress: the unwrapping is an opaque function of the payload, which gives a key or none, and both clauses apply. -/
def importSt : State := run (.importKw .pf 0 15) (reqSt 1 3 5 4095 0 40)
theorem witness_import : importSt.dev.fldI (.kvt 0) Fld.KVT_SESS_CTL_BUSY 15 = 1 ∧ importSt.dev.present (.kvt 0) = true ∧ importSt.dev.mayAccess .pf (.kvt 0) = true ∧
    (Tbl.look (importSt.dev.vault 0).sess 15).map (fun x => (parseVReq x.req x.cox).op) = some 1 ∧ importSt.dev.fld (.kvt 0) Fld.KVT_STATE_VAULT = 1 ∧
    (Tbl.look (importSt.dev.vault 0).sess 15).map (fun x => (parseVReq x.req x.cox).typ) = some 3 := by decide +kernel
theorem import_either (d : Device) (i : Nat) (q : VReq) : (∃ k, d.importedKey i q = .ok k) ∨ ∃ code, d.importedKey i q = .error code := by
  cases d.importedKey i q with
  | ok k => exact .inl ⟨k, rfl⟩
  | error e => exact .inr ⟨e, rfl⟩

theorem witness_alarms : vaultDev.present (.kvt 1) = true ∧ (run (.vaultAlarm 0 5) (st vaultDev)).dev.fld (.kvt 1) Fld.KVT_ALARM_CAUSE = 64 ∧
    (withF vaultDev [(.kvt 0, Fld.KVT_ALARM_CAUSE, 0, 0x7F)]).fld (.kvt 0) Fld.KVT_ALARM_CAUSE < 128 ∧
    (run (.alarmClear .pf 0 0x21 1) (st (withF vaultDev [(.kvt 0, Fld.KVT_ALARM_CAUSE, 0, 0x7F)]))).dev.fld (.kvt 0) Fld.KVT_ALARM_CAUSE = 0x5F ∧
    (run (.vaultReinit 0 0) (st (withF vaultDev [(.kvt 0, Fld.KVT_STATE_VAULT, 0, 2)]))).dev.fld (.kvt 0) Fld.KVT_STATE_VAULT = 1 ∧ vaultDev.fld (.kvt 0) Fld.KVT_ALARM_CAUSE = 0 ∧
    (run (.drbgReseed 0) (st vaultDev)).dev.cntOf (.kvt 0) 5 = 1 ∧ (run (.entropyFail 0) (st vaultDev)).dev.fld (.kvt 0) Fld.KVT_STATE_DRBG_OK = 0 ∧
    (run (.drbgRetry 0 true) (run (.entropyFail 0) (st vaultDev))).dev.fld (.kvt 0) Fld.KVT_STATE_DRBG_OK = 1 := by decide +kernel

/-- The response's digest and signature check are opaque functions: every other condition of an opened port is met here. -/
theorem witness_debug : bit ((withF vaultDev [(.kvt 0, Fld.KVT_FUSE_KEY_REVOKED, 0, 2)]).fld (.kvt 0) Fld.KVT_FUSE_KEY_REVOKED) 1 = true ∧
    bit (vaultDev.fld (.kvt 0) Fld.KVT_FUSE_KEY_REVOKED) 1 = false ∧
    ((run (.debugResponse 0 1 [] []) (st (withF vaultDev [(.kvt 0, Fld.KVT_FUSE_KEY_REVOKED, 0, 2)]))).dev.vault 0).dbgTries = 1 ∧
    bit ((run (.debugResponse 0 1 [] []) (st ((withF vaultDev [(.kvt 0, Fld.KVT_FUSE_KEY_REVOKED, 0, 2)]).setVault 0 { freshVault with dbgTries := 2 }))).dev.fld (.kvt 0) Fld.KVT_ALARM_CAUSE) 4 = true ∧
    vaultDev.fld (.kvt 0) Fld.KVT_STATE_DEBUG_OPEN ≠ 1 ∧ (run (.debugPortAccess 0) (st vaultDev)).dev.fld (.kvt 0) Fld.KVT_STATE_VAULT = 2 := by decide +kernel

/-- Job 3 of the cipher engine with slot 7 or an EMPTY one, 16 bytes from 0x1000 to 0x2000. -/
def jobDev (slot busy : Nat) : Device :=
  withF (vaultDev.setSlot 0 6 ⟨2, 2, 0, false, 9, 0, [2]⟩) [(.cph 0, Fld.CPH_JOB_CFG_SLOT, 3, slot), (.cph 0, Fld.CPH_JOB_SRC, 3, 0x1000), (.cph 0, Fld.CPH_JOB_DST, 3, 0x2000), (.cph 0, Fld.CPH_JOB_LEN, 3, 16),
    (.cph 0, Fld.CPH_JOB_CTL_BUSY, 3, busy)]

theorem witness_jobs : (jobDev 6 0).mayAccess .pf (.cph 0) = true ∧ (jobDev 6 0).present (.cph 0) = true ∧ (jobDev 6 0).jobUse 0 3 = 0 ∧ (jobDev 7 0).jobUse 0 3 ≠ 0 ∧
    (run (.cphJob .pf 0 3) (st (jobDev 6 0))).dev.fldI (.cph 0) Fld.CPH_JOB_CTL_BUSY 3 = 1 ∧ (run (.cphJob .pf 0 3) (st (jobDev 7 0))).dev.fldI (.cph 0) Fld.CPH_JOB_CTL_RESULT 3 = 3 ∧
    (jobDev 6 1).fldI (.cph 0) Fld.CPH_JOB_CFG_DECRYPT 3 = 0 ∧ (jobDev 6 1).inMemory 0x1000 16 = true ∧ (jobDev 6 1).cleanRange 0x1000 16 ∧ (jobDev 6 1).jobAddr 0x2000 16 = true ∧
    (jobDev 6 1).fldI (.cph 0) Fld.CPH_JOB_CFG_AAD_LEN 3 + (jobDev 6 1).fldI (.cph 0) Fld.CPH_JOB_LEN 3 = 16 ∧ (jobDev 6 1).ddrUndef = [] :=
  ⟨by decide +kernel, by decide +kernel, by decide +kernel, by decide +kernel, by decide +kernel, by decide +kernel, by decide +kernel, by decide +kernel,
    cleanRange_of (by decide +kernel), by decide +kernel, by decide +kernel, by decide +kernel⟩

/-- DDR5 channel 7 of I-die 1, halted or not, with its cipher on; slot 5 of vault 1 holds a key that the channel accepts. -/
def xtsDev (halted lost : Nat) : Device :=
  withF (vaultDev.setSlot 1 5 ⟨4, 2, 0, true, 0, 0, [3]⟩) [(.ddr 1 7, Fld.STATUS_HALTED, 0, halted), (.ddr 1 7, Fld.DDR_XTS_ENABLE, 0, 1), (.ddr 1 7, Fld.DDR_XTS_SLOT, 0, 5), (.ddr 1 7, Fld.DDR_STATE_KEY_LOST, 0, lost)]

/-- The key's check value is an opaque function; it equals the register's or not, and one of the two clauses applies. -/
theorem witness_xts : (xtsDev 0 0).mayAccess .pf (.ddr 1 7) = true ∧ (run (.ddrXtsWrite .pf 1 7 0) (st (xtsDev 0 0))).dev.fld (.ddr 1 7) Fld.ERR_STAT_H_WRITE = 1 ∧
    (run (.ddrXtsWrite .pf 1 7 0xFFF0000) (st (xtsDev 1 0))).dev.fld (.ddr 1 7) Fld.DDR_XTS_ENABLE = 0 ∧ (run (.ddrXtsWrite .pf 1 7 0xFFF0000) (st (xtsDev 1 0))).dev.fld (.ddr 1 7) Fld.DDR_XTS_SLOT = 0xFFF ∧
    ((xtsDev 0 1).slot 1 ((xtsDev 0 1).fld (.ddr 1 7) Fld.DDR_XTS_SLOT)).pkg = true ∧ ((xtsDev 0 1).slot 1 5).use 4 0 true = 0 := by decide +kernel

/-! ### The transport: sending -/

/-- A connection of the PF to package 9 with paths, packets unacknowledged and requests; message and packet 7 of one. -/
def gPath (st : Nat) : GftPath := ⟨0, 5000, 1, 2, st, 0, false⟩
def gConn (paths : List GftPath) (un : List TxPkt) (reqs : List GftReq) (msgs : List GftMsg) : Conn :=
  ⟨0, false, 9, 6, 3, false, 77, false, 1, none, 0, none, false, none, paths, 0, 0, true, 0, 4294967295, 8, 1, msgs, un, reqs, 20, [], [], [], 0, 0, none, 0, 0,
    ⟨65536, 1⟩, ⟨0, 1⟩, ⟨0, 1⟩, ⟨0, 1⟩, ⟨0, 1⟩, ⟨0, 1⟩, 0, none⟩
def gMsg : GftMsg := { GftMsg.blank with req := 4, op := 1, msn := 7, src := .held [1, 2, 3], len := 3, raddr := 0x1000, mkey := 5 }
def gPkt (lost : Bool) (sends : Nat) : TxPkt := ⟨7, gMsg, 3, 0, 0, sends, lost, 0, none, false⟩
def gReq (op : Nat) : GftReq := ⟨4, .queue 0 4 8 0x55 false, op, 7, .mem 0x2000, 8, 0, 3, 1, false, 0, 0, none, 0⟩
def gSt (c : Conn) : State := st ((withF (qDev 5 0x8000) [(.eth 0 0, Fld.ETH_STATE_UP, 0, 1)]).setConns [(9, c)])

/-- A GFT entry as its queue's oldest; the PF may use 4 KiB from 0x40000. -/
def gEntry (op size : Nat) : Fetched := cEntry [(0, 1, op), (2, 2, 0x55), (4, 4, 9), (8, 8, 0x40000), (28, 4, size)]
def gqSt (x : Fetched) (c : Conn) : State := st (((gSt c).dev.setFetched [x]).setParts [(3, part3 none [])])

theorem witness_gftCommands : (gqSt (gEntry 1 0x1000) (gConn [gPath 0] [] [] [])).Canonical ∧
    (∀ x ∈ [(1, 0x1000), (2, 0x1000), (4, 0x1000), (5, 0), (6, 0), (8, 0x1000), (0x10, 0x1000)], (gqSt (gEntry x.1 x.2) (gConn [gPath 0] [] [] [])).entryOf 0 4 5 (gEntry x.1 x.2) ∧
      (gEntry x.1 x.2).num 0 1 = x.1 ∧ (gEntry x.1 x.2).num 4 4 = 9 ∧ (gEntry x.1 x.2).unusedZero x.1 = true ∧ (gEntry x.1 x.2).sizeOk x.1 = true ∧
      (gqSt (gEntry x.1 x.2) (gConn [gPath 0] [] [] [])).dev.reqRoom 0 = true ∧
      (gqSt (gEntry x.1 x.2) (gConn [gPath 0] [] [] [])).dev.funcMem 0 ((gEntry x.1 x.2).num 8 8) (if x.1 = 5 ∨ x.1 = 6 then 8 else x.2) = true) ∧
    (gEntry 2 0).sizeOk 2 = false ∧ bit ((gEntry 0x10 0x1000).num 1 1) 3 = false ∧ (gqSt (gEntry 1 0) (gConn [] [] [] [])).dev.conn 8 = none := by
  unfold State.Canonical State.entryOf; decide +kernel

theorem test_gftCommands : ((run (.gftWrite 0 4) (gqSt (gEntry 1 0x1000) (gConn [gPath 0] [] [] []))).dev.conn 9).map (fun c => (c.reqs.map GftReq.op, c.nextMsn)) = some ([1], 9) ∧
    ((run (.gftPostRecv 0 4) (gqSt (gEntry 0x10 0x1000) (gConn [gPath 0] [] [] []))).dev.conn 9).map (fun c => c.bufs.map RecvBuf.addr) = some [0x40000] ∧
    (run (.gftRead 0 4) (gqSt (gEntry 2 0) (gConn [gPath 0] [] [] []))).dev.memBytes (run (.gftRead 0 4) (gqSt (gEntry 2 0) (gConn [gPath 0] [] [] []))).mem 0x10000 12 =
      statusBody 0x55 0x010F ++ leBytes 8 0 := by decide +kernel

theorem witness_send : ((gSt (gConn [gPath 0] [] [] [gMsg])).dev.nextNew (gConn [gPath 0] [] [] [gMsg]) = some (gMsg, 3)) ∧ (gConn [gPath 0] [] [] [gMsg]).pickPath none = some 0 ∧
    (gConn [gPath 0] [gPkt true 1] [] []).unacked.find? (fun x => x.lost && !x.waiting) = some (gPkt true 1) ∧ (gConn [gPath 0] [gPkt true 1] [] []).pickPath (some 0) = some 0 ∧
    ((gConn [gPath 0] [] [] [gMsg]).unacked.find? (fun x => x.lost && !x.waiting)) = none := by decide +kernel

theorem witness_payload : (gSt (gConn [gPath 0] [] [] [gMsg])).payloadIs gMsg 3 [1, 2, 3] := rfl

/-- Port 3 of I-die 1, up or down, with failed lanes; the package's connection has a path on it. -/
def portDev (up failed bad : Nat) : Device :=
  (withF ((gSt (gConn [{ gPath 0 with port := 7 }] [] [] [])).dev.setFecBad [(7, (bad, 0))]) [(.eth 1 3, Fld.ETH_STATE_UP, 0, up), (.eth 1 3, Fld.ETH_STATE_FAILED, 0, failed), (.eth 1 3, Fld.ETH_MODE_AUTO_NARROW, 0, 1)])

theorem witness_ports : (portDev 0 0 0).present (.eth 1 3) = true ∧ (∀ kv ∈ (portDev 0 0 0).conns, kv.2.owner < 2) ∧
    portMode ((portDev 0 0 0).fld (.eth 1 3) Fld.ETH_MODE_SPEED) ((portDev 0 0 0).fld (.eth 1 3) Fld.ETH_MODE_GROUP) 0 = some (0, 0) ∧
    portMode ((portDev 0 1 0).fld (.eth 1 3) Fld.ETH_MODE_SPEED) ((portDev 0 1 0).fld (.eth 1 3) Fld.ETH_MODE_GROUP) 1 = some (1, 1) ∧
    (run (.portUp 1 3) (st (portDev 0 0 0))).dev.fld (.eth 1 3) Fld.ETH_STATE_UP = 1 ∧ (run (.portNarrowed 1 3) (st (portDev 0 1 0))).dev.fld (.eth 1 3) Fld.ETH_STATE_SPEED = 1 ∧
    (run (.portDown 1 3 0 255) (st (portDev 1 0 0))).dev.conns.map (fun kv => kv.2.paths.map GftPath.st) = [[2]] ∧
    (run (.fecWindow 1 3 0 1000000) (st (portDev 1 0 2))).dev.fld (.eth 1 3) Fld.ETH_STATE_UP = 0 ∧ (portDev 1 0 2).fld (.eth 1 3) Fld.ETH_FEC_THRESH_UCW_PER_MS < 1000000 ∧
    (run (.fecWindow 1 3 0 0) (st (portDev 1 0 2))).dev.fld (.eth 1 3) Fld.ETH_STATE_UP = 1 := by decide +kernel

theorem witness_timers : (run (.ackDelayExpiry 9) (gSt { gConn [gPath 0] [] [] [] with firstUn := some 3 })).dev.tmWait.length = 1 ∧ idles (.ackDelayExpiry 9) (gSt (gConn [gPath 0] [] [] [])) = true ∧
    1 ≤ (gSt (gConn [gPath 0] [] [] [])).dev.app (.gft 0) Fld.GFT_RETRY_RETRY_MAX ∧ (gSt (gConn [gPath 0] [] [] [])).dev.app (.gft 0) Fld.GFT_RETRY_RETRY_MAX < 1000 ∧
    ((run (.rtoExpiry 9 7) (gSt (gConn [gPath 0] [gPkt false 1] [] []))).dev.conn 9).map (fun c => c.unacked.map TxPkt.lost) = some [true] ∧
    ((run (.rtoExpiry 9 7) (gSt (gConn [gPath 0] [gPkt false 1000] [] []))).dev.conn 9).map Conn.st = some 2 ∧
    ((run (.rnrDelayExpiry 9 7) (gSt (gConn [gPath 0] [{ gPkt false 1 with waiting := true }] [] []))).dev.conn 9).map (fun c => c.unacked.map TxPkt.waiting) = some [false] ∧
    ((run (.busyLimitExpiry 9 7) (gSt (gConn [gPath 0] [{ gPkt false 1 with busy := some 0 }] [] []))).dev.conn 9).map Conn.st = some 2 := by decide +kernel

theorem witness_probes : ((run (.probeTimeout 9 1) (gSt (gConn [gPath 0, gPath 1] [] [] []))).dev.conn 9).map (fun c => c.paths.map GftPath.st) = some [0, 2] ∧
    idles (.probeTimeout 9 0) (gSt (gConn [gPath 0, gPath 1] [] [] [])) = true ∧ (run (.probeInterval 9 0) (gSt (gConn [gPath 2] [] [] []))).dev.tmWait.length = 1 ∧
    (∀ x ∈ (gConn [gPath 2] [] [] []).paths, x.st = 2) ∧ (gSt (gConn [gPath 2] [] [] [])).dev.model.idies.length = 2 ∧
    ((run (.connMove 9 [(4, 5001)] none) (st (withF (gSt (gConn [gPath 2] [] [] [])).dev [(.eth 1 0, Fld.ETH_STATE_UP, 0, 1)]))).dev.conn 9).map Conn.owner = some 1 ∧
    ((run (.connMove 9 [(4, 5001)] none) (gSt (gConn [gPath 2] [] [] []))).dev.conn 9).map Conn.st = some 2 := by decide +kernel

/-! ### The transport: receiving -/

/-- A packet of connection 9 from package 9 with its ICV (R315 to R317), and what it parses to. -/
def gPacket (op flags psn msn off pitch gen : Nat) (ext body : List Byte) : RxPkt :=
  let h := baseHeader op flags 9 9 psn msn off pitch 0 0 body.length 0 ++ ext ++ body
  ⟨0, 11, 12, false, h ++ beBytes 4 (icvOf 77 psn gen h)⟩
def gHdr (x : RxPkt) : GftHdr := (parseGft x.bytes).getD ⟨0, 0, 0, 0, 0, 0, 0, 0, 0, 0, 0, [], [], 0, [], 0, 0, []⟩
theorem parse_of {x : RxPkt} (h : (parseGft x.bytes).isSome = true) : parseGft x.bytes = some (gHdr x) := by
  unfold gHdr
  cases hp : parseGft x.bytes with
  | none => rw [hp] at h; cases h
  | some y => rfl

/-- The packet waits at I-die 0, whose key table at 0x50000 allows 4 KiB from 0x1000 to every peer, and whose group 0 takes 256-byte chunks of two ranks at 0x3000. -/
def rxSt (c : Conn) (x : RxPkt) : State :=
  ⟨withA ((gSt c).dev.setGftDie 0 ⟨[x], [], []⟩) [(.gft 0, Fld.GFT_KEY_BASE_VALID, 0, 1), (.gft 0, Fld.GFT_KEY_BASE_ADDR, 0, 0x50), (.gft 0, Fld.GFT_KEY_COUNT_COUNT, 0, 1), (.gft 0, Fld.GFT_GROUP_BASE_VALID, 0, 1), (.gft 0, Fld.GFT_GROUP_BASE_ADDR, 0, 0x51)],
    Memory.wrBytes (Memory.wrBytes [] 0x50000 (leBytes 8 0x1000 ++ leBytes 8 0x1000 ++ [0x87, 0, 0, 0] ++ leBytes 2 0x8000)) 0x51000
      (leBytes 8 0x3000 ++ leBytes 4 512 ++ [1, 0] ++ leBytes 2 2 ++ leBytes 8 0x4000), []⟩

def rxConn : Conn := gConn [gPath 0] [] [] []
def wrExt (a key len : Nat) : List Byte := beBytes 8 a ++ beBytes 4 key ++ beBytes 4 len

/-- Everything that Arrives and newPsn ask of a packet. -/
def arrives (op : Nat) (c : Conn) (x : RxPkt) : Bool :=
  let s := rxSt c x
  let h := gHdr x
  s.dev.present (.gft 0) && (parseGft x.bytes).isSome && decide (h.op = op) && decide (h.conn = 9) && decide (s.dev.conn 9 = some c) && decide (c.owner = 0) && decide (c.peer = h.src) && decide (c.st = 0) &&
    c.cached && decide (c.enc = none) && !bit h.flags 4 && decide (icvOf c.nonce h.psn (if op = 1 ∨ op = 2 ∨ op = 5 ∨ op = 6 then h.e 8 4 / 2 ^ 24 else 0) h.covered = h.icv) &&
    decide (((s.dev.gftDie 0).rx.find? fun y => match parseGft y.bytes with
      | some g => decide (g.op = op)
      | none => false) = some x)

theorem arrives_of {op : Nat} {c : Conn} {x : RxPkt} (h : arrives op c x = true) : (rxSt c x).Arrives 0 op 9 c x (gHdr x) := by
  simp only [arrives, Bool.and_eq_true, decide_eq_true_eq, Bool.not_eq_true'] at h
  obtain ⟨⟨⟨⟨⟨⟨⟨⟨⟨⟨⟨⟨h1, h2⟩, -⟩, h4⟩, h5⟩, h6⟩, h7⟩, h8⟩, h9⟩, h10⟩, h11⟩, h12⟩, h13⟩ := h
  exact ⟨h1, by decide, h13, parse_of h2, h4, h5, h6, h7, h8, h9, h10, h11, h12⟩

/-- One packet of each opcode with the connection that it finds. -/
def rxCases : List (Nat × Conn × RxPkt) := [
  (0x01, rxConn, gPacket 1 3 20 7 0 0 0 (wrExt 0x1000 0 2) [5, 6]),
  (0x02, rxConn, gPacket 2 3 20 7 0 0 0 (wrExt 0x1000 0 0x1000) []),
  (0x03, gConn [gPath 0] [] [gReq 2] [], gPacket 3 1 20 7 0 0 0 [] [5, 6]),
  (0x04, { rxConn with bufs := [⟨0, 4, 8, 0x55, 0x2000, 2⟩] }, gPacket 4 1 20 7 0 0 0 [] [5, 6]),
  (0x04, rxConn, gPacket 4 1 20 7 0 0 0 [] [5, 6]),
  (0x05, rxConn, gPacket 5 3 2067 7 0 0 0 (wrExt 0x1FF8 0 0 ++ beBytes 8 3 ++ beBytes 8 0) []),
  (0x06, rxConn, gPacket 6 3 20 7 0 0 0 (wrExt 0x1000 0 0 ++ beBytes 8 0 ++ beBytes 8 9) []),
  (0x07, gConn [gPath 0] [] [gReq 5] [], gPacket 7 3 20 7 0 0 0 (beBytes 8 99 ++ beBytes 8 0) []),
  (0x08, rxConn, gPacket 8 1 20 7 0 0 0 (beBytes 4 0 ++ beBytes 2 0 ++ [1, 0] ++ beBytes 4 256 ++ beBytes 4 512) (List.replicate 256 1)),
  (0x08, rxConn, gPacket 8 1 20 7 0 0 0 (beBytes 4 0 ++ beBytes 2 1 ++ [1, 0] ++ beBytes 4 0 ++ beBytes 4 512) (List.replicate 256 1)),
  (0x08, rxConn, gPacket 8 1 20 7 0 4294967295 0 (beBytes 4 0 ++ beBytes 2 0 ++ [1, 0] ++ beBytes 4 0 ++ beBytes 4 512) (List.replicate 256 1)),
  (0x09, gConn [gPath 0] [gPkt false 1] [{ gReq 8 with group := 3 }] [], gPacket 9 3 20 7 0 0 0 (beBytes 4 3 ++ beBytes 2 1 ++ List.replicate 10 0) []),
  (0x10, gConn [gPath 0] [gPkt false 1] [] [], gPacket 0x10 0 0 0 0 0 0 (beBytes 4 8 ++ beBytes 2 2 ++ List.replicate 10 0) []),
  (0x11, gConn [gPath 0] [gPkt false 1] [gReq 1] [], gPacket 0x11 0 7 7 0 0 0 (List.replicate 12 0 ++ [1, 0, 0, 0]) []),
  (0x12, rxConn, gPacket 0x12 0 0 0 0 0 0 [] []),
  (0x13, gConn [gPath 1] [] [] [], gPacket 0x13 0 0 0 0 0 0 (List.replicate 16 0) [])]

theorem witness_arrives : ∀ x ∈ rxCases, arrives x.1 x.2.1 x.2.2 = true := by decide +kernel

/-- The packet at place k of the list, its connection and its state. -/
def rxAt (k : Nat) : Nat × Conn × RxPkt := rxCases.getD k (0, rxConn, gPacket 1 3 20 7 0 0 0 [] [])
def rxS (k : Nat) : State := rxSt (rxAt k).2.1 (rxAt k).2.2
def rxH (k : Nat) : GftHdr := gHdr (rxAt k).2.2

theorem witness_newPsn : ∀ k < 12, (behindPsn (rxH k).psn (rxAt k).2.1.cum = false ∧ ahead (rxH k).psn (rxAt k).2.1.cum < 2048 ∧ (rxAt k).2.1.strict = false ∧
    (rxAt k).2.1.placed.contains (rxH k).psn = false) ∧ ((rxS k).dev.gftDie 0).hold = [] := by decide +kernel

theorem witness_keys : (∀ k ∈ [0, 1], (rxS k).dev.keyCheck (rxS k).mem ((rxH k).e 8 4) ((rxH k).e 0 8 % 2 ^ 52) ((rxH k).e 12 4) (permOf (rxAt k).1) 9 = 0) ∧
    (∀ k ∈ [5, 6], (rxS k).dev.keyCheck (rxS k).mem ((rxH k).e 8 4) ((rxH k).e 0 8 % 2 ^ 52) 8 (permOf (rxAt k).1) 9 = 0) ∧ (rxH 5).e 0 8 % 2 ^ 52 % 8 = 0 ∧
    ((rxS 5).dev.setConn 9 (rxAt 5).2.1).atomicsHeld 0 < 16384 ∧ bit (rxH 0).flags 2 = false ∧ (rxH 0).off + (rxH 0).body.length ≤ (rxH 0).e 12 4 := by decide +kernel

theorem plain_of {s : State} {a n : Nat} (h : isHost a = false ∧ s.dev.inMemory a n = true ∧ s.dev.ddrUndef = []) (hc : s.dev.cleanRange a n) : s.plainRange a n :=
  ⟨h.1, h.2.1, hc, h.2.2⟩

theorem witness_ranges : (rxS 0).plainRange 0x1000 2 ∧ (rxS 1).plainRange 0x1000 0x1000 ∧ (rxS 2).plainRange 0x2000 2 ∧ (rxS 5).plainRange 0x1FF8 8 ∧ (rxS 8).plainRange 0x3100 256 ∧
    (rxS 9).plainRange 0x4000 256 :=
  ⟨plain_of (by decide +kernel) (cleanRange_of (by decide +kernel)), plain_of (by decide +kernel) (cleanRange_of (by decide +kernel)), plain_of (by decide +kernel) (cleanRange_of (by decide +kernel)),
    plain_of (by decide +kernel) (cleanRange_of (by decide +kernel)), plain_of (by decide +kernel) (cleanRange_of (by decide +kernel)), plain_of (by decide +kernel) (cleanRange_of (by decide +kernel))⟩

theorem test_receives : (run (.rxWrite 0) (rxS 0)).mem.rdByte 0x1001 = 6 ∧ ((run (.rxReadReq 0) (rxS 1)).dev.conn 9).map (fun c => c.msgs.map GftMsg.op) = some [3] ∧
    ((run (.rxReadResp 0) (rxS 2)).dev.conn 9).map (fun c => c.reqs.map GftReq.got) = some [2] ∧ (run (.rxSend 0) (rxS 3)).mem.rdByte 0x2000 = 5 ∧
    ((run (.rxSend 0) (rxS 4)).dev.conn 9).map Conn.cum = some 20 ∧ (run (.rxFetchAdd 0) (rxS 5)).mem.rdByte 0x1FF8 = 3 ∧ (run (.rxCmpSwap 0) (rxS 6)).mem.rdByte 0x1000 = 9 ∧
    ((run (.rxAtomicResp 0) (rxS 7)).dev.conn 9).map Conn.reqs = some [] := by decide +kernel

theorem test_acks : ((run (.rxApplied 0) (rxS 11)).dev.conn 9).map (fun c => c.reqs.map GftReq.applied) = some [true] ∧ ((run (.rxAck 0) (rxS 12)).dev.conn 9).map Conn.unacked = some [] ∧
    ((run (.rxNak 0) (rxS 13)).dev.conn 9).map Conn.reqs = some [] ∧ (run (.rxProbe 0) (rxS 14)).dev.tmWait.length = 1 ∧
    ((run (.rxProbeReply 0) (rxS 15)).dev.conn 9).map (fun c => c.paths.map GftPath.st) = some [0] := by decide +kernel

/-- A group's entry, and the first chunk of a round summed: BF16 0x0101 added to 0. -/
theorem witness_reduce : ((rxS 8).dev.groupEntry (rxS 8).mem 0 0).map (fun e => (e.target, e.len, e.fmt, e.ranks, e.staging)) = some (0x3000, 512, 1, 2, 0x4000) ∧
    ((rxS 8).dev.groupEntry (rxS 8).mem 0 0).map (fun e => (rankWhole e [(0, 1)] 0, rankWhole e [(1, 0)] 0, e.stage 1 0)) = some (false, false, 0x4000) ∧
    behindPsn (rxH 10).pitch 0 = true ∧ (rxH 8).e 8 4 + (rxH 8).off = 256 ∧ (rxH 8).body.length = 256 ∧ (rxH 9).e 4 2 = 1 := by decide +kernel

/-- A packet for a connection that does not exist, one whose check value is wrong, and one beyond the window. -/
theorem witness_drops : (run (.rxProbe 0) (st (((gSt rxConn).dev.setConns []).setGftDie 0 ⟨[(rxAt 14).2.2], [], []⟩))).dev.cntOf (.gft 0) 5 = 1 ∧
    icvOf 78 (rxH 14).psn 0 (rxH 14).covered ≠ (rxH 14).icv ∧ (run (.rxProbe 0) (rxSt { rxConn with nonce := 78 } (rxAt 14).2.2)).dev.cntOf (.gft 0) 7 = 1 ∧ sequenced 1 = true ∧
    ahead (gHdr (gPacket 1 3 2068 7 0 0 0 (wrExt 0x1000 0 2) [5, 6])).psn 20 = 2048 ∧
    (run (.rxWrite 0) (rxSt rxConn (gPacket 1 3 2068 7 0 0 0 (wrExt 0x1000 0 2) [5, 6]))).dev.cntOf (.gft 0) 9 = 1 := by decide +kernel

/-- A context that is fetched, with its packet waiting. -/
theorem witness_context : (parseGft (rxAt 14).2.2.bytes).isSome = true ∧ (rxH 14).conn = 9 ∧
    ((run (.contextFetchDone 0 9) (st ((gSt { rxConn with cached := false }).dev.setGftDie 0 ⟨[], [(rxAt 14).2.2], []⟩))).dev.conn 9).map Conn.cached = some true := by decide +kernel

/-- RNR and BUSY answers wait and leave the request. -/
theorem witness_nakWaits : ∀ code ∈ [3, 4], (let x := gPacket 0x11 0 7 7 0 0 0 (List.replicate 12 0 ++ [BitVec.ofNat 8 code, 0, 0, 0]) []
    arrives 0x11 (rxAt 13).2.1 x = true ∧ ((run (.rxNak 0) (rxSt (rxAt 13).2.1 x)).dev.conn 9).map (fun c => (c.reqs.length, c.unacked.map TxPkt.waiting)) = some (1, [true])) := by decide +kernel

/-! ### The packet pipeline -/

/-- Frames without their FCS: minimal IPv4 with UDP, and one whose header checksum is wrong. -/
def ipHead (len sum : Nat) : List Byte := [0x45, 0, 0, BitVec.ofNat 8 len, 0, 0, 0x40, 0, 64, 17] ++ beBytes 2 sum ++ [10, 0, 0, 1, 10, 0, 0, 2]
def udpFrame (pay sum : Nat) : List Byte :=
  List.replicate 12 2 ++ [8, 0] ++ ipHead (28 + pay) sum ++ beBytes 2 5000 ++ beBytes 2 6000 ++ beBytes 2 (8 + pay) ++ [0, 0] ++ List.replicate pay 9

/-- A frame in pipeline 0 at a stage, and the I-die with it. -/
def aFrame (stage : PipeStage) (raw : List Byte) (chain : List (List Nat × Option Nat)) : PipeFrame := ⟨1, 5, 0, 0, stage, 0, 0, 0, raw, raw, chain, false, false, none, false⟩
def pipeSt (f : PipeFrame) : State :=
  st ((withF clkDev [(.eth 0 1, Fld.ETH_STATE_UP, 0, 1)]).setPipeDie 0 ⟨1, 0, [f], []⟩)
def goodUdp : List Byte := udpFrame 18 9917
def gftUdp : List Byte := udpFrame 32 9903

theorem witness_frameIn : (pipeSt (aFrame .parse goodUdp [])).Canonical ∧ (pipeSt (aFrame .parse goodUdp [])).dev.pipeLive 0 = true ∧ (pipeSt (aFrame .parse goodUdp [])).dev.present (.eth 0 1) = true ∧
    wireLen goodUdp = 64 ∧ beAt goodUdp 12 2 ≠ 0x8808 ∧ ((pipeSt (aFrame .parse goodUdp [])).dev.pipe 0 1).used + goodUdp.length ≤ 262144 ∧
    (run (.frameReceive 0 1 goodUdp 1) (pipeSt (aFrame .parse goodUdp []))).dev.cntOf (.eth 0 1) 2 = 1 ∧
    ((run (.frameReceive 0 1 goodUdp 0) (pipeSt (aFrame .parse goodUdp []))).dev.pipe 0 1).next = 1 := by unfold State.Canonical; decide +kernel

theorem witness_fifoFull : 262144 < (PipeIn.mk [⟨0, List.replicate 262144 0, 0, 0⟩] 1 0 []).used + goodUdp.length := by
  have h : 0 < goodUdp.length := by decide +kernel
  simp only [PipeIn.used, List.map_cons, List.map_nil, List.length_replicate, List.sum_cons, List.sum_nil]
  omega

theorem witness_dispatch : ((run (.frameReceive 0 1 goodUdp 0) (pipeSt (aFrame .parse goodUdp []))).dev.pipeDie 0).turn = 1 ∧
    ((run (.frameReceive 0 1 goodUdp 0) (pipeSt (aFrame .parse goodUdp []))).dev.pipeDie 0).idleEngine = some 1 ∧
    ((run (.frameDispatch 0) (run (.frameReceive 0 1 goodUdp 0) (pipeSt (aFrame .parse goodUdp [])))).dev.pipeDie 0).frames.map PipeFrame.engine = [0, 1] := by decide +kernel

/-- A frame that parses, one malformed, one with a bad checksum, one for the slow path, and one that is local GFT. -/
theorem witness_parse : (∀ x ∈ [(goodUdp, Verdict.ok), (List.replicate 12 2 ++ [8, 0, 0x44] ++ List.replicate 45 0, .malformed), (udpFrame 18 0, .badSum), (List.replicate 60 2, .slow 3)],
      ((pipeSt (aFrame .parse x.1 [])).dev.viewOf 0 (aFrame .parse x.1 [])).verdict = x.2) ∧
    ((pipeSt (aFrame .parse goodUdp [])).dev.pipeDie 0).frames.find? (fun g => decide (g.stage = .parse ∧ g.engine = 0)) = some (aFrame .parse goodUdp []) ∧
    (pipeSt (aFrame .parse goodUdp [])).dev.localGft 0 1 ((pipeSt (aFrame .parse goodUdp [])).dev.viewOf 0 (aFrame .parse goodUdp [])) goodUdp = false ∧
    bit ((pipeSt (aFrame .parse goodUdp [])).dev.genVal (.prs 0) Fld.PRS_SLOW_HOST_MASK 0 0) 2 = false ∧
    (pipeSt (aFrame .parse goodUdp [])).dev.genVal (.prs 0) Fld.PRS_PORT_CFG_GFT_CLASSIFY 1 0 = 0 ∧
    ((run (.frameParse 0 0) (pipeSt (aFrame .parse (List.replicate 60 2) []))).dev.pipeDie 0).slow.map SlowFrame.cause = [3] ∧
    ((run (.frameParse 0 0) (pipeSt (aFrame .parse goodUdp []))).dev.pipeDie 0).frames.map PipeFrame.stage = [.lookup] := by decide +kernel

theorem witness_localGft : (let d := withF (withA (pipeSt (aFrame .parse gftUdp [])).dev [(.eth 0 1, Fld.ETH_MAC_ADDR_ADDR, 0, 0x020202020202)]) [(.gft 0, Fld.GFT_CFG_UDP_PORT, 0, 6000)]
    d.localGft 0 1 (d.viewOf 0 (aFrame .parse gftUdp [])) gftUdp = true ∧ ((run (.frameParse 0 0) (st d)).dev.pipeDie 0).frames.map PipeFrame.stage = [.reorder]) := by decide +kernel

theorem witness_lookup : ((pipeSt (aFrame .lookup goodUdp [])).dev.pipeDie 0).frames.find? (fun g => decide (g.stage = .lookup ∧ g.input = 1 ∧ g.seq = 5)) = some (aFrame .lookup goodUdp []) ∧
    ((run (.frameLookup 0 1 5) (pipeSt (aFrame .lookup goodUdp []))).dev.pipeDie 0).frames.map PipeFrame.stage = [.reorder] := by decide +kernel

/-- The frame of input 1 with sequence number 5 in reorder, where the input expects number e. -/
def reorderSt (e : Nat) : State := st ((pipeSt (aFrame .reorder goodUdp [])).dev.setPipe 0 1 ⟨[], 6, e, []⟩)

theorem witness_reorder : ((reorderSt 5).dev.pipe 0 1).gone = [] ∧ (∀ g ∈ ((reorderSt 5).dev.pipeDie 0).held, g.input = 1 → ((reorderSt 5).dev.pipe 0 1).expect ≤ g.seq) ∧
    ((reorderSt 5).dev.pipeDie 0).held.find? (fun g => decide (g.input = 1 ∧ g.seq = 5)) = some (aFrame .reorder goodUdp []) ∧
    (∀ g ∈ ((reorderSt 4).dev.pipeDie 0).held, g.input = 1 → ((reorderSt 4).dev.pipe 0 1).expect < g.seq) ∧ ((reorderSt 4).dev.pipeDie 0).held.length = 1 ∧
    ((run (.reorderRelease 0 1) (reorderSt 5)).dev.pipeDie 0).frames.map PipeFrame.stage = [.edit] ∧ ((run (.reorderTimeout 0 1) (reorderSt 4)).dev.pipe 0 1).expect = 5 := by decide +kernel

/-- A table entry: its disposition and other bits of word 0, word 1 and word 2. -/
def entryW (w0 w1 w2 : Nat) : List Nat := [w0, w1, w2, 0]
def isErr : Except Nat (List Byte × Nat) → Option Nat
  | .error c => some c
  | .ok _ => none

theorem witness_edit : (pipeSt (aFrame .edit goodUdp [(entryW 5 0 0, none)])).dev.pipeAt 0 .edit = some (aFrame .edit goodUdp [(entryW 5 0 0, none)]) ∧
    (match editFrame ((pipeSt (aFrame .edit goodUdp [])).dev.viewOf 0 (aFrame .edit goodUdp [])) (entryW 5 0 0) ((pipeSt (aFrame .edit goodUdp [])).dev.editRec 0 0 0) none goodUdp with
     | .ok r => some r
     | .error _ => none) = some (goodUdp, 0) ∧
    bit ((entryW 5 (2 ^ 54 + 2 ^ 40) 0).getD 1 0) 54 = true ∧
    ((run (.frameEdit 0) (pipeSt (aFrame .edit goodUdp [(entryW 5 (2 ^ 54 + 2 ^ 40) 0, none)]))).dev.pipeDie 0).frames.map PipeFrame.stage = [.dispose] ∧
    Tbl.look (run (.frameEdit 0) (pipeSt (aFrame .edit goodUdp [(entryW 5 (2 ^ 54 + 2 ^ 40) 0, none)]))).dev.flowCnts 1 = some (1, 64) := by decide +kernel

theorem witness_disposition : ((pipeSt (aFrame .dispose goodUdp [(entryW 5 0 0, none)])).dev.pipeDie 0).frames.find? (fun g => decide (g.stage = .dispose) && decide (g.scanned = false)) =
      some (aFrame .dispose goodUdp [(entryW 5 0 0, none)]) ∧ ew (entryW 5 0 0) 0 0 4 = 5 ∧ ew (entryW (2 ^ 6 * 3 + 2 ^ 8 * 31) 0 0) 0 8 5 = 31 ∧
    (run (.frameDisposition 0 false) (pipeSt (aFrame .dispose goodUdp [(entryW 5 0 0, none)]))).dev.cntOf (.cls 0) 4 = 1 ∧
    (run (.frameDisposition 0 false) (pipeSt (aFrame .dispose goodUdp [(entryW (2 ^ 6 * 3 + 2 ^ 8 * 31) 0 0, none)]))).dev.tmWait.map (fun f => (f.port, f.queue)) = [(3, 31)] := by decide +kernel

/-- Placement table with record 1023: a ring of 256-byte slots at 0x10000, its valid bit set. -/
def placeDev (f : PipeFrame) : Device :=
  ((withA (pipeSt f).dev [(.cls 0, Fld.CLS_PLACE_BASE_VALID, 0, 1)]).setLoaded [(2, Memory.wrBytes [] (64 * 1023) (leBytes 8 0x10000 ++ [8, 24, 0, 0x80]))])
def placeF : PipeFrame := aFrame .dispose goodUdp [(entryW (2 + 2 ^ 34 * 1023) 0 0, none)]

theorem witness_placement : (placeDev placeF).pipeLive 0 = true ∧ ew (entryW (2 + 2 ^ 34 * 1023) 0 0) 0 34 10 = 1023 ∧ ((placeDev placeF).placeRec 0 1023 0).map (fun r => (r.base, r.slotLog, r.countLog, r.strip)) = some (0x10000, 8, 24, 0)  ∧
    min (stripOf (parseFrame ((placeDev placeF).parseCfg 0 0 1) goodUdp) 0 goodUdp).length (2 ^ 8 - 16) = 60 ∧ (run (.frameDisposition 0 false) (st (placeDev placeF))).mem.rdByte 0x1000F = 0 ∧
    (run (.frameDisposition 0 false) (st (placeDev placeF))).mem.rdByte 0x10010 = 2 ∧
    ((run (.frameDisposition 0 false) (st (placeDev placeF))).dev.place 0 1023).heads = [(1, 60, false, 0, 0)] ∧
    (run (.placementHeaderWrite 0 1023) (run (.frameDisposition 0 false) (st (placeDev placeF)))).mem.rdByte 0x10000 = 1 := by decide +kernel

theorem witness_placeRange : (st (placeDev placeF)).plainRange 0x10010 60 ∧ (st (placeDev placeF)).plainRange 0x10000 16 :=
  ⟨⟨by decide +kernel, by decide +kernel, cleanRange_of (by decide +kernel), by decide +kernel⟩, ⟨by decide +kernel, by decide +kernel, cleanRange_of (by decide +kernel), by decide +kernel⟩⟩

/-- The pattern matcher with rule 0 (set 0, an action) and one pattern, the byte 9. -/
def pmeSt (act : Nat) (pat : Byte) : State :=
  st ((withA (pipeSt (aFrame .pme goodUdp [(entryW 5 0 0, none)])).dev [(.pme 0, Fld.PME_RULE_BASE_VALID, 0, 1), (.pme 0, Fld.PME_PAT_BASE_VALID, 0, 1), (.pme 0, Fld.PME_PAT_COUNT_COUNT, 0, 1)]).setLoaded
    [(4, Memory.wrBytes [] 0 [1, 0x80] |>.wrBytes 16 [pat]), (6, Memory.wrBytes [] 0 [1, 0, 0, 0, 0, 0, 0, 0, BitVec.ofNat 8 act, 0, 1])])

theorem witness_pme : (pmeSt 1 9).dev.pipeAt 0 .pme = some (aFrame .pme goodUdp [(entryW 5 0 0, none)]) ∧ (pmeSt 1 9).dev.pmeRule 0 0 0 = some (1, 1, 0) ∧
    (pmeSt 1 9).dev.pmeMatch 0 0 1 [] (List.replicate 18 9) true = some 0 ∧ (pmeSt 1 8).dev.pmeMatch 0 0 1 [] (List.replicate 18 9) true = none ∧
    ((run (.pmeScan 0) (pmeSt 1 8)).dev.pipeDie 0).frames.map PipeFrame.stage = [.dispose] ∧ (run (.pmeScan 0) (pmeSt 1 9)).dev.cntOf (.pme 0) 6 = 1 := by decide +kernel

/-- An edit that sends its frame to the slow path with cause 6: its time to live runs out. -/
def ttlUdp : List Byte := (udpFrame 18 26045).set 22 1
theorem witness_editSlow : isErr (editFrame ((pipeSt (aFrame .edit ttlUdp [])).dev.viewOf 0 (aFrame .edit ttlUdp [])) (entryW 0 0 (2 ^ 19)) ((pipeSt (aFrame .edit ttlUdp [])).dev.editRec 0 0 0) none ttlUdp) = some 6 ∧
    bit ((pipeSt (aFrame .edit ttlUdp [])).dev.genVal (.prs 0) Fld.PRS_SLOW_HOST_MASK 0 0) 5 = false ∧
    ((run (.frameEdit 0) (pipeSt (aFrame .edit ttlUdp [(entryW 0 0 (2 ^ 19), none)]))).dev.pipeDie 0).slow.map SlowFrame.cause = [6] := by decide +kernel

/-- The table window of I-die 0: a slot and word selected by the PF, in group 0 of two buckets. -/
def selDev (slot word : Nat) (l : Tbl ClsSlot) : Device :=
  (((withA clkDev [(.cls 0, Fld.CLS_GRP_CFG_BUCKETS_LOG2, 0, 1)]).putSel (.cls 0) Fld.CLS_TBL_SEL_SLOT .pf slot).putSel (.cls 0) Fld.CLS_TBL_SEL_WORD .pf word).setClsSlots l
def dropSlot (v : Nat) : ClsSlot := ⟨[5, 0, 0, v * 2 ^ 63], [1, 2, 3, 4, 5, 6]⟩

theorem witness_window : (selDev 7 0 []).mayAccess .pf (.cls 0) = true ∧ (selDev 7 0 []).selSlot .pf 0 = (slotKey 0 7, some 0) ∧ (dropSlot 0).valid = false ∧ (dropSlot 1).valid = true ∧
    (run (.clsTblWrite .pf 0 32 5) (st (selDev 7 0 []))).dev.selOf (.cls 0) Fld.CLS_TBL_STAT_RESULT .pf = 6 ∧
    Tbl.look (run (.clsTblWrite .pf 0 64 77) (st (selDev 7 9 []))).dev.clsSlots (slotKey 0 7) = some ⟨[0, 0, 0, 0], [0, 0, 0, 0, 0, 77]⟩ ∧
    (run (.clsTblWrite .pf 0 64 77) (st (selDev 7 0 [(slotKey 0 7, dropSlot 1)]))).dev.selOf (.cls 0) Fld.CLS_TBL_STAT_RESULT .pf = 3 ∧
    (selDev 7 3 []).entryCheck (some 0) [5, 0, 0, 2 ^ 63] = 0 ∧ (selDev 8 3 []).entryCheck ((selDev 8 3 []).selSlot .pf 0).2 [5, 0, 0, 2 ^ 63] ≠ 0 ∧
    (run (.clsTblWrite .pf 0 64 (2 ^ 63)) (st (selDev 7 3 [(slotKey 0 7, dropSlot 0)]))).dev.selOf (.cls 0) Fld.CLS_TBL_STAT_RESULT .pf = 1 ∧
    (run (.clsTblWrite .pf 0 64 0) (st (selDev 7 3 [(slotKey 0 7, dropSlot 1)]))).dev.selOf (.cls 0) Fld.CLS_TBL_STAT_RESULT .pf = 2 ∧
    (run (.clsTblRead .pf 0 64) (st (selDev 7 0 [(slotKey 0 7, dropSlot 1)]))).dev.out = [.readValue .pf 5] ∧
    (run (.clsFcntRead .pf 0) (st ((selDev 7 0 []).setFlowCnts [(0, (4, 256))]))).dev.out = [.readValue .pf 4] := by decide +kernel

/-! ### The traffic manager -/

/-- A frame for port 3 of I-die 1 and a queue, from a source; the port with what stands in a queue. -/
def tmF (q src : Nat) (waited : Bool) : TmFrame := ⟨7, q, src, false, List.replicate 60 2, none, waited, 0, 0⟩
def tmSt (f : List TmFrame) (q : Nat) (queued : List TmFrame) : State :=
  st ((withF (clkDev.setTmWait f) [(.eth 1 3, Fld.ETH_STATE_UP, 0, 1)]).setTmq 1 3 q ⟨queued, 5000, 0, 0, List.replicate 6 0, [], 0, 0⟩)

/-- A full queue: 8,192 frames are out of a test's reach, so its limit is set to nothing by its record. -/
def fullSt (f : List TmFrame) : State := st (withA (tmSt f 5 []).dev [(.tmg 1, Fld.TMG_QTAB_BASE_VALID, 0, 1)])

theorem witness_enqueue : (tmSt [tmF 5 0 false] 5 []).Canonical ∧ (tmSt [tmF 5 0 false] 5 []).dev.present (.tmg 1) = true ∧ (tmSt [tmF 5 0 false] 5 []).dev.stopped (Page.tmg 1).island = false ∧
    (tmSt [tmF 5 0 false] 5 []).dev.tmWait.find? (fun g => decide (g.port / 4 = 1) && !g.waited) = some (tmF 5 0 false) ∧ (tmSt [] 5 []).dev.class0Queue 1 ≠ 5 ∧
    (tmSt [] 5 []).dev.admits 1 3 5 (List.replicate 60 2) = .yes ∧ (fullSt []).dev.admits 1 3 5 (List.replicate 60 2) ≠ .yes ∧ ((tmSt [] 5 []).dev.qrecNow 1 (32 * 3 + 5)).ecn = false ∧
    ((run (.tmEnqueue 1) (tmSt [tmF 5 0 false] 5 [])).dev.tmq 1 3 5).frames.length = 1 ∧
    (run (.tmEnqueue 1) (tmSt [tmF ((tmSt [] 5 []).dev.class0Queue 1) 0 false] 5 [])).dev.cntOf (.tmg 1) 20 = 1 ∧
    (run (.tmEnqueue 1) (fullSt [tmF 5 2 false])).dev.cntOf (.tmg 1) 15 = 1 ∧ (run (.tmEnqueue 1) (fullSt [tmF 5 1 false])).dev.cntOf (.tmg 1) 11 = 1 := by unfold State.Canonical; decide +kernel

theorem witness_retry : (tmSt [tmF 5 3 true] 5 []).dev.tmWait.find? (fun g => decide (g.port = 4 * 1 + 3 ∧ g.queue = 5) && g.waited) = some (tmF 5 3 true) ∧
    ((run (.tmAdmitRetry 1 3 5) (tmSt [tmF 5 3 true] 5 [])).dev.tmq 1 3 5).frames.length = 1 ∧ idles (.tmAdmitRetry 1 3 5) (fullSt [tmF 5 3 true]) = true := by decide +kernel

/-- A strict queue, and a group queue at its turn with its quantum granted. -/
def groupSt (q turn : Nat) : State := st ((tmSt [] q [tmF q 0 false]).dev.setTmp 1 3 { (tmSt [] q []).dev.tmp 1 3 with turn := turn, granted := true })

theorem witness_transmit : (groupSt 3 4).dev.present (.eth 1 3) = true ∧ (groupSt 3 4).dev.fld (.eth 1 3) Fld.ETH_STATE_UP = 1 ∧
    (List.range 32).filter (fun r => (groupSt 3 4).dev.eligible 1 3 r ((groupSt 3 4).dev.tmp 1 3) []) = [3] ∧ (groupSt 3 4).dev.capped 1 3 3 ((groupSt 3 4).dev.tmp 1 3) [3] = false ∧
    (List.range 32).filter (fun r => (groupSt 31 31).dev.eligible 1 3 r ((groupSt 31 31).dev.tmp 1 3) []) = [31] ∧ chargeOf ((groupSt 31 31).dev.qrecFor 1 (32 * 3 + 31) (tmF 31 0 false)) (List.replicate 60 2) = 84 ∧
    ((run (.tmTransmit 1 3 []) (groupSt 3 4)).dev.tmq 1 3 3).frames = [] ∧ (run (.tmTransmit 1 3 []) (groupSt 31 31)).dev.out = [.bytes "eth-frame" 7 (List.replicate 60 2)] ∧
    idles (.tmTransmit 1 3 [3]) (groupSt 3 4) = true := by decide +kernel

/-- A gate list of two entries of 100 ns, in force or pending since time 5. -/
def gateL : GateList := ⟨[(100, 1), (100, 2)], 0, 0, false⟩
def gateSt (gate : Option GateList) (pend : Option (GateList × Nat)) (e : Nat) : State :=
  st ((clkDev.setTmp 1 3 { clkDev.tmp 1 3 with gate := gate, pend := pend, entry := e }))

theorem witness_gates : ((gateSt (some gateL) none 1).dev.tmp 1 3).gate = some gateL ∧ (entryAt gateL.entries (gateL.offset ((gateSt (some gateL) none 1).dev.ptpNow ((gateSt (some gateL) none 1).dev.tmp 1 3))) 0).1 = 0 ∧
    ((run (.gateEntryChange 1 3) (gateSt (some gateL) none 1)).dev.tmp 1 3).entry = 0 ∧ ((run (.gateListTakeover 1 3) (gateSt none (some (gateL, 5)) 0)).dev.tmp 1 3).gate = some gateL ∧
    ((5 + (((gateL.base : Int) - (5 : Int)) % (gateL.cycle : Int)).toNat : Nat) : Int) ≤ (gateSt none (some (gateL, 5)) 0).dev.ptpNow ((gateSt none (some (gateL, 5)) 0).dev.tmp 1 3) ∧
    (1000 : Int).natAbs ≤ 1000 ∧ 1000 < (-1001 : Int).natAbs ∧ ((run (.ptpStep 1 3 (-1001)) (gateSt none none 0)).dev.tmp 1 3).ptp = -1001 ∧
    (run (.ptpStep 1 3 (-1001)) (gateSt none none 0)).dev.cntOf (.tmg 1) 21 = 1 ∧ (run (.ptpStep 1 3 1000) (gateSt none none 0)).dev.cntOf (.tmg 1) 21 = 0 := by decide +kernel

theorem witness_samples : (withA clkDev [(.tmg 1, Fld.TMG_SAMPLE_ENABLE, 0, 1)]).app (.tmg 1) Fld.TMG_SAMPLE_ENABLE ≠ 0 ∧ (withA clkDev [(.tmg 1, Fld.TMG_SAMPLE_ENABLE, 0, 0)]).app (.tmg 1) Fld.TMG_SAMPLE_ENABLE = 0 ∧ clkDev.mayAccess .pf (.tmg 1) = true ∧
    clkDev.selOf (.tmg 1) Fld.TMG_SAMP_SEL_PORT .pf = 0 ∧ clkDev.selOf (.tmg 1) Fld.TMG_SAMP_SEL_QUEUE .pf = 0 ∧
    (run (.tmgSampDataRead .pf 1) (st (clkDev.setTmq 1 0 0 ⟨[], 0, 0, 0, List.replicate 6 0, [(0, ⟨1, 2, 3, 4, 5⟩)], 1, 1⟩))).dev.out = [.readValue .pf ((TmSample.mk 1 2 3 4 5).word % 2 ^ 32)] := by decide +kernel

/-- A transmit entry: address, length, port and queue. -/
def txE (len port : Nat) : Fetched := cEntry [(0, 8, 0x40000), (8, 2, len), (10, 1, port), (11, 1, 31), (12, 2, 0x55)]
def txSt (x : Fetched) (g : Nat) : State := st (((qDev 2 0x8000).setFetched [x]).setParts [(3, { part3 none [] with func := g })])

theorem witness_ethTx : (txSt (txE 64 7) 0).entryOf 0 4 2 (txE 64 7) ∧ (txSt (txE 64 7) 0).dev.ddrUndef = [] ∧ (txSt (txE 64 7) 0).dev.present (.eth 1 3) = true ∧
    (txSt (txE 64 7) 0).dev.funcMem 0 0x40000 64 = true ∧ (txSt (txE 64 7) 5).dev.funcMem 0 0x40000 64 = false ∧ (txE 64 7).num 8 2 = 64 ∧ (txE 64 7).num 11 1 = 31 ∧
    (txSt (txE 64 7) 0).plainRange 0x40000 64 ∧ (run (.ethTx 0 4) (txSt (txE 64 7) 0)).dev.tmWait.map (fun f => (f.port, f.queue)) = [(7, 31)] ∧
    (run (.ethTx 0 4) (txSt (txE 9213 7) 0)).dev.memBytes (run (.ethTx 0 4) (txSt (txE 9213 7) 0)).mem 0x10000 4 = statusBody 0x55 0x010F :=
  ⟨by unfold State.entryOf; decide +kernel, by decide +kernel, by decide +kernel, by decide +kernel, by decide +kernel, by decide +kernel, by decide +kernel,
    ⟨by decide +kernel, by decide +kernel, cleanRange_of (by decide +kernel), by decide +kernel⟩, by decide +kernel, by decide +kernel⟩

/-! ### Storage and check units -/

/-- Namespace 1 of the PF: 1,000 blocks at port 7, its SSD ready or not. -/
def vnsBytes (flags func : Nat) : List Byte := bytesAt 256 [(0, 1, flags), (1, 1, 1), (2, 2, func), (8, 8, 1000), (32, 4, 7), (36, 4, 1), (40, 6, 5000)]
def blkDev (ready : Nat) : Device :=
  (withF (withA (qDev 4 0x8000) [(Device.reset.nvr, Fld.NVR_VNS_BASE_VALID, 0, 1), (Device.reset.nvr, Fld.NVR_VNS_COUNT_COUNT, 0, 2)])
    [(Device.reset.nvr, Fld.NVR_PORT_STATE_UP, 7, ready), (Device.reset.nvr, Fld.NVR_PORT_STATE_READY, 7, ready)]).setLoaded [(32 * Device.reset.rootDie + 12, Memory.wrBytes [] 256 (vnsBytes 1 0))]
def blkE (op lba nlb : Nat) : Fetched := cEntry [(0, 1, op), (2, 2, 0x55), (4, 4, 1), (8, 8, lba), (16, 4, nlb), (24, 8, if op = 1 ∨ op = 2 then 0x40000 else 0)]
def blkQ (x : Fetched) (ready : Nat) : State := st (((blkDev ready).setFetched [x]).setParts [(3, part3 none [])])
def checked (x : Fetched) (op : Nat) : Nat := match (blkQ x 1).dev.blockCheck 0 x op with
  | .ok _ => 0
  | .error e => e

theorem witness_blockChecks : (blkQ (blkE 1 999 1) 1).Canonical ∧ (blkQ (blkE 1 999 1) 1).entryOf 0 4 4 (blkE 1 999 1) ∧ (blkQ (blkE 1 999 1) 1).dev.blocks = [] ∧
    (∀ x ∈ [(1, 999, 1), (2, 999, 1), (3, 0, 0), (4, 0, 1000)], checked (blkE x.1 x.2.1 x.2.2) x.1 = 0) ∧ checked (blkE 1 999 2) 1 = 0x0202 ∧ checked (blkE 4 0 0) 4 = 0x020D ∧
    (blkQ (blkE 1 999 1) 1).dev.ssdReady 7 = true ∧ (blkQ (blkE 1 999 1) 0).dev.ssdReady 7 = false ∧ (blkQ (blkE 1 999 1) 1).dev.freeSlots 1 = [0] := by unfold State.Canonical State.entryOf; decide +kernel

theorem witness_namespace : (vnsOf (vnsBytes 1 0)).place 999 = (0, 5999) ∧ (vnsOf (vnsBytes 1 0)).run 999 = 1 ∧ (vnsOf (vnsBytes 1 0)).exts = [(7, 1, 5000)] ∧
    ((vnsOf (vnsBytes 1 0)).exts.map fun e => (e.1, e.2.1)).eraseDups = [(7, 1)] ∧ (blkQ (blkE 2 999 1) 1).dev.xferOf (.unit "block" 0 0) = none := by decide +kernel

theorem witness_blockRange : (blkQ (blkE 2 999 1) 1).plainRange 0x40000 4096 := ⟨by decide +kernel, by decide +kernel, cleanRange_of (by decide +kernel), by decide +kernel⟩

theorem test_blocks : (run (.blockRead 0 4) (blkQ (blkE 1 999 1) 1)).dev.nvmes = [⟨1, 0, 7, 1, 2, 5999, 999, 1, [0], [], false, none⟩] ∧
    (run (.blockDeallocate 0 4) (blkQ (blkE 4 0 1000) 1)).dev.nvmes = [⟨1, 0, 7, 1, 9, 5000, 0, 1000, [], [], false, none⟩] ∧
    (run (.blockFlush 0 4) (blkQ (blkE 3 0 0) 1)).dev.nvmes.map NvmeCmd.op = [0] ∧
    (run (.blockRead 0 4) (blkQ (blkE 1 999 1) 0)).dev.memBytes (run (.blockRead 0 4) (blkQ (blkE 1 999 1) 0)).mem 0x10000 12 = statusBody 0x55 0x0208 ++ leBytes 8 999 := by decide +kernel

/-- A block command with its one NVMe command outstanding. -/
def nvSt (op count : Nat) : State :=
  st (((((blkDev 1).setParts [(3, part3 none [])]).setNvmes [⟨8, 7, 7, 1, op, 5000, 0, count, List.range count, [], false, none⟩]).setBlocks
    [⟨7, 0, 4, 9, 0x55, if op = 2 then 1 else 3, 0, 1, 0, count, 0x40000, 0, 0, vnsOf (vnsBytes 1 0), count, 1, 0, 0⟩]).setNextNvme 9)

theorem witness_nvme : (nvSt 0 0).dev.portOrphan 7 = false ∧ (nvSt 2 2).dev.blocks.map (fun b => (b.id, b.next, b.left, b.status, bit b.rec_.flags 3, bit b.flags 0)) = [(7, 2, 1, 0, false, false)] ∧
    (∀ res < 3, (run (.nvmeCompletion 8 res 0) (nvSt 0 0)).dev.blocks = []) ∧ (run (.nvmeCompletion 8 0 0) (nvSt 0 0)).dev.memBytes (run (.nvmeCompletion 8 0 0) (nvSt 0 0)).mem 0x10000 4 = statusBody 0x55 0 ∧
    (run (.nvmeTimeout 8) (nvSt 2 1)).dev.nvmes = [] ∧ (insSet 0 []).length < 2 := by decide +kernel

theorem witness_arriveRange : (nvSt 2 2).plainRange 0x40000 4096 := ⟨by decide +kernel, by decide +kernel, cleanRange_of (by decide +kernel), by decide +kernel⟩

/-- The same with I-die 1's root ports strapped on. -/
def ssdSt : State := st ((nvSt 2 2).dev.setCfg ⟨⟨.grc8864, false, false⟩, ⟨0, 0, 1, 0⟩, ⟨0, 0, 1, 0⟩, false⟩)

theorem witness_ssd : ssdSt.dev.rootPorts = true ∧ (ssdSt.dev.nvmes.any fun c => decide (c.port = 7) && c.live.contains 1) = true ∧
    (∀ c ∈ ssdSt.dev.nvmes, c.port = 6 → 1 ∉ c.live) ∧ (run (.ssdMemoryRequest 6 true 1 0 0 [5]) ssdSt).dev.cntOf ssdSt.dev.nvr 9 = 1 ∧
    (run (.ssdUp 3 4 5) ssdSt).dev.fldI ssdSt.dev.nvr Fld.NVR_PORT_STATE_LANES 3 = 4 ∧ (run (.ssdLinkDown 7 (some (1, 4))) ssdSt).dev.fldI ssdSt.dev.nvr Fld.NVR_PORT_STATE_LANES 7 = 1 ∧
    (run (.ssdLinkDown 7 none) ssdSt).dev.nvmes = [] := by decide +kernel

/-- Unit 15 of half 1 of I-die 1 with a lease of the PF or none, and a job over two bytes at 0x1000. -/
def cvuDev (lease busy final expect : Nat) : Device :=
  withF clkDev [(.cvu 1 1, Fld.LEASE_STATE_STATE, 15, lease), (.cvu 1 1, Fld.LEASE_OWNER_OWNER, 15, ownerId .pf), (.cvu 1 1, Fld.CVU_CFG_ALG, 15, 2), (.cvu 1 1, Fld.CVU_JOB_CTL_BUSY, 15, busy),
    (.cvu 1 1, Fld.CVU_JOB_CTL_FINAL, 15, final), (.cvu 1 1, Fld.CVU_CFG_CMP, 15, 1), (.cvu 1 1, Fld.CVU_EXPECT, 15, expect), (.cvu 1 1, Fld.CVU_JOB_ADDR, 15, 0x1000), (.cvu 1 1, Fld.CVU_JOB_LEN, 15, 2)]

theorem witness_cvu : (cvuDev 1 0 0 0).mayAccess .pf (.cvu 1 1) = true ∧ (cvuDev 1 0 0 0).unitOwner 1 1 15 = 0 ∧ (cvuDev 1 0 0 0).holdsLease .pf (.cvu 1 1) 15 = true ∧
    (cvuDev 0 0 0 0).holdsLease .pf (.cvu 1 1) 15 = false ∧ (run (.cvuJob .pf 1 1 15 true true) (st (cvuDev 1 0 0 0))).dev.fldI (.cvu 1 1) Fld.CVU_JOB_CTL_BUSY 15 = 1 ∧
    bit ((run (.cvuJob .pf 1 1 15 true true) (st (cvuDev 0 0 0 0))).dev.fld (.cvu 1 1) Fld.ERR_STAT_BLOCK) 2 = true ∧ (cvuDev 1 0 0 0).fldI (.cvu 1 1) Fld.CVU_CFG_FOLD 15 ≠ 1 := by decide +kernel

theorem witness_cvuDone : (st (cvuDev 1 1 0 0)).plainRange 0x1000 2 ∧ cvuRun 2 0 [1, 2] ^^^ 0 = cvuRun 2 0 [1, 2] ∧ cvuRun 2 0 [1, 2] ≠ 0 ∧
    (run (.cvuJobDone 1 1 15) ⟨cvuDev 1 1 0 0, [(0x1000, 1), (0x1001, 2)], []⟩).dev.fldI (.cvu 1 1) Fld.CVU_RUN 15 = cvuRun 2 0 [1, 2] ∧
    (run (.cvuJobDone 1 1 15) ⟨cvuDev 1 1 1 (cvuRun 2 0 [1, 2]), [(0x1000, 1), (0x1001, 2)], []⟩).dev.fldI (.cvu 1 1) Fld.CVU_JOB_CTL_RESULT 15 = 1 ∧
    (run (.cvuJobDone 1 1 15) ⟨cvuDev 1 1 1 0, [(0x1000, 1), (0x1001, 2)], []⟩).dev.fldI (.cvu 1 1) Fld.CVU_JOB_CTL_RESULT 15 = 2 :=
  ⟨⟨by decide +kernel, by decide +kernel, cleanRange_of (by decide +kernel), by decide +kernel⟩, by decide +kernel, by decide +kernel, by decide +kernel, by decide +kernel, by decide +kernel⟩

/-! ### The admin queue and the mailboxes -/

/-- The admin queue with an entry: opcode, function and data address; its completion queue lies in host memory. VF 5 is live and has quotas. -/
def adDev : Device :=
  (withA (withF ((readyDev.setQueue 0 0 (aQueue 7 hostMem 16 1 1 1)).setQueue 0 1 (aQueue 8 (hostMem + 4096) 16 0 0 0)) [(.vf 5, Fld.VF_STATE_ENABLED, 0, 1)])
    [(.vf 5, Fld.VF_QUOTA_QUEUES, 0, 1), (.vf 5, Fld.VF_QUOTA_PARTITIONS, 0, 1), (.vf 5, Fld.VF_QUOTA_KEYS_K, 0, 1), (.vf 5, Fld.VF_QUOTA_CONNS, 0, 1)])
def adE (op n data : Nat) : Fetched := ⟨1, 0, 0, 0, bytesAt 64 [(0, 1, op), (2, 2, 0x55), (4, 2, n), (8, 8, data)]⟩
def adSt (d : Device) (x : Fetched) : State := st (d.setFetched [x])
/-- The status and result that a command posted to the admin completion queue. -/
def adEnd (t : State) : List Byte := t.dev.out.foldl (fun (l : List Byte) e => match e with
  | .hostWrite _ _ bs => bs
  | _ => l) []

/-- Partitions 3 of the PF, 4 with an image and 5 of VF 5, connection 9 of VF 5, two key entries of which VF 5 holds the first, and I-die 1's root ports. -/
def adD (idValid : Nat) : Device :=
  let c : Conn := { gConn [gPath 0] [] [] [] with func := 5 }
  withF (withA ((((((adDev.setCfg ⟨⟨.grc8864, false, false⟩, ⟨0, 0, 1, 0⟩, ⟨0, 0, 1, 0⟩, false⟩).setParts
    [(3, part3 none []), (4, { part3 (some (seqImage 1)) [] with grants := [⟨0x1000000, 0x200000⟩] }), (5, { part3 none [] with func := 5, grants := [⟨0x2000000, 0x200000⟩] })]).setConns
    [(9, c)]).setQueue 5 1022 (aQueue 8 hostMem 16 0 0 0)).setQueue 5 1021 (aQueue 3 hostMem 16 1022 4 4)).setKeyTime [(0, 0)])
      [(.vf 5, Fld.VF_QUOTA_QUEUES, 0, 3), (.vf 5, Fld.VF_QUOTA_PARTITIONS, 0, 2), (.vf 5, Fld.VF_QUOTA_CONNS, 0, 2), (.gft 0, Fld.GFT_KEY_BASE_VALID, 0, 1),
        (.gft 0, Fld.GFT_KEY_BASE_ADDR, 0, 16), (.gft 0, Fld.GFT_KEY_COUNT_COUNT, 0, 2)])
    [(.pkg, Fld.PKG_ID_VALID, 0, idValid), (.pkg, Fld.PKG_ID_ID, 0, 100), (.gft 1, Fld.GFT_BIVOUAC_SIZE_COUNT, 0, 2), (.gft 0, Fld.GFT_BIVOUAC_SIZE_COUNT, 0, 64)]
def keyMem : Memory := Memory.wrBytes [] 0x10000 (keyBytesOf ⟨hostMem, 64, 7, 65535, none⟩ 3 5)
def adS (op n data : Nat) : State := ⟨((adD 1).setFetched [adE op n data]), keyMem, []⟩
def aPath : PathArgs := ⟨7, 5000, 1, 2⟩
def aConnOf (peer cls : Nat) (strict : Bool) : ConnArgs := ⟨peer, 6, cls, strict, 77, false, 1, none, 0, none, false, none, [aPath], 5, 9⟩

theorem admin_of {s : State} {op : Nat} {x : Fetched} {y : Queue} (h : s.dev.oldest 0 0 = some x ∧ s.dev.fwState = 7 ∧ s.dev.dutyUp 0 = true ∧ s.dev.queueTyp 0 0 = 7 ∧
    x.opcode = op ∧ s.dev.ddrUndef = []) (q : s.dev.queue 0 0 = some y ∧ y.cq < 65536) : s.admin op x :=
  ⟨h.1, h.2.1, h.2.2.1, h.2.2.2.1, h.2.2.2.2.1, h.2.2.2.2.2, fun z hz => by rw [q.1] at hz; cases hz; exact q.2⟩

theorem witness_adminQueue : (adS 1 0 hostMem).Canonical ∧ (∀ op < 18, 1 ≤ op → (adS op 5 hostMem).dev.queue 0 0 = some (aQueue 7 hostMem 16 1 1 1) ∧ ((adS op 5 hostMem).dev.oldest 0 0 = some (adE op 5 hostMem) ∧
    (adS op 5 hostMem).dev.fwState = 7 ∧ (adS op 5 hostMem).dev.dutyUp 0 = true ∧ (adS op 5 hostMem).dev.queueTyp 0 0 = 7 ∧ (adE op 5 hostMem).opcode = op ∧ (adS op 5 hostMem).dev.ddrUndef = [])) ∧
    (adS 1 5 hostMem).dev.funcLive 5 = true ∧ (adE 1 5 hostMem).fn = 5 ∧ isHost (adE 1 5 hostMem).dataAddr = true ∧ (adS 1 5 4096).dev.funcMem 0 (adE 1 5 4096).dataAddr 4096 = false ∧
    (adS 2 6 0).dev.funcLive (adE 2 6 0).fn = false := by
  unfold State.Canonical; decide +kernel

theorem witness_adminFor : ∀ op < 18, 1 ≤ op → (adS op 5 hostMem).adminFor op (adE op 5 hostMem) 5 := fun op h2 h1 =>
  have h := witness_adminQueue.2.1 op h2 h1
  have e : ∀ op < 18, (adE op 5 hostMem).fn = 5 ∧ (adS op 5 hostMem).dev.funcLive 5 = true := by decide +kernel
  ⟨admin_of h.2 ⟨h.1, by decide⟩, (e op h2).1, by decide, by decide, (e op h2).2⟩

theorem witness_adminQueues : (adS 2 5 0).dev.queueArgsOk 5 ⟨8, hostMem, 65536, 0, 2047, 0, 0, 256, 1000⟩ = true ∧ ((adS 2 5 0).dev.heldBy (adS 2 5 0).mem 5).2.1 < (adS 2 5 0).dev.app (.vf 5) Fld.VF_QUOTA_QUEUES ∧
    (adS 2 5 0).dev.newQueue 5 1023 = some 1023 ∧ (adS 2 5 0).dev.newQueue 5 1022 = some 0 ∧ (adS 2 5 0).dev.rootPorts = true ∧
    (adEnd (run (.createQueue ⟨8, hostMem, 65536, 0, 2047, 0, 0, 256, 1000⟩ 1023 0) (adS 2 5 0))).take 6 = [0x55, 0, 0, 0, 0xFF, 3] ∧
    (adEnd (run (.createQueue ⟨8, hostMem, 65536, 0, 2047, 0, 0, 256, 1000⟩ 1023 0) (adS 2 6 0))).take 4 = [0x55, 0, 4, 0x17] ∧
    (adS 3 5 0).dev.queue 5 1021 = some (aQueue 3 hostMem 16 1022 4 4) ∧ isSq 3 = true ∧ (adEnd (run (.destroyQueue 1021) (adS 3 5 0))).take 4 = [0x55, 0, 0, 0] ∧
    (∀ kv ∈ (adS 3 5 0).dev.queues, kv.1 / 65536 = 5 → kv.2.cq = 1020 → isSq kv.2.typ = false) ∧ (adEnd (run (.destroyQueue 1022) (adS 3 5 0))).take 4 = [0x55, 0, 3, 0x17] := by decide +kernel

theorem witness_adminPartitions : (adS 4 0 0).dev.model.maxPart = 32 ∧ (∀ b < 32, bit (2 ^ 31) b = true → (adS 4 0 0).dev.hasTdie (b / 4) = true) ∧ (∀ g ∈ [(0x400000, 0x200000)], (adS 4 0 0).dev.grantOk g = true) ∧
    (adS 4 0 0).dev.part 31 = none ∧ (∀ kv ∈ (adS 4 0 0).dev.parts, (adS 4 0 0).dev.qmask kv.1 &&& 2 ^ 31 = 0) ∧
    apart (((adS 4 0 0).dev.parts.flatMap fun kv : Nat × Partition => kv.2.grants.map fun g => (g.addr, g.addr + g.len)) ++ [(0x400000, 0x200000)].map fun g => (g.1, g.1 + g.2)) = true ∧
    completes (.createPartition 31 (2 ^ 31) [(0x400000, 0x200000)] (0, 0)) (adS 4 0 0) = true ∧
    (run (.destroyPartition 3) (adS 5 0 0)).dev.part 3 = none ∧ (adEnd (run (.destroyPartition 4) (adS 5 0 0))).take 4 = [0x55, 0, 3, 0x17] ∧
    ((adS 6 5 0).dev.heldBy (adS 6 5 0).mem 5).1 < (adS 6 5 0).dev.app (.vf 5) Fld.VF_QUOTA_PARTITIONS ∧ ((run (.attachPartition 3) (adS 6 5 0)).dev.part 3).map Partition.func = some 5 ∧
    ((run (.detachPartition 5) (adS 7 0 0)).dev.part 5).map Partition.func = some 0 := by decide +kernel

theorem witness_adminUnits : (adS 9 0 0).dev.present (.eth 1 3) = true ∧ (adS 9 0 0).dev.fld (.eth 1 3) Fld.COMMIT_BUSY = 0 ∧ (adS 9 0 0).dev.reg.cur.Pairwise (fun a b => a.1 < b.1) ∧
    (run (.setMac 7 (2 ^ 48 + 5)) (adS 9 0 0)).dev.app (.eth 1 3) Fld.ETH_MAC_ADDR_ADDR = 5 ∧
    (adS 15 0 0).dev.present (.gft 1) = true ∧ (run (.setBivouac 1 (2 ^ 51) (2 ^ 22)) (adS 15 0 0)).dev.fld (.gft 1) Fld.GFT_BIVOUAC_ADDR = 2 ^ 39 ∧ isHost (2 ^ 51) = true ∧
    (adS 16 0 0).dev.cfg.straps.idSrc = 0 ∧ (run (.setPkgId 0x3FFF) (st ((adD 0).setFetched [adE 16 0 0]))).dev.fld .pkg Fld.PKG_ID_ID = 0x3FFF ∧
    (run (.setPkgId 0x3FFF) (adS 16 0 0)).dev.fld .pkg Fld.PKG_ID_ID = 100 := by decide +kernel

theorem witness_adminKeys : (adS 10 5 0).dev.funcMem 5 hostMem 64 = true ∧ ((adS 10 5 0).dev.heldBy (adS 10 5 0).mem 5).2.2.1 < 1024 * (adS 10 5 0).dev.app (.vf 5) Fld.VF_QUOTA_KEYS_K ∧
    (((adS 10 5 0).dev.keyEntry (adS 10 5 0).mem 1).map fun e => bit e.perm 7) = some false ∧ Tbl.look (adS 10 5 0).dev.keyTime 1 = none ∧
    completes (.registerMemory ⟨hostMem, 64, 7, 65535, none⟩ 1) (adS 10 5 0) = true ∧ ((adS 11 5 0).dev.ownKey (adS 11 5 0).mem 5 0x3000000).isSome = true ∧
    (run (.deregisterMemory 0x3000000) (adS 11 5 0)).dev.ownKey (run (.deregisterMemory 0x3000000) (adS 11 5 0)).mem 5 0x3000000 = none ∧ (adS 11 5 0).dev.keyAddr 0 + 16 = 0x10010 ∧
    (adS 10 5 0).dev.keyAddr 1 = 0x10020 := by decide +kernel

theorem witness_adminKeyRanges : (adS 10 5 0).plainRange 0x10020 32 ∧ (adS 11 5 0).plainRange 0x10010 1 :=
  ⟨⟨by decide +kernel, by decide +kernel, cleanRange_of (by decide +kernel), by decide +kernel⟩, ⟨by decide +kernel, by decide +kernel, cleanRange_of (by decide +kernel), by decide +kernel⟩⟩

theorem witness_adminConns : (adS 12 5 0).dev.connArgsOk (aConnOf 16383 4 false) = true ∧ ((adS 12 5 0).dev.heldBy (adS 12 5 0).mem 5).2.2.2 < (adS 12 5 0).dev.app (.vf 5) Fld.VF_QUOTA_CONNS ∧
    (adS 12 5 0).dev.fld .pkg Fld.PKG_ID_VALID = 1 ∧ (adS 12 5 0).dev.connFits 0x200001 4 = true ∧ ((run (.createConn (aConnOf 16383 4 false) 0x200001) (adS 12 5 0)).dev.conn 0x200001).map Conn.func = some 5 ∧
    ((adS 13 5 0).dev.conn 9).map (fun c => (c.func, c.crew, c.reqs.length, c.msgs.length, c.unacked.length)) = some (5, false, 0, 0, 0) ∧
    (run (.destroyConn 9) (adS 13 5 0)).dev.conn 9 = none := by decide +kernel

/-- Two namespace records of VF 5 stand at 0x40000. -/
def vnsS : State := ⟨withF (adS 14 0 0x40000).dev [(Device.reset.nvr, Fld.NVR_CFG_WIDTH, 0, 1)], Memory.wrBytes [] 0x40000 (vnsBytes 1 5 ++ vnsBytes 1 0), []⟩

theorem witness_adminVns : vnsS.Canonical ∧ vnsS.dev.rootPorts = true ∧ vnsS.dev.funcMem 0 (adE 14 0 0x40000).dataAddr 512 = true ∧ vnsS.dev.memKind 0x80000 = .hbm ∧ vnsS.dev.app vnsS.dev.nvr Fld.NVR_VNS_BASE_VALID = 0 ∧
    vnsS.dev.fld vnsS.dev.nvr Fld.COMMIT_BUSY = 0 ∧ vnsS.dev.oneGeneration vnsS.dev.nvr = true ∧ vnsS.dev.reg.cur.Pairwise (fun a b => a.1 < b.1) ∧
    (∀ j < 2, vnsS.dev.vnsOk ((List.range 256).map fun y => vnsS.mem.rdByte (0x40000 + (256 * j + y))) = true) ∧
    (run (.setVnsTable 2 0x80000) vnsS).dev.app vnsS.dev.nvr Fld.NVR_VNS_COUNT_COUNT = 2 := by
  unfold State.Canonical; decide +kernel

theorem witness_adminVnsRanges : vnsS.plainRange 0x40000 512 ∧ vnsS.plainRange 0x80000 512 :=
  ⟨⟨by decide +kernel, by decide +kernel, cleanRange_of (by decide +kernel), by decide +kernel⟩, ⟨by decide +kernel, by decide +kernel, cleanRange_of (by decide +kernel), by decide +kernel⟩⟩

/-- A package of role `role` whose ID is that of index `own`, and the crew of packages 100 and 101. -/
def formSt (role own op : Nat) : State :=
  st (withF ((((adD 1).setConns []).setCfg ⟨⟨.grc8864, false, false⟩, ⟨role, 1, 0, 0⟩, ⟨role, 1, 0, 0⟩, false⟩).setFetched [adE op 0 0]) [(.pkg, Fld.PKG_ID_ID, 0, 100 + own)])
def formM : List MemberArgs := [⟨0, 100, none, 0x80000, 0x10000⟩, ⟨63, 101, none, 0x90000, 0x10000⟩]
def formC (peer : Nat) : List (Nat × ConnArgs) := [(1, aConnOf peer 0 true), (2, aConnOf peer 1 true), (3, aConnOf peer 2 true)]

theorem witness_crewForm : (formSt 1 0 17).Canonical ∧ (formSt 1 0 17).dev.crewOk formM 0 = true ∧ (formSt 1 0 17).dev.crewConnsOk formM 0 (formC 101) = true ∧ (formSt 1 0 17).dev.crew.members = [] ∧
    (formSt 1 0 17).dev.oldest 0 0 = some (adE 17 0 0) ∧ (run (.crewForm formM 0 0 (formC 101)) (formSt 1 0 17)).dev.fld .pkg Fld.PKG_CREW_SIZE = 2 ∧
    (formSt 2 1 17).dev.crewOk [⟨0, 100, none, 0, 0⟩, ⟨1, 101, none, 0, 0⟩] 1 = true ∧
    (formSt 2 1 17).dev.crewConnsOk [⟨0, 100, none, 0, 0⟩, ⟨1, 101, none, 0, 0⟩] 1 (formC 100) = true ∧
    (run (.crewForm [⟨0, 100, none, 0, 0⟩, ⟨1, 101, none, 0, 0⟩] 1 0 (formC 100)) (formSt 2 1 17)).dev.fld .pkg Fld.PKG_CREW_INDEX = 1 := by
  unfold State.Canonical; decide +kernel

/-- VF 5's mailbox with a request of an opcode pending, or none, and more bytes of it. -/
def mbxSt (pending busy op : Nat) (rest : List Byte) : State :=
  st (withF (((adD 1).setLoaded [(32 * Device.reset.rootDie + 12, Memory.wrBytes [] 0 (vnsBytes 1 5 ++ vnsBytes 1 0))]).setFetched [adE 8 5 0])
    [(.vf 5, Fld.VF_STATE_MBX_PENDING, 0, pending), (.mbx 5, Fld.VF_MBX_CTL_BUSY, 0, busy), (.mbx 5, Fld.VF_MBX_REQ, 0, op), (.vf 5, Fld.VF_MBX_COPY, 0, leNat (bytesAt 8 [(0, 1, op)] ++ rest)), (.kvt 1, Fld.KVT_STATE_VAULT, 0, 1), (.kvt 1, Fld.KVT_STATE_DRBG_OK, 0, 1)])
def sessQ : VReq := { parseVReq (((mbxSt 1 1 11 (bytesAt 64 [(0, 1, 8), (12, 4, 16)])).dev.mbxCopy 5).drop 8) false with owner := 5 }

theorem witness_mailboxes : (mbxSt 0 0 4 []).Canonical ∧ (mbxSt 0 0 4 []).dev.present (.mbx 5) = true ∧ (mbxSt 0 0 4 []).dev.link.flr = [] ∧
    (run (.mailboxGo 5) (mbxSt 0 0 4 [])).dev.fld (.vf 5) Fld.VF_STATE_MBX_PENDING = 1 ∧ (run (.mailboxGo 5) (mbxSt 1 1 4 [])).dev.fld (.vf 5) Fld.ERR_STAT_ACCESS = 1 ∧
    (run (.mbxTimeout 5) (mbxSt 1 1 4 [])).dev.fld (.mbx 5) Fld.VF_MBX_CTL_BUSY = 0 ∧ (mbxSt 1 1 4 []).dev.mayAccess .pf (.vf 5) = true ∧
    (run (.vfDeny .pf 5 65535) (mbxSt 1 1 4 [])).dev.fld (.mbx 5) Fld.VF_MBX_RESP % 2 ^ 16 = 65535 := by
  unfold State.Canonical; decide +kernel

/-- The status of a request that has ended. -/
def fins : Act → Option Nat
  | .fin _ e => some e.mbx
  | _ => none

theorem witness_forward : (mbxSt 1 1 4 []).dev.oldest 0 0 = some (adE 8 5 0) ∧ (((mbxSt 1 1 4 []).dev.mbxCopy 5).getD 0 0).toNat = mbxCode (.detachPartition 5) ∧
    fins ((mbxSt 1 1 4 []).dev.perform (mbxSt 1 1 4 []).mem 5 (.detachPartition 5)) = some 0 ∧ (∀ c ∈ (mbxSt 1 1 4 []).dev.conns, c.2.reqs = []) ∧ ((run (.forward (.detachPartition 5)) (mbxSt 1 1 4 [])).dev.part 5).map Partition.func = some 0 ∧
    (run (.forward (.detachPartition 5)) (mbxSt 1 1 4 [])).dev.fld (.mbx 5) Fld.VF_MBX_CTL_BUSY = 0 := by decide +kernel

/-- The same with the namespace table in use. -/
def vnsMbx : State := st (withA (mbxSt 1 1 10 []).dev [(Device.reset.nvr, Fld.NVR_VNS_BASE_VALID, 0, 1), (Device.reset.nvr, Fld.NVR_VNS_COUNT_COUNT, 0, 2)])

theorem witness_attachVns : ((vnsMbx.dev.vnsRec 0 0).map fun r => (r.func, bit r.flags 3)) = some (5, false) ∧ ((vnsMbx.dev.vnsRec 1 0).map VnsRec.func) = some 0 ∧
    (run (.attachVns 0) vnsMbx).dev.fld (.mbx 5) Fld.VF_MBX_RESP / 2 ^ 64 = 1000 ∧ (run (.attachVns 1) vnsMbx).dev.fld (.mbx 5) Fld.VF_MBX_RESP % 2 ^ 16 = 0x1601 := by decide +kernel

theorem witness_keySession : (∀ op ∈ [7, 10], (run (.keySession 1 true) (mbxSt 1 1 11 (bytesAt 64 [(0, 1, op)]))).dev.fld (.mbx 5) Fld.VF_MBX_RESP % 2 ^ 16 = 0x1601) ∧
    (mbxSt 1 1 11 []).dev.present (.kvt 1) = true ∧ sessQ.op = 8 ∧
    (mbxSt 1 1 11 (bytesAt 64 [(0, 1, 8), (12, 4, 16)])).dev.waitsForImport 1 sessQ = false ∧ (mbxSt 1 1 11 (bytesAt 64 [(0, 1, 8), (12, 4, 16)])).dev.vaultRefuse 1 sessQ = 0 := by decide +kernel

/-! ### Firmware's life -/

/-- A live package in a firmware state with an image length, Bus Master Enable of the PF and a driver version. -/
def fwDev (state len : Nat) : Device :=
  (withF (liveDev ((readyDev.setFwState state).setClk { Device.reset.clk with up := true, now := 3000000000 })) [(.pkg, Fld.PKG_FW_LEN_BYTES, 0, len), (.pkg, Fld.PKG_DRV_VER_MAJOR, 0, 3),
    (.pkg, Fld.PKG_FW_VER_MIN_MAJOR, 0, 3), (.pkg, Fld.PKG_FW_VER_MAX_MAJOR, 0, 3), (.pkg, Fld.PKG_HOST_STATE_DETACHED, 0, 1)])

theorem witness_fwLoad : (st (fwDev 2 4096)).Canonical ∧ (fwDev 2 4096).mayAccess .pf .pkg = true ∧ (fwDev 2 4096).busMaster 0 = true ∧ (fwDev 2 4096).link.expired = [] ∧ (fwDev 2 4096).xferOf (.unit "fw" 0 0) = none ∧
    (fwDev 2 4096).tagRoom ≠ 0 ∧ (run (.fwLoadGo .pf 1) (st (fwDev 2 4096))).dev.fwState = 3 ∧ (run (.fwLoadGo .pf 1) (st (fwDev 4 16777217))).dev.fld .pkg Fld.ERR_STAT_ACCESS = 1 ∧
    (run (.fwLoadGo .pf 1) (st (fwDev 4 4095))).dev.fwState = 4 := by
  unfold State.Canonical; decide +kernel

/-- An image that is no image has come from the host. -/
def imageDev : Device := (fwDev 3 4096).setXfers [⟨.unit "fw" 0 0, 0, 4096, [(0, List.replicate 4096 0)], 0, 0, []⟩]

theorem witness_fwImage : ((imageDev.xferOf (.unit "fw" 0 0)).map fun x => (x.left, x.status)) = some (0, 0) ∧ imageDev.fld .pkg Fld.PKG_FW_LEN_BYTES = 4096 ∧
    imageDev.bootCheck 0 (List.replicate 4096 0) ≠ 0 := by decide +kernel

/-- A crew member in a firmware state. -/
def memDev (state : Nat) : Device := (fwDev state 4096).setCfg ⟨⟨.grc8864, false, false⟩, ⟨2, 1, 0, 0⟩, ⟨2, 1, 0, 0⟩, false⟩

theorem witness_hostLoss : (run (.hostPulse .pf 0x1FFFFFFFF) (st (fwDev 7 4096))).dev.fld .pkg Fld.PKG_HOST_PULSE_VALUE = 0xFFFFFFFF ∧ (fwDev 8 4096).compatible = true ∧
    (run (.pkgAttach .pf 3 []) (st (fwDev 8 4096))).dev.fwState = 7 ∧ (run (.pkgAttach .pf 1 []) (st (fwDev 8 4096))).dev.fld .pkg Fld.PKG_RESET_CAUSE_LAST = 4 ∧
    (run (.pkgAttach .pf 3 []) (st (fwDev 7 4096))).dev.fld .pkg Fld.ERR_STAT_ACCESS = 1 ∧ (run (.detachHoldExpiry []) (st (fwDev 8 4096))).dev.fld .pkg Fld.PKG_RESET_CAUSE_LAST = 3 ∧
    ((run (.hostPulse .pf 1) (st (fwDev 7 4096))).dev.fw.pulse).isSome = true ∧ 
    (fwDev 7 4096).fw.pulse = none ∧ (run (.hostLost 7) (st (memDev 7))).dev.fwState = 8 ∧ (run .hostAdopt (st (memDev 8))).dev.fwState = 7 ∧
    (run (.memberFwDelivery [1, 2] 0x300) (st (memDev 2))).dev.fwState = 4 := by decide +kernel

theorem witness_training : (fwDev 6 4096).fwState = 6 ∧ (∀ n ∈ (fwDev 6 4096).model.tdies, ∃ e < 4, (fwDev 6 4096).peerDie n e ≠ 15) ∧
    (∀ n ∈ (fwDev 6 4096).model.tdies, ∀ k < 3, (fwDev 6 4096).fld (.hbmc n k) Fld.HBMC_STATE_FAILED = 0) ∧ 7 ∈ (fwDev 6 4096).model.tdies := by decide +kernel

/-- Cox core 7 of I-die 1 in a state, with an image of its halts' reach. -/
def coxDev (state onHalt dbg : Nat) : Device :=
  withF (fwDev 7 4096) [(.cox 1 7, Fld.COX_STATE_STATE, 0, state), (.cox 1 7, Fld.COX_DBG_CFG_ON_HALT, 0, onHalt), (.kvt 0, Fld.KVT_STATE_DEBUG_OPEN, 0, dbg), (.kvt 0, Fld.KVT_STATE_LIFECYCLE, 0, 1)]
def coxAgain : Device := (coxDev 1 0 0).setCore 1 7 { (coxDev 1 0 0).core 1 7 with crashed := some 2000000001 }

theorem witness_crash : (coxDev 1 0 0).present (.cox 1 7) = true ∧ (coxDev 1 0 0).coxState 1 7 = 1 ∧ (run (.coxWatchdogExpiry 1 7 64) (st (coxDev 1 0 0))).dev.coxState 1 7 = 2 := by decide +kernel

theorem test_crash_again : (run (.doubleTrap 1 7 64) (st coxAgain)).dev.coxState 1 7 = 3 := by decide +kernel

theorem witness_coxOwn : (run (.coxWdtKick .pf 1 7) (st (coxDev 1 0 0))).dev.fld (.cox 1 7) Fld.ERR_STAT_ACCESS = 1 ∧ idles (.coxWdtKick (.cox 1 7) 1 7) (st (coxDev 1 0 0)) = true ∧
    (run (.coxJrnlAppend (.cox 1 7) 1 7 [1, 2, 3]) (st (coxDev 1 0 0))).dev.fld (.cox 1 7) Fld.COX_JRNL_USED = 3 ∧
    ((qDev 4 0x8000).setFetched [cEntry []]).oldest 0 4 = some (cEntry []) ∧ (poisonStatus ((qDev 4 0x8000).queueTyp 0 4)).isSome = true := by decide +kernel

theorem witness_debugHalt : (coxDev 1 3 1).debugOpen = true ∧ (coxDev 1 3 0).debugOpen = false ∧ (run (.coxTriggerHalt 1 7) (st (coxDev 1 3 1))).dev.coxState 1 0 = 4 ∧
    (run (.coxTriggerHalt 1 7) (st (coxDev 1 3 1))).dev.fldI .bly Fld.BLY_HOLD_CTL_ACTIVE 2 = 1 ∧ (run (.coxTriggerHalt 1 7) (st (coxDev 1 0 1))).dev.coxState 1 0 = 1 ∧
    idles (.coxTriggerHalt 1 7) (st (coxDev 1 3 0)) = true ∧ (run (.coxDebugResume 1 7) (st (coxDev 4 0 1))).dev.coxState 1 7 = 1 := by decide +kernel

/-! ### Well-formedness: for each check a command that it refuses, and commands at the ends of the ranges that it takes -/

/-- Each breaks one check. -/
theorem test_illFormed1 : ([
  .registerWrite .pf (.cfg 0 .pmeEnable) (2 ^ 64),
  .errStatClear .pf .pkg (2 ^ 64),
  .leaseOwnerWrite .pf .pkg 0 (2 ^ 64),
  .memberWindowAccess false 64 0 0,
  .doorbellWrite 128 0 0,
  .doorbellWrite 0 (2 ^ 14) 0,
  .pllRestart 4096,
  .regionClockChange 8 0,
  .regionClockChange 0 16,
  .d2dFlitReplay 0 4,
  .tileFault 8 0 0 none,
  .tileFault 0 2048 0 none,
  .cbufUe 0 128 0,
  .cbufUe 0 0 (2 ^ 52),
  .pitchReplay 32 [],
  .tokenDeliver 0 0 256,
  .granuleValid 0 0 0 8,
  .ropeDeliver 0 3 0 0,
  .ropeDeliver 0 0 16 0,
  .ropeDeliver 0 0 0 2,
  .hbmScrub 0 3 0,
  .ddrScrub 2 0 0,
  .ddrScrub 0 8 0,
  .portUp 0 4,
  .gftPacketSend (2 ^ 22)] : List Instr).all (fun c => wellFormed c == false) = true := by decide +kernel

/-- Each breaks one check. -/
theorem test_illFormed2 : ([
  .rtoExpiry 0 (2 ^ 32),
  .tmAdmitRetry 0 0 32,
  .ssdUp 8 0 0,
  .cvuJob .pf 0 2 0 false false,
  .cvuJob .pf 0 0 16 false false,
  .importKw .pf 0 16,
  .cphJob .pf 0 4,
  .vfFlr 128,
  .vfFlr 0,
  .completionTimeout 1024,
  .createPartition 32 0 [] (0, 0),
  .setMac 8 0,
  .setMac 0 (2 ^ 48),
  .destroyConn (2 ^ 22),
  .coxWatchdogExpiry 0 8 0,
  .belayIncrementCheck 0 65 0 0 0 0 0 false false [],
  .belayIncrementCheck 0 0 0 0 0 (2 ^ 32) 0 false false [],
  .copyAckedReport 64 0 0 false,
  .recoveryPitch 64 0,
  .recoveryPitch 0 (2 ^ 32),
  .deviceFatal 9 0,
  .deviceFatal 0 0,
  .holdRaise .pf 16 0 0 0 false,
  .holdRaise .pf 0 2 0 0 false,
  .holdRaise .pf 0 0 3 0 false] : List Instr).all (fun c => wellFormed c == false) = true := by decide +kernel

/-- Each breaks one check. -/
theorem test_illFormed3 : ([
  .regionGate 0 4,
  .cntReset .pf (.tile 8 0),
  .cntReset .pf (.tile 0 2048),
  .cntReset .pf (.clu 8 0),
  .cntReset .pf (.clu 0 128),
  .cntReset .pf (.rgn 8 0),
  .cntReset .pf (.rgn 0 16),
  .cntReset .pf (.tdie 8),
  .cntReset .pf (.rope 8 0),
  .cntReset .pf (.rope 0 3),
  .cntReset .pf (.hbmc 8 0),
  .cntReset .pf (.hbmc 0 3),
  .cntReset .pf (.d2d 8 0),
  .cntReset .pf (.d2d 0 4),
  .cntReset .pf (.pcie 2),
  .cntReset .pf (.eth 2 0),
  .cntReset .pf (.eth 0 4),
  .cntReset .pf (.gft 2),
  .cntReset .pf (.prs 2),
  .cntReset .pf (.cls 2),
  .cntReset .pf (.pme 2),
  .cntReset .pf (.tmg 2),
  .cntReset .pf (.cvu 2 0),
  .cntReset .pf (.cvu 0 2),
  .cntReset .pf (.cph 2)] : List Instr).all (fun c => wellFormed c == false) = true := by decide +kernel

/-- Each breaks one check. -/
theorem test_illFormed4 : ([
  .cntReset .pf (.kvt 2),
  .cntReset .pf (.nvr 2),
  .cntReset .pf (.cox 2 0),
  .cntReset .pf (.cox 0 8),
  .cntReset .pf (.ddr 2 0),
  .cntReset .pf (.ddr 0 8),
  .cntReset .pf (.vf 0),
  .cntReset .pf (.vf 128),
  .cntReset .pf (.mbx 0),
  .cntReset .pf (.mbx 128),
  .cntReset .pf (.msix 128),
  .waveGo (.vf 0),
  .waveGo (.vf 128),
  .waveGo (.cox 2 0),
  .waveGo (.cox 0 8),
  .registerWrite .pf (.page .pkg 0x8000 64) 0,
  .registerWrite .pf (.page .pkg 0 24) 0,
  .registerWrite .pf (.page (.tdie 8) 0 64) 0,
  .registerWrite .pf (.cfg 128 .pmeEnable) 0] : List Instr).all (fun c => wellFormed c == false) = true := by decide +kernel

/-- Each keeps every check. -/
theorem test_formed1 : ([
  .registerWrite .pf (.cfg 0 .pmeEnable) 0,
  .errStatClear .pf .pkg 0,
  .leaseOwnerWrite .pf .pkg 0 0,
  .memberWindowAccess false 0 0 0,
  .doorbellWrite 0 0 0,
  .doorbellWrite 0 0 0,
  .pllRestart 0,
  .regionClockChange 0 0,
  .regionClockChange 0 0,
  .d2dFlitReplay 0 0,
  .tileFault 0 0 0 none,
  .tileFault 0 0 0 none,
  .cbufUe 0 0 0,
  .cbufUe 0 0 0,
  .pitchReplay 0 [],
  .tokenDeliver 0 0 0,
  .granuleValid 0 0 0 0,
  .ropeDeliver 0 0 0 0,
  .ropeDeliver 0 0 0 0,
  .ropeDeliver 0 0 0 0,
  .hbmScrub 0 0 0,
  .ddrScrub 0 0 0,
  .ddrScrub 0 0 0,
  .portUp 0 0,
  .gftPacketSend 0] : List Instr).all (fun c => wellFormed c == true) = true := by decide +kernel

/-- Each keeps every check. -/
theorem test_formed2 : ([
  .rtoExpiry 0 0,
  .tmAdmitRetry 0 0 0,
  .ssdUp 0 0 0,
  .cvuJob .pf 0 0 0 false false,
  .cvuJob .pf 0 0 0 false false,
  .importKw .pf 0 0,
  .cphJob .pf 0 0,
  .vfFlr 1,
  .completionTimeout 0,
  .createPartition 0 0 [] (0, 0),
  .setMac 0 0,
  .setMac 0 0,
  .destroyConn 0,
  .coxWatchdogExpiry 0 0 0,
  .belayIncrementCheck 0 0 0 0 0 0 0 false false [],
  .belayIncrementCheck 0 0 0 0 0 0 0 false false [],
  .copyAckedReport 0 0 0 false,
  .recoveryPitch 0 0,
  .recoveryPitch 0 0,
  .deviceFatal 1 0,
  .holdRaise .pf 0 0 0 0 false,
  .holdRaise .pf 0 0 0 0 false,
  .holdRaise .pf 0 0 0 0 false,
  .regionGate 0 0,
  .cntReset .pf (.tile 7 2047)] : List Instr).all (fun c => wellFormed c == true) = true := by decide +kernel

/-- Each keeps every check. -/
theorem test_formed3 : ([
  .cntReset .pf (.clu 7 127),
  .cntReset .pf (.rgn 7 15),
  .cntReset .pf (.rope 7 2),
  .cntReset .pf (.hbmc 7 2),
  .cntReset .pf (.d2d 7 3),
  .cntReset .pf (.eth 1 3),
  .cntReset .pf (.cvu 1 1),
  .cntReset .pf (.cox 1 7),
  .cntReset .pf (.ddr 1 7),
  .cntReset .pf (.vf 127),
  .cntReset .pf (.mbx 1),
  .cntReset .pf (.msix 127),
  .registerWrite (.cox 1 7) (.page .pkg 0x7FFF 8) (2 ^ 64 - 1),
  .registerWrite .debug (.cfg 127 .pmeEnable) 0] : List Instr).all (fun c => wellFormed c == true) = true := by decide +kernel

end Sys2Proof.Tests
end

/-!
SUPPORT. What reporting an error may touch, and the statement about stale lease writes that rests on it.
-/
namespace Sys2Proof

/-- Every page begins at a multiple of 4 KiB (R63 to R66). -/
theorem Page.base_mod (p : Page) : p.base % 0x1000 = 0 := by
  cases p <;> simp only [Page.base, Page.slotBase] <;> omega

end Sys2Proof

namespace Sys2Proof.Machine

/-! ### Where the fields of pages lie -/

/-- Fields at different offsets within their pages have different keys, whatever the pages. -/
theorem fkey_ne_of_at {f g : Field} {i j : Nat} (p q : Page) (hf : f.lo < 32) (hg : g.lo < 32)
    (h : f.at i % 0x1000 ≠ g.at j % 0x1000) : fkey p f i ≠ fkey q g j := by
  have hp := p.base_mod
  have hq := q.base_mod
  unfold fkey
  omega

/-! ### Changes that only report -/

/-- The units of `d` with what a report may touch taken from `d'`: the shape that `ReportsOnly` names. -/
def Device.reporting (d d' : Device) : Device :=
  (((((d.setReg d'.reg).setOut d'.out).setMsix d'.msix).setRings d'.rings).setClk d'.clk).setTel d'.tel

theorem Device.reporting_self (d : Device) : d.reporting d = d := by cases d; rfl

theorem Device.reporting_reporting (d d' d'' : Device) : (d.reporting d').reporting d'' = d.reporting d'' := by cases d; rfl

/-- Between `d` and `d'` only what `ReportsOnly` lists has changed, and of the register fields only those whose keys are listed. -/
structure Device.ReportsAt (ks : List Nat) (d d' : Device) : Prop where
  frame : d' = d.reporting d'
  cur : ∀ k, k ∉ ks → Tbl.look d'.reg.cur k = Tbl.look d.reg.cur k

namespace Device.ReportsAt

variable {ks : List Nat} {d d' d'' : Device}

theorem refl (d : Device) : ReportsAt ks d d := ⟨d.reporting_self.symm, fun _ _ => rfl⟩

theorem setTel (d : Device) (v : TelSt) : ReportsAt ks d (d.setTel v) := ⟨by cases d; rfl, fun _ _ => rfl⟩

theorem setRings (d : Device) (v : Tbl Ring) : ReportsAt ks d (d.setRings v) := ⟨by cases d; rfl, fun _ _ => rfl⟩

theorem trans (h : ReportsAt ks d d') (h' : ReportsAt ks d' d'') : ReportsAt ks d d'' where
  frame :=
    calc d'' = d'.reporting d'' := h'.frame
      _ = (d.reporting d').reporting d'' := congrArg (·.reporting d'') h.frame
      _ = d.reporting d'' := d.reporting_reporting d' d''
  cur k hk := (h'.cur k hk).trans (h.cur k hk)

theorem wr_eq (h : ReportsAt ks d d') : d'.wr = d.wr := by
  rw [h.frame]
  rfl

/-- A field whose key is not listed reads as before. -/
theorem fldI_eq (h : ReportsAt ks d d') {p : Page} {f : Field} {i : Nat} (hk : fkey p f i ∉ ks) : d'.fldI p f i = d.fldI p f i := by
  have hcfg : d'.cfg = d.cfg := by rw [h.frame]; rfl
  have hrst : d'.rst f = d.rst f := by simp only [Device.rst, Device.model, hcfg]
  simp only [Device.fldI, Tbl.lookD, h.cur _ hk, hrst]

/-- A command that ends in a state of units that only reports completes, and changes nothing else. -/
theorem done_reportsOnly {s : State} (hs : s.Canonical) (h : ReportsAt ks s.dev d) :
    s.done d = .next ⟨d, s.mem, s.pending⟩ ∧ ReportsOnly s ⟨d, s.mem, s.pending⟩ := by
  have hwr : d.wr = [] := h.wr_eq.trans hs.2
  refine ⟨?_, congrArg (State.mk · s.mem s.pending) h.frame⟩
  rw [State.done_eq, Device.setWr_self hwr, hwr]
  rfl

theorem putI {p : Page} {f : Field} {i : Nat} (d : Device) (v : Nat) (hk : fkey p f i ∈ ks) : ReportsAt ks d (d.putI p f i v) where
  frame := rfl
  cur _ hk' := Tbl.look_put_ne _ _ fun he => hk' (he ▸ hk)

theorem put {p : Page} {f : Field} (d : Device) (v : Nat) (hk : fkey p f 0 ∈ ks) : ReportsAt ks d (d.put p f v) := putI d v hk

theorem incSat {p : Page} {f : Field} (d : Device) (n : Nat) (hk : fkey p f 0 ∈ ks) : ReportsAt ks d (d.incSat p f n) := put d _ hk

/-! ### Interrupts -/

theorem linkWake (d : Device) (hk : fkey (.pcie 0) Fld.PCIE_LINK_STATE_L1 0 ∈ ks) : ReportsAt ks d d.linkWake := by
  unfold Device.linkWake
  split
  · exact put d 0 hk
  · exact refl d

theorem sendMsix (d : Device) (f v : Nat) (hk : fkey (.pcie 0) Fld.PCIE_LINK_STATE_L1 0 ∈ ks) : ReportsAt ks d (d.sendMsix f v) := by
  unfold Device.sendMsix
  dsimp only
  split
  · exact (linkWake d hk).trans ⟨rfl, fun _ _ => rfl⟩
  · split
    · exact refl d
    · exact ⟨rfl, fun _ _ => rfl⟩

theorem irqMask {p : Page} {f : Field} (d : Device) (i : Nat) (hf : fkey p f 0 ∈ ks)
    (hl : fkey (.pcie 0) Fld.PCIE_LINK_STATE_L1 0 ∈ ks) : ReportsAt ks d (d.irqMask p f i) := by
  have hput := put d (d.fld p f ||| 2 ^ i) hf
  unfold Device.irqMask
  dsimp only
  split
  · exact hput
  · split
    · exact hput.trans (sendMsix _ _ _ hl)
    · exact hput

end Device.ReportsAt

/-! ### Error events -/

/-- The register fields that an error event on a page may change: the page's error and interrupt registers, a tile's view of its ring, and outside
the page the state of the host link and the fill of the telemetry buffer. -/
def errKeys (p : Page) : List Nat :=
  [Fld.ERR_STAT_H_WRITE, Fld.ERR_STAT_ACCESS, Fld.ERR_STAT_COMMIT_OVERLAP, Fld.ERR_STAT_LEASE_STALE, Fld.ERR_STAT_BLOCK, Fld.ERR_FIRST_CODE,
    Fld.ERR_FIRST_ISLAND, Fld.ERR_FIRST_VALID, Fld.ERR_CNT, Fld.IRQ_STAT_ERR, Fld.TILE_CAIRN_HEAD_NEXT, Fld.TILE_CAIRN_HEAD_WRITTEN].map (fkey p · 0) ++
  [fkey (.pcie 0) Fld.PCIE_LINK_STATE_L1 0, fkey .tel Fld.TEL_STATE_BUF_B 0]

namespace Device.ReportsAt

theorem telRecord (d : Device) (p : Page) (typ : Nat) (body : List Byte) : ReportsAt (errKeys p) d (d.telRecord typ body) := by
  unfold Device.telRecord
  dsimp only
  split
  · exact refl d
  · split
    · exact ⟨rfl, fun _ _ => rfl⟩
    · exact (setTel d _).trans (put _ _ (by simp [errKeys]))

theorem cairn (d : Device) (p : Page) (code data : Nat) : ReportsAt (errKeys p) d (d.cairn p code data) := by
  unfold Device.cairn Device.cairnRaw
  extract_lets r r' d1 d2
  have hring : ReportsAt (errKeys p) d d1 := setRings d _
  have htel : ReportsAt (errKeys p) d d2 := by
    unfold d2
    split
    · exact hring.trans (telRecord _ _ _ _)
    · exact hring
  split
  · exact (htel.trans (put _ _ (by simp [errKeys]))).trans (put _ _ (by simp [errKeys]))
  · exact htel

theorem setErrBit (d : Device) (p : Page) (b : Nat) : ReportsAt (errKeys p) d (d.setErrBit p b) := by
  unfold Device.setErrBit
  repeat' split
  all_goals exact put d _ (by simp [errKeys])

end Device.ReportsAt

/-- The first capture of an error event (R45). -/
def Device.captureFirst (d : Device) (p : Page) (code : Nat) : Device :=
  if d.errStat p = 0 then ((d.put p Fld.ERR_FIRST_CODE code).put p Fld.ERR_FIRST_ISLAND p.island).put p Fld.ERR_FIRST_VALID 1 else d

/-- The end of an error event: its count, and its interrupt where ERR_MASK does not exclude it (R45, R46). -/
def Device.countErr (d : Device) (p : Page) (b : Nat) : Device :=
  if bit ((d.incSat p Fld.ERR_CNT 1).fld p Fld.ERR_MASK) b then d.incSat p Fld.ERR_CNT 1
  else (d.incSat p Fld.ERR_CNT 1).irqMask p Fld.IRQ_STAT_ERR 0

/-- An error event captures, sets its bit, and then counts and interrupts. -/
theorem Device.errNoCairn_eq (d : Device) (p : Page) (b code : Nat) :
    d.errNoCairn p b code = ((d.captureFirst p code).setErrBit p b).countErr p b := by
  unfold Device.errNoCairn Device.captureFirst
  rfl

namespace Device.ReportsAt

theorem captureFirst (d : Device) (p : Page) (code : Nat) : ReportsAt (errKeys p) d (d.captureFirst p code) := by
  unfold Device.captureFirst
  split
  · exact ((put _ _ (by simp [errKeys])).trans (put _ _ (by simp [errKeys]))).trans (put _ _ (by simp [errKeys]))
  · exact refl d

theorem countErr {ks : List Nat} (d : Device) (p : Page) (b : Nat) (hc : fkey p Fld.ERR_CNT 0 ∈ ks) (hi : fkey p Fld.IRQ_STAT_ERR 0 ∈ ks)
    (hl : fkey (.pcie 0) Fld.PCIE_LINK_STATE_L1 0 ∈ ks) : ReportsAt ks d (d.countErr p b) := by
  unfold Device.countErr
  split
  · exact incSat d 1 hc
  · exact (incSat d 1 hc).trans (irqMask _ _ hi hl)

theorem errNoCairn (d : Device) (p : Page) (b code : Nat) : ReportsAt (errKeys p) d (d.errNoCairn p b code) := by
  rw [Device.errNoCairn_eq]
  exact ((captureFirst d p code).trans (setErrBit _ p b)).trans
    (countErr _ p b (by simp [errKeys]) (by simp [errKeys]) (by simp [errKeys]))

theorem hdrErr (d : Device) (p : Page) (b : Nat) : ReportsAt (errKeys p) d (d.hdrErr p b) :=
  (cairn d p _ _).trans (errNoCairn _ p b _)

end Device.ReportsAt

/-- A LEASE_STALE error sets its bit in ERR_STAT: the count and the interrupt that follow leave the bit alone. -/
theorem Device.fld_hdrErr_leaseStale (d : Device) (p : Page) : (d.hdrErr p 3).fld p Fld.ERR_STAT_LEASE_STALE = 1 := by
  have hkeys : fkey p Fld.ERR_STAT_LEASE_STALE 0 ∉
      [fkey p Fld.ERR_CNT 0, fkey p Fld.IRQ_STAT_ERR 0, fkey (.pcie 0) Fld.PCIE_LINK_STATE_L1 0] := by
    simp only [List.mem_cons, List.not_mem_nil, or_false, not_or]
    exact ⟨fkey_ne_of_at _ _ (by decide) (by decide) (by decide), fkey_ne_of_at _ _ (by decide) (by decide) (by decide),
      fkey_ne_of_at _ _ (by decide) (by decide) (by decide)⟩
  unfold Device.hdrErr Device.err
  rw [Device.errNoCairn_eq]
  exact ((ReportsAt.countErr _ p 3 (by simp) (by simp) (by simp)).fldI_eq hkeys).trans (fld_put_self _ p _ 1)

/-! ### Leases -/

/-- An error event touches no register at an offset from 0xF00 to 0xFFF of a page, where the leases lie (R57). -/
theorem fkey_not_mem_errKeys {f : Field} {i : Nat} (p q : Page) (hlo : f.lo < 32) (h0 : 0xF00 ≤ f.at i) (h1 : f.at i < 0x1000) :
    fkey q f i ∉ errKeys p := by
  have key (g : Field) (q' : Page) (hg : g.lo < 32) (ha : g.at 0 < 0xF00) : fkey q f i ≠ fkey q' g 0 :=
    fkey_ne_of_at q q' hlo hg (by omega)
  simp only [errKeys, List.map_cons, List.map_nil, List.cons_append, List.nil_append, List.mem_cons, List.not_mem_nil, or_false, not_or]
  refine ⟨?_, ?_, ?_, ?_, ?_, ?_, ?_, ?_, ?_, ?_, ?_, ?_, ?_, ?_⟩ <;> exact key _ _ (by decide) (by decide)

/-- The fields that say who holds a lease. -/
def leaseFields : List Field := [Fld.LEASE_OWNER_OWNER, Fld.LEASE_STATE_STATE, Fld.LEASE_OWNER_EPOCH]

/-- Every lease's registers lie at 0xF00 to 0xFFF of the page (R57). -/
theorem at_of_mem_leaseFields {f : Field} (hf : f ∈ leaseFields) (j : Nat) : f.lo < 32 ∧ 0xF00 ≤ f.at j ∧ f.at j < 0x1000 := by
  simp only [leaseFields, List.mem_cons, List.not_mem_nil, or_false] at hf
  obtain rfl | rfl | rfl := hf <;>
    simp only [Field.at, Fld.LEASE_OWNER_OWNER, Fld.LEASE_STATE_STATE, Fld.LEASE_OWNER_EPOCH] <;> omega

/-- A header error on a page leaves every lease with its owner, state and epoch. -/
theorem Device.fldI_hdrErr_lease (d : Device) (p q : Page) (b j : Nat) {f : Field} (hf : f ∈ leaseFields) :
    (d.hdrErr p b).fldI q f j = d.fldI q f j := by
  obtain ⟨hlo, hmin, hmax⟩ := at_of_mem_leaseFields hf j
  exact (ReportsAt.hdrErr d p b).fldI_eq (fkey_not_mem_errKeys p q hlo hmin hmax)

/-- A lease write with another epoch than the lease's comes to the LEASE_STALE error alone (R61). -/
theorem exec_leaseOwnerWrite_stale {s : State} {r : Req} {p : Page} {i word : Nat} (ha : s.dev.mayAccess r p = true) (hi : i < p.leases)
    (he : word / 2 ^ 16 % 2 ^ 16 ≠ s.dev.fldI p Fld.LEASE_OWNER_EPOCH i) :
    exec (.leaseOwnerWrite r p i word) s = s.done (s.dev.hdrErr p 3) := by
  show execLeaseOwnerWrite r p i word s = _
  unfold execLeaseOwnerWrite
  rw [if_neg (by simp [ha, hi]), if_pos he]

/-- Settles O12: the command is one error event, which sets its own bit and touches no lease. -/
theorem staleLeaseWrites : Obligations.StaleLeaseWrites := by
  intro s r p i word hs ha hi he
  have lease (j : Nat) {f : Field} (hf : f ∈ leaseFields) := s.dev.fldI_hdrErr_lease p p 3 j hf
  obtain ⟨hnext, hrep⟩ := (Device.ReportsAt.hdrErr s.dev p 3).done_reportsOnly hs
  exact ⟨_, (exec_leaseOwnerWrite_stale ha hi he).trans hnext, s.dev.fld_hdrErr_leaseStale p,
    fun j _ => ⟨lease j (by simp [leaseFields]), lease j (by simp [leaseFields]), lease j (by simp [leaseFields])⟩, hrep⟩

end Sys2Proof.Machine

/-!
SUPPORT. What retiring an instruction and faulting a tile do, and the statements about LEXIT, LEXITNZ, DPATCH and DPATCHD that rest on it.
-/
namespace Sys2Proof.Machine

/-! ### An instruction that is due -/

/-- What a strand's instruction with selector `x` and immediate `imm` works on. -/
def State.seqOf (s : State) (n i st x imm : Nat) : Seq := ⟨s.dev, s.mem, n, i, st, s.dev.strand n i st, x, imm⟩

/-- A strand that holds the issue slot belongs to a tile that is there and has not faulted. -/
theorem Device.live_of_issues {d : Device} {n i : Nat} (h : d.issues n i = true) :
    d.present (.tile n i) = true ∧ d.flag (.tile n i) Fld.TILE_RUN_FAULTED = false := by
  simp only [Device.issues, Device.tileLive, Bool.and_eq_true, Bool.not_eq_true'] at h
  obtain ⟨⟨⟨⟨hpresent, -⟩, hfaulted⟩, -⟩, -⟩ := h
  exact ⟨hpresent, hfaulted⟩

/-- An encoding takes one parcel or two (R165). -/
theorem formLen_eq_one_or_two (op : Nat) : formLen op = 1 ∨ formLen op = 2 := by
  unfold formLen
  split <;> simp

/-- An instruction that is due, with the stack entries it pops and room for those it pushes, performs its own effect (R171). PICK, which also wants
the entry that it reads, is apart. -/
theorem seqStep_of_due {s : State} {n i st op x imm : Nat} {f : OpInfo} (h : s.Due n i st op x imm) (hop : opInfo op = some f)
    (hlen : formLen op = f.len) (hpick : op ≠ 0x07) (hpops : f.pops ≤ (s.dev.strand n i st).stack.length)
    (hroom : (s.dev.strand n i st).stack.length - f.pops + f.pushes ≤ 16) (body : Seq → Did) :
    seqStep op n i st s body = s.done ((s.seqOf n i st x imm).finish f.len (body (s.seqOf n i st x imm))) := by
  obtain ⟨hissues, hholder, hparcel, hx, -, himm2, himm1, hlegal⟩ := h
  have hopcode : (256 * op + x) / 256 = op := by omega
  have hsel : (256 * op + x) % 256 = x := by omega
  have himm : (if f.len = 2 then s.dev.parcel s.mem n i ((s.dev.strand n i st).pc + 1) else 0) = imm := by
    rw [← hlen]
    split
    · exact himm2 ‹_›
    · exact (himm1 ((formLen_eq_one_or_two op).resolve_right ‹_›)).symm
  have hrun : (s.seqOf n i st x imm).run op f body = body (s.seqOf n i st x imm) := by
    simp [Seq.run, State.seqOf, hlegal, Nat.not_lt.mpr hpops, Nat.not_lt.mpr hroom, hpick]
  rw [← hrun]
  simp [seqStep, hissues, hholder, hparcel, hopcode, hsel, hop, himm, State.seqOf]

/-! ### Retiring -/

namespace Seq

variable (q : Seq) (d : Device) (x : Strand)

/-- Retiring changes the tiles and the register file alone. -/
theorem retire_frame : q.retire d x = (d.setTiles (q.retire d x).tiles).setReg (q.retire d x).reg := rfl

theorem retire_tile : (q.retire d x).tile q.n q.i =
    { d.tile q.n q.i with
      strands := Tbl.put (d.tile q.n q.i).strands q.st { x with stall := 0 }
      last := some q.st
      cycle := max (d.tile q.n q.i).cycle (q.d.tile q.n q.i).slotCycle + 1 } := by
  have hput : (d.putStrand q.n q.i q.st { x with stall := 0 }).tile q.n q.i =
      { d.tile q.n q.i with strands := Tbl.put (d.tile q.n q.i).strands q.st { x with stall := 0 } } := Tbl.lookD_put_self _ _ _ _
  refine (Tbl.lookD_put_self _ _ _ _).trans ?_
  show { (d.putStrand q.n q.i q.st { x with stall := 0 }).tile q.n q.i with
    last := some q.st, cycle := max ((d.putStrand q.n q.i q.st { x with stall := 0 }).tile q.n q.i).cycle (q.d.tile q.n q.i).slotCycle + 1 } = _
  rw [hput]

theorem retire_tile_ne {m j : Nat} (h : 2048 * m + j ≠ 2048 * q.n + q.i) : (q.retire d x).tile m j = d.tile m j := by
  refine (Tbl.lookD_put ..).trans ((if_neg h).trans ?_)
  exact (Tbl.lookD_put ..).trans (if_neg h)

/-- Retiring counts one instruction in TILE_CNT0 (R151). -/
theorem retire_cntOf : (q.retire d x).cntOf (.tile q.n q.i) 0 = (d.cntOf (.tile q.n q.i) 0 + 1) % 2 ^ 64 := by
  have h4 : (Page.tile q.n q.i).base + 0 ≠ (Page.tile q.n q.i).base + 4 := by omega
  have h3 : (Page.tile q.n q.i).base + 0 ≠ (Page.tile q.n q.i).base + 3 := by omega
  refine (Device.cntOf_count ..).trans ((if_neg h4).trans ?_)
  refine (Device.cntOf_count ..).trans ((if_neg h3).trans ?_)
  exact (Device.cntOf_count ..).trans (if_pos rfl)

/-- An instruction that falls through retires with the strand gone on past its last parcel. -/
theorem finish_next (len : Nat) : q.finish len (.next d x) = q.retire d (x.goesOn (q.x.pc + len - 1) (q.x.pc + len - 1 + 1)) := rfl

end Seq

/-- The turn of a strand ends in the state that a retirement leaves, where the effect before it left tiles and registers alone. -/
theorem turnEnds_of_retire {s : State} {n i st x imm : Nat} {d : Device} (htiles : d.tiles = s.dev.tiles) (hreg : d.reg = s.dev.reg)
    (y : Strand) (m : Memory) :
    TurnEnds s ⟨((s.seqOf n i st x imm).retire d y).setWr [], m, s.pending⟩ n i st { y with stall := 0 } := by
  have htile (a b : Nat) : d.tile a b = s.dev.tile a b := by simp only [Device.tile, htiles]
  have hstrands : (((s.seqOf n i st x imm).retire d y).tile n i).strands = Tbl.put (s.dev.tile n i).strands st { y with stall := 0 } := by
    rw [← htile]
    exact congrArg Tile.strands ((s.seqOf n i st x imm).retire_tile d y)
  refine ⟨?_, fun k hk => ?_, ?_, ?_, fun a b hab => ?_⟩
  · exact (congrArg (Tbl.lookD · st _) hstrands).trans (Tbl.lookD_put_self _ _ _ _)
  · exact (congrArg (Tbl.lookD · k _) hstrands).trans ((Tbl.lookD_put ..).trans (if_neg hk))
  · refine ((s.seqOf n i st x imm).retire_cntOf d y).trans ?_
    simp only [Device.cntOf, hreg]
    rfl
  · exact congrArg Tile.last ((s.seqOf n i st x imm).retire_tile d y)
  · exact ((s.seqOf n i st x imm).retire_tile_ne d y hab).trans (htile a b)

/-- An instruction without stores that retires completes, and touches the tiles and the register file alone. -/
theorem done_retire {s : State} (hs : s.Canonical) (n i st x imm : Nat) (y : Strand) :
    ∃ t, s.done ((s.seqOf n i st x imm).retire s.dev y) = .next t ∧ TurnEnds s t n i st { y with stall := 0 } ∧ TilesOnly s t := by
  have hwr : ((s.seqOf n i st x imm).retire s.dev y).wr = [] := hs.2
  refine ⟨_, State.done_eq s _, ?_, ?_⟩
  · exact turnEnds_of_retire rfl rfl y _
  · rw [Device.setWr_self hwr, hwr]
    exact congrArg (State.mk · s.mem s.pending) ((s.seqOf n i st x imm).retire_frame s.dev y)

/-! ### The capture of a tile fault -/

/-- The fields of a tile that hold the capture of its fault (R153, R155), as far as `FaultsWith` names them. -/
def captureFields : List Field := [Fld.TILE_RUN_FAULTED, Fld.TILE_FAULT_VALID, Fld.TILE_FAULT_CODE, Fld.TILE_FAULT_PC_PC]

/-- Fields at different offsets within their pages, or at different bits, have different keys, whatever the pages. -/
theorem fkey_ne_of_slot {f g : Field} {i j : Nat} (p q : Page) (hf : f.lo < 32) (hg : g.lo < 32)
    (h : f.at i % 0x1000 ≠ g.at j % 0x1000 ∨ f.lo ≠ g.lo) : fkey p f i ≠ fkey q g j := by
  obtain hat | hlo := h
  · exact fkey_ne_of_at p q hf hg hat
  · unfold fkey
    omega

/-- A field at another place than the one set reads as before. -/
theorem Device.fld_put_slot_ne (d : Device) (p q : Page) (f g : Field) (v : Nat) (hf : f.lo < 32) (hg : g.lo < 32)
    (h : g.at 0 % 0x1000 ≠ f.at 0 % 0x1000 ∨ g.lo ≠ f.lo) : (d.put p f v).fld q g = d.fld q g :=
  d.fld_put_ne p q f g v (fkey_ne_of_slot q p hg hf h)

/-- The package-global pages lie above every tile's page (R63, R66). -/
theorem Page.tile_base_lt {d : Device} {n i : Nat} (h : d.present (.tile n i) = true) : (Page.tile n i).base + 0x1000 ≤ Page.bly.base := by
  simp only [Device.present, Device.hasTdie, Bool.and_eq_true, decide_eq_true_eq, List.contains_iff_mem] at h
  have hn : n ≤ 7 := by
    obtain ⟨hn, -⟩ := h
    cases hm : d.model <;> simp only [hm, Model.tdies, List.mem_cons, List.not_mem_nil, or_false] at hn <;> omega
  simp only [Page.base]
  omega

theorem at_of_mem_captureFields {f : Field} (hf : f ∈ captureFields) : f.lo < 32 ∧ f.at 0 < 0x1000 := by
  revert f
  decide

/-- No field of a package-global page is one of a tile's capture. -/
theorem fkey_capture_ne_global {p : Page} {n i j : Nat} {f g : Field} (htile : (Page.tile n i).base + 0x1000 ≤ p.base) (hf : f ∈ captureFields) :
    fkey (.tile n i) f 0 ≠ fkey p g j := by
  obtain ⟨hlo, hat⟩ := at_of_mem_captureFields hf
  unfold fkey
  omega

/-- Between `d` and `d'` the capture of tile `i` of die `n`, every strand and the waiting stores stand. -/
structure Device.KeepsCapture (n i : Nat) (d d' : Device) : Prop where
  fld : ∀ f ∈ captureFields, d'.fld (.tile n i) f = d.fld (.tile n i) f
  strand : ∀ m j k, d'.strand m j k = d.strand m j k
  wr : d'.wr = d.wr

namespace Device.KeepsCapture

variable {n i : Nat} {d d' d'' : Device}

theorem refl (d : Device) : KeepsCapture n i d d := ⟨fun _ _ => rfl, fun _ _ _ => rfl, rfl⟩

theorem trans (h : KeepsCapture n i d d') (h' : KeepsCapture n i d' d'') : KeepsCapture n i d d'' :=
  ⟨fun f hf => (h'.fld f hf).trans (h.fld f hf), fun m j k => (h'.strand m j k).trans (h.strand m j k), h'.wr.trans h.wr⟩

/-- A change that touches neither the part, the register fields, the tiles nor the waiting stores. -/
theorem of_eq (hcfg : d'.cfg = d.cfg) (hcur : d'.reg.cur = d.reg.cur) (htiles : d'.tiles = d.tiles) (hwr : d'.wr = d.wr) :
    KeepsCapture n i d d' where
  fld f _ := by simp only [Device.fld, Device.fldI, Device.rst, Device.model, hcfg, hcur]
  strand m j k := by simp only [Device.strand, Device.tile, htiles]
  wr := hwr

theorem of_reportsAt {ks : List Nat} (h : ReportsAt ks d d') (hks : ∀ f ∈ captureFields, fkey (.tile n i) f 0 ∉ ks) : KeepsCapture n i d d' where
  fld f hf := h.fldI_eq (hks f hf)
  strand m j k := by
    have htiles : d'.tiles = d.tiles := by rw [h.frame]; rfl
    simp only [Device.strand, Device.tile, htiles]
  wr := h.wr_eq

theorem putI {p : Page} {g : Field} {j : Nat} (d : Device) (v : Nat) (hne : ∀ f ∈ captureFields, fkey (.tile n i) f 0 ≠ fkey p g j) :
    KeepsCapture n i d (d.putI p g j v) where
  fld f hf := (Device.fldI_putI d p (.tile n i) g f j 0 v).trans (if_neg (hne f hf))
  strand _ _ _ := rfl
  wr := rfl

/-- Setting a field at another place in its page than the capture's. -/
theorem put {p : Page} {g : Field} (d : Device) (v : Nat) (hlo : g.lo < 32)
    (hslot : ∀ f ∈ captureFields, f.at 0 % 0x1000 ≠ g.at 0 % 0x1000 ∨ f.lo ≠ g.lo) : KeepsCapture n i d (d.put p g v) :=
  putI d v fun f hf => fkey_ne_of_slot _ _ (at_of_mem_captureFields hf).1 hlo (hslot f hf)

/-- A tile that drops its queues keeps its strands. -/
theorem dropQueues (m j : Nat) (d : Device) :
    KeepsCapture n i d (d.setTile m j { d.tile m j with arrQ := [], vecQ := [], movQ := [] }) where
  fld _ _ := rfl
  strand a b k := by
    refine congrArg (Tbl.lookD · k _) ?_
    refine (congrArg Tile.strands (Tbl.lookD_put ..)).trans ?_
    split
    · simp only [Device.tile, ‹2048 * a + b = 2048 * m + j›]
    · rfl
  wr := rfl

/-! ### Errors and interrupts after the capture -/

theorem irq (d : Device) (p : Page) (b : Nat) : KeepsCapture n i d (d.irq p b) := by
  refine of_reportsAt (ks := [fkey p Fld.IRQ_STAT_BLOCK 0, fkey (.pcie 0) Fld.PCIE_LINK_STATE_L1 0])
    (ReportsAt.irqMask d _ (by simp) (by simp)) fun f hf => ?_
  have hlo := (at_of_mem_captureFields hf).1
  simp only [List.mem_cons, List.not_mem_nil, or_false, not_or]
  exact ⟨fkey_ne_of_slot _ _ hlo (by decide) (by revert f; decide), fkey_ne_of_slot _ _ hlo (by decide) (by revert f; decide)⟩

section
variable (htile : (Page.tile n i).base + 0x1000 ≤ Page.bly.base)
include htile

/-- An error event touches no field of a tile's capture. -/
theorem fkey_capture_not_mem_errKeys (p : Page) {f : Field} (hf : f ∈ captureFields) : fkey (.tile n i) f 0 ∉ errKeys p := by
  have hlo := (at_of_mem_captureFields hf).1
  have htel : (Page.tile n i).base + 0x1000 ≤ Page.tel.base := Nat.le_trans htile (by decide)
  simp only [errKeys, List.mem_append, List.mem_cons, List.not_mem_nil, or_false, not_or]
  refine ⟨fun hmem => ?_, fkey_ne_of_slot _ _ hlo (by decide) (by revert f; decide), fkey_capture_ne_global htel hf⟩
  obtain ⟨g, hg, he⟩ := List.mem_map.mp hmem
  have hglo : g.lo < 32 := by
    clear he
    revert g
    decide
  refine fkey_ne_of_slot _ _ hlo hglo (.inl ?_) he.symm
  clear he hglo hlo htel hmem
  revert f g
  decide

theorem cairn (d : Device) (p : Page) (code data : Nat) : KeepsCapture n i d (d.cairn p code data) :=
  of_reportsAt (ReportsAt.cairn d p code data) fun _ hf => fkey_capture_not_mem_errKeys htile p hf

theorem errNoCairn (d : Device) (p : Page) (b code : Nat) : KeepsCapture n i d (d.errNoCairn p b code) :=
  of_reportsAt (ReportsAt.errNoCairn d p b code) fun _ hf => fkey_capture_not_mem_errKeys htile p hf

/-! ### The belay stop that a fault raises -/

theorem putI_bly {g : Field} {j : Nat} (d : Device) (v : Nat) : KeepsCapture n i d (d.putI .bly g j v) :=
  putI d v fun _ hf => fkey_capture_ne_global htile hf

theorem belayState (d : Device) : KeepsCapture n i d d.belayState :=
  ((putI_bly htile _ _).trans (putI_bly htile _ _)).trans (putI_bly htile _ _)

theorem holdDone (d : Device) (src : Nat) : KeepsCapture n i d (d.holdDone src) := by
  unfold Device.holdDone
  extract_lets smeared belay d1 d2 d3
  have h1 : KeepsCapture n i d d1 := by
    unfold d1
    split
    · exact of_eq rfl rfl rfl rfl
    · exact ((putI_bly htile _ _).trans (putI_bly htile _ _)).trans (putI_bly htile _ _)
  have h3 : KeepsCapture n i d d3 := by
    unfold d3
    split
    · exact (h1.trans (irq d1 .bly 16)).trans (of_eq rfl rfl rfl rfl)
    · exact h1.trans (irq d1 .bly 16)
  split
  · exact h3.trans (of_eq rfl rfl rfl rfl)
  · exact h3

theorem releaseDone (d : Device) (src : Nat) : KeepsCapture n i d (d.releaseDone src) := by
  unfold Device.releaseDone
  extract_lets belay d1
  refine KeepsCapture.trans ?_ (irq d1 .bly 17)
  unfold d1
  split
  · exact of_eq rfl rfl rfl rfl
  · exact (putI_bly htile _ _).trans (putI_bly htile _ _)

theorem beginWave (fuel : Nat) (d : Device) : KeepsCapture n i d (d.beginWave fuel) := by
  induction fuel generalizing d with
  | zero => exact refl d
  | succ fuel ih =>
    unfold Device.beginWave
    split
    · exact belayState htile d
    · split
      · exact refl d
      · extract_lets force belay d1 todo belay' d2 d3 d4
        have h2 : KeepsCapture n i d d2 := of_eq rfl rfl rfl rfl
        split
        · refine KeepsCapture.trans ?_ (ih d3)
          unfold d3
          split
          · exact h2.trans (releaseDone htile d2 _)
          · exact h2.trans (holdDone htile d2 _)
        · have h4 : KeepsCapture n i d d4 := of_eq rfl rfl rfl rfl
          exact h4.trans (belayState htile d4)

theorem askWave (d : Device) (src : Nat) (release discard : Bool) : KeepsCapture n i d (d.askWave src release discard) :=
  KeepsCapture.trans (d' := d.setBelay { d.belay with waves := d.belay.waves ++ [⟨src, release, discard, false, [], []⟩] })
    (of_eq rfl rfl rfl rfl) (beginWave htile _ _)

theorem raiseSlot (d : Device) (src kind scope part cause : Nat) (discard : Bool) :
    KeepsCapture n i d (d.raiseSlot src kind scope part cause discard) := by
  unfold Device.raiseSlot
  refine KeepsCapture.trans ?_ (askWave htile _ _ _ _)
  exact ((((((putI_bly htile _ _).trans (putI_bly htile _ _)).trans (putI_bly htile _ _)).trans (putI_bly htile _ _)).trans
    (putI_bly htile _ _)).trans (putI_bly htile _ _)).trans (putI_bly htile _ _)

theorem raiseHw (d : Device) (cause : Nat) : KeepsCapture n i d (d.raiseHw cause) := by
  unfold Device.raiseHw
  split
  · exact KeepsCapture.trans (d' := d.tick .bly 2) (of_eq rfl rfl rfl rfl) (cairn htile _ .pkg _ _)
  · exact raiseSlot htile d _ _ _ _ _ _

/-! ### The region of a faulted tile -/

theorem fenceRegion (d : Device) (m r cause : Nat) : KeepsCapture n i d (d.fenceRegion m r cause) := by
  unfold Device.fenceRegion
  extract_lets p d1 d2
  split
  · exact refl d
  · have h1 : KeepsCapture n i d d1 :=
      ((put _ _ (by decide) (by decide)).trans (put _ _ (by decide) (by decide))).trans (put _ _ (by decide) (by decide))
    have h2 : KeepsCapture n i d d2 := h1.trans (cairn htile d1 p _ _)
    split
    · exact h2
    · split
      · exact h2
      · exact h2.trans (of_eq rfl rfl rfl rfl)

theorem regionFault (d : Device) (m r cause : Nat) : KeepsCapture n i d (d.regionFault m r cause) :=
  (((fenceRegion htile d m r cause).trans (errNoCairn htile _ _ _ _)).trans (irq _ _ _)).trans (raiseHw htile _ _)

end

theorem stateLost (d : Device) (m r : Nat) : KeepsCapture n i d (d.stateLost m r) := by
  unfold Device.stateLost
  split
  · exact refl d
  · split
    · exact refl d
    · exact of_eq rfl rfl rfl rfl

end Device.KeepsCapture

/-- The capture that a tile fault of a strand begins with (R153). -/
def Device.captureFault (d : Device) (n i code st pc : Nat) : Device :=
  let p := Page.tile n i
  (((((d.put p Fld.TILE_FAULT_CODE code).put p Fld.TILE_FAULT_STRAND st).put p Fld.TILE_FAULT_NOSTRAND 0).put p Fld.TILE_FAULT_VALID 1).put p
    Fld.TILE_FAULT_PC_PC pc).put p Fld.TILE_RUN_FAULTED 1

/-- After the capture a tile fault leaves it, the strands and the stores alone, whatever it does to the queues, the region and the holds. -/
theorem Device.KeepsCapture.tileFault {d : Device} {n i : Nat} (hp : d.present (.tile n i) = true)
    (hf : d.flag (.tile n i) Fld.TILE_RUN_FAULTED = false) (code st pc depth : Nat) :
    KeepsCapture n i (d.captureFault n i code st pc) (d.tileFault n i code (some (st, pc, depth))) := by
  have htile := Page.tile_base_lt hp
  unfold Device.tileFault
  extract_lets p
  rw [if_neg (by simp [p, hf])]
  dsimp -zeta only [Option.getD_some]
  extract_lets d1 d2 d3 d4 tile d5 d6 d7 d8
  have h5 : KeepsCapture n i d2 d5 :=
    (((cairn htile d2 p _ _).trans (errNoCairn htile d3 p 16 code)).trans (irq _ p 16)).trans (dropQueues n i d4)
  have h6 : KeepsCapture n i d5 d6 := of_eq rfl rfl rfl rfl
  have h7 : KeepsCapture n i d6 d7 := by
    unfold d7
    split
    · exact refl d6
    · exact put _ _ (by decide) (by decide)
  have h8 : KeepsCapture n i d7 d8 := by
    unfold d8
    split
    · exact stateLost d7 n _
    · exact refl d7
  exact (((h5.trans h6).trans h7).trans h8).trans (regionFault htile d8 n _ code)

theorem Device.fld_captureFault (d : Device) (n i code st pc : Nat) :
    (d.captureFault n i code st pc).fld (.tile n i) Fld.TILE_RUN_FAULTED = 1 ∧
    (d.captureFault n i code st pc).fld (.tile n i) Fld.TILE_FAULT_VALID = 1 ∧
    (d.captureFault n i code st pc).fld (.tile n i) Fld.TILE_FAULT_CODE = code % 2 ^ 16 ∧
    (d.captureFault n i code st pc).fld (.tile n i) Fld.TILE_FAULT_PC_PC = pc % 2 ^ 15 := by
  refine ⟨?_, ?_, ?_, ?_⟩ <;> simp (disch := decide) only [Device.captureFault, Device.fld_put_slot_ne, Device.fld_put_self] <;> rfl

/-- An instruction of a due strand that faults completes with the tile's fault, and the strand stands where it was. -/
theorem done_tileFault {s : State} (hs : s.Canonical) {n i st : Nat} (hissues : s.dev.issues n i = true) {code : Nat} (hcode : code < 2 ^ 16)
    (pc depth : Nat) :
    ∃ t, s.done (s.dev.tileFault n i code (some (st, pc, depth))) = .next t ∧ FaultsWith s t n i st code (pc % 2 ^ 15) := by
  obtain ⟨hp, hf⟩ := Device.live_of_issues hissues
  have hkeep := Device.KeepsCapture.tileFault hp hf code st pc depth
  have hwr : (s.dev.tileFault n i code (some (st, pc, depth))).wr = [] := hkeep.wr.trans hs.2
  have hstrand : (s.dev.tileFault n i code (some (st, pc, depth))).strand n i st = s.dev.strand n i st := hkeep.strand n i st
  obtain ⟨hfaulted, hvalid, hcodeIs, hpc⟩ := s.dev.fld_captureFault n i code st pc
  rw [Nat.mod_eq_of_lt hcode] at hcodeIs
  refine ⟨_, State.done_eq s _, ?_⟩
  rw [Device.setWr_self hwr, hwr]
  exact ⟨(hkeep.fld _ (by decide)).trans hfaulted, (hkeep.fld _ (by decide)).trans hvalid, (hkeep.fld _ (by decide)).trans hcodeIs,
    (hkeep.fld _ (by decide)).trans hpc, congrArg Strand.stack hstrand, congrArg Strand.pc hstrand, fun _ => rfl, rfl⟩

/-! ### Loops (R174, R176) -/

theorem endCheck_cons_ne {last next : Nat} {l : LoopLevel} {ls : List LoopLevel} (h : l.lea ≠ last) :
    endCheck last next (l :: ls) = (l :: ls, next) := by
  simp [endCheck, h]

theorem endCheck_cons_again {last next : Nat} {l : LoopLevel} {ls : List LoopLevel} (h : l.lea = last) (h1 : l.lct ≠ 1) (h0 : l.lct ≠ 0) :
    endCheck last next (l :: ls) = ({ l with lct := l.lct - 1 } :: ls, l.lsa) := by
  have hmore : l.lct - 1 ≠ 0 := by omega
  simp [endCheck, h, hmore]

theorem endCheck_cons_pop {last next : Nat} {l : LoopLevel} {ls : List LoopLevel} (h : l.lea = last) (h1 : l.lct = 1) :
    endCheck last next (l :: ls) = endCheck last next ls := by
  simp [endCheck, h, h1]

namespace Seq

variable {q : Seq} {l : LoopLevel} {ls : List LoopLevel}

/-- Leaving a loop retires with the level popped and the strand gone on past the level's end. -/
theorem finish_lexit_true (h : q.x.loops = l :: ls) (len pops : Nat) : q.finish len (q.lexit pops true) =
    q.retire q.d ({ q.x with stack := q.x.stack.drop pops, loops := ls }.goesOn l.lea (l.lea + 1)) := by
  simp only [Seq.lexit, h]
  rfl

theorem lexit_false (h : q.x.loops = l :: ls) (pops : Nat) : q.lexit pops false = .next q.d { q.x with stack := q.x.stack.drop pops } := by
  simp only [Seq.lexit, h]
  rfl

theorem finish_lexit_nil (h : q.x.loops = []) (len pops : Nat) (c : Bool) :
    q.finish len (q.lexit pops c) = q.d.tileFault q.n q.i 0x0101 (some (q.st, q.x.pc, 0x1F)) := by
  simp only [Seq.lexit, h]
  rfl

end Seq

/-- LEXIT performs its own effect at any depth of the stack. -/
theorem exec_lexit {s : State} {n i st : Nat} (h : s.Due n i st 0x22 0 0) (hroom : (s.dev.strand n i st).stack.length ≤ 16) :
    exec (.lexit n i st) s = s.done ((s.seqOf n i st 0 0).finish 1 ((s.seqOf n i st 0 0).lexit 0 true)) :=
  seqStep_of_due h (f := ⟨1, 0, 0, 0⟩) rfl rfl (by decide) (Nat.zero_le _) hroom _

/-- LEXITNZ performs its own effect where the stack holds its condition. -/
theorem exec_lexitnz {s : State} {n i st : Nat} {a : Cell} {rest : List Cell} (h : s.Due n i st 0x23 0 0)
    (hstack : (s.dev.strand n i st).stack = a :: rest) (hroom : rest.length ≤ 15) :
    exec (.lexitnz n i st) s = s.done ((s.seqOf n i st 0 0).finish 1 ((s.seqOf n i st 0 0).lexit 1 (a != 0))) := by
  have hcond : (s.seqOf n i st 0 0).s 0 = a := by simp [Seq.s, State.seqOf, hstack]
  rw [← hcond]
  exact seqStep_of_due h (f := ⟨1, 0, 1, 0⟩) rfl rfl (by decide) (by simp [hstack]) (by simp only [hstack, List.length_cons]; omega)
    fun q => q.lexit 1 (q.s 0 != 0)

/-- Settles O21: the end check by its equations; a loop that is left retires past its end, and without a level the tile faults. -/
theorem loopEndsAndExits : Obligations.LoopEndsAndExits := by
  intro s n i st a rest l ls hs
  refine ⟨fun last next => ⟨rfl, endCheck_cons_ne, endCheck_cons_again, endCheck_cons_pop⟩,
    fun hloops => ⟨fun hdue hroom => ?_, fun hdue hstack hroom ha => ?_, fun hdue hstack hroom => ?_⟩,
    fun hloops => ⟨fun hdue hroom => ?_, fun hdue hstack hroom => ?_⟩⟩
  · obtain ⟨t, hnext, ht⟩ := done_retire hs n i st 0 0
      ({ s.dev.strand n i st with loops := ls }.goesOn l.lea (l.lea + 1))
    refine ⟨t, ?_, ht⟩
    rw [exec_lexit hdue hroom, Seq.finish_lexit_true hloops]
    exact hnext
  · obtain ⟨t, hnext, ht⟩ := done_retire hs n i st 0 0
      ({ s.dev.strand n i st with stack := rest, loops := ls }.goesOn l.lea (l.lea + 1))
    refine ⟨t, ?_, ht⟩
    rw [exec_lexitnz hdue hstack hroom, bne_iff_ne.mpr ha, Seq.finish_lexit_true hloops, ← hnext]
    simp only [State.seqOf, hstack, List.drop_one, List.tail_cons]
  · obtain ⟨t, hnext, ht⟩ := done_retire hs n i st 0 0
      ({ s.dev.strand n i st with stack := rest }.goesOn ((s.dev.strand n i st).pc + 1 - 1) ((s.dev.strand n i st).pc + 1))
    refine ⟨t, ?_, ht⟩
    rw [exec_lexitnz hdue hstack hroom, bne_self_eq_false, Seq.lexit_false hloops, Seq.finish_next, ← hnext]
    simp only [State.seqOf, hstack, List.drop_one, List.tail_cons, Nat.add_sub_cancel]
  · rw [Completes, exec_lexit hdue hroom, Seq.finish_lexit_nil hloops]
    exact done_tileFault hs hdue.1 (by decide) _ _
  · rw [Completes, exec_lexitnz hdue hstack hroom, Seq.finish_lexit_nil hloops]
    exact done_tileFault hs hdue.1 (by decide) _ _

/-! ### Stores to memory -/

/-- A read after writing bytes: the byte written inside them, else what stood before. -/
theorem Memory.rdByte_wrBytes {m : Memory} (w : m.wf = true) (a : Nat) (bs : List Byte) (q : Nat) :
    (Memory.wrBytes m a bs).rdByte q = if a ≤ q ∧ q < a + bs.length then bs.getD (q - a) 0 else m.rdByte q := by
  induction bs generalizing m a with
  | nil =>
    rw [if_neg (by simp)]
    rfl
  | cons b bs ih =>
    have hhead : (m.wrByte a b).rdByte q = if q = a then b else m.rdByte q := Memory.rdByte_wrByte w a b q
    rw [Memory.wrBytes, ih (Memory.wrByte_wfFrom w a b (Nat.zero_le _)), hhead, List.length_cons]
    by_cases hq : q = a
    · rw [if_neg (by omega), if_pos hq, if_pos (by omega), hq, Nat.sub_self, List.getD_cons_zero]
    · by_cases hin : a + 1 ≤ q ∧ q < a + 1 + bs.length
      · have hsub : q - a = (q - (a + 1)) + 1 := by omega
        rw [if_pos hin, if_pos (by omega), hsub, List.getD_cons_succ]
      · rw [if_neg hin, if_neg hq, if_neg (by omega)]

@[simp] theorem leBytes_length (n x : Nat) : (leBytes n x).length = n := by
  induction n generalizing x with
  | zero => rfl
  | succ n ih => simp [leBytes, ih]

/-- The little-endian bytes of a number hold it modulo 256^n. -/
theorem leNat_leBytes (n x : Nat) : leNat (leBytes n x) = x % 256 ^ n := by
  induction n generalizing x with
  | zero => simp [leBytes, leNat, Nat.mod_one]
  | succ n ih =>
    rw [leBytes, leNat, ih, BitVec.toNat_ofNat, Nat.pow_succ' (m := 256), Nat.mod_mul]

/-- Reading back the bytes of one store. -/
theorem Memory.rd_wrBytes {m : Memory} (w : m.wf = true) (a : Nat) (bs : List Byte) :
    ((List.range bs.length).map fun k => (Memory.wrBytes m a bs).rdByte (a + k)) = bs := by
  refine List.ext_getElem (by simp) fun k hk hk' => ?_
  rw [List.getElem_map, List.getElem_range, Memory.rdByte_wrBytes w, if_pos (by omega), Nat.add_sub_cancel_left]
  rw [List.getD_eq_getElem?_getD, List.getElem?_eq_getElem hk', Option.getD_some]

/-- A command that ends with one store of bytes waiting writes them. -/
theorem State.done_bytes (s : State) {d : Device} {a : Nat} {bs : List Byte} (h : d.wr = [.bytes a bs]) :
    s.done d = .next ⟨d.setWr [], s.mem.wrBytes a bs, s.pending⟩ := by
  rw [State.done_eq, h]
  rfl

/-- With no store waiting a number is read from memory. -/
theorem Device.rdN_setWr_nil (d : Device) (m : Memory) (a n : Nat) :
    (d.setWr []).rdN m a n = leNat ((List.range n).map fun k => m.rdByte (a + k)) := rfl

/-! ### Descriptor patches (R191) -/

/-- The address of word `w` of descriptor `k` of a tile (R142, R156). -/
def descWord (n i k w : Nat) : Nat := tileMem n i + 0x10000 + 64 * k + 4 * w

namespace Seq

variable {q : Seq}

theorem patch_ok (h : (q.s 0).toNat < 512) (words : Nat) : q.patch words =
    .next (q.d.stN (descWord q.n q.i (q.s 0).toNat q.sel) (4 * words) (q.s 1).toNat) { q.x with stack := q.x.stack.drop 2 } :=
  if_neg (Nat.not_le.mpr h)

theorem patch_outside (h : 512 ≤ (q.s 0).toNat) (words : Nat) : q.patch words = .fault q.d 0x0104 q.x.stack.length :=
  if_pos h

end Seq

/-- An instruction that stores one number and retires completes: the number stands in memory, and no other byte has changed. -/
theorem done_retire_stN {s : State} (hs : s.Canonical) (n i st x imm a size v : Nat) (y : Strand) :
    ∃ t, s.done ((s.seqOf n i st x imm).retire (s.dev.stN a size v) y) = .next t ∧
      t.dev.rdN t.mem a size = v % 256 ^ size ∧ KeepsOutside a size s t ∧ TurnEnds s t n i st { y with stall := 0 } := by
  obtain ⟨hwf, hwr⟩ := hs
  have hstores : ((s.seqOf n i st x imm).retire (s.dev.stN a size v) y).wr = [.bytes a (leBytes size v)] :=
    congrArg (Store.bytes a (leBytes size v) :: ·) hwr
  refine ⟨_, s.done_bytes hstores, ?_, ⟨fun q hq => ?_, rfl⟩, turnEnds_of_retire (d := s.dev.stN a size v) rfl rfl y _⟩
  · have hread := Memory.rd_wrBytes hwf a (leBytes size v)
    rw [leBytes_length] at hread
    rw [Device.rdN_setWr_nil, hread, leNat_leBytes]
  · refine (Memory.rdByte_wrBytes hwf a (leBytes size v) q).trans (if_neg ?_)
    rw [leBytes_length]
    omega

section
variable {s : State} {n i st op w words : Nat} {k v : Cell} {rest : List Cell}

/-- An instruction whose effect is to patch `words` words of a descriptor, with an index below 512. -/
theorem completes_patch (hs : s.Canonical) (hdue : s.Due n i st op w 0) (hop : opInfo op = some ⟨1, 0x0F, 2, 0⟩) (hlen : formLen op = 1)
    (hpick : op ≠ 0x07) (hstack : (s.dev.strand n i st).stack = k :: v :: rest) (hroom : rest.length ≤ 14) (hk : k.toNat < 512) :
    ∃ t, seqStep op n i st s (fun q => q.patch words) = .next t ∧
      t.dev.rdN t.mem (descWord n i k.toNat w) (4 * words) = v.toNat % 256 ^ (4 * words) ∧
      KeepsOutside (descWord n i k.toNat w) (4 * words) s t ∧ Retires s t n i st 1 { s.dev.strand n i st with stack := rest } := by
  have hindex : (s.seqOf n i st w 0).s 0 = k := by simp [Seq.s, State.seqOf, hstack]
  have hvalue : (s.seqOf n i st w 0).s 1 = v := by simp [Seq.s, State.seqOf, hstack]
  have hrest : (s.dev.strand n i st).stack.drop 2 = rest := by simp [hstack]
  rw [seqStep_of_due hdue hop hlen hpick (by simp [hstack]) (by simp only [hstack, List.length_cons]; omega),
    Seq.patch_ok (by rwa [hindex]), Seq.finish_next, hindex, hvalue]
  obtain ⟨t, hnext, ht⟩ := done_retire_stN hs n i st w 0 (descWord n i k.toNat w) (4 * words) v.toNat
    ({ s.dev.strand n i st with stack := (s.dev.strand n i st).stack.drop 2 }.goesOn ((s.dev.strand n i st).pc + 1 - 1)
      ((s.dev.strand n i st).pc + 1))
  refine ⟨t, hnext, ?_⟩
  rw [← hrest]
  exact ht

/-- An instruction whose effect is to patch a descriptor faults where there is no descriptor of the index. -/
theorem completes_patch_outside (hs : s.Canonical) (hdue : s.Due n i st op w 0) (hop : opInfo op = some ⟨1, 0x0F, 2, 0⟩) (hlen : formLen op = 1)
    (hpick : op ≠ 0x07) (hstack : (s.dev.strand n i st).stack = k :: v :: rest) (hroom : rest.length ≤ 14) (hk : 512 ≤ k.toNat) :
    ∃ t, seqStep op n i st s (fun q => q.patch words) = .next t ∧ FaultsWith s t n i st 0x0104 ((s.dev.strand n i st).pc % 2 ^ 15) := by
  have hindex : (s.seqOf n i st w 0).s 0 = k := by simp [Seq.s, State.seqOf, hstack]
  rw [seqStep_of_due hdue hop hlen hpick (by simp [hstack]) (by simp only [hstack, List.length_cons]; omega),
    Seq.patch_outside (by rwa [hindex])]
  exact done_tileFault hs hdue.1 (by decide) _ _

end

/-- DPATCHD names an even word (R169). -/
theorem encLegal_dpatchd_odd (j imm : Nat) : encLegal 0x42 (2 * j + 1) imm = false := by
  simp [encLegal, opInfo]

/-- Settles O25: a patch is one store of four or eight bytes to the descriptor table, and an index without a descriptor faults. -/
theorem descriptorPatches : Obligations.DescriptorPatches := by
  intro s n i st w k v rest hs hw
  refine ⟨fun hstack hroom hk => ⟨fun hdue => ?_, fun hdue => ?_⟩, fun hstack hroom hk => ⟨fun hdue => ?_, fun hdue => ?_⟩,
    encLegal_dpatchd_odd⟩
  · exact completes_patch (words := 1) hs hdue rfl rfl (by decide) hstack hroom hk
  · obtain ⟨t, hnext, hread, hrest⟩ := completes_patch (words := 2) hs hdue rfl rfl (by decide) hstack hroom hk
    exact ⟨t, hnext, hread.trans (Nat.mod_eq_of_lt v.isLt), hrest⟩
  · exact completes_patch_outside (words := 1) hs hdue rfl rfl (by decide) hstack hroom hk
  · exact completes_patch_outside (words := 2) hs hdue rfl rfl (by decide) hstack hroom hk

end Sys2Proof.Machine
